-- ==== Sys2Proof/Word.lean ====
section
/-! DEFINITION. The words of the Amras and nothing else (00 R5, R8; 03 R58). -/

namespace Sys2Proof

/-- One byte of memory. -/
abbrev Byte := BitVec 8

/-- An instruction word (04 R81). -/
abbrev Word := BitVec 32

/-- A 64-bit scalar value or address (03 R58). -/
abbrev W64 := BitVec 64

/-- A 2,048-bit vector value (03 R58). -/
abbrev Vec := BitVec 2048

end Sys2Proof
end

