-- ==== Sys2Proof/Syntax.lean ====
section
/-! DEFINITION. The syntax: one constructor per row of spec/opcode_table.json, 224 instructions and 102 events. -/
namespace Sys2Proof

/-- The predication field PR (04 R82): always, on a true predicate, on a false one. -/
inductive Pr where
  | always
  | onTrue
  | onFalse
  deriving DecidableEq, Repr

/-- An operand position of a slot (03 R57). -/
inductive Pos where
  | left
  | right
  | pred
  deriving DecidableEq, Repr

/-- A target field (04 R83): none, or a position of a slot. -/
inductive Target where
  | none
  | to (pos : Pos) (slot : BitVec 7)
  deriving DecidableEq, Repr

/-- The fourteen element types (02 R24), in code order. -/
inductive ElemType where
  | f32 | bf16 | f16 | e4m3 | e5m2 | f6 | f4 | i32 | i16 | i8 | n32 | n16 | n8 | i64
  deriving DecidableEq, Repr

/-- A cause of an uncorrectable soft error (18, "Poison"; 15 R320): what it strikes. -/
inductive ErrorSite where
  | line (loc : Nat)                       -- a stored line, by the location of one of its bytes
  | checkValue (loc : Nat) (flip : BitVec 32)  -- bits of a stored line's check value against its data
  | reg (tile reg : Nat)
  | vreg (tile reg : Nat)
  | accRow (tile acc row : Nat)
  | array (tile arr : Nat)
  | operand (tile slot : Nat)
  | counterBoth (inst idx : Nat)           -- both copies of a live counter (15 R320)
  | renameBoth (inst entry : Nat)          -- both copies of a rename entry
  | counterOne (inst idx : Nat)            -- one copy only: the other rewrites it
  | recordWord (inst idx : Nat)            -- a word of a record in graph memory
  | shared (cluster : Nat)                 -- a shared part of a cluster (17 R365)
  deriving DecidableEq, Repr

/-- A port of the package: a Chrolu port 0-1 or a UALink port 0-15 (19 R394). -/
inductive PortSel where
  | chrolu (p : Nat)
  | ualink (p : Nat)
  deriving DecidableEq, Repr

/-- An end of an SPDM exchange: the device answers as responder on a port, or asks as requester over a UALink port (19 R393). -/
inductive SpdmEnd where
  | answers (port : PortSel)
  | asks (port : Nat)
  deriving DecidableEq, Repr

/-- What the requester of an exchange offers at an end: whether the device's transcript hash, signing, key exchange and AEAD algorithms
are among it (19 R393). -/
structure SpdmOffer where
  side : SpdmEnd
  hash : Bool := true
  sign : Bool := true
  exchange : Bool := true
  aead : Bool := true
  deriving DecidableEq, Repr

/-- What calls for a replay on a virtual channel: a packet arrives stomped or fails authentication, or the other side asks for the
packets from a link sequence number on (18 R386; 19 R396). -/
inductive ReplayOf where
  | arrived (chan : Nat) (unauth : Bool)
  | asked (chan seq : Nat)
  deriving DecidableEq, Repr

/-- A peer's request arriving over UALink, for the memory of a context where it names bank memory: performed by the rules of
its instruction at the point of coherence here (10 R232; 12 R269; 16 R336). Operation codes are those of 10 R208; synchronised
modes 0 READFULL, 1 CONSUME, 2 PEEK, 3 PRODUCE, 4 FILL, 5 CLEAR. [DESIGN CHOICE, log 88] -/
inductive PeerReq where
  | read (ctx : BitVec 32) (len : Nat)
  | write (ctx : BitVec 32) (bytes : List Byte) (pois : Bool)
  | sync (ctx : BitVec 32) (mode : Nat) (vec : Bool) (data : BitVec 1024) (pois : Bool)
  | claim (ctx : BitVec 32)
  | unclaim (ctx : BitVec 32)
  | release (ctx : BitVec 32) (vec : Bool) (data : BitVec 1024)
  | amo (ctx : BitVec 32) (op : BitVec 3) (uns : Bool) (size : Nat) (v : BitVec 64) (pois : Bool)
  | amof (ctx : BitVec 32) (op : BitVec 3) (v : BitVec 32) (pois : Bool)
  | cas (ctx : BitVec 32) (size : Nat) (e n : BitVec 64) (pois : Bool)
  | reduceInt (ctx : BitVec 32) (op : BitVec 3) (uns : Bool) (size : Nat) (v : BitVec 64)
  | reduceF (ctx : BitVec 32) (op : BitVec 3) (v : BitVec 32)
  | reduceLine (ctx : BitVec 32) (op ty : BitVec 3) (data : BitVec 1024) (pois : Bool)
  | redo (ctx : BitVec 32) (v q : BitVec 32)
  | drawm (ctx : BitVec 32) (p : BitVec 64) (u q : BitVec 32)
  | line (ctx : BitVec 32) (op ty : BitVec 3) (data : BitVec 1024) (q : BitVec 32) (pois : Bool)
  | decrement (ctx : BitVec 32) (tag : BitVec 32) (amt : Nat)
  | message (ctx sender : BitVec 32) (mbox : BitVec 8) (words : BitVec 512)
  deriving DecidableEq, Repr

/-- A packet of a peer: its link sequence number on its virtual channel, and its request (18 R386; 19 R397). [DESIGN CHOICE, log 112] -/
structure PeerPacket where
  seq : Nat
  req : PeerReq
  deriving DecidableEq, Repr

/-- A change of a port's configuration (19 R394): lane map, channel protection mode, peer id. -/
inductive PortChange where
  | laneMap (v : Nat)
  | chanMode (chan mode : Nat)
  | peerId (v : Nat)
  deriving DecidableEq, Repr

/-- Every row of the table of operations and events, in the table's order. -/
inductive Instr where
  /-- R89. Assigned opcode 0x00 that raises ILLEGAL_OPCODE when it fires, reported at its slot under R68. -/
  | illegal (p : Pr)
  /-- R103. Sends the value and poison bit of general register g[reg] as they stood at pitch start to its targets. -/
  | readg (r : BitVec 6) (u : Target) (t : Target)
  /-- R105. Sends the value and poison bit of vector register v[reg] as they stood at pitch start to its targets. -/
  | readv (r : BitVec 5) (u : Target) (t : Target)
  /-- R103. Takes a scalar token and writes its value and poison to g[reg] at belay; a null token nullifies the write. -/
  | writeg (r : BitVec 6)
  /-- R105. Takes a vector token and writes its value and poison to v[reg] at belay; a null token nullifies the write. -/
  | writev (r : BitVec 5)
  /-- R119. Forwards its left token unchanged, with its poison, to both targets. -/
  | mov (p : Pr) (u : Target) (t : Target)
  /-- R119. Sends a null token to both targets. -/
  | null (p : Pr) (u : Target) (t : Target)
  /-- R119. Sends the sign-extended 13-bit immediate as a scalar. -/
  | const_ (p : Pr) (imm : BitVec 13) (t : Target)
  /-- R119. Sends (l << 13) OR the unsigned 13-bit immediate, keeping the low 64 bits. -/
  | consth (p : Pr) (imm : BitVec 13) (t : Target)
  /-- R119. Sends its own pitch header address plus the signed immediate times 16. -/
  | pcrel (p : Pr) (imm : BitVec 13) (t : Target)
  /-- R119. Steers the right token to T0 or T1 by the left predicate, sending a null to the other target. -/
  | sel (p : Pr) (u : Target) (t : Target)
  /-- R119. Sends the left token to both targets once the right token has also arrived. -/
  | gate (p : Pr) (u : Target) (t : Target)
  /-- R119. Does nothing. -/
  | nop (p : Pr)
  /-- R120. Exit selecting the pitch at its own header address plus the signed offset times 16 as the next pitch. -/
  | br (p : Pr) (exit : BitVec 3) (off : BitVec 19)
  /-- R120. Exit selecting the pitch whose address is the left operand as the next pitch. -/
  | bri (p : Pr) (exit : BitVec 3)
  /-- R120. Exit like BR that also writes the return pitch address into g63 at belay. -/
  | call_ (p : Pr) (exit : BitVec 3) (off : BitVec 19)
  /-- R120. Exit like BRI that also writes the return pitch address into g63 at belay. -/
  | calli (p : Pr) (exit : BitVec 3)
  /-- R79. Exit that ends the task: at belay the task enters COMMITTING. -/
  | done_ (p : Pr) (exit : BitVec 3)
  /-- R80. Exit that abandons the task: at belay its shadow lines and commit set are discarded and it is KILLED with ABORTED. -/
  | abort (p : Pr) (exit : BitVec 3)
  /-- R121. Marks a TRAP that is taken with code 0x20 after the pitch belays, stalling the task before its next pitch. -/
  | trap (p : Pr) (imm : BitVec 13)
  /-- R121. Marks a BREAK that is taken with code 0x21 after the pitch belays, stalling the task before its next pitch. -/
  | break_ (p : Pr) (imm : BitVec 13)
  /-- R122. Checks the service number when it fires and requests the service, performed after the pitch passes its exhaustion checks, with a status result. -/
  | svc (p : Pr) (imm : BitVec 13) (t : Target)
  /-- R124. Sends a + b, wrapping at 64 bits. -/
  | add (p : Pr) (u : Target) (t : Target)
  /-- R124. Sends a − b, wrapping at 64 bits. -/
  | sub (p : Pr) (u : Target) (t : Target)
  /-- R124. Sends the low 64 bits of a × b. -/
  | mul (p : Pr) (u : Target) (t : Target)
  /-- R124. Sends bits [127:64] of the signed product a × b. -/
  | mulh (p : Pr) (u : Target) (t : Target)
  /-- R124. Sends bits [127:64] of the unsigned product a × b. -/
  | mulhu (p : Pr) (u : Target) (t : Target)
  /-- R125. Sends the signed quotient truncated toward zero, with the stated results for zero divisor and overflow. -/
  | div (p : Pr) (u : Target) (t : Target)
  /-- R125. Sends the unsigned quotient, all ones for a zero divisor. -/
  | divu (p : Pr) (u : Target) (t : Target)
  /-- R125. Sends the signed remainder whose sign follows the dividend. -/
  | rem_ (p : Pr) (u : Target) (t : Target)
  /-- R125. Sends the unsigned remainder, the dividend for a zero divisor. -/
  | remu (p : Pr) (u : Target) (t : Target)
  /-- R124. Sends the bitwise AND of a and b. -/
  | and_ (p : Pr) (u : Target) (t : Target)
  /-- R124. Sends the bitwise OR of a and b. -/
  | or_ (p : Pr) (u : Target) (t : Target)
  /-- R124. Sends the bitwise XOR of a and b. -/
  | xor_ (p : Pr) (u : Target) (t : Target)
  /-- R124. Sends a AND NOT b. -/
  | andn (p : Pr) (u : Target) (t : Target)
  /-- R124. Sends a shifted left by b[5:0]. -/
  | shl (p : Pr) (u : Target) (t : Target)
  /-- R124. Sends a shifted right by b[5:0] with zero fill. -/
  | shr (p : Pr) (u : Target) (t : Target)
  /-- R124. Sends a shifted right by b[5:0] with sign fill. -/
  | sar (p : Pr) (u : Target) (t : Target)
  /-- R124. Sends a rotated right by b[5:0]. -/
  | ror (p : Pr) (u : Target) (t : Target)
  /-- R124. Sends the signed minimum of a and b. -/
  | min_ (p : Pr) (u : Target) (t : Target)
  /-- R124. Sends the signed maximum of a and b. -/
  | max_ (p : Pr) (u : Target) (t : Target)
  /-- R124. Sends the unsigned minimum of a and b. -/
  | minu (p : Pr) (u : Target) (t : Target)
  /-- R124. Sends the unsigned maximum of a and b. -/
  | maxu (p : Pr) (u : Target) (t : Target)
  /-- R126. Sends the absolute value of a, with ABS(−2^63) = −2^63. -/
  | abs_ (p : Pr) (u : Target) (t : Target)
  /-- R126. Sends the number of leading zero bits of a. -/
  | clz (p : Pr) (u : Target) (t : Target)
  /-- R126. Sends the number of trailing zero bits of a. -/
  | ctz (p : Pr) (u : Target) (t : Target)
  /-- R126. Sends the number of set bits of a. -/
  | popc (p : Pr) (u : Target) (t : Target)
  /-- R126. Sends a sign-extended from bit 31, 15 or 7 as the x field selects. -/
  | sext (p : Pr) (x : ElemType) (u : Target) (t : Target)
  /-- R126. Sends a zero-extended from bit 31, 15 or 7 as the x field selects. -/
  | zext (p : Pr) (x : ElemType) (u : Target) (t : Target)
  /-- R126. Sends the bit field of a at position and length given by control word c. -/
  | bfx (p : Pr) (u : Target) (t : Target)
  /-- R126. Ternary: sends a with a bit field replaced by the low bits of b, as control word c gives. -/
  | bfi (u : Target) (t : Target)
  /-- R124. Sends a + (b << 7), the address of line b of a region. -/
  | lea (p : Pr) (u : Target) (t : Target)
  /-- R127. Sends a plus the sign-extended immediate. -/
  | addi (p : Pr) (imm : BitVec 13) (t : Target)
  /-- R127. Sends a AND the sign-extended immediate. -/
  | andi (p : Pr) (imm : BitVec 13) (t : Target)
  /-- R127. Sends a OR the sign-extended immediate. -/
  | ori (p : Pr) (imm : BitVec 13) (t : Target)
  /-- R127. Sends a XOR the sign-extended immediate. -/
  | xori (p : Pr) (imm : BitVec 13) (t : Target)
  /-- R127. Sends a shifted left by the immediate count 0–63. -/
  | shli (p : Pr) (imm : BitVec 13) (t : Target)
  /-- R127. Sends a shifted right with zero fill by the immediate count 0–63. -/
  | shri (p : Pr) (imm : BitVec 13) (t : Target)
  /-- R127. Sends a shifted right with sign fill by the immediate count 0–63. -/
  | sari (p : Pr) (imm : BitVec 13) (t : Target)
  /-- R128. Sends a predicate that is 1 when a equals b. -/
  | teq (p : Pr) (u : Target) (t : Target)
  /-- R128. Sends a predicate that is 1 when a differs from b. -/
  | tne (p : Pr) (u : Target) (t : Target)
  /-- R128. Sends a predicate that is 1 when a < b signed. -/
  | tlt (p : Pr) (u : Target) (t : Target)
  /-- R128. Sends a predicate that is 1 when a ≤ b signed. -/
  | tle (p : Pr) (u : Target) (t : Target)
  /-- R128. Sends a predicate that is 1 when a < b unsigned. -/
  | tltu (p : Pr) (u : Target) (t : Target)
  /-- R128. Sends a predicate that is 1 when a ≤ b unsigned. -/
  | tleu (p : Pr) (u : Target) (t : Target)
  /-- R128. Sends a predicate that is 1 when a equals the sign-extended immediate. -/
  | teqi (p : Pr) (imm : BitVec 13) (t : Target)
  /-- R128. Sends a predicate that is 1 when a differs from the sign-extended immediate. -/
  | tnei (p : Pr) (imm : BitVec 13) (t : Target)
  /-- R128. Sends a predicate that is 1 when a is signed-less than the immediate. -/
  | tlti (p : Pr) (imm : BitVec 13) (t : Target)
  /-- R128. Sends a predicate that is 1 when a is signed-less than or equal to the immediate. -/
  | tlei (p : Pr) (imm : BitVec 13) (t : Target)
  /-- R129. Sends the F32 sum a + b rounded by FRND, raising flags at belay. -/
  | fadd (p : Pr) (u : Target) (t : Target)
  /-- R129. Sends the F32 difference a − b rounded by FRND. -/
  | fsub (p : Pr) (u : Target) (t : Target)
  /-- R129. Sends the F32 product a × b rounded by FRND. -/
  | fmul (p : Pr) (u : Target) (t : Target)
  /-- R129. Ternary: sends a × b + c rounded once by FRND. -/
  | ffma (u : Target) (t : Target)
  /-- R129. Sends the F32 quotient a ÷ b rounded by FRND. -/
  | fdiv (p : Pr) (u : Target) (t : Target)
  /-- R129. Sends the F32 square root of a rounded by FRND. -/
  | fsqrt (p : Pr) (u : Target) (t : Target)
  /-- R130. Sends the F32 minimum, −0 below +0 and NaN operands ignored where possible. -/
  | fmin (p : Pr) (u : Target) (t : Target)
  /-- R130. Sends the F32 maximum, −0 below +0 and NaN operands ignored where possible. -/
  | fmax (p : Pr) (u : Target) (t : Target)
  /-- R129. Sends a with bit 31 cleared. -/
  | fabs (p : Pr) (u : Target) (t : Target)
  /-- R129. Sends a with bit 31 inverted. -/
  | fneg (p : Pr) (u : Target) (t : Target)
  /-- R131. Converts a scalar between the source and destination types of the conversion layout. -/
  | fcvt (p : Pr) (d : ElemType) (src : ElemType) (t : Target)
  /-- R130. Sends a one-hot class mask of the F32 operand. -/
  | fclass (p : Pr) (u : Target) (t : Target)
  /-- R130. Sends a predicate that is 1 when the F32 operands are equal. -/
  | feq (p : Pr) (u : Target) (t : Target)
  /-- R129. Sends a predicate that is 1 when a < b, NV on NaN. -/
  | flt (p : Pr) (u : Target) (t : Target)
  /-- R129. Sends a predicate that is 1 when a ≤ b, NV on NaN. -/
  | fle (p : Pr) (u : Target) (t : Target)
  /-- R129. Sends a rounded to an integral F32 value by FRND. -/
  | frnd (p : Pr) (u : Target) (t : Target)
  /-- R138. Lane-wise a + b in the element type. -/
  | vadd (p : Pr) (x : ElemType) (u : Target) (t : Target)
  /-- R138. Lane-wise a − b in the element type. -/
  | vsub (p : Pr) (x : ElemType) (u : Target) (t : Target)
  /-- R138. Lane-wise a × b in the element type. -/
  | vmul (p : Pr) (x : ElemType) (u : Target) (t : Target)
  /-- R138. Ternary lane-wise a × b + c rounded once. -/
  | vfma (x : ElemType) (u : Target) (t : Target)
  /-- R138. Ternary lane-wise a × b − c rounded once. -/
  | vfms (x : ElemType) (u : Target) (t : Target)
  /-- R138. Lane-wise a ÷ b. -/
  | vdiv (p : Pr) (x : ElemType) (u : Target) (t : Target)
  /-- R138. Lane-wise correctly rounded F32 square root. -/
  | vsqrt (p : Pr) (u : Target) (t : Target)
  /-- R139. Lane-wise minimum with the stated NaN and signed-zero rules. -/
  | vmin (p : Pr) (x : ElemType) (u : Target) (t : Target)
  /-- R139. Lane-wise maximum with the stated NaN and signed-zero rules. -/
  | vmax (p : Pr) (x : ElemType) (u : Target) (t : Target)
  /-- R138. Lane-wise absolute value. -/
  | vabs (p : Pr) (x : ElemType) (u : Target) (t : Target)
  /-- R138. Lane-wise negation. -/
  | vneg (p : Pr) (x : ElemType) (u : Target) (t : Target)
  /-- R138. Lane-wise saturating integer addition. -/
  | vadds (p : Pr) (x : ElemType) (u : Target) (t : Target)
  /-- R138. Lane-wise saturating integer subtraction. -/
  | vsubs (p : Pr) (x : ElemType) (u : Target) (t : Target)
  /-- R138. Lane-wise high half of the exact integer product. -/
  | vmulh (p : Pr) (x : ElemType) (u : Target) (t : Target)
  /-- R138. Lane-wise bitwise AND. -/
  | vand (p : Pr) (x : ElemType) (u : Target) (t : Target)
  /-- R138. Lane-wise bitwise OR. -/
  | vor (p : Pr) (x : ElemType) (u : Target) (t : Target)
  /-- R138. Lane-wise bitwise XOR. -/
  | vxor (p : Pr) (x : ElemType) (u : Target) (t : Target)
  /-- R138. Lane-wise shift left by b mod w. -/
  | vshl (p : Pr) (x : ElemType) (u : Target) (t : Target)
  /-- R138. Lane-wise logical shift right by b mod w. -/
  | vshr (p : Pr) (x : ElemType) (u : Target) (t : Target)
  /-- R138. Lane-wise arithmetic shift right by b mod w. -/
  | vsar (p : Pr) (x : ElemType) (u : Target) (t : Target)
  /-- R138. Lane-wise count of set bits. -/
  | vpopc (p : Pr) (x : ElemType) (u : Target) (t : Target)
  /-- R138. Lane-wise count of leading zero bits. -/
  | vclz (p : Pr) (x : ElemType) (u : Target) (t : Target)
  /-- R138. Ternary lane-wise select of a where c is non-zero, else b. -/
  | vsel (x : ElemType) (u : Target) (t : Target)
  /-- R139. Ternary lane-wise min(max(a, b), c). -/
  | vclamp (x : ElemType) (u : Target) (t : Target)
  /-- R139. Lane-wise all-ones mask where a equals b. -/
  | vceq (p : Pr) (x : ElemType) (u : Target) (t : Target)
  /-- R139. Lane-wise all-ones mask where a < b. -/
  | vclt (p : Pr) (x : ElemType) (u : Target) (t : Target)
  /-- R139. Lane-wise all-ones mask where a ≤ b. -/
  | vcle (p : Pr) (x : ElemType) (u : Target) (t : Target)
  /-- R140. Lane-wise correctly rounded F32 2^x. -/
  | vexp2 (p : Pr) (u : Target) (t : Target)
  /-- R140. Lane-wise correctly rounded F32 log2. -/
  | vlog2 (p : Pr) (u : Target) (t : Target)
  /-- R140. Lane-wise correctly rounded F32 reciprocal. -/
  | vrcp (p : Pr) (u : Target) (t : Target)
  /-- R140. Lane-wise correctly rounded F32 reciprocal square root. -/
  | vrsq (p : Pr) (u : Target) (t : Target)
  /-- R140. Lane-wise correctly rounded F32 tanh. -/
  | vtanh (p : Pr) (u : Target) (t : Target)
  /-- R138. Lane-wise rounding to an integral value by FRND. -/
  | vrnd (p : Pr) (x : ElemType) (u : Target) (t : Target)
  /-- R141. Converts the low lanes of a vector between two types, rounding by FRND. -/
  | vcvtf (p : Pr) (d : ElemType) (src : ElemType) (t : Target)
  /-- R141. Converts floating-point lanes to integer lanes with truncation. -/
  | vcvtt (p : Pr) (d : ElemType) (src : ElemType) (t : Target)
  /-- R142. Packs 64 F32 lanes into scaled F4 codes and block scales by pack_block. -/
  | vpack4 (p : Pr) (u : Target) (t : Target)
  /-- R142. Unpacks scaled F4 codes into 64 F32 lanes. -/
  | vunpk4 (p : Pr) (u : Target) (t : Target)
  /-- R142. Packs 64 F32 lanes into scaled F6 codes and block scales by pack_block. -/
  | vpack6 (p : Pr) (u : Target) (t : Target)
  /-- R142. Unpacks scaled F6 codes into 64 F32 lanes. -/
  | vunpk6 (p : Pr) (u : Target) (t : Target)
  /-- R143. Sets every lane to the lane value of a scalar. -/
  | vbcast (p : Pr) (x : ElemType) (u : Target) (t : Target)
  /-- R143. Shifts lanes up by one and inserts a scalar lane value at lane 0. -/
  | vins (p : Pr) (x : ElemType) (u : Target) (t : Target)
  /-- R143. Extracts lane r mod n as a scalar. -/
  | vext (p : Pr) (x : ElemType) (u : Target) (t : Target)
  /-- R143. Permutes lanes of a by the lane indices of b. -/
  | vshuf (p : Pr) (x : ElemType) (u : Target) (t : Target)
  /-- R143. Rotates lanes of a down by r. -/
  | vrot (p : Pr) (x : ElemType) (u : Target) (t : Target)
  /-- R143. Sets lane i to l + i in an integer type. -/
  | viota (p : Pr) (x : ElemType) (u : Target) (t : Target)
  /-- R144. Reduces all lanes by the fixed pairwise addition tree to a scalar. -/
  | vredsum (p : Pr) (x : ElemType) (u : Target) (t : Target)
  /-- R144. Reduces all lanes to the largest by the VMAX rule. -/
  | vredmax (p : Pr) (x : ElemType) (u : Target) (t : Target)
  /-- R144. Reduces all lanes to the smallest by the VMIN rule. -/
  | vredmin (p : Pr) (x : ElemType) (u : Target) (t : Target)
  /-- R144. Reduces all integer lanes by AND. -/
  | vredand (p : Pr) (x : ElemType) (u : Target) (t : Target)
  /-- R144. Reduces all integer lanes by OR. -/
  | vredor (p : Pr) (x : ElemType) (u : Target) (t : Target)
  /-- R145. Sends the lowest index of the largest non-NaN lane. -/
  | vargmax (p : Pr) (x : ElemType) (u : Target) (t : Target)
  /-- R144. Computes inclusive prefix sums by the fixed tree of R46. -/
  | vscan (p : Pr) (x : ElemType) (u : Target) (t : Target)
  /-- R146. Sends the once-rounded F32 sum of an addend and all lane products. -/
  | vdotf (p : Pr) (x : ElemType) (u : Target) (t : Target)
  /-- R144. Sends the number of lanes with at least one bit set. -/
  | vmaskpop (p : Pr) (x : ElemType) (u : Target) (t : Target)
  /-- R150. Fills 64 lanes with uniforms of the task's stream as N32 or F32 in [0, 1). -/
  | vrand (p : Pr) (x : ElemType) (u : Target) (t : Target)
  /-- R151. Draws one index from weights or logits with one uniform and sends the draw pair. -/
  | vdraw (p : Pr) (x : ElemType) (u : Target) (t : Target)
  /-- R152. Merges two draw pairs with one uniform by draw_merge. -/
  | vdrawm (p : Pr) (u : Target) (t : Target)
  /-- R138. Lane-wise a × 2^b rounded once. -/
  | vldexp (p : Pr) (x : ElemType) (u : Target) (t : Target)
  /-- R143. Interleaves lanes of a and b into two result vectors. -/
  | vzip (p : Pr) (x : ElemType) (u : Target) (t : Target)
  /-- R143. De-interleaves the lanes of a and b into even and odd result vectors. -/
  | vunzip (p : Pr) (x : ElemType) (u : Target) (t : Target)
  /-- R212. Loads one byte sign-extended when it fires. -/
  | ldb (p : Pr) (lsid : BitVec 7) (imm : BitVec 6) (t : Target)
  /-- R212. Loads one byte zero-extended when it fires. -/
  | ldbu (p : Pr) (lsid : BitVec 7) (imm : BitVec 6) (t : Target)
  /-- R212. Loads two bytes sign-extended when it fires. -/
  | ldh (p : Pr) (lsid : BitVec 7) (imm : BitVec 6) (t : Target)
  /-- R212. Loads two bytes zero-extended when it fires. -/
  | ldhu (p : Pr) (lsid : BitVec 7) (imm : BitVec 6) (t : Target)
  /-- R212. Loads four bytes sign-extended when it fires. -/
  | ldw (p : Pr) (lsid : BitVec 7) (imm : BitVec 6) (t : Target)
  /-- R212. Loads four bytes zero-extended when it fires. -/
  | ldwu (p : Pr) (lsid : BitVec 7) (imm : BitVec 6) (t : Target)
  /-- R212. Loads eight bytes when it fires. -/
  | ldd (p : Pr) (lsid : BitVec 7) (imm : BitVec 6) (t : Target)
  /-- R213. Stores one byte at belay into the scratchpad or the task's shadow lines. -/
  | stb (p : Pr) (lsid : BitVec 7) (imm : BitVec 15)
  /-- R213. Stores two bytes at belay into the scratchpad or the task's shadow lines. -/
  | sth (p : Pr) (lsid : BitVec 7) (imm : BitVec 15)
  /-- R213. Stores four bytes at belay into the scratchpad or the task's shadow lines. -/
  | stw (p : Pr) (lsid : BitVec 7) (imm : BitVec 15)
  /-- R213. Stores eight bytes at belay into the scratchpad or the task's shadow lines. -/
  | std (p : Pr) (lsid : BitVec 7) (imm : BitVec 15)
  /-- R212. Loads 256 bytes as a vector when it fires. -/
  | ldv (p : Pr) (lsid : BitVec 7) (imm : BitVec 6) (t : Target)
  /-- R213. Stores a 256-byte vector at belay. -/
  | stv (p : Pr) (lsid : BitVec 7) (imm : BitVec 15)
  /-- R215. Gathers 64 words at base plus four times each signed index as one load. -/
  | ldvx (p : Pr) (lsid : BitVec 7) (t : Target)
  /-- R215. Ternary scatter of 64 words at belay, higher lanes winning on collisions. -/
  | stvx (lsid : BitVec 7) (imm : BitVec 15)
  /-- R216. Immediate-class synchronised 8-byte load in READFULL, CONSUME or PEEK mode. -/
  | sld (p : Pr) (lsid : BitVec 7) (mode : BitVec 3) (t : Target)
  /-- R216. Synchronised 8-byte store in PRODUCE, FILL, FILL.REL, PRODUCE.REL or CLEAR mode. -/
  | sst (p : Pr) (lsid : BitVec 7) (mode : BitVec 3)
  /-- R216. Immediate-class synchronised load of a whole 128-byte line. -/
  | sldv (p : Pr) (lsid : BitVec 7) (mode : BitVec 3) (t : Target)
  /-- R216. Synchronised store of a whole 128-byte line in the modes of SST. -/
  | sstv (p : Pr) (lsid : BitVec 7) (mode : BitVec 3)
  /-- R219. Immediate-class 64-bit atomic read-combine-write returning the old value. -/
  | amoi (p : Pr) (lsid : BitVec 7) (mode : BitVec 3) (un : Bool) (t : Target)
  /-- R219. Immediate-class 32-bit atomic returning the old word sign-extended. -/
  | amow (p : Pr) (lsid : BitVec 7) (mode : BitVec 3) (un : Bool) (t : Target)
  /-- R219. Immediate-class F32 atomic add, min or max rounded by RNE, returning the old value. -/
  | amof (p : Pr) (lsid : BitVec 7) (mode : BitVec 3) (t : Target)
  /-- R220. Immediate-class ternary compare-and-swap of 8 or 4 bytes returning the old value. -/
  | cas (lsid : BitVec 7) (mode : BitVec 3) (t : Target)
  /-- R221. Non-returning 64-bit integer reduction applied at its home bank at commit step 1. -/
  | redi (p : Pr) (lsid : BitVec 7) (mode : BitVec 3) (un : Bool)
  /-- R221. Non-returning 32-bit integer reduction applied at commit step 1. -/
  | redw (p : Pr) (lsid : BitVec 7) (mode : BitVec 3) (un : Bool)
  /-- R221. Non-returning F32 reduction applied at commit step 1 with RNE. -/
  | redf (p : Pr) (lsid : BitVec 7) (mode : BitVec 3)
  /-- R221. Non-returning lane-wise reduction of a 128-byte line applied at commit step 1. -/
  | redb (p : Pr) (lsid : BitVec 7) (mode : BitVec 3) (x3 : BitVec 3)
  /-- R224. Ordered F32 contribution with a sequence number, delivered to an ordered cell at commit step 1. -/
  | redo (p : Pr) (lsid : BitVec 7)
  /-- R224. Ordered draw-pair contribution merged into an ordered cell in sequence order. -/
  | drawm (p : Pr) (lsid : BitVec 7)
  /-- R229. Holds its pitch until the task's earlier copies have performed their reads and in-scope writes. -/
  | fence (p : Pr) (lsid : BitVec 7) (x3 : BitVec 3)
  /-- R230. Joins the commit set and writes a line back from the cache slice at commit step 1. -/
  | flushl (p : Pr) (lsid : BitVec 7) (imm : BitVec 15)
  /-- R231. At belay requests a line into a cache slice of the context; never faults. -/
  | pref (p : Pr) (lsid : BitVec 7) (imm : BitVec 6)
  /-- R237. Issues at belay a linear copy described by a copy descriptor. -/
  | cpy (p : Pr) (lsid : BitVec 7)
  /-- R237. Issues at belay a strided row copy. -/
  | cpys (p : Pr) (lsid : BitVec 7)
  /-- R239. Issues at belay a reducing copy into bank memory, ordered when ORD is set. -/
  | cpyr (p : Pr) (lsid : BitVec 7) (mode : BitVec 3) (x3 : BitVec 3)
  /-- R240. Issues at belay a copy broadcast to the scratchpads of the named tiles of the cluster. -/
  | cpyb (p : Pr) (lsid : BitVec 7)
  /-- R243. Returns progress, pending, stall and skip state of the last copy on a tag. -/
  | cpyq (p : Pr) (lsid : BitVec 7) (t : Target)
  /-- R242. Waits until any masked tag completion bit is set and returns the lowest such index. -/
  | cwaita (p : Pr) (lsid : BitVec 7) (t : Target)
  /-- R242. Waits until all masked tag completion bits are set and returns the mask. -/
  | cwaitl (p : Pr) (lsid : BitVec 7) (t : Target)
  /-- R242. Returns without waiting the lowest set masked tag completion bit, or all ones. -/
  | cfind (p : Pr) (lsid : BitVec 7) (t : Target)
  /-- R242. Clears the masked bits of CTAGS at belay. -/
  | ctclr (p : Pr) (lsid : BitVec 7)
  /-- R244. Waits until an 8-byte word, overlaid with own shadow bytes, is at least a threshold and returns it. -/
  | mwait (p : Pr) (lsid : BitVec 7) (t : Target)
  /-- R252. Reserves a queue place when it fires and enters a packet on an output port at belay. -/
  | spush (p : Pr) (lsid : BitVec 7) (port : BitVec 2)
  /-- R253. Waits for and returns the next packet of an input port, removing it at belay. -/
  | spop (p : Pr) (lsid : BitVec 7) (port : BitVec 2) (t : Target)
  /-- R253. Returns without waiting the packet the next SPOP would take, removing nothing. -/
  | speek (p : Pr) (lsid : BitVec 7) (port : BitVec 2) (t : Target)
  /-- R254. Pushes an end-of-tile or abort marker packet on an output port at belay. -/
  | seos (p : Pr) (lsid : BitVec 7) (mode : BitVec 3) (port : BitVec 2)
  /-- R257. Returns the status of an input or output stream port. -/
  | sstat (p : Pr) (lsid : BitVec 7) (mode : BitVec 3) (port : BitVec 2) (t : Target)
  /-- R166. Issues at belay a load of a weight array from the scratchpad, conditional when COND is set. -/
  | bload (p : Pr) (lsid : BitVec 7) (arr : BitVec 2)
  /-- R167. Issues at belay an exchange of the complete states of two weight arrays. -/
  | bswap (p : Pr) (lsid : BitVec 7) (arr : BitVec 2) (arr2 : BitVec 2)
  /-- R167. Issues at belay a clear of VALID and POIS of a weight array. -/
  | bclr (p : Pr) (lsid : BitVec 7) (arr : BitVec 2)
  /-- R170. Issues at belay a matrix multiply-accumulate of A rows against a weight array into an accumulator. -/
  | mma (p : Pr) (lsid : BitVec 7) (arr : BitVec 2) (acc : BitVec 2)
  /-- R171. Issues at belay a matrix multiply-accumulate reading A transposed. -/
  | mmat (p : Pr) (lsid : BitVec 7) (arr : BitVec 2) (acc : BitVec 2)
  /-- R174. Issues at belay an armed MMA whose rows fire by the full/empty bits. -/
  | mmaa (p : Pr) (lsid : BitVec 7) (arr : BitVec 2) (acc : BitVec 2)
  /-- R176. Issues at belay a clear of an accumulator and its row poison bits. -/
  | accz (p : Pr) (lsid : BitVec 7) (acc : BitVec 2)
  /-- R176. Waits for earlier operations on an accumulator and returns half a row as a vector. -/
  | accrd (p : Pr) (lsid : BitVec 7) (acc : BitVec 2) (t : Target)
  /-- R176. Issues at belay a write of a vector into half an accumulator row. -/
  | accwr (p : Pr) (lsid : BitVec 7) (acc : BitVec 2)
  /-- R177. Issues at belay a converted store of accumulator rows to the scratchpad. -/
  | accst (p : Pr) (lsid : BitVec 7) (acc : BitVec 2)
  /-- R178. Issues at belay the computation of row maxima and exponential sums into a scratchpad table. -/
  | accstat (p : Pr) (lsid : BitVec 7) (acc : BitVec 2)
  /-- R179. Issues at belay a rescale of every accumulator word by table factors, optionally with exp2. -/
  | accscl (p : Pr) (lsid : BitVec 7) (mode : BitVec 3) (acc : BitVec 2)
  /-- R180. Waits for every earlier-issued matrix operation and returns the poison summary. -/
  | msync (p : Pr) (lsid : BitVec 7) (t : Target)
  /-- R325. Adds a decrement to the commit set, sent at publication step 3. -/
  | dec (p : Pr) (lsid : BitVec 7)
  /-- R325. Adds an instance creation from a launch entry to the commit set, performed at step 3. -/
  | spawn (p : Pr) (lsid : BitVec 7)
  /-- R288. Adds a 64-byte message to a mailbox to the commit set, delivered at step 3. -/
  | send (p : Pr) (lsid : BitVec 7)
  /-- R289. Binds a handler template to a mailbox at publication step 3. -/
  | bind_ (p : Pr) (lsid : BitVec 7)
  /-- R289. Unbinds a mailbox at publication step 3. -/
  | unbind (p : Pr) (lsid : BitVec 7)
  /-- R328. Immediate-class join of a record to a rope, creating the rope if absent. -/
  | ropejoin (p : Pr) (lsid : BitVec 7) (t : Target)
  /-- R328. Removes a record from a rope at belay, dissolving an empty rope. -/
  | ropeleave (p : Pr) (lsid : BitVec 7)
  /-- R328. Sends an arrival of the task's own record to its rope at belay. -/
  | ropearr (p : Pr) (lsid : BitVec 7)
  /-- R328. Immediate-class wait until the rope's phase reaches the member's arrival count. -/
  | ropewait (p : Pr) (lsid : BitVec 7) (t : Target)
  /-- R328. Returns the rope's member count and phase when it fires. -/
  | ropesz (p : Pr) (lsid : BitVec 7) (t : Target)
  /-- R132. Returns a control register's value at pitch start, or 0 for a reserved number. -/
  | csrr (p : Pr) (num : BitVec 12) (t : Target)
  /-- R132. Writes a control register at belay in slot order and returns its value at pitch start. -/
  | csrw (p : Pr) (num : BitVec 12) (t : Target)
  /-- R132. Sets bits of a control register at belay and returns its value at pitch start. -/
  | csrs (p : Pr) (num : BitVec 12) (t : Target)
  /-- R132. Clears bits of a control register at belay and returns its value at pitch start. -/
  | csrc (p : Pr) (num : BitVec 12) (t : Target)
  /-- R134. Consumes two uniforms of the task's stream and returns them as one scalar. -/
  | rand (p : Pr) (u : Target) (t : Target)
  /-- R134. Returns the package time base when it fires. -/
  | time_ (p : Pr) (u : Target) (t : Target)
  /-- R134. Returns the poison bit of its operand as an unpoisoned predicate. -/
  | ispois (p : Pr) (u : Target) (t : Target)
  /-- R134. Returns the CRC-32C of each 128-byte half of a vector. -/
  | chkl (p : Pr) (u : Target) (t : Target)
  /-- R134. Returns the time when it fires and records a mark in the mark buffer at belay. -/
  | pmark (p : Pr) (u : Target) (t : Target)
  /-- R74. A tile fetches a pitch, validates it and fires its instructions that have no operand positions. -/
  | pitchFetch (tile : Nat)
  /-- R68. An exhausted pitch is checked for double delivery, faults, exits and unresolved writes, and proceeds to belay or faults. -/
  | pitchExhaustion (tile : Nat)
  /-- R71. The result of an immediate-class access returns, the task may become irrevocable, and the pitch belays. -/
  | immediateAccessComplete (tile : Nat)
  /-- R199. A synchronised access or release claim reaches its home bank and is performed or placed in the retry list. -/
  | syncAccessArrive (tile : Nat)
  /-- R200. A tile re-sends a synchronised access 256 cycles after a busy reply. -/
  | retryListBusyResend (tile : Nat)
  /-- R212. The data of a load, MWAIT examination or replay-table read returns from its point of coherence. -/
  | memoryResponse (tile slot : Nat)
  /-- R206. An uncorrectable soft error poisons the value or line that holds it. -/
  | uncorrectableError (site : ErrorSite)
  /-- R303. CYCLEFT reaches 0: waits are withdrawn and the task is rolled back or stalled with WATCHDOG. -/
  | watchdogExpiry (tile : Nat)
  /-- R73. A withdrawal reaches the agent holding a wait, which performs or removes the entry with a final decision. -/
  | waitWithdrawal (tile : Nat)
  /-- R226. After the commit waits the tile rechecks reductions, release forms and remote entries of the commit set. -/
  | commitChecks (tile : Nat)
  /-- R79. With every check passed and claim granted, the task hands over its shadow lines and commit set and the tile is freed. -/
  | handover (tile : Nat)
  /-- R262. Release writes of a commit are published once step 1 has been performed. -/
  | publicationStep2 (pub k : Nat)
  /-- R262. Decrements, spawns, sends and other graph operations of a commit are delivered once step 2 has been performed. -/
  | publicationStep3 (pub : Nat)
  /-- R293. The last effect of step 3 is performed and the task becomes RETIRED. -/
  | taskRetired (pub : Nat)
  /-- R380. When the twins' digests exist they are compared and the publishing twin commits or a third run is placed. -/
  | twinDigestCompare (inst idx : Nat)
  /-- R324. A decrement reaches its target's dispatcher or the larder and is applied, parked or dropped as a stray. -/
  | decrementApply (k : Nat)
  /-- R296. The fast path scores eligible tiles and places a PENDING task in the chosen tile's placed queue.
reports: the dispatcher only reports the unplaceable records that have become PENDING (R304), and places none. -/
  | placement (die : Nat) (reports : Bool)
  /-- R296. After 256 cycles without an eligible tile on its die the microcode places the task on another die. -/
  | crossDiePlacement (die : Nat)
  /-- R300. The last prefetch copy of a placed task completes and the task becomes RUNNABLE. -/
  | taskRunnable (tile : Nat) (inst idx : Nat)
  /-- R52. A tile takes a RUNNABLE entry of its placed queue, sets CYCLEFT and initial state, and fetches the entry pitch. -/
  | taskStart (tile : Nat)
  /-- R234. A streamer translates the next element of a copy and issues it. -/
  | copyElementTranslate (copy : Nat)
  /-- R234. A copy element's destination write or combine is performed and progress advances; before, the data of its source
  returns. The element is named by its place among those under way. -/
  | copyElementComplete (copy entry : Nat)
  /-- R244. After every payload element completes the copy's stamp is written. -/
  | copyStampWrite (copy : Nat)
  /-- R234. A copy completes and its tag's completion bit is set. -/
  | copyComplete (copy : Nat)
  /-- R221. A non-returning reduction is applied at its home bank in one atomic step. -/
  | reductionApply (pub k : Nat)
  /-- R225. An ordered contribution reaches its cell's bank and is applied, held or discarded by sequence number. -/
  | orderedContributionArrive (k : Nat)
  /-- R225. A sender re-sends an ordered contribution 256 cycles after a busy reply. -/
  | orderedBusyResend (k : Nat)
  /-- R255. A packet reaches an input port and is queued, discarded as duplicate, or rejected on a check failure. -/
  | streamPacketArrive (tile port : Nat) (good : Bool)
  /-- R255. An acknowledgement reaches an output port and releases the packet from its unacknowledged count. -/
  | streamAcknowledge (tile port : Nat)
  /-- R255. A source asked to re-send re-sends its packets from the requested sequence number. -/
  | streamResendRequest (tile port : Nat)
  /-- R162. An issued matrix operation starts in issue order once it holds its resources. -/
  | matrixOpStart (tile : Nat)
  /-- R162. A matrix operation completes and releases its array, accumulator and compute path. -/
  | matrixOpComplete (tile k : Nat)
  /-- R175. An armed MMA row fires when its A lines are full and output lines empty, computing and writing its output row. -/
  | armedMmaRow (tile k : Nat)
  /-- R278. A held fault record is written once the ring has room. -/
  | faultRecordHeldWrite (ctx : BitVec 32)
  /-- R273. Dispatcher microcode examines enabled rings every 256 cycles. -/
  | ringPoll (ctx : BitVec 32) (queue : Nat)
  /-- R273. A Chrolu notification for a launch queue makes the device examine the ring within 64 cycles. -/
  | launchNotify (ctx : BitVec 32) (queue : Nat)
  /-- R318. An instance is created once under its K bound, with rename table, counters and parked decrements applied. -/
  | instanceCreate (k : Nat)
  /-- R283. A message reaches its mailbox and is accepted with the next MSEQ or held. -/
  | messageAccept (k : Nat)
  /-- R283. A mailbox with a bound handler and room delivers its oldest message by creating a handler instance. -/
  | handlerDelivery (ctx : BitVec 32) (mbox : Nat)
  /-- R284. A back-pressured SEND that has waited 2^20 cycles raises MAILBOX_OVERFLOW. -/
  | mailboxOverflow (k : Nat)
  /-- R328. A member's arrival reaches the rope's die and advances its arrival count. -/
  | ropeArrival (k : Nat)
  /-- R123. The LOG service appends an entry to the context's log ring. -/
  | svcLog (tile : Nat)
  /-- R344. The TLBINV service starts an invalidation of cached translations. -/
  | svcTlbinv (tile : Nat)
  /-- R372. The RESUME service applies RETRY, ABANDON, KILL or CONTINUE to a stalled record. -/
  | svcResume (tile : Nat)
  /-- R349. The MIGRATE service copies a page to a new frame and remaps it atomically. -/
  | svcMigrate (tile : Nat)
  /-- R345. An invalidation completes once no dropped entry remains and affected accesses are done. -/
  | invalidationComplete (k : Nat)
  /-- R341. A page walk reads node entries and ends with a leaf or a translation fault. -/
  | translationWalk (tile : Nat) (ctx : BitVec 32) (va : BitVec 64)
  /-- R312. Every 4,096 cycles a wave sums the context's counts and may declare it quiescent. -/
  | quiescenceWave (ctx : BitVec 32)
  /-- R358. At the end of each 2^20-cycle interval wear accrues to the tile and is charged to contexts. -/
  | wearIntervalEnd (tile : Nat)
  /-- R357. Every 2^26 cycles the ageing monitors of a tile are sampled into margin and acceleration. -/
  | monitorSample (tile : Nat) (bti : List Nat) (rates : List Nat)
  /-- R363. A tile DRAINED for 2^30 cycles without RESTORE retires. -/
  | drainedTimeout (tile : Nat)
  /-- R383. A cluster's in-field scan test starts at an idle window or after the 2^32-cycle deadline. -/
  | infieldTestStart (cluster : Nat)
  /-- R383. A 2^22-cycle in-field test ends with pass or failure of tiles or shared parts. -/
  | infieldTestResult (cluster : Nat) (failed : BitVec 16) (shared : Bool)
  /-- R366. A cluster retires once its tasks are gone, then a spare replaces it or the package shrinks. -/
  | clusterRetire (cluster : Nat) (spareFailed : BitVec 16)
  /-- R369. The signed lifetime record is written at least every 2^32 cycles. -/
  | lifetimeRecordWrite
  /-- R309. A drain completes when no task of another context runs on its clusters. -/
  | drainComplete (k : Nat)
  /-- R197. A belay or packet removal waiting for a spill-region place proceeds once one frees. -/
  | spillPlaceFreed (tile : Nat)
  /-- R22. A cluster's junction crossing 100, 95 or 105 °C lowers, restores or stops its clock. -/
  | thermalThreshold (cluster : Nat) (celsius : Nat)
  /-- R410. Each 1 ms window cluster clocks are lowered to keep average module power under the cap. -/
  | powerCapWindow (watts : Nat) (lowered : List Nat)
  /-- R410. A cluster idle with empty queues for 2^16 cycles is clock-gated. -/
  | clusterClockGate (cluster : Nat)
  /-- R389. Host command creating a context from a context descriptor. -/
  | ctxCreate (port session : Nat)
  /-- R391. Host command destroying a context and all its tasks, instances and keys. -/
  | ctxDestroy (port session : Nat)
  /-- R387. Host command rewriting a context's weight, tile quota and wear quota. -/
  | ctxSet (port session : Nat)
  /-- R388. Host command assigning cache and bank-memory slices and the spill region. -/
  | sliceAssign (port session : Nat)
  /-- R387. Host command registering or removing a QCB of a context. -/
  | qcbSet (port session : Nat)
  /-- R345. Host command invalidating translations with the TLBINV control word. -/
  | hostTlbinv (port session : Nat)
  /-- R309. Host command issuing a drain of clusters for a context. -/
  | drainFor (port session : Nat)
  /-- R363. Host command requesting a DRAINED tile's return to DERATED. -/
  | restore (port session : Nat) (margin : Nat)
  /-- R353. Host command registering a die's trace control block. -/
  | traceSet (port session : Nat)
  /-- R343. Host command registering or removing a page-table region. -/
  | tableRegion (port session : Nat)
  /-- R356. Host command copying a die's counter window to a host buffer. -/
  | counterRead (port session : Nat)
  /-- R395. Host command attaching the package to a pod and verifying peer capability records. -/
  | podAttach (port session : Nat)
  /-- R401. Host command producing a signed attestation report. -/
  | attest (port session : Nat)
  /-- R388. A host read of device memory through a Chrolu port by host address. -/
  | hostRead (port session : Nat) (addr : BitVec 64) (len : Nat)
  /-- R392. A host write of device memory through a Chrolu port, performed in port arrival order. -/
  | hostWrite (port session : Nat) (addr : BitVec 64) (bytes : List Byte)
  /-- R269. A peer's request arriving over UALink is performed at its point of coherence. -/
  | peerAccess (port : Nat) (addr : BitVec 64) (packet : PeerPacket)
  /-- R393. SPDM request for supported versions. -/
  | getVersion (side : SpdmEnd)
  /-- R393. SPDM request for capabilities. -/
  | getCapabilities (side : SpdmEnd)
  /-- R393. SPDM request negotiating algorithms. -/
  | negotiateAlgorithms (offer : SpdmOffer)
  /-- R393. SPDM request for certificate digests. -/
  | getDigests (side : SpdmEnd)
  /-- R393. SPDM request for a certificate chain. -/
  | getCertificate (side : SpdmEnd)
  /-- R393. SPDM challenge authentication request. -/
  | challenge (side : SpdmEnd) (nonce : BitVec 256)
  /-- R401. SPDM request producing a signed measurement report. -/
  | getMeasurements (side : SpdmEnd) (nonce : BitVec 256)
  /-- R393. SPDM ECDHE key exchange opening a session. -/
  | keyExchange (side : SpdmEnd)
  /-- R393. SPDM FINISH completing session establishment. -/
  | finish (side : SpdmEnd) (session : Nat) (good : Bool)
  /-- R393. SPDM session key update; a failure puts locked ports in ERROR. -/
  | keyUpdate (side : SpdmEnd) (session : Nat) (good : Bool)
  /-- R393. SPDM session end; ports locked by it enter ERROR. -/
  | endSession (side : SpdmEnd) (session : Nat)
  /-- R394. Moves a port from CONFIG_UNLOCKED to CONFIG_LOCKED within a session. -/
  | lockPort (port : PortSel) (session : Nat)
  /-- R394. Moves a locked port to RUN, refused while channel protection modes are illegal. -/
  | startPort (port : PortSel) (session : Nat)
  /-- R394. Returns a port in ERROR to CONFIG_UNLOCKED. -/
  | stopPort (port : PortSel)
  /-- R394. A change to a locked or running port's configuration puts it in ERROR and destroys its keys. -/
  | portConfigChange (port : PortSel) (change : PortChange)
  /-- R386. A stomped or unauthenticated packet is discarded and replayed from the sender's retry buffer. -/
  | linkReplay (port : PortSel) (what : ReplayOf) (failed : Bool)
  /-- R386. A link whose replay fails three times is reset and its held packets replayed. -/
  | linkReset (port : PortSel)
  /-- R403. Supplies reporting good start the package reset sequence. -/
  | supplyGood
  /-- R403. A management reset command starts the package reset sequence. -/
  | managementReset
  /-- R407. A management command loads a new verified dispatcher microcode image while running. -/
  | microcodeLoad (version : Nat) (digest : BitVec 256) (weights : Option (BitVec 128)) (good : Bool)
  /-- R408. A signed debug token moves the package from PRODUCTION to DEBUG_UNLOCKED, destroying contexts and keys. -/
  | debugToken (good : Bool)
  /-- R409. Management command stopping every clock of a debug-unlocked package at gating points. -/
  | freeze
  /-- R409. A low level on FRZ_N for 4 reference cycles freezes a debug-unlocked package. -/
  | frzNAssert (cycles : Nat)
  /-- R410. The host sets the module power cap through the management controller. -/
  | powerCapSet (watts : Nat)
  /-- R369. Loss of supply stops the package; wear accrued since the last completed lifetime-record write is lost, and an interrupted record write leaves the other copy intact. -/
  | powerFailure
  /-- R324. The destination's answer for a decrement whose target context does not exist there reaches the sending die, which counts the stray and writes STRAY_MESSAGE to the sender's context. -/
  | strayDecrementAnswer (k : Nat)
  deriving DecidableEq, Repr

end Sys2Proof
end

