-- ==== Sys2Proof/WellFormed.lean ====
section
/-! DEFINITION. Check 4 of pitch validation on one instruction (03 R74; 04 R84-R86, R90): which field values are legal. -/

namespace Sys2Proof

/-- The type set FP: codes 0-2 (07 R137). -/
def ElemType.isFp : ElemType → Bool
  | .f32 | .bf16 | .f16 => true
  | .e4m3 | .e5m2 | .f6 | .f4 | .i32 | .i16 | .i8 | .n32 | .n16 | .n8 | .i64 => false

/-- The type set INT: codes 7-13 (07 R137). -/
def ElemType.isInt : ElemType → Bool
  | .i32 | .i16 | .i8 | .n32 | .n16 | .n8 | .i64 => true
  | .f32 | .bf16 | .f16 | .e4m3 | .e5m2 | .f6 | .f4 => false

/-- The type set NUM: FP and INT (07 R137). -/
def ElemType.isNum (x : ElemType) : Bool := x.isFp || x.isInt

/-- The type set ALL: NUM with E4M3 and E5M2 (07 R137). -/
def ElemType.isAll (x : ElemType) : Bool := x.isNum || x == .e4m3 || x == .e5m2

/-- A floating-point type of the set ALL. -/
def ElemType.isFloat (x : ElemType) : Bool := x.isFp || x == .e4m3 || x == .e5m2

/-- The types FCVT accepts (06 R131). -/
def ElemType.isCvt (x : ElemType) : Bool := x.isFloat || x == .i32 || x == .n32 || x == .i64

/-- The types VDOTF accepts (07 R146). -/
def ElemType.isDot (x : ElemType) : Bool := x.isFloat || x == .i8

/-- The element type of the x3 field of REDB and CPYR (10 R208). -/
def redType (x3 : BitVec 3) : ElemType :=
  match x3.toNat with
  | 0 => .f32 | 1 => .bf16 | 2 => .f16 | 3 => .i32 | 4 => .n32 | 5 => .i16 | 6 => .n16 | _ => .i64

/-- The operations of AMOI, AMOW, with unsigned compare only for min and max (10 R208). -/
def amoMode (mode : BitVec 3) (un : Bool) : Bool := mode.toNat ≤ 6 && (!un || 5 ≤ mode.toNat)

/-- The operations of REDI, REDW: those of AMOI without SWAP (10 R208). -/
def redMode (mode : BitVec 3) (un : Bool) : Bool := amoMode mode un && mode != 1

/-- The operations of AMOF, REDF: add, min, max (10 R208). -/
def fltMode (mode : BitVec 3) : Bool := mode == 0 || mode == 5 || mode == 6

/-- The operations and element types of REDB and CPYR (10 R208; 11 R237). -/
def lineMode (mode x3 : BitVec 3) : Bool :=
  redMode mode false && (!(redType x3).isFp || fltMode mode)

/-- Whether the fields of an instruction are legal (03 R74, check 4). An event carries no encoding. -/
def Instr.wf : Instr → Bool
  | .sext _ x _ _ => x == .i32 || x == .i16 || x == .i8
  | .zext _ x _ _ => x == .n32 || x == .n16 || x == .n8
  | .shli _ imm _ | .shri _ imm _ | .sari _ imm _ => imm.toNat < 64
  | .fcvt _ d src _ => d.isCvt && src.isCvt && (d.isFloat || src.isFloat) && d != src
  | .vcvtf _ d src _ => d.isAll && src.isAll && d != src
  | .vcvtt _ d src _ => d.isInt && src.isFloat
  | .vadd _ x _ _ | .vsub _ x _ _ | .vmul _ x _ _ | .vmin _ x _ _ | .vmax _ x _ _ | .vabs _ x _ _ | .vneg _ x _ _
  | .vclamp x _ _ | .vceq _ x _ _ | .vclt _ x _ _ | .vcle _ x _ _ | .vredsum _ x _ _ | .vredmax _ x _ _
  | .vredmin _ x _ _ | .vargmax _ x _ _ | .vscan _ x _ _ => x.isNum
  | .vfma x _ _ | .vfms x _ _ | .vdiv _ x _ _ | .vrnd _ x _ _ | .vldexp _ x _ _ => x.isFp
  | .vadds _ x _ _ | .vsubs _ x _ _ | .vmulh _ x _ _ | .vand _ x _ _ | .vor _ x _ _ | .vxor _ x _ _ | .vshl _ x _ _
  | .vshr _ x _ _ | .vsar _ x _ _ | .vpopc _ x _ _ | .vclz _ x _ _ | .viota _ x _ _ | .vredand _ x _ _
  | .vredor _ x _ _ => x.isInt
  | .vsel x _ _ | .vbcast _ x _ _ | .vins _ x _ _ | .vext _ x _ _ | .vshuf _ x _ _ | .vrot _ x _ _ | .vmaskpop _ x _ _
  | .vzip _ x _ _ | .vunzip _ x _ _ => x.isAll
  | .vdotf _ x _ _ => x.isDot
  | .vrand _ x _ _ => x == .n32 || x == .f32
  | .vdraw _ x _ _ => x == .f32 || x == .bf16
  | .sld _ _ mode _ => mode.toNat ≤ 2
  | .sldv _ _ mode _ => mode.toNat ≤ 1
  | .sst _ _ mode | .sstv _ _ mode => mode.toNat ≤ 4
  | .amoi _ _ mode un _ | .amow _ _ mode un _ => amoMode mode un
  | .redi _ _ mode un | .redw _ _ mode un => redMode mode un
  | .amof _ _ mode _ | .redf _ _ mode => fltMode mode
  | .redb _ _ mode x3 | .cpyr _ _ mode x3 => lineMode mode x3
  | .cas _ mode _ => mode.toNat ≤ 1
  | .fence _ _ x3 => x3.toNat ≤ 4
  | .seos _ _ mode _ | .sstat _ _ mode _ _ | .accscl _ _ mode _ => mode.toNat ≤ 1
  | _ => true

end Sys2Proof
end

