-- ==== Sys2Proof/Decode.lean ====
section
/-! DEFINITION. The decoder and the encoder of instruction words (04 R81-R90). -/

namespace Sys2Proof

/-! ## Field codes -/

/-- The two bits of PR (04 R82). -/
def Pr.code : Pr → BitVec 2
  | .always => 0
  | .onTrue => 1
  | .onFalse => 2

/-- PR from its bits; 11 is illegal (04 R82). -/
def prOf (b : BitVec 2) : Option Pr :=
  match b.toNat with
  | 0 => some .always
  | 1 => some .onTrue
  | 2 => some .onFalse
  | _ => none

/-- The two position bits of a target (04 R83). -/
def Pos.code : Pos → BitVec 2
  | .left => 1
  | .right => 2
  | .pred => 3

/-- The nine bits of a target (04 R83). -/
def Target.code : Target → BitVec 9
  | .none => 0
  | .to pos slot => pos.code ++ slot

/-- A target from its bits; position 00 with slot bits is illegal (04 R83). -/
def targetOf (b : BitVec 9) : Option Target :=
  let slot := b.extractLsb' 0 7
  match (b.extractLsb' 7 2).toNat with
  | 0 => if slot = 0 then some .none else none
  | 1 => some (.to .left slot)
  | 2 => some (.to .right slot)
  | _ => some (.to .pred slot)

/-- The four bits of an element type (02 R24). -/
def ElemType.code : ElemType → BitVec 4
  | .f32 => 0 | .bf16 => 1 | .f16 => 2 | .e4m3 => 3 | .e5m2 => 4 | .f6 => 5 | .f4 => 6
  | .i32 => 7 | .i16 => 8 | .i8 => 9 | .n32 => 10 | .n16 => 11 | .n8 => 12 | .i64 => 13

/-- An element type from its code; 14 and 15 are illegal (02 R24). -/
def typeOf (b : BitVec 4) : Option ElemType :=
  match b.toNat with
  | 0 => some .f32 | 1 => some .bf16 | 2 => some .f16 | 3 => some .e4m3 | 4 => some .e5m2 | 5 => some .f6 | 6 => some .f4
  | 7 => some .i32 | 8 => some .i16 | 9 => some .i8 | 10 => some .n32 | 11 => some .n16 | 12 => some .n8 | 13 => some .i64
  | _ => none

/-! ## Reading the formats (04 R81) -/

def fOp (w : Word) : BitVec 8 := w.extractLsb' 24 8
def fPr (w : Word) : Option Pr := prOf (w.extractLsb' 22 2)
def fX (w : Word) : BitVec 4 := w.extractLsb' 18 4
def fT1 (w : Word) : Option Target := targetOf (w.extractLsb' 9 9)
def fT0 (w : Word) : Option Target := targetOf (w.extractLsb' 0 9)
def fLsid (w : Word) : BitVec 7 := w.extractLsb' 15 7
def fMode (w : Word) : BitVec 3 := w.extractLsb' 12 3
def fX3 (w : Word) : BitVec 3 := w.extractLsb' 9 3
def fExit (w : Word) : BitVec 3 := w.extractLsb' 19 3
def fImm13 (w : Word) : BitVec 13 := w.extractLsb' 9 13

/-- `some a` when the condition holds. -/
def when (b : Bool) (a : Option Instr) : Option Instr := if b then a else none

/-- Format G with x of a fixed code, predication and two targets. -/
def unGF (x : BitVec 4) (k : Pr → Target → Target → Instr) (w : Word) : Option Instr :=
  match fPr w, fT1 w, fT0 w with
  | some p, some u, some t => when (fX w == x) (some (k p u t))
  | _, _, _ => none

def unG (k : Pr → Target → Target → Instr) (w : Word) : Option Instr := unGF 0 k w

/-- Format G with an element type. -/
def unGX (k : Pr → ElemType → Target → Target → Instr) (w : Word) : Option Instr :=
  match fPr w, typeOf (fX w), fT1 w, fT0 w with
  | some p, some x, some u, some t => some (k p x u t)
  | _, _, _, _ => none

/-- Ternary format G (04 R82). -/
def unGT (k : Target → Target → Instr) (w : Word) : Option Instr :=
  match fPr w, fT1 w, fT0 w with
  | some .always, some u, some t => when (fX w == 0) (some (k u t))
  | _, _, _ => none

/-- Ternary format G with an element type. -/
def unGTX (k : ElemType → Target → Target → Instr) (w : Word) : Option Instr :=
  match fPr w, typeOf (fX w), fT1 w, fT0 w with
  | some .always, some x, some u, some t => some (k x u t)
  | _, _, _, _ => none

/-- Format G without a result: the targets are zero (04 R83). -/
def unG0 (k : Pr → Instr) (w : Word) : Option Instr :=
  match fPr w with
  | some p => when (w.extractLsb' 0 22 == 0) (some (k p))
  | none => none

/-- Format G exits: exit id in [21:19] (04 R85). -/
def unGExit (k : Pr → BitVec 3 → Instr) (w : Word) : Option Instr :=
  match fPr w with
  | some p => when (w.extractLsb' 0 19 == 0) (some (k p (fExit w)))
  | none => none

/-- The conversion layout (04 R85). -/
def unGConv (k : Pr → ElemType → ElemType → Target → Instr) (w : Word) : Option Instr :=
  match fPr w, typeOf (fX w), typeOf (w.extractLsb' 9 4), fT0 w with
  | some p, some d, some s, some t => when (w.extractLsb' 13 5 == 0) (some (k p d s t))
  | _, _, _, _ => none

/-- Format I. -/
def unI (k : Pr → BitVec 13 → Target → Instr) (w : Word) : Option Instr :=
  match fPr w, fT0 w with
  | some p, some t => some (k p (fImm13 w) t)
  | _, _ => none

/-- Format I without a result. -/
def unICode (k : Pr → BitVec 13 → Instr) (w : Word) : Option Instr :=
  match fPr w with
  | some p => when (w.extractLsb' 0 9 == 0) (some (k p (fImm13 w)))
  | none => none

/-- Format I of the control-register forms: imm13[12] zero (04 R84). -/
def unICsr (k : Pr → BitVec 12 → Target → Instr) (w : Word) : Option Instr :=
  match fPr w, fT0 w with
  | some p, some t => when (w.extractLsb' 21 1 == 0) (some (k p (w.extractLsb' 9 12) t))
  | _, _ => none

/-- Format R, registers 0-63. -/
def unR6 (k : BitVec 6 → Target → Target → Instr) (w : Word) : Option Instr :=
  match fT1 w, fT0 w with
  | some u, some t => some (k (w.extractLsb' 18 6) u t)
  | _, _ => none

/-- Format R, registers 0-31: reg[5] zero (04 R84). -/
def unR5 (k : BitVec 5 → Target → Target → Instr) (w : Word) : Option Instr :=
  match fT1 w, fT0 w with
  | some u, some t => when (w.extractLsb' 23 1 == 0) (some (k (w.extractLsb' 18 5) u t))
  | _, _ => none

/-- Format W, registers 0-63. -/
def unW6 (k : BitVec 6 → Instr) (w : Word) : Option Instr :=
  when (w.extractLsb' 0 18 == 0) (some (k (w.extractLsb' 18 6)))

/-- Format W, registers 0-31. -/
def unW5 (k : BitVec 5 → Instr) (w : Word) : Option Instr :=
  when (w.extractLsb' 23 1 == 0 && w.extractLsb' 0 18 == 0) (some (k (w.extractLsb' 18 5)))

/-- Format E. -/
def unE (k : Pr → BitVec 3 → BitVec 19 → Instr) (w : Word) : Option Instr :=
  match fPr w with
  | some p => some (k p (fExit w) (w.extractLsb' 0 19))
  | none => none

/-- DONE: off19 zero (04 R84). -/
def unEDone (k : Pr → BitVec 3 → Instr) (w : Word) : Option Instr := unGExit k w

/-- Format L with a result. -/
def unL (k : Pr → BitVec 7 → BitVec 6 → Target → Instr) (w : Word) : Option Instr :=
  match fPr w, fT0 w with
  | some p, some t => some (k p (fLsid w) (w.extractLsb' 9 6) t)
  | _, _ => none

/-- Format L without a result. -/
def unL0 (k : Pr → BitVec 7 → BitVec 6 → Instr) (w : Word) : Option Instr :=
  match fPr w with
  | some p => when (w.extractLsb' 0 9 == 0) (some (k p (fLsid w) (w.extractLsb' 9 6)))
  | none => none

/-- LDVX: imm6 zero (04 R84). -/
def unLX (k : Pr → BitVec 7 → Target → Instr) (w : Word) : Option Instr :=
  match fPr w, fT0 w with
  | some p, some t => when (w.extractLsb' 9 6 == 0) (some (k p (fLsid w) t))
  | _, _ => none

/-- Format S. -/
def unS (k : Pr → BitVec 7 → BitVec 15 → Instr) (w : Word) : Option Instr :=
  match fPr w with
  | some p => some (k p (fLsid w) (w.extractLsb' 0 15))
  | none => none

/-- Ternary format S. -/
def unST (k : BitVec 7 → BitVec 15 → Instr) (w : Word) : Option Instr :=
  match fPr w with
  | some .always => some (k (fLsid w) (w.extractLsb' 0 15))
  | _ => none

/-- Format A with all its fields: predication, LSID, mode, x3, target. -/
def unAll (k : Pr → BitVec 7 → BitVec 3 → BitVec 3 → Target → Option Instr) (w : Word) : Option Instr :=
  match fPr w, fT0 w with
  | some p, some t => k p (fLsid w) (fMode w) (fX3 w) t
  | _, _ => none

def unAT (k : Pr → BitVec 7 → Target → Instr) (w : Word) : Option Instr :=
  unAll (fun p l m x t => when (m == 0 && x == 0) (some (k p l t))) w
def unA (k : Pr → BitVec 7 → Instr) (w : Word) : Option Instr :=
  unAll (fun p l m x t => when (m == 0 && x == 0 && t == .none) (some (k p l))) w
def unAMT (k : Pr → BitVec 7 → BitVec 3 → Target → Instr) (w : Word) : Option Instr :=
  unAll (fun p l m x t => when (x == 0) (some (k p l m t))) w
def unAM (k : Pr → BitVec 7 → BitVec 3 → Instr) (w : Word) : Option Instr :=
  unAll (fun p l m x t => when (x == 0 && t == .none) (some (k p l m))) w
def unAMUT (k : Pr → BitVec 7 → BitVec 3 → Bool → Target → Instr) (w : Word) : Option Instr :=
  unAll (fun p l m x t => when (x.extractLsb' 1 2 == 0) (some (k p l m (x.getLsbD 0) t))) w
def unAMU (k : Pr → BitVec 7 → BitVec 3 → Bool → Instr) (w : Word) : Option Instr :=
  unAll (fun p l m x t => when (x.extractLsb' 1 2 == 0 && t == .none) (some (k p l m (x.getLsbD 0)))) w
def unATern (k : BitVec 7 → BitVec 3 → Target → Instr) (w : Word) : Option Instr :=
  unAll (fun p l m x t => when (p == .always && x == 0) (some (k l m t))) w
def unAMX (k : Pr → BitVec 7 → BitVec 3 → BitVec 3 → Instr) (w : Word) : Option Instr :=
  unAll (fun p l m x t => when (t == .none) (some (k p l m x))) w
def unAX (k : Pr → BitVec 7 → BitVec 3 → Instr) (w : Word) : Option Instr :=
  unAll (fun p l m x t => when (m == 0 && t == .none) (some (k p l x))) w
/-- A two-bit number in x3[1:0]: a port or an accumulator. -/
def unAN (k : Pr → BitVec 7 → BitVec 2 → Instr) (w : Word) : Option Instr :=
  unAll (fun p l m x t => when (m == 0 && x.extractLsb' 2 1 == 0 && t == .none) (some (k p l (x.extractLsb' 0 2)))) w
def unANT (k : Pr → BitVec 7 → BitVec 2 → Target → Instr) (w : Word) : Option Instr :=
  unAll (fun p l m x t => when (m == 0 && x.extractLsb' 2 1 == 0) (some (k p l (x.extractLsb' 0 2) t))) w
def unAMN (k : Pr → BitVec 7 → BitVec 3 → BitVec 2 → Instr) (w : Word) : Option Instr :=
  unAll (fun p l m x t => when (x.extractLsb' 2 1 == 0 && t == .none) (some (k p l m (x.extractLsb' 0 2)))) w
def unAMNT (k : Pr → BitVec 7 → BitVec 3 → BitVec 2 → Target → Instr) (w : Word) : Option Instr :=
  unAll (fun p l m x t => when (x.extractLsb' 2 1 == 0) (some (k p l m (x.extractLsb' 0 2) t))) w
/-- An array number in mode[1:0]. -/
def unAR (k : Pr → BitVec 7 → BitVec 2 → Instr) (w : Word) : Option Instr :=
  unAll (fun p l m x t => when (m.extractLsb' 2 1 == 0 && x == 0 && t == .none) (some (k p l (m.extractLsb' 0 2)))) w
def unARR (k : Pr → BitVec 7 → BitVec 2 → BitVec 2 → Instr) (w : Word) : Option Instr :=
  unAll (fun p l m x t => when (m.extractLsb' 2 1 == 0 && x.extractLsb' 2 1 == 0 && t == .none)
    (some (k p l (m.extractLsb' 0 2) (x.extractLsb' 0 2)))) w

/-! ## The opcode map -/

/-- Row 0x0 of the opcode map (04 R87). -/
def decodeRow0 (w : Word) : Nat → Option (Option Instr)
  | 0x0 => some (unG0 .illegal w)
  | 0x1 => some (unR6 .readg w)
  | 0x2 => some (unR5 .readv w)
  | 0x3 => some (unW6 .writeg w)
  | 0x4 => some (unW5 .writev w)
  | 0x5 => some (unG .mov w)
  | 0x6 => some (unG .null w)
  | 0x7 => some (unI .const_ w)
  | 0x8 => some (unI .consth w)
  | 0x9 => some (unI .pcrel w)
  | 0xA => some (unG .sel w)
  | 0xB => some (unG .gate w)
  | 0xC => some (unG0 .nop w)
  | _ => none

/-- Row 0x1 of the opcode map (04 R87). -/
def decodeRow1 (w : Word) : Nat → Option (Option Instr)
  | 0x0 => some (unE .br w)
  | 0x1 => some (unGExit .bri w)
  | 0x2 => some (unE .call_ w)
  | 0x3 => some (unGExit .calli w)
  | 0x4 => some (unEDone .done_ w)
  | 0x5 => some (unGExit .abort w)
  | 0x6 => some (unICode .trap w)
  | 0x7 => some (unICode .break_ w)
  | 0x8 => some (unI .svc w)
  | _ => none

/-- Row 0x2 of the opcode map (04 R87). -/
def decodeRow2 (w : Word) : Nat → Option (Option Instr)
  | 0x0 => some (unG .add w)
  | 0x1 => some (unG .sub w)
  | 0x2 => some (unG .mul w)
  | 0x3 => some (unG .mulh w)
  | 0x4 => some (unG .mulhu w)
  | 0x5 => some (unG .div w)
  | 0x6 => some (unG .divu w)
  | 0x7 => some (unG .rem_ w)
  | 0x8 => some (unG .remu w)
  | 0x9 => some (unG .and_ w)
  | 0xA => some (unG .or_ w)
  | 0xB => some (unG .xor_ w)
  | 0xC => some (unG .andn w)
  | 0xD => some (unG .shl w)
  | 0xE => some (unG .shr w)
  | _ => some (unG .sar w)

/-- Row 0x3 of the opcode map (04 R87). -/
def decodeRow3 (w : Word) : Nat → Option (Option Instr)
  | 0x0 => some (unG .ror w)
  | 0x1 => some (unG .min_ w)
  | 0x2 => some (unG .max_ w)
  | 0x3 => some (unG .minu w)
  | 0x4 => some (unG .maxu w)
  | 0x5 => some (unG .abs_ w)
  | 0x6 => some (unG .clz w)
  | 0x7 => some (unG .ctz w)
  | 0x8 => some (unG .popc w)
  | 0x9 => some (unGX .sext w)
  | 0xA => some (unGX .zext w)
  | 0xB => some (unG .bfx w)
  | 0xC => some (unGT .bfi w)
  | 0xD => some (unG .lea w)
  | 0xE => some (unI .addi w)
  | _ => some (unI .andi w)

/-- Row 0x4 of the opcode map (04 R87). -/
def decodeRow4 (w : Word) : Nat → Option (Option Instr)
  | 0x0 => some (unI .ori w)
  | 0x1 => some (unI .xori w)
  | 0x2 => some (unI .shli w)
  | 0x3 => some (unI .shri w)
  | 0x4 => some (unI .sari w)
  | 0x5 => some (unG .teq w)
  | 0x6 => some (unG .tne w)
  | 0x7 => some (unG .tlt w)
  | 0x8 => some (unG .tle w)
  | 0x9 => some (unG .tltu w)
  | 0xA => some (unG .tleu w)
  | 0xB => some (unI .teqi w)
  | 0xC => some (unI .tnei w)
  | 0xD => some (unI .tlti w)
  | 0xE => some (unI .tlei w)
  | _ => none

/-- Row 0x5 of the opcode map (04 R87). -/
def decodeRow5 (w : Word) : Nat → Option (Option Instr)
  | 0x0 => some (unG .fadd w)
  | 0x1 => some (unG .fsub w)
  | 0x2 => some (unG .fmul w)
  | 0x3 => some (unGT .ffma w)
  | 0x4 => some (unG .fdiv w)
  | 0x5 => some (unG .fsqrt w)
  | 0x6 => some (unG .fmin w)
  | 0x7 => some (unG .fmax w)
  | 0x8 => some (unG .fabs w)
  | 0x9 => some (unG .fneg w)
  | 0xA => some (unGConv .fcvt w)
  | 0xB => some (unG .fclass w)
  | 0xC => some (unG .feq w)
  | 0xD => some (unG .flt w)
  | 0xE => some (unG .fle w)
  | _ => some (unG .frnd w)

/-- Row 0x6 of the opcode map (04 R87). -/
def decodeRow6 (w : Word) : Nat → Option (Option Instr)
  | 0x0 => some (unGX .vadd w)
  | 0x1 => some (unGX .vsub w)
  | 0x2 => some (unGX .vmul w)
  | 0x3 => some (unGTX .vfma w)
  | 0x4 => some (unGTX .vfms w)
  | 0x5 => some (unGX .vdiv w)
  | 0x6 => some (unG .vsqrt w)
  | 0x7 => some (unGX .vmin w)
  | 0x8 => some (unGX .vmax w)
  | 0x9 => some (unGX .vabs w)
  | 0xA => some (unGX .vneg w)
  | 0xB => some (unGX .vadds w)
  | 0xC => some (unGX .vsubs w)
  | 0xD => some (unGX .vmulh w)
  | 0xE => some (unGX .vand w)
  | _ => some (unGX .vor w)

/-- Row 0x7 of the opcode map (04 R87). -/
def decodeRow7 (w : Word) : Nat → Option (Option Instr)
  | 0x0 => some (unGX .vxor w)
  | 0x1 => some (unGX .vshl w)
  | 0x2 => some (unGX .vshr w)
  | 0x3 => some (unGX .vsar w)
  | 0x4 => some (unGX .vpopc w)
  | 0x5 => some (unGX .vclz w)
  | 0x6 => some (unGTX .vsel w)
  | 0x7 => some (unGTX .vclamp w)
  | 0x8 => some (unGX .vceq w)
  | 0x9 => some (unGX .vclt w)
  | 0xA => some (unGX .vcle w)
  | 0xB => some (unG .vexp2 w)
  | 0xC => some (unG .vlog2 w)
  | 0xD => some (unG .vrcp w)
  | 0xE => some (unG .vrsq w)
  | _ => some (unG .vtanh w)

/-- Row 0x8 of the opcode map (04 R87). -/
def decodeRow8 (w : Word) : Nat → Option (Option Instr)
  | 0x0 => some (unGX .vrnd w)
  | 0x1 => some (unGConv .vcvtf w)
  | 0x2 => some (unGConv .vcvtt w)
  | 0x3 => some (unGF 6 .vpack4 w)
  | 0x4 => some (unGF 6 .vunpk4 w)
  | 0x5 => some (unGF 5 .vpack6 w)
  | 0x6 => some (unGF 5 .vunpk6 w)
  | 0x7 => some (unGX .vbcast w)
  | 0x8 => some (unGX .vins w)
  | 0x9 => some (unGX .vext w)
  | 0xA => some (unGX .vshuf w)
  | 0xB => some (unGX .vrot w)
  | 0xC => some (unGX .viota w)
  | 0xD => some (unGX .vredsum w)
  | 0xE => some (unGX .vredmax w)
  | _ => some (unGX .vredmin w)

/-- Row 0x9 of the opcode map (04 R87). -/
def decodeRow9 (w : Word) : Nat → Option (Option Instr)
  | 0x0 => some (unGX .vredand w)
  | 0x1 => some (unGX .vredor w)
  | 0x2 => some (unGX .vargmax w)
  | 0x3 => some (unGX .vscan w)
  | 0x4 => some (unGX .vdotf w)
  | 0x5 => some (unGX .vmaskpop w)
  | 0x6 => some (unGX .vrand w)
  | 0x7 => some (unGX .vdraw w)
  | 0x8 => some (unG .vdrawm w)
  | 0x9 => some (unGX .vldexp w)
  | 0xA => some (unGX .vzip w)
  | 0xB => some (unGX .vunzip w)
  | _ => none

/-- Row 0xA of the opcode map (04 R87). -/
def decodeRowA (w : Word) : Nat → Option (Option Instr)
  | 0x0 => some (unL .ldb w)
  | 0x1 => some (unL .ldbu w)
  | 0x2 => some (unL .ldh w)
  | 0x3 => some (unL .ldhu w)
  | 0x4 => some (unL .ldw w)
  | 0x5 => some (unL .ldwu w)
  | 0x6 => some (unL .ldd w)
  | 0x7 => some (unS .stb w)
  | 0x8 => some (unS .sth w)
  | 0x9 => some (unS .stw w)
  | 0xA => some (unS .std w)
  | 0xB => some (unL .ldv w)
  | 0xC => some (unS .stv w)
  | 0xD => some (unLX .ldvx w)
  | 0xE => some (unST .stvx w)
  | _ => some (unAMT .sld w)

/-- Row 0xB of the opcode map (04 R87). -/
def decodeRowB (w : Word) : Nat → Option (Option Instr)
  | 0x0 => some (unAM .sst w)
  | 0x1 => some (unAMT .sldv w)
  | 0x2 => some (unAM .sstv w)
  | 0x3 => some (unAMUT .amoi w)
  | 0x4 => some (unAMUT .amow w)
  | 0x5 => some (unAMT .amof w)
  | 0x6 => some (unATern .cas w)
  | 0x7 => some (unAMU .redi w)
  | 0x8 => some (unAMU .redw w)
  | 0x9 => some (unAM .redf w)
  | 0xA => some (unAMX .redb w)
  | 0xB => some (unA .redo w)
  | 0xC => some (unA .drawm w)
  | 0xD => some (unAX .fence w)
  | 0xE => some (unS .flushl w)
  | _ => some (unL0 .pref w)

/-- Row 0xC of the opcode map (04 R87). -/
def decodeRowC (w : Word) : Nat → Option (Option Instr)
  | 0x0 => some (unA .cpy w)
  | 0x1 => some (unA .cpys w)
  | 0x2 => some (unAMX .cpyr w)
  | 0x3 => some (unA .cpyb w)
  | 0x4 => some (unAT .cpyq w)
  | 0x5 => some (unAT .cwaita w)
  | 0x6 => some (unAT .cwaitl w)
  | 0x7 => some (unAT .cfind w)
  | 0x8 => some (unA .ctclr w)
  | 0x9 => some (unAT .mwait w)
  | 0xA => some (unAN .spush w)
  | 0xB => some (unANT .spop w)
  | 0xC => some (unANT .speek w)
  | 0xD => some (unAMN .seos w)
  | 0xE => some (unAMNT .sstat w)
  | _ => none

/-- Row 0xD of the opcode map (04 R87). -/
def decodeRowD (w : Word) : Nat → Option (Option Instr)
  | 0x0 => some (unAR .bload w)
  | 0x1 => some (unARR .bswap w)
  | 0x2 => some (unAR .bclr w)
  | 0x3 => some (unARR .mma w)
  | 0x4 => some (unARR .mmat w)
  | 0x5 => some (unARR .mmaa w)
  | 0x6 => some (unAN .accz w)
  | 0x7 => some (unANT .accrd w)
  | 0x8 => some (unAN .accwr w)
  | 0x9 => some (unAN .accst w)
  | 0xA => some (unAN .accstat w)
  | 0xB => some (unAMN .accscl w)
  | 0xC => some (unAT .msync w)
  | _ => none

/-- Row 0xE of the opcode map (04 R87). -/
def decodeRowE (w : Word) : Nat → Option (Option Instr)
  | 0x0 => some (unA .dec w)
  | 0x1 => some (unA .spawn w)
  | 0x2 => some (unA .send w)
  | 0x3 => some (unA .bind_ w)
  | 0x4 => some (unA .unbind w)
  | 0x5 => some (unAT .ropejoin w)
  | 0x6 => some (unA .ropeleave w)
  | 0x7 => some (unA .ropearr w)
  | 0x8 => some (unAT .ropewait w)
  | 0x9 => some (unAT .ropesz w)
  | _ => none

/-- Row 0xF of the opcode map (04 R87). -/
def decodeRowF (w : Word) : Nat → Option (Option Instr)
  | 0x0 => some (unICsr .csrr w)
  | 0x1 => some (unICsr .csrw w)
  | 0x2 => some (unICsr .csrs w)
  | 0x3 => some (unICsr .csrc w)
  | 0x4 => some (unG .rand w)
  | 0x5 => some (unG .time_ w)
  | 0x6 => some (unG .ispois w)
  | 0x7 => some (unG .chkl w)
  | 0x8 => some (unG .pmark w)
  | _ => none

/-- The instruction of an assigned opcode, `some none` when its fields are illegal; `none` for a reserved opcode. -/
def decodeOp (w : Word) : Option (Option Instr) :=
  let lo := (w.extractLsb' 24 4).toNat
  match (w.extractLsb' 28 4).toNat with
  | 0x0 => decodeRow0 w lo
  | 0x1 => decodeRow1 w lo
  | 0x2 => decodeRow2 w lo
  | 0x3 => decodeRow3 w lo
  | 0x4 => decodeRow4 w lo
  | 0x5 => decodeRow5 w lo
  | 0x6 => decodeRow6 w lo
  | 0x7 => decodeRow7 w lo
  | 0x8 => decodeRow8 w lo
  | 0x9 => decodeRow9 w lo
  | 0xA => decodeRowA w lo
  | 0xB => decodeRowB w lo
  | 0xC => decodeRowC w lo
  | 0xD => decodeRowD w lo
  | 0xE => decodeRowE w lo
  | _ => decodeRowF w lo

/-- Why a word is no instruction (04 R90). -/
inductive DecodeError where
  /-- reserved opcode: check 3 of validation -/
  | illegalOpcode
  /-- an illegal field: check 4 of validation -/
  | illegalEncoding
  deriving DecidableEq, Repr

/-- The decoder: total on every word, rejecting by name (04 R87, R90). -/
def decode (w : Word) : Except DecodeError Instr :=
  match decodeOp w with
  | none => .error .illegalOpcode
  | some none => .error .illegalEncoding
  | some (some i) => if i.wf then .ok i else .error .illegalEncoding

/-- The instruction the decoder reads from the low 32 bits of w; every row of the table is one 32-bit word. -/
def decodeTableWord (nbits w : Nat) : Option Instr :=
  if nbits = 32 then
    match decode (BitVec.ofNat 32 w) with
    | .ok i => some i
    | .error _ => none
  else none

/-! ## The encoder (04 R81, R88) -/

def packG (op : BitVec 8) (p : Pr) (x : BitVec 4) (u t : Target) : Word := op ++ p.code ++ x ++ u.code ++ t.code
def packC (op : BitVec 8) (p : Pr) (d s : ElemType) (t : Target) : Word :=
  op ++ p.code ++ d.code ++ 0#5 ++ s.code ++ t.code
def packI (op : BitVec 8) (p : Pr) (i : BitVec 13) (t : Target) : Word := op ++ p.code ++ i ++ t.code
def packL (op : BitVec 8) (p : Pr) (l : BitVec 7) (i : BitVec 6) (t : Target) : Word := op ++ p.code ++ l ++ i ++ t.code
def packS (op : BitVec 8) (p : Pr) (l : BitVec 7) (i : BitVec 15) : Word := op ++ p.code ++ l ++ i
def packA (op : BitVec 8) (p : Pr) (l : BitVec 7) (m x : BitVec 3) (t : Target) : Word :=
  op ++ p.code ++ l ++ m ++ x ++ t.code
def packE (op : BitVec 8) (p : Pr) (e : BitVec 3) (o : BitVec 19) : Word := op ++ p.code ++ e ++ o
def packR (op : BitVec 8) (r : BitVec 6) (u t : Target) : Word := op ++ r ++ u.code ++ t.code
def packW (op : BitVec 8) (r : BitVec 6) : Word := op ++ r ++ 0#18

/-- The word of an instruction; an event has none. -/
def encode : Instr → Option Word
  | .illegal p => some (packG 0x00 p 0 .none .none)
  | .readg r u t => some (packR 0x01 r u t)
  | .readv r u t => some (packR 0x02 (0#1 ++ r) u t)
  | .writeg r => some (packW 0x03 r)
  | .writev r => some (packW 0x04 (0#1 ++ r))
  | .mov p u t => some (packG 0x05 p 0 u t)
  | .null p u t => some (packG 0x06 p 0 u t)
  | .const_ p i t => some (packI 0x07 p i t)
  | .consth p i t => some (packI 0x08 p i t)
  | .pcrel p i t => some (packI 0x09 p i t)
  | .sel p u t => some (packG 0x0A p 0 u t)
  | .gate p u t => some (packG 0x0B p 0 u t)
  | .nop p => some (packG 0x0C p 0 .none .none)
  | .br p e off => some (packE 0x10 p e off)
  | .bri p e => some (packG 0x11 p (e ++ 0#1) .none .none)
  | .call_ p e off => some (packE 0x12 p e off)
  | .calli p e => some (packG 0x13 p (e ++ 0#1) .none .none)
  | .done_ p e => some (packE 0x14 p e 0)
  | .abort p e => some (packG 0x15 p (e ++ 0#1) .none .none)
  | .trap p i => some (packI 0x16 p i .none)
  | .break_ p i => some (packI 0x17 p i .none)
  | .svc p i t => some (packI 0x18 p i t)
  | .add p u t => some (packG 0x20 p 0 u t)
  | .sub p u t => some (packG 0x21 p 0 u t)
  | .mul p u t => some (packG 0x22 p 0 u t)
  | .mulh p u t => some (packG 0x23 p 0 u t)
  | .mulhu p u t => some (packG 0x24 p 0 u t)
  | .div p u t => some (packG 0x25 p 0 u t)
  | .divu p u t => some (packG 0x26 p 0 u t)
  | .rem_ p u t => some (packG 0x27 p 0 u t)
  | .remu p u t => some (packG 0x28 p 0 u t)
  | .and_ p u t => some (packG 0x29 p 0 u t)
  | .or_ p u t => some (packG 0x2A p 0 u t)
  | .xor_ p u t => some (packG 0x2B p 0 u t)
  | .andn p u t => some (packG 0x2C p 0 u t)
  | .shl p u t => some (packG 0x2D p 0 u t)
  | .shr p u t => some (packG 0x2E p 0 u t)
  | .sar p u t => some (packG 0x2F p 0 u t)
  | .ror p u t => some (packG 0x30 p 0 u t)
  | .min_ p u t => some (packG 0x31 p 0 u t)
  | .max_ p u t => some (packG 0x32 p 0 u t)
  | .minu p u t => some (packG 0x33 p 0 u t)
  | .maxu p u t => some (packG 0x34 p 0 u t)
  | .abs_ p u t => some (packG 0x35 p 0 u t)
  | .clz p u t => some (packG 0x36 p 0 u t)
  | .ctz p u t => some (packG 0x37 p 0 u t)
  | .popc p u t => some (packG 0x38 p 0 u t)
  | .sext p x u t => some (packG 0x39 p x.code u t)
  | .zext p x u t => some (packG 0x3A p x.code u t)
  | .bfx p u t => some (packG 0x3B p 0 u t)
  | .bfi u t => some (packG 0x3C .always 0 u t)
  | .lea p u t => some (packG 0x3D p 0 u t)
  | .addi p i t => some (packI 0x3E p i t)
  | .andi p i t => some (packI 0x3F p i t)
  | .ori p i t => some (packI 0x40 p i t)
  | .xori p i t => some (packI 0x41 p i t)
  | .shli p i t => some (packI 0x42 p i t)
  | .shri p i t => some (packI 0x43 p i t)
  | .sari p i t => some (packI 0x44 p i t)
  | .teq p u t => some (packG 0x45 p 0 u t)
  | .tne p u t => some (packG 0x46 p 0 u t)
  | .tlt p u t => some (packG 0x47 p 0 u t)
  | .tle p u t => some (packG 0x48 p 0 u t)
  | .tltu p u t => some (packG 0x49 p 0 u t)
  | .tleu p u t => some (packG 0x4A p 0 u t)
  | .teqi p i t => some (packI 0x4B p i t)
  | .tnei p i t => some (packI 0x4C p i t)
  | .tlti p i t => some (packI 0x4D p i t)
  | .tlei p i t => some (packI 0x4E p i t)
  | .fadd p u t => some (packG 0x50 p 0 u t)
  | .fsub p u t => some (packG 0x51 p 0 u t)
  | .fmul p u t => some (packG 0x52 p 0 u t)
  | .ffma u t => some (packG 0x53 .always 0 u t)
  | .fdiv p u t => some (packG 0x54 p 0 u t)
  | .fsqrt p u t => some (packG 0x55 p 0 u t)
  | .fmin p u t => some (packG 0x56 p 0 u t)
  | .fmax p u t => some (packG 0x57 p 0 u t)
  | .fabs p u t => some (packG 0x58 p 0 u t)
  | .fneg p u t => some (packG 0x59 p 0 u t)
  | .fcvt p d s t => some (packC 0x5A p d s t)
  | .fclass p u t => some (packG 0x5B p 0 u t)
  | .feq p u t => some (packG 0x5C p 0 u t)
  | .flt p u t => some (packG 0x5D p 0 u t)
  | .fle p u t => some (packG 0x5E p 0 u t)
  | .frnd p u t => some (packG 0x5F p 0 u t)
  | .vadd p x u t => some (packG 0x60 p x.code u t)
  | .vsub p x u t => some (packG 0x61 p x.code u t)
  | .vmul p x u t => some (packG 0x62 p x.code u t)
  | .vfma x u t => some (packG 0x63 .always x.code u t)
  | .vfms x u t => some (packG 0x64 .always x.code u t)
  | .vdiv p x u t => some (packG 0x65 p x.code u t)
  | .vsqrt p u t => some (packG 0x66 p 0 u t)
  | .vmin p x u t => some (packG 0x67 p x.code u t)
  | .vmax p x u t => some (packG 0x68 p x.code u t)
  | .vabs p x u t => some (packG 0x69 p x.code u t)
  | .vneg p x u t => some (packG 0x6A p x.code u t)
  | .vadds p x u t => some (packG 0x6B p x.code u t)
  | .vsubs p x u t => some (packG 0x6C p x.code u t)
  | .vmulh p x u t => some (packG 0x6D p x.code u t)
  | .vand p x u t => some (packG 0x6E p x.code u t)
  | .vor p x u t => some (packG 0x6F p x.code u t)
  | .vxor p x u t => some (packG 0x70 p x.code u t)
  | .vshl p x u t => some (packG 0x71 p x.code u t)
  | .vshr p x u t => some (packG 0x72 p x.code u t)
  | .vsar p x u t => some (packG 0x73 p x.code u t)
  | .vpopc p x u t => some (packG 0x74 p x.code u t)
  | .vclz p x u t => some (packG 0x75 p x.code u t)
  | .vsel x u t => some (packG 0x76 .always x.code u t)
  | .vclamp x u t => some (packG 0x77 .always x.code u t)
  | .vceq p x u t => some (packG 0x78 p x.code u t)
  | .vclt p x u t => some (packG 0x79 p x.code u t)
  | .vcle p x u t => some (packG 0x7A p x.code u t)
  | .vexp2 p u t => some (packG 0x7B p 0 u t)
  | .vlog2 p u t => some (packG 0x7C p 0 u t)
  | .vrcp p u t => some (packG 0x7D p 0 u t)
  | .vrsq p u t => some (packG 0x7E p 0 u t)
  | .vtanh p u t => some (packG 0x7F p 0 u t)
  | .vrnd p x u t => some (packG 0x80 p x.code u t)
  | .vcvtf p d s t => some (packC 0x81 p d s t)
  | .vcvtt p d s t => some (packC 0x82 p d s t)
  | .vpack4 p u t => some (packG 0x83 p 6 u t)
  | .vunpk4 p u t => some (packG 0x84 p 6 u t)
  | .vpack6 p u t => some (packG 0x85 p 5 u t)
  | .vunpk6 p u t => some (packG 0x86 p 5 u t)
  | .vbcast p x u t => some (packG 0x87 p x.code u t)
  | .vins p x u t => some (packG 0x88 p x.code u t)
  | .vext p x u t => some (packG 0x89 p x.code u t)
  | .vshuf p x u t => some (packG 0x8A p x.code u t)
  | .vrot p x u t => some (packG 0x8B p x.code u t)
  | .viota p x u t => some (packG 0x8C p x.code u t)
  | .vredsum p x u t => some (packG 0x8D p x.code u t)
  | .vredmax p x u t => some (packG 0x8E p x.code u t)
  | .vredmin p x u t => some (packG 0x8F p x.code u t)
  | .vredand p x u t => some (packG 0x90 p x.code u t)
  | .vredor p x u t => some (packG 0x91 p x.code u t)
  | .vargmax p x u t => some (packG 0x92 p x.code u t)
  | .vscan p x u t => some (packG 0x93 p x.code u t)
  | .vdotf p x u t => some (packG 0x94 p x.code u t)
  | .vmaskpop p x u t => some (packG 0x95 p x.code u t)
  | .vrand p x u t => some (packG 0x96 p x.code u t)
  | .vdraw p x u t => some (packG 0x97 p x.code u t)
  | .vdrawm p u t => some (packG 0x98 p 0 u t)
  | .vldexp p x u t => some (packG 0x99 p x.code u t)
  | .vzip p x u t => some (packG 0x9A p x.code u t)
  | .vunzip p x u t => some (packG 0x9B p x.code u t)
  | .ldb p l i t => some (packL 0xA0 p l i t)
  | .ldbu p l i t => some (packL 0xA1 p l i t)
  | .ldh p l i t => some (packL 0xA2 p l i t)
  | .ldhu p l i t => some (packL 0xA3 p l i t)
  | .ldw p l i t => some (packL 0xA4 p l i t)
  | .ldwu p l i t => some (packL 0xA5 p l i t)
  | .ldd p l i t => some (packL 0xA6 p l i t)
  | .stb p l i => some (packS 0xA7 p l i)
  | .sth p l i => some (packS 0xA8 p l i)
  | .stw p l i => some (packS 0xA9 p l i)
  | .std p l i => some (packS 0xAA p l i)
  | .ldv p l i t => some (packL 0xAB p l i t)
  | .stv p l i => some (packS 0xAC p l i)
  | .ldvx p l t => some (packL 0xAD p l 0 t)
  | .stvx l i => some (packS 0xAE .always l i)
  | .sld p l m t => some (packA 0xAF p l m 0 t)
  | .sst p l m => some (packA 0xB0 p l m 0 .none)
  | .sldv p l m t => some (packA 0xB1 p l m 0 t)
  | .sstv p l m => some (packA 0xB2 p l m 0 .none)
  | .amoi p l m b t => some (packA 0xB3 p l m (0#2 ++ BitVec.ofBool b) t)
  | .amow p l m b t => some (packA 0xB4 p l m (0#2 ++ BitVec.ofBool b) t)
  | .amof p l m t => some (packA 0xB5 p l m 0 t)
  | .cas l m t => some (packA 0xB6 .always l m 0 t)
  | .redi p l m b => some (packA 0xB7 p l m (0#2 ++ BitVec.ofBool b) .none)
  | .redw p l m b => some (packA 0xB8 p l m (0#2 ++ BitVec.ofBool b) .none)
  | .redf p l m => some (packA 0xB9 p l m 0 .none)
  | .redb p l m x => some (packA 0xBA p l m x .none)
  | .redo p l => some (packA 0xBB p l 0 0 .none)
  | .drawm p l => some (packA 0xBC p l 0 0 .none)
  | .fence p l x => some (packA 0xBD p l 0 x .none)
  | .flushl p l i => some (packS 0xBE p l i)
  | .pref p l i => some (packL 0xBF p l i .none)
  | .cpy p l => some (packA 0xC0 p l 0 0 .none)
  | .cpys p l => some (packA 0xC1 p l 0 0 .none)
  | .cpyr p l m x => some (packA 0xC2 p l m x .none)
  | .cpyb p l => some (packA 0xC3 p l 0 0 .none)
  | .cpyq p l t => some (packA 0xC4 p l 0 0 t)
  | .cwaita p l t => some (packA 0xC5 p l 0 0 t)
  | .cwaitl p l t => some (packA 0xC6 p l 0 0 t)
  | .cfind p l t => some (packA 0xC7 p l 0 0 t)
  | .ctclr p l => some (packA 0xC8 p l 0 0 .none)
  | .mwait p l t => some (packA 0xC9 p l 0 0 t)
  | .spush p l n => some (packA 0xCA p l 0 (0#1 ++ n) .none)
  | .spop p l n t => some (packA 0xCB p l 0 (0#1 ++ n) t)
  | .speek p l n t => some (packA 0xCC p l 0 (0#1 ++ n) t)
  | .seos p l m n => some (packA 0xCD p l m (0#1 ++ n) .none)
  | .sstat p l m n t => some (packA 0xCE p l m (0#1 ++ n) t)
  | .bload p l a => some (packA 0xD0 p l (0#1 ++ a) 0 .none)
  | .bswap p l a b => some (packA 0xD1 p l (0#1 ++ a) (0#1 ++ b) .none)
  | .bclr p l a => some (packA 0xD2 p l (0#1 ++ a) 0 .none)
  | .mma p l a b => some (packA 0xD3 p l (0#1 ++ a) (0#1 ++ b) .none)
  | .mmat p l a b => some (packA 0xD4 p l (0#1 ++ a) (0#1 ++ b) .none)
  | .mmaa p l a b => some (packA 0xD5 p l (0#1 ++ a) (0#1 ++ b) .none)
  | .accz p l n => some (packA 0xD6 p l 0 (0#1 ++ n) .none)
  | .accrd p l n t => some (packA 0xD7 p l 0 (0#1 ++ n) t)
  | .accwr p l n => some (packA 0xD8 p l 0 (0#1 ++ n) .none)
  | .accst p l n => some (packA 0xD9 p l 0 (0#1 ++ n) .none)
  | .accstat p l n => some (packA 0xDA p l 0 (0#1 ++ n) .none)
  | .accscl p l m n => some (packA 0xDB p l m (0#1 ++ n) .none)
  | .msync p l t => some (packA 0xDC p l 0 0 t)
  | .dec p l => some (packA 0xE0 p l 0 0 .none)
  | .spawn p l => some (packA 0xE1 p l 0 0 .none)
  | .send p l => some (packA 0xE2 p l 0 0 .none)
  | .bind_ p l => some (packA 0xE3 p l 0 0 .none)
  | .unbind p l => some (packA 0xE4 p l 0 0 .none)
  | .ropejoin p l t => some (packA 0xE5 p l 0 0 t)
  | .ropeleave p l => some (packA 0xE6 p l 0 0 .none)
  | .ropearr p l => some (packA 0xE7 p l 0 0 .none)
  | .ropewait p l t => some (packA 0xE8 p l 0 0 t)
  | .ropesz p l t => some (packA 0xE9 p l 0 0 t)
  | .csrr p n t => some (packI 0xF0 p (0#1 ++ n) t)
  | .csrw p n t => some (packI 0xF1 p (0#1 ++ n) t)
  | .csrs p n t => some (packI 0xF2 p (0#1 ++ n) t)
  | .csrc p n t => some (packI 0xF3 p (0#1 ++ n) t)
  | .rand p u t => some (packG 0xF4 p 0 u t)
  | .time_ p u t => some (packG 0xF5 p 0 u t)
  | .ispois p u t => some (packG 0xF6 p 0 u t)
  | .chkl p u t => some (packG 0xF7 p 0 u t)
  | .pmark p u t => some (packG 0xF8 p 0 u t)
  | .pitchFetch _ => none
  | .pitchExhaustion _ => none
  | .immediateAccessComplete _ => none
  | .syncAccessArrive _ => none
  | .retryListBusyResend _ => none
  | .memoryResponse _ _ => none
  | .uncorrectableError _ => none
  | .watchdogExpiry _ => none
  | .waitWithdrawal _ => none
  | .commitChecks _ => none
  | .handover _ => none
  | .publicationStep2 _ _ => none
  | .publicationStep3 _ => none
  | .taskRetired _ => none
  | .twinDigestCompare _ _ => none
  | .decrementApply _ => none
  | .placement _ _ => none
  | .crossDiePlacement _ => none
  | .taskRunnable _ _ _ => none
  | .taskStart _ => none
  | .copyElementTranslate _ => none
  | .copyElementComplete _ _ => none
  | .copyStampWrite _ => none
  | .copyComplete _ => none
  | .reductionApply _ _ => none
  | .orderedContributionArrive _ => none
  | .orderedBusyResend _ => none
  | .streamPacketArrive _ _ _ => none
  | .streamAcknowledge _ _ => none
  | .streamResendRequest _ _ => none
  | .matrixOpStart _ => none
  | .matrixOpComplete _ _ => none
  | .armedMmaRow _ _ => none
  | .faultRecordHeldWrite _ => none
  | .ringPoll _ _ => none
  | .launchNotify _ _ => none
  | .instanceCreate _ => none
  | .messageAccept _ => none
  | .handlerDelivery _ _ => none
  | .mailboxOverflow _ => none
  | .ropeArrival _ => none
  | .svcLog _ => none
  | .svcTlbinv _ => none
  | .svcResume _ => none
  | .svcMigrate _ => none
  | .invalidationComplete _ => none
  | .translationWalk _ _ _ => none
  | .quiescenceWave _ => none
  | .wearIntervalEnd _ => none
  | .monitorSample _ _ _ => none
  | .drainedTimeout _ => none
  | .infieldTestStart _ => none
  | .infieldTestResult _ _ _ => none
  | .clusterRetire _ _ => none
  | .lifetimeRecordWrite => none
  | .drainComplete _ => none
  | .spillPlaceFreed _ => none
  | .thermalThreshold _ _ => none
  | .powerCapWindow _ _ => none
  | .clusterClockGate _ => none
  | .ctxCreate _ _ => none
  | .ctxDestroy _ _ => none
  | .ctxSet _ _ => none
  | .sliceAssign _ _ => none
  | .qcbSet _ _ => none
  | .hostTlbinv _ _ => none
  | .drainFor _ _ => none
  | .restore _ _ _ => none
  | .traceSet _ _ => none
  | .tableRegion _ _ => none
  | .counterRead _ _ => none
  | .podAttach _ _ => none
  | .attest _ _ => none
  | .hostRead _ _ _ _ => none
  | .hostWrite _ _ _ _ => none
  | .peerAccess _ _ _ => none
  | .getVersion _ => none
  | .getCapabilities _ => none
  | .negotiateAlgorithms _ => none
  | .getDigests _ => none
  | .getCertificate _ => none
  | .challenge _ _ => none
  | .getMeasurements _ _ => none
  | .keyExchange _ => none
  | .finish _ _ _ => none
  | .keyUpdate _ _ _ => none
  | .endSession _ _ => none
  | .lockPort _ _ => none
  | .startPort _ _ => none
  | .stopPort _ => none
  | .portConfigChange _ _ => none
  | .linkReplay _ _ _ => none
  | .linkReset _ => none
  | .supplyGood => none
  | .managementReset => none
  | .microcodeLoad _ _ _ _ => none
  | .debugToken _ => none
  | .freeze => none
  | .frzNAssert _ => none
  | .powerCapSet _ => none
  | .powerFailure => none
  | .strayDecrementAnswer _ => none
end Sys2Proof
end

