-- ==== Sys2Proof/Machine/Flags.lean ====
section
/-! DEFINITION. Number formats, exact values, rounding with its flags, and exact arithmetic (02). Codes and lanes are
naturals below 2^width; an exact value is an integer times a power of two. -/

namespace Sys2Proof.Machine

/-! ## Flags (02 R37; 05 R114) -/

/-- NX, UF, OF, DZ, NV in bits 0 to 4 of FFLAGS. -/
abbrev Flags := BitVec 5

def flagNX : Flags := 1
def flagUF : Flags := 2
def flagOF : Flags := 4
def flagDZ : Flags := 8
def flagNV : Flags := 16

/-- The rounding modes of FRND (02 R34). -/
inductive Rnd where
  | rne | rz | rd | ru | rna
  deriving DecidableEq, Repr

/-- The mode a value of FRND selects; 5 to 7 cannot be held (02 R34). -/
def rndOf (b : BitVec 3) : Rnd :=
  match b.toNat with
  | 0 => .rne
  | 1 => .rz
  | 2 => .rd
  | 3 => .ru
  | _ => .rna

/-! ## Formats (02 R28, R29) -/

/-- What the highest codes of a format mean. -/
inductive Special where
  /-- the last exponent holds infinities and NaN -/
  | ieee
  /-- only S.1111.111 is NaN -/
  | e4m3
  /-- no special codes; -0 decodes as +0 -/
  | finite
  deriving DecidableEq, Repr

structure Fmt where
  ebits : Nat
  mbits : Nat
  bias : Nat
  special : Special
  deriving DecidableEq, Repr

def fmtF32 : Fmt := { ebits := 8, mbits := 23, bias := 127, special := .ieee }
def fmtBF16 : Fmt := { ebits := 8, mbits := 7, bias := 127, special := .ieee }
def fmtF16 : Fmt := { ebits := 5, mbits := 10, bias := 15, special := .ieee }
def fmtE4M3 : Fmt := { ebits := 4, mbits := 3, bias := 7, special := .e4m3 }
def fmtE5M2 : Fmt := { ebits := 5, mbits := 2, bias := 15, special := .ieee }
def fmtF6 : Fmt := { ebits := 3, mbits := 2, bias := 3, special := .finite }
def fmtF4 : Fmt := { ebits := 2, mbits := 1, bias := 1, special := .finite }

/-- The bit of the sign. -/
def Fmt.signBit (f : Fmt) : Nat := 2 ^ (f.ebits + f.mbits)

/-- The code of the largest finite magnitude (02 R28). -/
def Fmt.maxCode (f : Fmt) : Nat :=
  match f.special with
  | .ieee => (2 ^ f.ebits - 1) * 2 ^ f.mbits - 1
  | .e4m3 => f.signBit - 2
  | .finite => f.signBit - 1

/-- The code of +infinity. -/
def Fmt.infCode (f : Fmt) : Nat := (2 ^ f.ebits - 1) * 2 ^ f.mbits

/-- The canonical NaN (02 R29); F6 and F4 have none. -/
def Fmt.nanCode (f : Fmt) : Nat :=
  match f.special with
  | .ieee => f.infCode + 2 ^ (f.mbits - 1)
  | .e4m3 => f.signBit - 1
  | .finite => 0

/-- An exact value: NaN, an infinity, or (-1)^neg × m × 2^e with the sign of a zero kept. -/
inductive Val where
  | nan
  | inf (neg : Bool)
  | fin (neg : Bool) (m : Nat) (e : Int)
  deriving DecidableEq, Repr

/-- The value of a code (02 R28, R29). -/
def Fmt.value (f : Fmt) (c : Nat) : Val :=
  let m := c % 2 ^ f.mbits
  let e := c / 2 ^ f.mbits % 2 ^ f.ebits
  let s := c / f.signBit % 2 == 1
  if f.special == .ieee && e == 2 ^ f.ebits - 1 then if m = 0 then .inf s else .nan
  else if f.special == .e4m3 && c % f.signBit == f.signBit - 1 then .nan
  else if e = 0 then .fin (s && !(f.special == .finite && m == 0)) m (1 - f.bias - f.mbits)
  else .fin s (2 ^ f.mbits + m) ((e : Int) - f.bias - f.mbits)

/-- A code with a sign. -/
def Fmt.signed (f : Fmt) (neg : Bool) (c : Nat) : Nat := if neg then f.signBit + c else c

/-- Whether a remainder rounds the magnitude up: n the quotient, r the remainder, 2^s the divisor (02 R35). -/
def roundsUp (mode : Rnd) (neg : Bool) (n r s : Nat) : Bool :=
  match mode with
  | .rz => false
  | .rd => neg && r != 0
  | .ru => !neg && r != 0
  | .rna => 2 * r ≥ 2 ^ s && r != 0
  | .rne => 2 * r > 2 ^ s || (2 * r == 2 ^ s && r != 0 && n % 2 == 1)

/-- m × 2^e divided by 2^q: quotient, remainder and the exponent of the divisor; a value below a quarter of the
quantum is replaced by a quarter, which rounds alike. -/
def splitAt (m : Nat) (e q : Int) : Nat × Nat × Nat :=
  if q ≤ e then (m * 2 ^ (e - q).toNat, 0, 0)
  else
    let s := (q - e).toNat
    if m ≠ 0 ∧ m.log2 + 3 < s then (0, 1, 2) else (m / 2 ^ s, m % 2 ^ s, s)

/-- What a chosen value beyond the largest finite magnitude becomes (02 R35). -/
def Fmt.overflow (f : Fmt) (mode : Rnd) (neg : Bool) : Nat :=
  if f.special != .ieee then f.maxCode
  else match mode with
    | .rne | .rna => f.infCode
    | .rz => f.maxCode
    | .rd => if neg then f.infCode else f.maxCode
    | .ru => if neg then f.maxCode else f.infCode

/-- `round(x, fmt, mode)` of a finite x = (-1)^neg × m × 2^e, with its flags (02 R35). [DEDUCED, log 16] -/
def Fmt.round (f : Fmt) (mode : Rnd) (neg : Bool) (m : Nat) (e : Int) : Nat × Flags :=
  if m = 0 then (if f.special == .finite then 0 else f.signed neg 0, 0)
  else
    let emin : Int := 1 - f.bias
    let top := e + m.log2
    let q := (if top < emin then emin else top) - f.mbits
    let d := splitAt m e q
    let n := if roundsUp mode neg d.1 d.2.1 d.2.2 then d.1 + 1 else d.1
    let c := (q + f.mbits + f.bias - 1).toNat * 2 ^ f.mbits + n
    if c > f.maxCode then (f.signed neg (f.overflow mode neg), flagOF ||| flagNX)
    else if d.2.1 = 0 then (if f.special == .finite && c = 0 then 0 else f.signed neg c, 0)
    else (if f.special == .finite && c = 0 then 0 else f.signed neg c,
          flagNX ||| (if c < 2 ^ f.mbits then flagUF else 0))

/-- `round` of any exact value (02 R35). -/
def Fmt.roundVal (f : Fmt) (mode : Rnd) : Val → Nat × Flags
  | .nan => (f.nanCode, 0)
  | .inf neg =>
    if f.special == .ieee then (f.signed neg f.infCode, 0)
    else (f.signed neg f.maxCode, flagOF ||| flagNX)
  | .fin neg m e => f.round mode neg m e

/-! ## Exact arithmetic -/

/-- A signed integer times a power of two, for sums. -/
structure Dyadic where
  i : Int
  e : Int
  deriving DecidableEq, Repr

def Dyadic.add (a b : Dyadic) : Dyadic :=
  if a.e ≤ b.e then { i := a.i + b.i * 2 ^ (b.e - a.e).toNat, e := a.e }
  else { i := a.i * 2 ^ (a.e - b.e).toNat + b.i, e := b.e }

def Dyadic.ofParts (neg : Bool) (m : Nat) (e : Int) : Dyadic := { i := if neg then -(m : Int) else m, e := e }

/-- The sign of an exact zero that no operand fixes: -0 only under RD (06 R129). -/
def zeroSign (mode : Rnd) : Bool := mode == .rd

/-- A dyadic as an exact value, a zero taking the given sign. -/
def Dyadic.toVal (d : Dyadic) (zneg : Bool) : Val :=
  if d.i = 0 then .fin zneg 0 0 else .fin (d.i < 0) d.i.natAbs d.e

/-- A value and the NV or DZ flag of the operation that gave it. -/
abbrev Res := Val × Flags

/-- The exact sum (06 R129): infinities of opposite sign are invalid. -/
def Val.add (mode : Rnd) : Val → Val → Res
  | .nan, _ => (.nan, 0)
  | _, .nan => (.nan, 0)
  | .inf a, .inf b => if a == b then (.inf a, 0) else (.nan, flagNV)
  | .inf a, _ => (.inf a, 0)
  | _, .inf b => (.inf b, 0)
  | .fin a m e, .fin b n f =>
    if m = 0 ∧ n = 0 then (.fin (if a == b then a else zeroSign mode) 0 0, 0)
    else (((Dyadic.ofParts a m e).add (Dyadic.ofParts b n f)).toVal (zeroSign mode), 0)

def Val.neg : Val → Val
  | .nan => .nan
  | .inf a => .inf (!a)
  | .fin a m e => .fin (!a) m e

def Val.sub (mode : Rnd) (a b : Val) : Res := Val.add mode a b.neg

/-- The exact product: 0 × infinity is invalid. -/
def Val.mul : Val → Val → Res
  | .nan, _ => (.nan, 0)
  | _, .nan => (.nan, 0)
  | .inf a, .inf b => (.inf (a != b), 0)
  | .inf a, .fin b m _ => if m = 0 then (.nan, flagNV) else (.inf (a != b), 0)
  | .fin a m _, .inf b => if m = 0 then (.nan, flagNV) else (.inf (a != b), 0)
  | .fin a m e, .fin b n f => (.fin (a != b) (m * n) (e + f), 0)

/-- a × b + c: NV for 0 × infinity even when c is NaN (06 R129). -/
def Val.fma (mode : Rnd) (a b c : Val) : Res :=
  let p := Val.mul a b
  let s := Val.add mode p.1 c
  (s.1, p.2 ||| s.2)

/-- A positive quotient a / b as a dyadic that every rounding of at most 64 bits treats as the exact quotient:
exact when the division is, otherwise strictly between its neighbours. -/
def quotient (a b : Nat) : Nat × Int :=
  let k := 130 + b.log2
  let q := a * 2 ^ k / b
  if a * 2 ^ k % b = 0 then (q, -k) else (4 * q + 1, -k - 2)

/-- The exact quotient: 0 ÷ 0 and infinity ÷ infinity are invalid, x ÷ 0 raises DZ (06 R129). -/
def Val.div : Val → Val → Res
  | .nan, _ => (.nan, 0)
  | _, .nan => (.nan, 0)
  | .inf _, .inf _ => (.nan, flagNV)
  | .inf a, .fin b _ _ => (.inf (a != b), 0)
  | .fin a _ _, .inf b => (.fin (a != b) 0 0, 0)
  | .fin a m e, .fin b n f =>
    if n = 0 then if m = 0 then (.nan, flagNV) else (.inf (a != b), flagDZ)
    else if m = 0 then (.fin (a != b) 0 0, 0)
    else let q := quotient m n; (.fin (a != b) q.1 (q.2 + e - f), 0)

/-- The integer square root by bits from bit k down. -/
def isqrtFrom (n : Nat) : Nat → Nat → Nat
  | 0, r => r
  | k + 1, r => isqrtFrom n k (if (r + 2 ^ k) * (r + 2 ^ k) ≤ n then r + 2 ^ k else r)

def isqrt (n : Nat) : Nat := isqrtFrom n (n.log2 / 2 + 1) 0

/-- The square root of m × 2^e as `quotient` gives a quotient. -/
def rootOf (m : Nat) (e : Int) : Nat × Int :=
  let e2 := if e % 2 = 0 then e else e - 1
  let m2 := (if e % 2 = 0 then m else 2 * m) * 2 ^ 120
  let r := isqrt m2
  if r * r = m2 then (r, e2 / 2 - 60) else (4 * r + 1, e2 / 2 - 62)

/-- The square root: negative operands are invalid, the root of -0 is -0 (06 R129; 02 R48). -/
def Val.sqrt : Val → Res
  | .nan => (.nan, 0)
  | .inf neg => if neg then (.nan, flagNV) else (.inf false, 0)
  | .fin neg m e =>
    if m = 0 then (.fin neg 0 0, 0)
    else if neg then (.nan, flagNV)
    else let r := rootOf m e; (.fin false r.1 r.2, 0)

/-- The exact integer nearest by a mode, and whether it differs from m × 2^e. -/
def roundNat (mode : Rnd) (neg : Bool) (m : Nat) (e : Int) : Nat × Bool :=
  let d := splitAt m e 0
  (if roundsUp mode neg d.1 d.2.1 d.2.2 then d.1 + 1 else d.1, d.2.1 != 0)

/-- Rounding to an integral value of the same format (06 R129, FRND). -/
def Val.integral (mode : Rnd) : Val → Res
  | .nan => (.nan, 0)
  | .inf neg => (.inf neg, 0)
  | .fin neg m e =>
    if 0 ≤ e then (.fin neg m e, 0)
    else let r := roundNat mode neg m e; (.fin neg r.1 0, if r.2 then flagNX else 0)

/-- Order of two values that are not NaN, zeros equal. -/
def Val.lt : Val → Val → Bool
  | .nan, _ => false
  | _, .nan => false
  | .inf a, .inf b => a && !b
  | .inf a, .fin _ _ _ => a
  | .fin _ _ _, .inf b => !b
  | .fin a m e, .fin b n f =>
    ((Dyadic.ofParts a m e).add (Dyadic.ofParts (!b) n f)).i < 0

def Val.eq : Val → Val → Bool
  | .nan, _ => false
  | _, .nan => false
  | a, b => !(Val.lt a b) && !(Val.lt b a)

def Val.isNan : Val → Bool
  | .nan => true
  | .inf _ => false
  | .fin _ _ _ => false

def Val.isNeg : Val → Bool
  | .nan => false
  | .inf n => n
  | .fin n _ _ => n

def Val.isZero : Val → Bool
  | .nan => false
  | .inf _ => false
  | .fin _ m _ => m == 0

/-- Strictly below in the order of FMIN and VMIN, where -0 is below +0 (06 R130; 07 R139). -/
def Val.below (a b : Val) : Bool := Val.lt a b || (a.isZero && b.isZero && a.isNeg && !b.isNeg)

/-- Minimum (maximum) by FMIN (FMAX): a NaN operand gives the other (06 R130). -/
def Val.minMax (max : Bool) (a b : Val) : Val :=
  if a.isNan then b else if b.isNan then a
  else if (if max then a.below b else b.below a) then b else a

/-- `round` of the result of an operation, with both flag sets. -/
def Fmt.finish (f : Fmt) (mode : Rnd) (r : Res) : Nat × Flags :=
  let c := f.roundVal mode r.1
  (c.1, c.2 ||| r.2)

/-- Conversion to an integer in [lo, hi] (02 R36). -/
def Val.toInt (mode : Rnd) (lo hi : Int) : Val → Int × Flags
  | .nan => (0, flagNV)
  | .inf neg => (if neg then lo else hi, flagNV)
  | .fin neg m e =>
    if 0 < e ∧ m ≠ 0 ∧ 100 < e then (if neg then lo else hi, flagNV)
    else
      let r := roundNat mode neg m e
      let i : Int := if neg then -(r.1 : Int) else r.1
      if i < lo then (lo, flagNV) else if hi < i then (hi, flagNV)
      else (i, if r.2 then flagNX else 0)

/-- An integer as an exact value. -/
def Val.ofInt (i : Int) : Val := .fin (i < 0) i.natAbs 0

/-- The sum of R42 and R44 over exact terms: NaN where a term is, or infinities of both signs stand. -/
structure ExactSum where
  sum : Dyadic := { i := 0, e := 0 }
  nan : Bool := false
  pinf : Bool := false
  ninf : Bool := false
  deriving DecidableEq, Repr

def ExactSum.push (s : ExactSum) : Val → ExactSum
  | .nan => { s with nan := true }
  | .inf neg => if neg then { s with ninf := true } else { s with pinf := true }
  | .fin neg m e => if m = 0 then s else { s with sum := s.sum.add (Dyadic.ofParts neg m e) }

/-- Its value, an exact zero taking the given sign (02 R42, R44). -/
def ExactSum.toVal (s : ExactSum) (zneg : Bool) : Val :=
  if s.nan || (s.pinf && s.ninf) then .nan
  else if s.pinf then .inf false
  else if s.ninf then .inf true
  else s.sum.toVal zneg

end Sys2Proof.Machine
end

