-- ==== Sys2Proof/Config.lean ====
section
/-! DEFINITION. What an implementation fixes: constants of the Amras, and the free values the manual leaves open.
A free value is an opaque constant applied to the counter `State.free`: nothing constrains it. -/

namespace Sys2Proof.Config

/-- Base of the local window (09 R184). -/
def localBase : Nat := 0xFE00_0000_0000_0000

/-- Bytes of the local window (09 R184). -/
def localSize : Nat := 0x10_0000

/-- Byte i of the ciphertext of a line: by the keys of its context, its number and its plaintext; the cipher itself stays open
(19 R399, R400). -/
opaque cipherByte : List (BitVec 256) → Nat → BitVec 1024 → Nat → BitVec 8

/-- A byte the manual leaves open: an SPDM body (19 R393), a reading of a monitor (17 R357). -/
opaque freeByte : Nat → BitVec 8

/-- How many deflections the flits of a tile suffer in a span of cycles (01 R17; 17 R354): by the counter of free values, the tile, the
cycle at which the span begins, and its length. -/
opaque deflections : Nat → Nat → Nat → Nat → BitVec 64

/-- The format code and the padding bytes of a packet fed from memory (11 R252), which depend on nothing that timing or placement
moves (02 R49): by context, template, tag, record index, port and sequence number; byte 0 holds the format code. -/
opaque packetByte : BitVec 32 → BitVec 64 → BitVec 32 → Nat → Nat → BitVec 32 → Nat → BitVec 8

/-- A 256-bit value the manual leaves open: a key drawn from the generator of the root of trust (19 R389, R394). -/
opaque freeKey : Nat → BitVec 256

/-- The signature of the root of trust over a digest (19 R401); its algorithm's bytes are outside the manual. -/
opaque signature : BitVec 256 → Nat → List (BitVec 8)

/-- The digest of the current lifetime record, given as numbers (19 R401): the record's byte layout is outside the manual. -/
opaque lifeDigest : List Nat → BitVec 256

/-- The digest of a context's descriptor, QCB addresses and slices, given as numbers (19 R401): their layout is outside the manual. -/
opaque ctxDigest : List Nat → BitVec 256

/-- Whether the signature that a peer's capability record refers to verifies (19 R395). -/
opaque recordVerifies : BitVec 512 → Bool

/-- Digests of the dispatcher microcode in management flash and of the management firmware (19 R401; 20 R406). -/
opaque ucodeDigest : BitVec 256
opaque firmwareDigest : BitVec 256

/-- Entries of the overflow list of a die (09 R196, R200). -/
def overflowEntries : Nat := 2097152

end Sys2Proof.Config
end

