-- ==== Sys2Proof/Machine/State.lean ====
section
/-! DEFINITION. The state of one Amras package as plain data, and its state after reset.
Every piece is listed in INVENTORY.md under '## State' with its rule. -/

namespace Sys2Proof.Machine

/-! ## Why a step can stop -/

/-- Faults of the MODEL: a step that has no subject. Exceptions of the machine are NEXT states (18 R371). -/
inductive Fault where
  /-- Raised by an instruction that is executed where no pitch stands in the focused tile's window, or whose
  cursor lies beyond the window. `step` never does so; the agenda could. Safe: no effect is invented. -/
  | noPitch
  deriving DecidableEq, Repr

/-- Refusals of the MODEL. -/
inductive Refusal where
  /-- The instruction has no meaning in this model yet: raised by an arm of `exec`. Safe. -/
  | notModelled (mnemonic : String)
  deriving DecidableEq, Repr

/-! ## Memory -/

/-- Every byte the package and its neighbours hold, by location: (location, byte) pairs, locations strictly
rising, no byte equal to what an unlisted location reads as (00 R5; 09 R184-R197). -/
structure Memory where
  cells : List Host.Cell
  deriving DecidableEq, Repr

/-- State of one 128-byte line beside its data (09 R185, R198, R205; 10 R227; 11 R239). -/
structure LineMeta where
  /-- full/empty bit -/
  full : Bool := false
  /-- the data is poisoned -/
  pois : Bool := false
  /-- CHK: the stored check value, as its difference from the CRC of DATA (09 R185, R204); one that is not 0 fails (R206) -/
  chk : BitVec 32 := 0
  /-- scratchpad: written by the running task since its placement -/
  wr : Bool := false
  /-- scratchpad: read by the running task since its placement (09 R189) -/
  rd : Bool := false
  /-- a release claim is held on the line (10 R227) -/
  claimed : Bool := false
  /-- bank memory: sequence counter of ordered CPYR (11 R239) -/
  lseq : BitVec 32 := 0
  /-- written since package reset: what stands in it was encrypted under a key of its writer (19 R399) -/
  used : Bool := false
  deriving DecidableEq, Repr

/-! ## Tokens and the pitch in the window (03) -/

/-- The four kinds of token (03 R58). -/
inductive TokVal where
  | scalar (v : BitVec 64)
  | vector (v : BitVec 2048)
  | pred (b : Bool)
  | null
  deriving DecidableEq, Repr

/-- A token with its poison bit (03 R58). -/
structure Token where
  val : TokVal
  pois : Bool := false
  deriving DecidableEq, Repr

/-- A general register: value and poison (05 R103). -/
structure Reg where
  v : BitVec 64 := 0
  pois : Bool := false
  deriving DecidableEq, Repr

/-- A vector register: value and poison (05 R105). -/
structure VReg where
  v : BitVec 2048 := 0
  pois : Bool := false
  deriving DecidableEq, Repr

/-- What has become of the instruction of a slot in this execution of the pitch (03 R59-R61). -/
inductive SlotStatus where
  /-- has not fired -/
  | waiting
  /-- has fired and awaits its result (03 R67) -/
  | pending
  | fired
  /-- consumed unfired: the predicate did not match (03 R60) -/
  | unfired
  /-- nullified by a null token (03 R61) -/
  | nullified
  deriving DecidableEq, Repr

/-- The operand store and status of one slot (03 R57). -/
structure Slot where
  left : Option Token := none
  right : Option Token := none
  pred : Option Token := none
  status : SlotStatus := .waiting
  deriving DecidableEq, Repr

/-- A fault raised by an instruction, a fetch, a copy or a commit check: code, CAUSE and fault address (18 R374). -/
structure FaultInfo where
  code : Nat
  cause : Nat := 0
  addr : BitVec 64 := 0
  deriving DecidableEq, Repr

/-- What a fired exit asks for (03 R66). -/
inductive ExitTo where
  | goto (a : BitVec 64)
  | call (a : BitVec 64)
  | commit
  | abort
  deriving DecidableEq, Repr

/-- One aligned run of bytes of an access at one location: the virtual address, the location, the bytes,
and whether it is a scratchpad location (10 R213). -/
structure StorePiece where
  va : BitVec 64
  loc : Nat
  bytes : List Byte
  local_ : Bool
  leafVa : BitVec 64 := 0     -- base of the page whose leaf bound it (16 R345)
  leafSize : Nat := 0         -- bytes of that page
  leafGlobal : Bool := false
  deriving DecidableEq, Repr

/-- Combining operations of atomics and reductions (10 R208), and swap. -/
inductive RedOp where
  | add | swap | and | or | xor | min | max
  deriving DecidableEq, Repr

/-- What an entry of the commit set does at publication (03 R69; 12 R262). -/
inductive CommitOp where
  /-- REDI 8 bytes, REDW 4 bytes (10 R221) -/
  | redInt (op : RedOp) (uns : Bool) (size : Nat) (v : BitVec 64)
  | redF (op : RedOp) (v : BitVec 64)
  | redB (op : RedOp) (ty : ElemType) (v : BitVec 1024)
  /-- REDO: value and sequence number (10 R224) -/
  | redo (v q : BitVec 32)
  /-- DRAWM: pair, uniform, sequence number -/
  | drawm (p : BitVec 64) (u q : BitVec 32)
  /-- FILL.REL (produce = false) or PRODUCE.REL; whole line or 8 bytes (10 R216) -/
  | release (produce : Bool) (vec : Bool) (data : BitVec 1024)
  | flush
  | dec (entry : BitVec 32) (remote : BitVec 64)
  | spawn (e : BitVec 256)
  | send (msg : BitVec 512) (ctl : BitVec 64)
  | bind (templ ctl : BitVec 64)
  | unbind (mbox : BitVec 8)
  deriving DecidableEq, Repr

/-- An entry of a task's commit set, with what a record of it names (10 R228; 18 R379). -/
structure CommitEntry where
  op : CommitOp
  addr : BitVec 64 := 0
  pois : Bool := false
  pitch : BitVec 64
  exit : Nat
  slot : Nat
  lsid : Nat
  opcode : BitVec 8
  sub : BitVec 8
  deriving DecidableEq, Repr

/-- A copy descriptor as a copy instruction read it (11 R236), with the operation of a CPYR. -/
inductive CopyKind where
  | cpy
  | cpys
  | cpyr (op : RedOp) (ty : ElemType)
  | cpyb
  | prefetch
  deriving DecidableEq, Repr

structure CopyDesc where
  kind : CopyKind
  src : BitVec 64
  dst : BitVec 64
  /-- number of 16-byte elements -/
  n : Nat
  /-- elements per row of a CPYS -/
  row : Nat := 1
  sstride : BitVec 64 := 0
  dstride : BitVec 64 := 0
  tag : Option Nat := none
  stamp : Option (BitVec 64 × BitVec 64) := none
  ord : Bool := false
  seq : BitVec 32 := 0
  sin : Option Nat := none
  sout : Option Nat := none
  tmask : BitVec 16 := 0
  deriving DecidableEq, Repr

/-- A matrix operation with the control words and defaults it was issued with (08 R160-R179). -/
inductive MatOp where
  | bload (arr : Nat) (lw sw : BitVec 64)
  | bswap (a b : Nat)
  | bclr (arr : Nat)
  | mma (arr acc : Nat) (aw cw : BitVec 64)
  | mmat (arr acc : Nat) (aw cw : BitVec 64)
  | mmaa (arr acc : Nat) (aw ow : BitVec 64)
  | accz (acc : Nat)
  | accwr (acc : Nat) (row : BitVec 64) (data : BitVec 2048) (pois : Bool)
  | accst (acc : Nat) (w : BitVec 64)
  | accstat (acc : Nat) (w : BitVec 64)
  | accscl (acc : Nat) (exp : Bool) (w : BitVec 64)
  deriving DecidableEq, Repr

/-- An issued matrix operation (08 R161, R162). -/
structure MatJob where
  op : MatOp
  fmta : BitVec 3
  scalep : BitVec 20
  bandp : BitVec 20
  pitch : BitVec 64
  slot : Nat
  lsid : Nat
  exit : Nat
  started : Bool := false
  /-- a conditional BLOAD that has started and found a match (08 R168) -/
  matched : Bool := false
  /-- rows completed by an armed or stream-fed MMA -/
  rows : Nat := 0
  /-- first half of a 16-bit row of a stream-fed MMA: bytes, code, poison (08 R173) -/
  half : Option (BitVec 1024 × Nat × Bool) := none
  /-- pitches belayed by the tile when it was issued (08 R182) -/
  epoch : Nat := 0
  /-- a stream-fed MMA that the end of its stream has ended (08 R173) -/
  ended : Bool := false
  deriving DecidableEq, Repr

/-- Which control-register write (06 R132), or CTCLR (11 R242). -/
inductive CsrOp where
  | write | set | clear
  deriving DecidableEq, Repr

/-- A stream packet (11 R250). -/
structure Packet where
  payload : BitVec 1024
  fmt : BitVec 3 := 0
  eot : Bool := false
  eos : Bool := false
  abort : Bool := false
  pois : Bool := false
  src : BitVec 4 := 0
  seq : BitVec 32 := 0
  /-- source addresses of the sectors of a packet fed from memory, which a re-send reads again (11 R255) -/
  reads : List (BitVec 64) := []
  deriving DecidableEq, Repr

/-- What a fired instruction will do at belay (03 R65, R69). -/
inductive Effect where
  | writeG (r : BitVec 6) (t : Reg)
  | writeV (r : BitVec 5) (t : VReg)
  | store (lsid : Nat) (ps : List StorePiece) (pois : Bool)
  | entry (e : CommitEntry)
  | copy (lsid : Nat) (d : CopyDesc)
  | matrix (lsid : Nat) (op : MatOp)
  /-- the row word of an ACCRD, examined at exhaustion (08 R164) -/
  | rowWord (w : BitVec 64)
  | push (port : Nat) (payload : BitVec 1024) (fmt : BitVec 3) (eot abort pois : Bool)
  | pop (port : Nat)
  | csr (op : CsrOp) (num : BitVec 12) (d : BitVec 64)
  | ctclr (m : BitVec 64)
  | ropeLeave (key : BitVec 32) (idx : Nat)
  | ropeArr (key : BitVec 32)
  | mark (v : BitVec 32) (time : BitVec 64)
  | prefetchLine (a : BitVec 64)
  deriving DecidableEq, Repr

/-- Synchronised modes of an immediate-class access (10 R216). -/
inductive SyncMode where
  | readfull | consume | peek | produce | fill | clear
  deriving DecidableEq, Repr

/-- A leaf as it stood when it translated an access: its page and its G bit (16 R345). -/
structure LeafUse where
  base : Nat
  size : Nat
  glob : Bool
  deriving DecidableEq, Repr

/-- The one immediate-class access of a pitch (03 R70, R71). -/
inductive ImmOp where
  | sync (mode : SyncMode) (vec : Bool) (data : BitVec 1024)
  | amo (op : RedOp) (uns : Bool) (size : Nat) (v : BitVec 64)
  | amof (op : RedOp) (v : BitVec 32)
  | cas (size : Nat) (e n : BitVec 64) (npois : Bool)
  | ropeJoin (key : BitVec 32) (idx : Nat)
  | ropeWait (key : BitVec 32)
  deriving DecidableEq, Repr

structure ImmAccess where
  slot : Nat
  lsid : Nat
  op : ImmOp
  va : BitVec 64
  /-- where the line or location stands, as translated when it fired -/
  loc : Nat
  local_ : Bool
  /-- package of a peer access, none when local -/
  peer : Option Nat := none
  /-- the operand is poisoned -/
  pois : Bool := false
  /-- the result is poisoned by the address or the predicate -/
  resPois : Bool := false
  targets : List Target
  opcode : BitVec 8
  /-- the leaf that translated it (16 R345) -/
  via : List LeafUse := []
  deriving DecidableEq, Repr

/-- A service call of a pitch that has fired (06 R122). -/
structure SvcCall where
  slot : Nat
  num : BitVec 13
  l : BitVec 64
  r : BitVec 64
  /-- an argument is poisoned -/
  pois : Bool
  /-- the status is poisoned by an operand (06 R117) -/
  resPois : Bool := false
  target : Target
  deriving DecidableEq, Repr

/-- Device-written control registers as they stood when the pitch began (05 R102; 03 R54). -/
structure CsrSnap where
  nclust : BitVec 64 := 0
  clpres : BitVec 64 := 0
  topogen : BitVec 64 := 0
  ctags : BitVec 64 := 0
  ctagpend : BitVec 64 := 0
  cycleft : BitVec 64 := 0
  time : BitVec 64 := 0
  wearctx : BitVec 64 := 0
  tilestate : BitVec 64 := 0
  poiscnt : BitVec 64 := 0
  deriving DecidableEq, Repr

/-- An MWAIT that waits (11 R244): its slot, the location of its word, the threshold, and the word of an examination that reached
it, with its poison. -/
structure MemWait where
  slot : Nat
  loc : Nat
  t : BitVec 64
  hit : Option (BitVec 64 × Bool) := none
  /-- the leaf that translated it (16 R345) -/
  via : List LeafUse := []
  deriving DecidableEq, Repr

/-- A sector that a load of the pitch has read before its others: the load's slot, and what was there (12 R259). -/
structure SectorRead where
  slot : Nat
  loc : Nat
  data : BitVec 128
  pois : Bool
  deriving DecidableEq, Repr

/-- The pitch in a tile's window (03 R56-R69). -/
structure Pitch where
  addr : BitVec 64
  hdr : BitVec 128
  words : List (BitVec 32)
  slots : List Slot
  /-- MODEL: the slot examined next -/
  cursor : Nat := 0
  /-- MODEL: the slots examined in vain since one changed -/
  idle : List Nat := []
  /-- slots named by double deliveries (03 R62) -/
  doubles : List Nat := []
  faults : List (Nat × FaultInfo) := []
  effects : List (Nat × Effect) := []
  flags : BitVec 5 := 0
  exits : List (Nat × Nat × ExitTo) := []
  /-- fired TRAPs (true) and BREAKs with their codes (06 R121) -/
  traps : List (Nat × Bool × BitVec 13) := []
  svcs : List SvcCall := []
  imm : Option ImmAccess := none
  /-- MWAITs that wait -/
  waits : List MemWait := []
  /-- a poisoned token was taken by an exit, an access or a control word (03 R63) -/
  ctl : Bool := false
  /-- poisoned tokens returned by loads and SPOPs (05 R116) -/
  poisoned : Nat := 0
  /-- sectors read by loads that have not fired -/
  early : List SectorRead := []
  snap : CsrSnap := {}
  deriving DecidableEq, Repr

/-! ## The running task -/

/-- A shadow line (09 R201): bytes, mask and sector poison, with the page that bound it (16 R345). -/
structure ShadowLine where
  loc : Nat
  va : BitVec 64
  data : BitVec 1024
  mask : BitVec 128
  pois : BitVec 8
  leafVa : BitVec 64 := 0
  leafSize : Nat := 0
  leafGlobal : Bool := false
  deriving DecidableEq, Repr

/-- Where the wait for an immediate-class access stands (03 R71; 09 R199, R200). -/
inductive ImmState where
  /-- sent, not yet arrived -/
  | sent
  /-- in a retry list, or held by the tile or the rope's die -/
  | waiting
  /-- answered busy (09 R200) -/
  | busy
  /-- performed: the result token -/
  | done (t : Option Token)
  deriving DecidableEq, Repr

/-- What answers a stall (18 R373). -/
inductive Resume where
  /-- the pitch from its start (03 R76) -/
  | pitch
  /-- the fetch of the next pitch (03 R78) -/
  | fetch
  /-- the commit checks again (10 R228) -/
  | checks
  /-- the commit waits (03 R79) -/
  | waits
  /-- an irrevocable WATCHDOG: go on where the task stood (14 R303) -/
  | watchdog
  /-- only KILL and ABANDON (08 R181; 18 R375) -/
  | never
  deriving DecidableEq, Repr

/-- The phase of a task on its tile (14 R292). -/
inductive Phase where
  /-- the next pitch is to be fetched -/
  | fetch
  /-- a pitch fires in the window -/
  | fire
  /-- the pitch has passed its checks and its services are performed in slot order (06 R122) -/
  | services (k : Nat)
  /-- the pitch has passed its checks and its immediate-class access is out -/
  | imm (st : ImmState)
  /-- a fault awaits RESUME; inCommit: raised in COMMITTING -/
  | stalled (seq : Nat) (r : Resume) (inCommit : Bool)
  /-- DONE belayed; the waits of R79 and the commit checks are to come -/
  | committing
  /-- a twin awaits its partner's digest (18 R379) -/
  | twinWait
  deriving DecidableEq, Repr

/-- A release claim of a committing task (10 R226). -/
structure Claim where
  loc : Nat
  produce : Bool
  granted : Bool
  entry : Nat
  deriving DecidableEq, Repr

/-- An output port of a running task (11 R252). -/
structure OutPort where
  bound : Bool := false
  /-- record index of the consumer and its input port -/
  peer : Nat := 0
  peerPort : Nat := 0
  queue : List Packet := []
  /-- sent and kept until acknowledged -/
  unacked : List Packet := []
  /-- acknowledgements on their way back -/
  acks : Nat := 0
  nextSeq : BitVec 32 := 0
  /-- a re-send was asked from this number -/
  resend : Option (BitVec 32) := none
  deriving DecidableEq, Repr

/-- The program state of a running task (05 R103-R116; 03 R52). -/
structure Run where
  ctx : BitVec 32
  inst : Nat
  idx : Nat
  templ : BitVec 64
  tag : BitVec 32
  /-- twin position of a REDUNDANT task: 0, 1, or 2 for a third run; none otherwise (18 R378) -/
  twin : Option Nat := none
  revocableOnly : Bool := false
  cyclim : Nat := 24
  phase : Phase := .fetch
  /-- TILEID and CLUSTER as they stood when the task started (05 R111, R112) -/
  tileid : BitVec 64 := 0
  clusterid : BitVec 64 := 0
  g : List Reg
  vr : List VReg
  ctags : BitVec 64 := 0
  ctagpend : BitVec 64 := 0
  fmta : BitVec 3 := 4
  scalep : BitVec 20 := 0
  bandp : BitVec 20 := 0
  frnd : BitVec 3 := 0
  fflags : BitVec 5 := 0
  rngkey : BitVec 64 := 0
  rngctr : BitVec 64 := 0
  rngmode : Bool := false
  rngtab : BitVec 64 := 0
  cycleft : Nat
  /-- the watchdog has expired and is still to be taken (03 R73) -/
  watchdogDue : Bool := false
  /-- MODEL: the cycle in which it expired (14 R293) -/
  dogCycle : Nat := 0
  /-- it expired during a service of the pitch in the window: the next pitch takes it (06 R122) -/
  dogInService : Bool := false
  poiscnt : Nat := 0
  next : BitVec 64
  /-- pitch and exit that led to the pitch of `next` (13 R277) -/
  prior : Option (BitVec 64 × Nat) := none
  pitch : Option Pitch := none
  irrevocable : Bool := false
  ctlPois : Bool := false
  shadow : List ShadowLine := []
  commit : List CommitEntry := []
  claims : List Claim := []
  /-- last copy issued per tag (11 R243) -/
  lastCopy : List (Nat × Nat) := []
  /-- arrays named by issued BLOAD, BSWAP, BCLR (08 R157) -/
  named : List Nat := []
  out : List OutPort := []
  /-- arrivals numbered per rope key (15 R328) -/
  arrivals : List (BitVec 32 × Nat) := []
  /-- arrivals sent whose answer is outstanding -/
  arriving : Nat := 0
  /-- memory as it stood at task start, with the effects of earlier commits published since (03 R55) -/
  fetchMem : Memory
  /-- the DONE pitch and its exit, for records of the commit (13 R277) -/
  donePitch : BitVec 64 := 0
  doneExit : Nat := 255
  /-- remote decrements translated at the commit checks (15 R323): entry number, package, physical address -/
  remotes : List (Nat × Nat × Nat) := []
  /-- a matrix fault taken at the next belay or in COMMITTING (08 R181) -/
  matFault : Option (FaultInfo × BitVec 64 × Nat × Nat × Nat × Nat) := none
  /-- cycle of entry to TWIN-WAIT -/
  twinCycle : Nat := 0
  /-- chosen to publish by the comparison of the twins (18 R380) -/
  voted : Bool := false
  /-- the commit checks have passed (10 R226) -/
  checked : Bool := false
  /-- the leaves its commit checks used (16 R345) -/
  via : List LeafUse := []
  /-- locations found by the commit checks, by entry number -/
  bound : List (Nat × Nat) := []
  /-- MODEL: number of the run, by which invalidations know it (16 R345) -/
  serial : Nat := 0
  deriving DecidableEq, Repr

/-! ## Tiles -/

/-- A weight array (08 R154): rows of 128 16-bit elements, rows of 16 block scales. [DESIGN CHOICE, log 4] -/
structure WArray where
  elem : List (BitVec 2048) := []
  fmt : BitVec 3 := 0
  bsc : List (BitVec 128) := []
  band0 : BitVec 16 := 0
  band1 : BitVec 16 := 0
  rtag : BitVec 24 := 0
  valid : Bool := false
  pois : Bool := false
  deriving DecidableEq, Repr

/-- An accumulator row: 128 words of 32 bits, one poison bit (08 R155). -/
structure AccRow where
  bits : BitVec 4096 := 0
  pois : Bool := false
  deriving DecidableEq, Repr

/-- Tile states (17 R362). -/
inductive TileState where
  | normal | derated | drained | quarantined | retired
  deriving DecidableEq, Repr

/-- An entry of a placed queue (13 R290). -/
structure Placed where
  ctx : BitVec 32
  inst : Nat
  idx : Nat
  twin : Option Nat := none
  runnable : Bool := false
  /-- prefetches issued (09 R189) -/
  issued : Bool := false
  passed : Nat := 0
  deriving DecidableEq, Repr

structure Tile where
  state : TileState := .normal
  arrays : List WArray := []
  /-- accumulator rows, by 128 × accumulator + row; an unlisted row is +0, not poisoned (08 R158) -/
  acc : List (Nat × AccRow) := []
  jobs : List MatJob := []
  lastCtx : Option (BitVec 32) := none
  queue : List Placed := []
  claim : Option (BitVec 32) := none
  run : Option Run := none
  -- performance counters (17 R354) and marks (R355)
  cycbusy : BitVec 64 := 0
  /-- CYCIDLE as it stood when the tile's clock stopped for good (RETIRED); before, it is what remains of all cycles -/
  idleEnd : Option Nat := none
  belays : BitVec 64 := 0
  discards : BitVec 64 := 0
  fired : BitVec 64 := 0
  waitcyc : BitVec 64 := 0
  macrows : BitVec 64 := 0
  deflect : BitVec 64 := 0
  markn : BitVec 64 := 0
  marks : List (Nat × BitVec 128) := []
  -- wear (17 R357-R363)
  life : Nat := 0
  margin : Nat := 2560
  prevMargin : Nat := 2560
  /-- margin at manufacture (17 R357, R368) -/
  made : Nat := 2560
  af : Nat := 256
  blame : Nat := 0
  em0 : BitVec 64 := 0
  em1 : BitVec 64 := 0
  passes : Nat := 0
  drainedAt : Nat := 0
  /-- busy cycles not yet charged: wear interval, context, cycles (17 R358, R359) -/
  busy : List (Nat × BitVec 32 × Nat) := []
  /-- MODEL: the tile's own time at its last sample (17 R357) -/
  sampledAt : Nat := 0
  /-- MODEL: the state before the last transition, and its cycle (17 R363) -/
  moved : Option (TileState × Nat) := none
  deriving DecidableEq, Repr

/-! ## Graph memory (15) -/

/-- Task states of a record (14 R292). -/
inductive RecSt where
  | waiting | pending | placed | runnable | running | stalled | twinWait | committing | abandoned | killed | retired
  deriving DecidableEq, Repr

/-- A live record (15 R315, R318; 18 R438). -/
structure Rec where
  st : RecSt := .waiting
  /-- the record's 32 words as graph memory holds them (15 R315, R320) -/
  words : List (BitVec 64) := []
  counter : BitVec 32 := 0
  gen : Nat := 0
  spilled : Bool := false
  /-- cycle of the last entry to PENDING (14 R305) -/
  since : Nat := 0
  /-- cycle since which no tile of its die was eligible (14 R296) -/
  blocked : Option Nat := none
  /-- held out of placement by an unplaceable report (14 R304) -/
  held : Bool := false
  /-- effective priority at the last placement (14 R305) -/
  frozen : Nat := 0
  /-- the pin was dropped (15 R332) -/
  unpinned : Bool := false
  dogs : Nat := 0
  refusals : Nat := 0
  votes : Nat := 0
  /-- the twins differ and a third run is called for (18 R380) -/
  third : Bool := false
  deriving DecidableEq, Repr

/-- An input port of a record's binding (11 R249-R256). -/
structure InPort where
  inst : Nat
  idx : Nat
  port : Nat
  fanin : Nat
  /-- record indices of the producers, in source order -/
  producers : List Nat
  queue : List Packet := []
  kept : List Packet := []
  eots : Nat := 0
  ended : Bool := false
  /-- per source: next expected number, failures of that packet -/
  srcs : List (BitVec 32 × Nat) := []
  deriving DecidableEq, Repr

/-- A live instance (15 R318). -/
structure Inst where
  id : Nat
  ctx : BitVec 32
  templ : BitVec 64
  tag : BitVec 32
  die : Nat
  prio : Nat := 0
  k : Nat := 1
  nrec : Nat
  succoff : Nat := 0
  rename : List (BitVec 64) := []
  cont : Option (BitVec 64 × BitVec 32) := none
  /-- its graph state has been lost: it is no longer live (18 R382) -/
  lost : Bool := false
  /-- mailbox whose delivery made it, and the message words (13 R283) -/
  mbox : Option Nat := none
  msg : Option (Nat × BitVec 512) := none
  recs : List Rec
  deriving DecidableEq, Repr

/-- Who asked for an instance (15 R318). -/
inductive Origin where
  | launch (queue : Nat)
  | spawn
  | mailbox (mbox : Nat) (words : BitVec 512) (hrec : Nat)
  deriving DecidableEq, Repr

/-- A creation that waits (15 R318). -/
structure Creation where
  ctx : BitVec 32
  templ : BitVec 64
  rename : BitVec 64
  /-- the spawner's table, when RENAME = 1 (15 R325) -/
  table : List (BitVec 64) := []
  tag : BitVec 32
  prio : Nat
  cont : Option (BitVec 64 × BitVec 32) := none
  origin : Origin
  /-- address of the launch entry -/
  entryAddr : BitVec 64 := 0
  die : Nat := 0
  deriving DecidableEq, Repr

/-- How a decrement names its target (15 R322, R324). -/
inductive DecTarget where
  | slot (inst idx gen : Nat) (templ : BitVec 64) (tag : BitVec 32)
  | tagged (templ : BitVec 64) (tag : BitVec 32) (idx : Nat)
  | noCont (templ : BitVec 64) (tag : BitVec 32)
  /-- package, location found at the commit checks, virtual address, tag -/
  | remote (pkg : Nat) (loc : Nat) (va : BitVec 64) (tag : BitVec 32)
  deriving DecidableEq, Repr

/-- A decrement in flight or parked (15 R322-R324). -/
structure Decrement where
  ctx : BitVec 32
  target : DecTarget
  amt : Nat
  pub : Option Nat := none
  die : Nat := 0
  /-- sent to a peer package, whose refusal may still come back (15 R324) -/
  answered : Bool := false
  /-- the UALink port a peer's decrement came by -/
  port : Option Nat := none
  deriving DecidableEq, Repr

/-- A message in flight (13 R283-R288). -/
structure Message where
  ctx : BitVec 32
  mbox : Nat
  words : BitVec 512
  pub : Option Nat := none
  sender : BitVec 32 := 0
  /-- the send control word -/
  ctl : BitVec 64 := 0
  recVa : BitVec 64 := 0
  tag : BitVec 32 := 0
  /-- the UALink port a peer's message came by -/
  port : Option Nat := none
  /-- it has reached its mailbox and is back-pressured, since a cycle (13 R284) -/
  waiting : Bool := false
  waitsFrom : Nat := 0
  /-- its place among the messages that wait, by arrival -/
  order : Nat := 0
  /-- a message for another package has left this one and awaits its answer -/
  sent : Bool := false
  reported : Bool := false
  deriving DecidableEq, Repr

/-- A BIND or UNBIND on its way to its mailbox (13 R289). -/
structure MboxBind where
  ctx : BitVec 32
  mbox : Nat
  /-- the handler's template and the bind control word; none for UNBIND -/
  bind : Option (BitVec 64 × BitVec 64)
  pub : Nat
  deriving DecidableEq, Repr

/-- A mailbox (13 R282); the held messages in acceptance order. -/
structure Mbox where
  bound : Bool := false
  htempl : BitVec 64 := 0
  hrec : Nat := 0
  h : Nat := 1
  hprio : Nat := 0
  live : Nat := 0
  mseq : BitVec 32 := 0
  held : List (BitVec 32 × BitVec 512) := []
  /-- delivery suspended until the next BIND (13 R289) -/
  broken : Bool := false
  deriving DecidableEq, Repr

/-- A member of a rope (15 R326). -/
structure Member where
  inst : Nat
  idx : Nat
  b : BitVec 32
  a : BitVec 32
  deriving DecidableEq, Repr

structure Rope where
  key : BitVec 32
  ctx : BitVec 32
  phase : BitVec 32 := 0
  members : List Member := []
  deriving DecidableEq, Repr

/-- An arrival on its way to a rope's die (15 R328). -/
structure Arrival where
  tile : Nat
  ctx : BitVec 32
  key : BitVec 32
  inst : Nat
  idx : Nat
  n : Nat
  /-- the run that sent it still runs -/
  live : Bool := true
  deriving DecidableEq, Repr

/-! ## Copies, contributions, publication -/

/-- An element in flight: number, destination, source, and its data once read (11 R234). -/
structure Elem where
  n : Nat
  loc : Nat
  src : Nat := 0
  /-- the read of its source has been performed -/
  got : Bool := false
  data : BitVec 128 := 0
  pois : Bool := false
  /-- the leaves that translated its addresses (16 R345) -/
  via : List LeafUse := []
  deriving DecidableEq, Repr

/-- Where the wait for a stalled copy stands (11 R245). -/
inductive CopyStall where
  | no
  /-- waits for the elements below -/
  | draining (f : FaultInfo)
  /-- reported by the record of this number -/
  | stalled (seq : Nat) (f : FaultInfo)
  deriving DecidableEq, Repr

structure Copy where
  id : Nat
  tile : Nat
  ctx : BitVec 32
  inst : Nat
  idx : Nat
  twin : Option Nat := none
  desc : CopyDesc
  pitch : BitVec 64 := 0
  slot : Nat := 128
  lsid : Nat := 255
  /-- next element to translate -/
  next : Nat := 0
  /-- leading completed elements: the progress P -/
  prog : Nat := 0
  /-- completed elements above P -/
  above : List Nat := []
  fly : List Elem := []
  stall : CopyStall := .no
  stampDone : Bool := false
  done : Bool := false
  skip : BitVec 16 := 0
  /-- a SIN copy whose port ended (11 R254) -/
  cut : Bool := false
  /-- sectors of a packet being assembled for an output port -/
  part : List Elem := []
  /-- number of the last packet entered in the output port -/
  lastSent : Option (BitVec 32) := none
  /-- scratchpad lines landed poisoned (05 R116) -/
  poisLines : List Nat := []
  /-- the SIN packet being consumed: its sectors left -/
  inPart : List (BitVec 128 × Bool) := []
  /-- merged into another prefetch's read (11 R248) -/
  merged : Option Nat := none
  issuedAt : Nat := 0
  /-- pitches belayed by its tile when it was issued (08 R182) -/
  epoch : Nat := 0
  deriving DecidableEq, Repr

/-- An ordered contribution (10 R223-R225; 11 R239). -/
inductive OrdOp where
  | redo (v : BitVec 32)
  | drawm (p : BitVec 64) (u : BitVec 32)
  | line (op : RedOp) (ty : ElemType) (data : BitVec 1024) (copy : Nat) (elem : Nat)
  deriving DecidableEq, Repr

structure Contribution where
  /-- the context it is made for -/
  ctx : BitVec 32 := 0
  loc : Nat
  q : BitVec 32
  op : OrdOp
  pois : Bool
  pub : Option Nat := none
  /-- the commit it belongs to (03 R55) -/
  com : Option Nat := none
  busy : Bool := false
  deriving DecidableEq, Repr

/-- A shadow line handed over, with the sectors still to be written (12 R259, R262). -/
structure LineOut where
  line : ShadowLine
  left : List Nat
  deriving DecidableEq, Repr

/-- A commit under publication (12 R262). -/
structure Pub where
  id : Nat
  ctx : BitVec 32
  inst : Nat
  idx : Nat
  tile : Nat
  step : Nat := 1
  /-- lines with sectors still to be written -/
  stores : List LineOut := []
  /-- reductions still to be applied: location and operation -/
  reds : List (Nat × CommitOp) := []
  /-- release writes: location of the line, offset in it, whole line, data -/
  rels : List (Nat × Nat × Bool × BitVec 1024) := []
  /-- graph operations of step 3, in order -/
  graph : List CommitEntry := []
  remotes : List (Nat × Nat × Nat) := []
  rename : List (BitVec 64) := []
  /-- MODEL: number of the run that committed, and the leaves its commit checks used (16 R345) -/
  serial : Nat := 0
  via : List LeafUse := []
  /-- the instance as it stood at the handover, its records apart: what step 3 names when it has been destroyed -/
  home : Inst
  deriving DecidableEq, Repr

/-- What a peer waits for in a retry list: a synchronised access, or a claim of its committing task (10 R232). -/
inductive PeerWait where
  | sync (port : Nat) (ctx : BitVec 32) (loc : Nat) (mode : SyncMode) (vec : Bool) (data : BitVec 1024) (pois : Bool)
  | claim (port : Nat)
  deriving DecidableEq, Repr

/-- A waiting entry of a retry list: an immediate-class access (claim = none) or a release claim of a tile, or what a peer
waits for (09 R199). -/
structure RetryEntry where
  line : Nat
  tile : Nat := 0
  claim : Option Nat := none
  remote : Option PeerWait := none
  deriving DecidableEq, Repr

/-! ## Contexts (19) -/

structure Root where
  frame : BitVec 38
  aper : BitVec 3
  deriving DecidableEq, Repr

/-- A registered QCB: its address and the device's own error state (13 R274). -/
structure QcbReg where
  va : BitVec 64
  err : Bool := false
  deriving DecidableEq, Repr

/-- A fault record (13 R277): its 64 bytes. -/
structure FaultRec where
  bits : BitVec 512
  stall : Bool
  seq : Nat
  /-- held in the larder: 64 bytes of its use (09 R203) -/
  larder : Bool := false
  deriving DecidableEq, Repr

/-- What a record that awaits RESUME holds (18 R371, R372). -/
inductive AwaitOf where
  | task (tile : Nat)
  | copy (id : Nat)
  | unplaceable (inst idx : Nat)
  deriving DecidableEq, Repr

structure Await where
  seq : Nat
  code : Nat
  of : AwaitOf
  deriving DecidableEq, Repr

/-- The four counts of quiescence (14 R311). -/
structure Counts where
  created : BitVec 64 := 0
  retired : BitVec 64 := 0
  sent : BitVec 64 := 0
  received : BitVec 64 := 0
  deriving DecidableEq, Repr

/-- The verdict of a template check, kept per context and template (15 R319). -/
structure TemplInfo where
  templ : BitVec 64
  /-- location of the image's first byte -/
  loc : Nat
  k : Nat := 1
  nrec : Nat := 0
  nbuf : Nat := 0
  succoff : Nat := 0
  succlen : Nat := 0
  /-- the first offending word of an image that failed the check -/
  bad : Option (BitVec 64) := none
  deriving DecidableEq, Repr

structure Ctx where
  id : BitVec 32
  prot : Bool := false
  session : BitVec 32 := 0
  root : Option Root := none
  gquota : Nat := 4096
  tquota : Nat := 64
  weight : Nat := 64
  wquota : Nat := 0
  larder : Nat := 0
  lardlen : Nat := 0
  rngkey : BitVec 64 := 0
  /-- cache and bank-memory slices per bank (128 × die + bank); an unlisted bank has none -/
  cache : List (Nat × Nat) := []
  bank : List (Nat × Nat) := []
  /-- the lines of bank memory that lie in the spill region, from its base on, since their slices were reassigned, with the bytes
  written there (09 R194) -/
  bankOut : List (Nat × List Byte) := []
  spillBase : Nat := 0
  spillLen : Nat := 0
  launch : List (Nat × QcbReg) := []
  faultQ : Option QcbReg := none
  logQ : Option QcbReg := none
  seq : Nat := 0
  heldRecs : List FaultRec := []
  /-- check values found failing for the context (09 R206) -/
  mismatches : BitVec 64 := 0
  /-- MODEL: lines of its rings found failing in this step, whose CHECK_MISMATCH records are still to be made (09 R206) -/
  mism : List Nat := []
  /-- notifications of its rings that wait for a Chrolu port to carry them (19 R394) -/
  notes : List (BitVec 16) := []
  await : List Await := []
  keys : List (BitVec 256) := []
  charge : Nat := 0
  overQuota : Bool := false
  /-- counts of die 0 to 3 -/
  counts : List Counts := [{}, {}, {}, {}]
  /-- waves of the context so far (14 R312) -/
  waves : Nat := 0
  /-- totals of the last wave, and whether a QUIESCENT record stands for them -/
  wave : Option (Counts × Bool) := none
  mboxes : List (Nat × Mbox) := []
  /-- verdicts of template checks (15 R319) -/
  templates : List TemplInfo := []
  deriving DecidableEq, Repr

/-! ## Die, cluster and package -/

/-- Decision counters of a die (17 R351). -/
structure Decisions where
  plRes : BitVec 64 := 0
  plNear : BitVec 64 := 0
  plIdle : BitVec 64 := 0
  plWear : BitVec 64 := 0
  plSole : BitVec 64 := 0
  plOther : BitVec 64 := 0
  plXdie : BitVec 64 := 0
  claim : BitVec 64 := 0
  drain : BitVec 64 := 0
  pfmerge : BitVec 64 := 0
  wdog : BitVec 64 := 0
  spill : BitVec 64 := 0
  reload : BitVec 64 := 0
  stray : BitVec 64 := 0
  park : BitVec 64 := 0
  dupseq : BitVec 64 := 0
  tdrop : BitVec 64 := 0
  deriving DecidableEq, Repr

/-- The scoring table (14 R298), in its field order. -/
structure Scoring where
  wres : BitVec 16 := 64
  wnear : BitVec 16 := 8
  wload : BitVec 16 := -16
  widle : BitVec 16 := 32
  wder : BitVec 16 := -32
  wwear : BitVec 16 := -1
  deriving DecidableEq, Repr

structure Die where
  dec : Decisions := {}
  score : Scoring := {}
  trace : Option Nat := none
  /-- last context served per level (14 R306) -/
  rr : List (Nat × BitVec 32) := []
  /-- placements left of the current visit, per level -/
  visit : List (Nat × Nat) := []
  spareUsed : Bool := false
  /-- the spare has failed its test since package reset (17 R366) -/
  spareFailed : Bool := false
  deriving DecidableEq, Repr

/-- What a cluster's temperature asks of its clock (01 R22). -/
inductive Heat where
  | cool | lowered | stopped
  deriving DecidableEq, Repr

/-- An entry of a commit history (18 R384). -/
structure History where
  ctx : BitVec 32
  recVa : BitVec 64
  tag : BitVec 32
  num : Nat
  tile : Nat
  deriving DecidableEq, Repr

/-- How far a cluster's retirement has gone (17 R366). -/
inductive Retirement where
  | no
  | byCount
  | shared
  | retired
  deriving DecidableEq, Repr

structure Cluster where
  retire : Retirement := .no
  inTest : Bool := false
  /-- placement is stopped for a test (18 R383) -/
  testDue : Bool := false
  lastPass : Nat := 0
  passCommit : Nat := 0
  history : List History := []
  truncated : Bool := false
  heat : Heat := .cool
  /-- lowered for the power cap (20 R410) -/
  capped : Bool := false
  /-- clock-gated while idle (20 R410) -/
  gated : Bool := false
  /-- cycles in which its clock was stopped or gated -/
  unclocked : Nat := 0
  /-- of these, cycles in which heat had stopped it (01 R22): its tiles have none of their own -/
  stopped : Nat := 0
  /-- cycle since which the cluster has been idle -/
  idleSince : Nat := 0
  deriving DecidableEq, Repr

/-- An entry of the logical cluster map (15 R330). -/
structure MapEntry where
  die : Nat
  phys : Nat
  pres : Bool := true
  /-- physical cluster that a spare in service replaces -/
  was : Option Nat := none
  deriving DecidableEq, Repr

/-- A translation cached by an L1 TLB (unit = tile), an L2 TLB (unit = 2000 + logical cluster) (16 R339). -/
structure TlbEntry where
  unit : Nat
  ctx : BitVec 32
  va : BitVec 64
  leaf : BitVec 64
  level : Nat
  deriving DecidableEq, Repr

/-- A table entry cached by a die's walkers (16 R339): the level read, the index bits above, the entry. -/
structure NodeEntry where
  die : Nat
  ctx : BitVec 32
  level : Nat
  vaTop : Nat
  entry : BitVec 64
  deriving DecidableEq, Repr

/-- Who waits for an invalidation (16 R345). -/
inductive InvFor where
  | svc (tile : Nat)
  | host (port : Nat) (index : BitVec 32)
  /-- a MIGRATE: the leaf it replaces, the new one, the location of the first entry of the group (16 R348) -/
  | migrate (tile : Nat) (old new : BitVec 64) (entry : Nat)
  deriving DecidableEq, Repr

/-- What may still use a dropped translation (16 R345). -/
inductive Holder where
  /-- an element of a copy in flight -/
  | elem (copy n : Nat)
  /-- an immediate-class access: the run, and pitches belayed and discarded by its tile -/
  | imm (tile serial : Nat) (belays discards : BitVec 64)
  /-- the MWAITs of a pitch -/
  | mwait (tile serial : Nat) (belays discards : BitVec 64)
  /-- the commit checks of a run, together with its publication -/
  | commit (tile serial : Nat)
  /-- a run that holds shadow lines, until it has retired or been rolled back -/
  | shadow (tile serial : Nat)
  deriving DecidableEq, Repr

structure Invalidation where
  ctx : BitVec 32
  kind : Nat
  start : BitVec 64
  units : Nat
  shadow : Bool
  owner : InvFor
  holders : List Holder := []
  deriving DecidableEq, Repr

/-- A drain for a context (14 R309). -/
structure Drain where
  ctx : BitVec 32
  mask : BitVec 64
  port : Nat
  index : BitVec 32
  /-- it has completed: only the tiles it excluded are still kept, until their STALLED tasks are serviced -/
  ended : Bool := false
  excluded : List Nat := []
  deriving DecidableEq, Repr

/-- A peer's capability record as verified (19 R395). -/
structure Peer where
  pkg : BitVec 10
  ports : BitVec 16
  rev : BitVec 16
  encl : BitVec 32
  ops : BitVec 64
  redt : BitVec 16
  mbox : Bool
  rdec : Bool
  deriving DecidableEq, Repr

/-- Lock states of a port (19 R394). -/
inductive Lock where
  | unlocked | locked | run | error
  deriving DecidableEq, Repr

/-- Protection modes of a virtual channel (19 R396). -/
inductive ChanMode where
  | encrypt | integrity | plain
  deriving DecidableEq, Repr

structure Port where
  lock : Lock := .unlocked
  session : Option Nat := none
  keys : Bool := false
  modes : List ChanMode := [.encrypt, .encrypt, .encrypt, .encrypt]
  laneMap : Nat := 0
  peerId : Nat := 0
  /-- replays in a row that have failed (18 R386) -/
  replays : Nat := 0
  /-- the next expected link sequence number of each virtual channel (18 R386; 19 R397) -/
  expected : List Nat := [0, 0, 0, 0]
  /-- it has been in ERROR, and what is outstanding waits until it is in RUN under new keys (19 R394) -/
  waiting : Bool := false
  refused : BitVec 64 := 0
  deriving DecidableEq, Repr

/-- The algorithms the device negotiates (19 R393). -/
inductive TranscriptHash where
  | sha384
  deriving DecidableEq, Repr

inductive SignAlg where
  | falcon1024Shake256
  deriving DecidableEq, Repr

inductive KeyExchangeAlg where
  | ecdheSecp384r1
  deriving DecidableEq, Repr

inductive AeadAlg where
  | aes256Gcm
  deriving DecidableEq, Repr

structure Suite where
  hash : TranscriptHash := .sha384
  sign : SignAlg := .falcon1024Shake256
  exchange : KeyExchangeAlg := .ecdheSecp384r1
  aead : AeadAlg := .aes256Gcm
  deriving DecidableEq, Repr

/-- An SPDM session (19 R393). -/
structure Session where
  id : Nat
  side : SpdmEnd
  finished : Bool := false
  keyGen : Nat := 0
  suite : Suite := {}
  deriving DecidableEq, Repr

/-- The SPDM exchange at an end before a session (19 R393). -/
structure SpdmConn where
  side : SpdmEnd
  version : Bool := false
  caps : Bool := false
  algs : Option Suite := none
  deriving DecidableEq, Repr

/-- SPDM requests (19 R393). -/
inductive SpdmMsg where
  | version | capabilities | algorithms | digests | certificate | challenge | measurements
  | keyExchange | finish | keyUpdate | endSession
  deriving DecidableEq, Repr

/-- What leaves the package: MODEL's record, newest first. -/
inductive Out where
  | notify (vec : BitVec 16)
  /-- what a host's or a peer's request reads, with the poison bit and the check values of the lines it comes from (19 R402) -/
  | hostData (port : Nat) (bytes : List Byte) (pois : Bool) (checks : List (BitVec 32))
  | peerData (port : Nat) (bytes : List Byte) (pois : Bool) (checks : List (BitVec 32))
  /-- what a peer's request is answered with when it is not performed: a fault code, or busy -/
  | peerFault (port : Nat) (code : Nat)
  | peerBusy (port : Nat)
  | peerMessage (pkg : Nat) (ctx : BitVec 32) (mbox : Nat) (words : BitVec 512)
  | peerDecrement (pkg : Nat) (ctx : BitVec 32) (pa : Nat) (tag : BitVec 32) (amt : Nat)
  /-- an answer of the responder, or a request of the requester (19 R393) -/
  | spdm (side : SpdmEnd) (m : SpdmMsg) (ok : Bool) (body : List Byte)
  /-- the algorithms the responder has chosen (19 R393) -/
  | chosen (side : SpdmEnd) (suite : Suite)
  | status (word : BitVec 64)
  /-- a packet that is sent again from the retry buffer, on its virtual channel under its link sequence number (18 R386) -/
  | replay (port : PortSel) (chan seq : Nat) (packet : Out)
  /-- a replay is asked for from a link sequence number of a virtual channel on (18 R386) -/
  | askReplay (port : PortSel) (chan seq : Nat)
  deriving DecidableEq, Repr

/-- A packet in a port's retry buffer (18 R386; 19 R397). -/
structure Sent where
  port : PortSel
  chan : Nat
  seq : Nat
  packet : Out
  deriving DecidableEq, Repr

/-- Lifetime data of one tile (17 R368). -/
structure TileLife where
  state : TileState
  life : Nat
  blame : Nat
  margin : Nat
  made : Nat := 2560
  af : Nat
  em0 : BitVec 64
  em1 : BitVec 64
  deriving DecidableEq, Repr

/-- One copy of the lifetime record (17 R368, R369); unlisted tiles are new. -/
structure LifeRecord where
  valid : Bool := true
  count : Nat := 0
  tiles : List (Nat × TileLife) := []
  /-- retired clusters, by 17 × die + physical cluster -/
  retired : List Nat := []
  /-- retired clusters that a spare replaces -/
  spareFor : List Nat := []
  sparesUsed : List Nat := []
  /-- the life-cycle state (20 R405) -/
  lcs : BitVec 2 := 1
  deriving DecidableEq, Repr

/-- Supply and clocks of the package (17 R369; 20 R405, R409); `halted`: reset stopped after step 2. -/
inductive Power where
  | on | frozen | off | halted
  deriving DecidableEq, Repr

/-- A microcode image: version, digest, whether its signature verifies (20 R406). -/
structure UcodeImage where
  version : Nat
  digest : BitVec 256
  good : Bool := true
  deriving DecidableEq, Repr

/-- Package-wide state (17, 19, 20). -/
structure Pkg where
  id : BitVec 10 := 0
  encl : BitVec 32 := 0
  peers : List Peer := []
  map : List MapEntry := []
  topogen : BitVec 32 := 0
  clusters : List (Nat × Cluster) := []
  commitSeq : Nat := 0
  /-- table regions: index, aperture, base, length (16 R343) -/
  regions : List (Nat × Nat × Nat × Nat) := []
  ddrPres : BitVec 12 := 0xFFF
  /-- bytes of the RDIMM fitted to each channel, 0 where there is none (16 R338) -/
  rdimm : List Nat := List.replicate 12 (2 ^ 38)
  lifeOk : Bool := true
  ucodeOk : Bool := true
  lcs : BitVec 2 := 1
  lifeA : LifeRecord := {}
  lifeB : LifeRecord := {}
  /-- MODEL: cycle of the last write of the lifetime record since package reset (17 R369) -/
  lifeAt : Option Nat := none
  /-- microcode images in management flash, in the order they are tried (20 R406) -/
  flash : List UcodeImage := [{ version := 0, digest := Config.ucodeDigest }]
  /-- the rollback counter in fuses -/
  rollback : Nat := 0
  /-- digest of the microcode that runs -/
  ucode : BitVec 256 := Config.ucodeDigest
  firmware : BitVec 256 := Config.firmwareDigest
  statusWord : BitVec 64 := 0
  ctx0Set : Bool := false
  /-- Chrolu ports on whose completion ring the reset status word is still to be written (20 R404) -/
  statusDue : List Nat := [0, 1]
  powerCap : Nat := 2300
  /-- a microcode image is being changed, until a cycle (20 R407) -/
  change : Option Nat := none
  watts : Nat := 0
  power : Power := .on
  ports : List (Nat × Port) := []
  sessions : List Session := []
  conns : List SpdmConn := []
  drains : List Drain := []
  invs : List Invalidation := []
  tlb : List TlbEntry := []
  nodes : List NodeEntry := []
  wearMarks : List (Nat × Nat) := []
  deriving DecidableEq, Repr

/-- Everything under way between agents. -/
structure Fabric where
  copies : List Copy := []
  decs : List Decrement := []
  parked : List Decrement := []
  msgs : List Message := []
  /-- BINDs and UNBINDs of step 3 on their way to their mailboxes (12 R262; 13 R289) -/
  binds : List MboxBind := []
  creations : List Creation := []
  pubs : List Pub := []
  retry : List RetryEntry := []
  arriving : List Contribution := []
  held : List Contribution := []
  ropeArr : List Arrival := []
  inPorts : List InPort := []
  /-- the retry buffers of the ports, oldest packet first, and the next link sequence number of a virtual channel, by 4 × port + channel
  (18 R386; 19 R397) -/
  sent : List Sent := []
  sentNext : List (Nat × Nat) := []
  nextId : Nat := 0
  deriving DecidableEq, Repr

/-- Who moves at a turn (MODEL): an event, a slot of a tile's window, or the default choice. -/
inductive Move where
  | event (i : Instr)
  | slot (tile slot : Nat)
  | auto
  deriving DecidableEq, Repr

/-- One turn of the agenda (MODEL): the cycles that pass before it, and who moves. -/
structure Turn where
  dt : Nat
  move : Move
  deriving DecidableEq, Repr

/-- The machine. -/
structure State where
  mem : Memory
  lines : List (Nat × LineMeta)
  tiles : List (Nat × Tile)
  ctxs : List Ctx
  insts : List Inst
  ropes : List Rope
  fab : Fabric
  dies : List Die
  pkg : Pkg
  /-- package cycles since reset step 5; TIME counts one in seventeen (20 R403; 00 R8) -/
  cycle : Nat
  /-- MODEL: the tile that moves by default -/
  focus : Nat
  /-- MODEL: free values taken so far -/
  free : Nat
  /-- MODEL: the turns to come -/
  agenda : List Turn
  out : List Out
  deriving DecidableEq, Repr

/-! ## Reset (20 R403) -/

/-- Logical cluster ids of a new part (01 R15): physical clusters 0-15 of die 0 to die 3. -/
def resetMap : List MapEntry :=
  (List.range 64).map fun i => { die := i / 16, phys := i % 16 }

/-- Context 0 as it exists from step 5 of reset (19 R390). -/
def resetCtx0 : Ctx := { id := 0, keys := (List.range 4).map Config.freeKey }

/-- The reset status word (20 R404) of a new, fully fitted part in PRODUCTION. -/
def resetStatus : BitVec 64 := 0x0040DFFF

/-- The machine right after package reset (20 R403) of a new part. [DESIGN CHOICE, log 5] -/
def State.reset : State where
  mem := { cells := [] }
  lines := []
  tiles := []
  ctxs := [resetCtx0]
  insts := []
  ropes := []
  fab := {}
  dies := [{}, {}, {}, {}]
  pkg := { map := resetMap, statusWord := resetStatus }
  cycle := 0
  focus := 0
  free := 4
  agenda := []
  out := [.status resetStatus]

end Sys2Proof.Machine
end

