-- ==== Sys2Proof/Machine/Memory.lean ====
section
/-! DEFINITION. Keyed lists in canonical form, memory bytes by location, and lines with their metadata (09). -/

namespace Sys2Proof.Machine

/-! ## Keyed lists: keys strictly rising -/

/-- The value at a key, or the default. -/
def kvGet {α : Type} (d : α) : List (Nat × α) → Nat → α
  | [], _ => d
  | (i, v) :: rest, k => if i = k then v else kvGet d rest k

/-- Insert or replace the value at a key. -/
def kvPut {α : Type} : List (Nat × α) → Nat → α → List (Nat × α)
  | [], k, v => [(k, v)]
  | (i, w) :: rest, k, v =>
    if k < i then (k, v) :: (i, w) :: rest
    else if k = i then (k, v) :: rest
    else (i, w) :: kvPut rest k v

/-- Remove a key. -/
def kvErase {α : Type} : List (Nat × α) → Nat → List (Nat × α)
  | [], _ => []
  | (i, w) :: rest, k => if i = k then rest else (i, w) :: kvErase rest k

/-- Set a value, the default being unlisted. -/
def kvSet {α : Type} [DecidableEq α] (d : α) (l : List (Nat × α)) (k : Nat) (v : α) : List (Nat × α) :=
  if v = d then kvErase l k else kvPut l k v

/-- Keys strictly rising and no value the default. -/
def kvWf {α : Type} [DecidableEq α] (d : α) : List (Nat × α) → Bool
  | [] => true
  | [(_, v)] => v != d
  | (i, v) :: (j, w) :: rest => i < j && v != d && kvWf d ((j, w) :: rest)

/-! ## Memory bytes -/

/-- What an unlisted location reads as: zero, the contents memory initialisation leaves (09 R185; 20 R403). [DESIGN CHOICE, log 3] -/
def unlistedByte : Byte := 0

/-- The canonical form of a memory. -/
def Memory.wf (m : Memory) : Bool := kvWf unlistedByte m.cells

/-- One byte. [DESIGN CHOICE, log 14] -/
def Memory.read (m : Memory) (a : Nat) : Byte := kvGet unlistedByte m.cells a

/-- Write one byte. -/
def Memory.write (m : Memory) (a : Nat) (b : Byte) : Memory := { cells := kvSet unlistedByte m.cells a b }

/-- n bytes from a location. -/
def Memory.bytes (m : Memory) (a : Nat) : Nat → List Byte
  | 0 => []
  | n + 1 => m.read a :: Memory.bytes m (a + 1) n

/-- Write bytes at successive locations. -/
def Memory.writes (m : Memory) (a : Nat) : List Byte → Memory
  | [] => m
  | b :: rest => Memory.writes (m.write a b) (a + 1) rest

/-- Little-endian value of bytes (00 R5). -/
def leNat : List Byte → Nat
  | [] => 0
  | b :: rest => b.toNat + 256 * leNat rest

/-- The n bytes of a value, little-endian. -/
def toBytes (v : Nat) : Nat → List Byte
  | 0 => []
  | n + 1 => BitVec.ofNat 8 v :: toBytes (v / 256) n

/-- The little-endian value of n bytes at a location. -/
def Memory.value (m : Memory) (a n : Nat) : Nat := leNat (m.bytes a n)

/-! ## Locations

One number names every byte a package can reach: space, package (0 local, p + 1 for peer p), context or tile, address. -/

def spHbm : Nat := 0
def spDdr : Nat := 1
def spBank : Nat := 2
def spHost : Nat := 4
def spPad : Nat := 5
/-- No memory: the port of a stream -/
def spPort : Nat := 6

/-- The location of an address of a space. -/
def locOf (sp pkg ctx pa : Nat) : Nat := sp * 2 ^ 96 + pkg * 2 ^ 84 + ctx * 2 ^ 52 + pa

def locSpace (l : Nat) : Nat := l / 2 ^ 96
def locPkg (l : Nat) : Nat := l / 2 ^ 84 % 2 ^ 12
def locCtx (l : Nat) : Nat := l / 2 ^ 52 % 2 ^ 32
def locPa (l : Nat) : Nat := l % 2 ^ 52

/-- A scratchpad byte of a tile (09 R184). -/
def padLoc (tile off : Nat) : Nat := locOf spPad 0 tile off

/-- The line of a location. -/
def lineKey (l : Nat) : Nat := l / 128

/-- The lines n bytes from a location touch. -/
def linesOf (l n : Nat) : List Nat :=
  (List.range ((l + n + 127) / 128 - l / 128)).map fun i => l / 128 + i

/-- The state a line has beside its data. -/
def State.line (s : State) (key : Nat) : LineMeta := kvGet {} s.lines key

def State.setLine (s : State) (key : Nat) (m : LineMeta) : State := { s with lines := kvSet {} s.lines key m }

def State.modLine (s : State) (key : Nat) (f : LineMeta → LineMeta) : State := s.setLine key (f (s.line key))

/-- A line whose data no longer meets its check value (09 R206). -/
def LineMeta.chkBad (m : LineMeta) : Bool := m.chk != 0

/-- An address that no package has: beyond HBM4, or beyond the DDR-5 channels (16 R336, R338). What a peer has fitted below is
taken as present. [DESIGN CHOICE, log 15] -/
def absentLoc (l : Nat) : Bool :=
  locPkg l != 0 && ((locSpace l == spHbm && decide (2 ^ 39 ≤ locPa l)) || (locSpace l == spDdr && decide (12 * 2 ^ 38 ≤ locPa l)))

/-- Whether a read of n bytes at a location is delivered poisoned (09 R206; 16 R336). -/
def State.poisonAt (s : State) (l n : Nat) : Bool :=
  absentLoc l || (linesOf l n).any fun k => (s.line k).pois || (s.line k).chkBad

/-- Metadata of a line after a write of some or all of its bytes (09 R187, R205; 11 R239). -/
def LineMeta.written (m : LineMeta) (whole pois pad : Bool) : LineMeta :=
  { m with
    pois := if whole then pois else m.pois || m.chkBad || pois
    chk := 0
    lseq := 0
    wr := m.wr || pad
    used := m.used || !pad }

/-- Write bytes that lie in one line, with the poison of the data. -/
def State.storeLine (s : State) (l : Nat) (bs : List Byte) (pois : Bool) : State :=
  let whole := l % 128 == 0 && bs.length == 128
  { s with mem := s.mem.writes l bs }.modLine (lineKey l) fun m => m.written whole pois (locSpace l == spPad)

/-- A 128-byte line as one value. -/
def State.lineData (s : State) (key : Nat) : BitVec 1024 := BitVec.ofNat 1024 (s.mem.value (key * 128) 128)

/-- Lengths of the parts of an access of n bytes at an address, cut at 128-byte lines; fuel bounds the parts. -/
def cutLines (a n : Nat) : Nat → List (Nat × Nat)
  | 0 => []
  | f + 1 =>
    if n = 0 then []
    else
      let k := min n (128 - a % 128)
      (a, k) :: cutLines (a + k) (n - k) f

/-- Write bytes across lines, every part with one poison. -/
def State.storeCut (s : State) (bs : List Byte) (l : Nat) (pois : Bool) : List (Nat × Nat) → State
  | [] => s
  | (a, k) :: rest => State.storeCut (s.storeLine a ((bs.drop (a - l)).take k) pois) bs l pois rest

/-- Write bytes at a location. -/
def State.store (s : State) (l : Nat) (bs : List Byte) (pois : Bool) : State :=
  s.storeCut bs l pois (cutLines l bs.length (bs.length + 1))

/-! ## Check values (09 R204; 06 R134) -/

/-- One byte of the reflected CRC-32C: eight shifts. -/
def crcShift : Nat → Nat → Nat
  | 0, c => c
  | n + 1, c => crcShift n (if c % 2 = 1 then (c / 2) ^^^ 0x82F63B78 else c / 2)

def crcFrom : List Byte → Nat → Nat
  | [], c => c
  | b :: rest, c => crcFrom rest (crcShift 8 (c ^^^ b.toNat))

/-- CRC-32C of bytes in ascending order. -/
def crc32c (bs : List Byte) : Nat := crcFrom bs 0xFFFFFFFF ^^^ 0xFFFFFFFF

/-- CHK of a line: the check value stored beside its data (09 R185, R204). -/
def State.chk (s : State) (key : Nat) : BitVec 32 := BitVec.ofNat 32 (crc32c (s.mem.bytes (key * 128) 128)) ^^^ (s.line key).chk

end Sys2Proof.Machine
end

