-- ==== Sys2Proof/Machine/Translate.lean ====
section
/-! DEFINITION. Addresses, the walk of the page tables, apertures and translation caches (09 R184-R196; 16). -/

namespace Sys2Proof.Machine

/-! ## Fault codes (18 R374) -/

def fcIllegalOpcode : Nat := 0x01
def fcIllegalEncoding : Nat := 0x02
def fcIllegalPitch : Nat := 0x03
def fcNoExit : Nat := 0x04
def fcMultiExit : Nat := 0x05
def fcImmediateLimit : Nat := 0x06
def fcIllegalFormat : Nat := 0x07
def fcNotMapped : Nat := 0x10
def fcPerm : Nat := 0x11
def fcAperture : Nat := 0x12
def fcAtomicDenied : Nat := 0x13
def fcOpUnsupported : Nat := 0x14
def fcNonCanon : Nat := 0x15
def fcMisaligned : Nat := 0x16
def fcNotSync : Nat := 0x17
def fcFutureFull : Nat := 0x18
def fcClusterAbsent : Nat := 0x19
def fcTrap : Nat := 0x20
def fcBreak : Nat := 0x21
def fcWatchdog : Nat := 0x22
def fcAborted : Nat := 0x23
def fcCommitOverflow : Nat := 0x24
def fcPoisonCommit : Nat := 0x25
def fcTwinMismatch : Nat := 0x26
def fcGraphLost : Nat := 0x27
def fcCopyFault : Nat := 0x28
def fcStreamAbort : Nat := 0x29
def fcMailboxOverflow : Nat := 0x2A
def fcStray : Nat := 0x2B
def fcRopeLimit : Nat := 0x2C
def fcCheckMismatch : Nat := 0x30
def fcSuspect : Nat := 0x31
def fcTopology : Nat := 0x32
def fcQuiescent : Nat := 0x33
def fcWearQuota : Nat := 0x34

/-- MODEL: no fault code: the translation waits for a MIGRATE of its page (16 R349). -/
def fcWait : Nat := 0

/-! ## Addresses (09 R184) -/

def isCanonical (a : Nat) : Bool := a < 2 ^ 56

def isLocal (a : Nat) : Bool := Config.localBase ≤ a && a < Config.localBase + Config.localSize

/-! ## Contexts -/

def State.ctx? (s : State) (id : BitVec 32) : Option Ctx := s.ctxs.find? fun c => c.id == id

/-- Replace the context of the same id. -/
def State.setCtx (s : State) (c : Ctx) : State :=
  { s with ctxs := s.ctxs.map fun d => if d.id == c.id then c else d }

def State.modCtx (s : State) (id : BitVec 32) (f : Ctx → Ctx) : State :=
  { s with ctxs := s.ctxs.map fun d => if d.id == id then f d else d }

/-! ## Entries (16 R334-R337) -/

def bitsAt (e : BitVec 64) (lo n : Nat) : Nat := e.toNat / 2 ^ lo % 2 ^ n

def leafV (e : BitVec 64) : Bool := e.getLsbD 0
def leafR (e : BitVec 64) : Bool := e.getLsbD 1
def leafW (e : BitVec 64) : Bool := e.getLsbD 2
def leafX (e : BitVec 64) : Bool := e.getLsbD 3
def leafSync (e : BitVec 64) : Bool := e.getLsbD 4
def leafRap (e : BitVec 64) : Bool := e.getLsbD 5
def leafG (e : BitVec 64) : Bool := e.getLsbD 7
def leafSize (e : BitVec 64) : Nat := bitsAt e 8 3
def leafAper (e : BitVec 64) : Nat := bitsAt e 11 3
def leafPeer (e : BitVec 64) : Nat := bitsAt e 14 10
def leafFrame (e : BitVec 64) : Nat := bitsAt e 24 38
def leafKey (e : BitVec 64) : Nat := bitsAt e 62 2

/-- Bytes of a page by its size code (16 R336). -/
def pageBytes (size : Nat) : Nat :=
  match size with
  | 0 => 2 ^ 14
  | 1 => 2 ^ 16
  | 2 => 2 ^ 18
  | 3 => 2 ^ 21
  | 4 => 2 ^ 25
  | 5 => 2 ^ 28
  | 6 => 2 ^ 32
  | _ => 2 ^ 36

/-- The level a size code belongs to (16 R336). -/
def sizeLevel (size : Nat) : Nat := if size ≤ 3 then 3 else if size ≤ 6 then 2 else 1

/-- A leaf that breaks R337. -/
def leafMalformed (self : Nat) (level : Nat) (e : BitVec 64) : Bool :=
  e.getLsbD 6 || sizeLevel (leafSize e) != level || leafFrame e % (pageBytes (leafSize e) / 2 ^ 14) != 0 ||
    (leafPeer e != 0 && (leafAper e ≤ 2 || leafAper e == 4)) || (leafAper e == 3 && leafPeer e == self)

/-- A table entry that breaks R334. -/
def tableMalformed (e : BitVec 64) : Bool :=
  bitsAt e 1 3 != 0 || bitsAt e 4 7 != 0 || leafAper e > 1 || leafPeer e != 0 || leafKey e != 0

/-- Whether an entry at a level is a leaf (16 R334). -/
def entryIsLeaf (level : Nat) (e : BitVec 64) : Bool :=
  level == 3 || (level != 0 && (leafR e || leafW e || leafX e))

/-! ## Physical addresses -/

/-- Whether a DDR-5 address is absent (16 R338). -/
def State.ddrAbsent (s : State) (pa : Nat) : Bool :=
  pa ≥ 12 * 2 ^ 38 || !s.pkg.ddrPres.getLsbD (pa / 2 ^ 38) || pa % 2 ^ 38 ≥ s.pkg.rdimm.getD (pa / 2 ^ 38) 0

/-- Device-reserved memory (09 R196). -/
def reserved (pa : Nat) : Bool := pa % 2 ^ 37 ≥ 0xF_F000_0000 && pa % 2 ^ 37 < 0x10_0000_0000

/-- The home bank of an HBM4 or DDR-5 address within its die (09 R193). -/
def homeBank (pa : Nat) : Nat := (pa / 2 ^ 7 % 128) ^^^ (pa / 2 ^ 14 % 128) ^^^ (pa / 2 ^ 21 % 128)

/-- The home die and bank of a local location, as 128 × die + bank; none for peer and host memory (16 R338; 09 R195). -/
def bankOf (l : Nat) : Option Nat :=
  let pa := locPa l
  if locPkg l ≠ 0 then none
  else if locSpace l = spHbm then some (128 * (pa / 2 ^ 37 % 4) + homeBank pa)
  else if locSpace l = spDdr then some (128 * (pa / 2 ^ 14 % 4) + homeBank pa)
  else if locSpace l = spBank then some (128 * (pa / 2 ^ 14 % 4) + pa / 2 ^ 7 % 128)
  else none

/-- Whether a bank-memory address lies within the context's slices of its bank: 1,024 lines a slice (09 R194, R195). [DESIGN CHOICE, log 29] -/
def Ctx.hasBank (c : Ctx) (pa : Nat) : Bool :=
  pa / 2 ^ 16 < 1024 * kvGet 0 c.bank (128 * (pa / 2 ^ 14 % 4) + pa / 2 ^ 7 % 128)

/-! ## The walk -/

/-- A usable leaf, the level it stood at and the page it maps. -/
structure Xlat where
  leaf : BitVec 64
  level : Nat
  deriving DecidableEq, Repr

/-- Base of the page a leaf maps around an address. -/
def Xlat.base (x : Xlat) (va : Nat) : Nat := va - va % pageBytes (leafSize x.leaf)

/-- CAUSE of XLATE_NOTMAPPED: the level, and why the walk ended (16 R346). -/
def notMapped (level why : Nat) : Nat := level + 4 * why

/-- The index of an address at a level (16 R333). -/
def vaIndex (va level : Nat) : Nat := va / 2 ^ (47 - 11 * level) % 2048

/-- One node entry read at its point of coherence: the entry, and whether it is poisoned or failed (16 R341). [DEDUCED, log 23] -/
def State.nodeEntry (s : State) (aper pa : Nat) : BitVec 64 × Bool :=
  let l := locOf aper 0 0 pa
  (BitVec.ofNat 64 (s.mem.value l 8), s.poisonAt l 8 || (aper == 1 && s.ddrAbsent pa))

/-- A table entry as the walkers of a die read it: from their cache, if held (16 R339, R342). -/
def State.walkEntry (s : State) (die : Option Nat) (ctx : BitVec 32) (level va aper pa : Nat) : BitVec 64 × Bool :=
  match s.pkg.nodes.find? fun n =>
      some n.die == die && n.ctx == ctx && n.level == level && n.vaTop == va / 2 ^ (47 - 11 * level) with
  | some n => (n.entry, false)
  | none => s.nodeEntry aper pa

/-- The walk from a node (16 R333-R337); the error is CAUSE of XLATE_NOTMAPPED. -/
def State.walkFrom (s : State) (die : Option Nat) (ctx : BitVec 32) (va : Nat) : Nat → Nat → Nat → Nat → Except Nat Xlat
  | 0, level, _, _ => .error (notMapped level 1)
  | fuel + 1, level, aper, frame =>
    let e := s.walkEntry die ctx level va aper (frame * 2 ^ 14 + 8 * vaIndex va level)
    if e.2 then .error (notMapped level 2)
    else if !leafV e.1 then .error (notMapped level 0)
    else if entryIsLeaf level e.1 then
      if leafMalformed s.pkg.id.toNat level e.1 then .error (notMapped level 1) else .ok { leaf := e.1, level := level }
    else if tableMalformed e.1 then .error (notMapped level 1)
    else State.walkFrom s die ctx va fuel (level + 1) (leafAper e.1) (leafFrame e.1)

/-- A fresh walk of a canonical address in a context's tables. -/
def State.walk (s : State) (die : Option Nat) (ctx : BitVec 32) (va : Nat) : Except Nat Xlat :=
  match s.ctx? ctx with
  | none => .error (notMapped 0 0)
  | some c =>
    match c.root with
    | none => .error (notMapped 0 0)
    | some r => s.walkFrom die ctx va 4 0 r.aper.toNat r.frame.toNat

/-- The unit of the L2 TLB of a physical cluster; the unit of an L1 TLB is its tile. -/
def l2Unit (cluster : Nat) : Nat := 2000 + cluster

/-- The leaf a TLB of a unit holds for an address. -/
def State.tlbHit (s : State) (unit : Nat) (ctx : BitVec 32) (va : Nat) : Option Xlat :=
  (s.pkg.tlb.find? fun e => e.unit == unit && e.ctx == ctx && e.va.toNat == va - va % pageBytes (leafSize e.leaf)).map
    fun e => { leaf := e.leaf, level := e.level }

/-- Translation as seen by a tile (its L1, then its cluster's L2, then a walk), or by a streamer or the dispatcher
(none: a walk) (16 R339, R342). -/
def State.translate (s : State) (tile : Option Nat) (ctx : BitVec 32) (va : Nat) : Except Nat Xlat :=
  match tile with
  | none => s.walk none ctx va
  | some t =>
    match s.tlbHit t ctx va with
    | some x => .ok x
    | none =>
      match s.tlbHit (l2Unit (t / 16)) ctx va with
      | some x => .ok x
      | none => s.walk (some (t / 272)) ctx va

/-- A page of a context under MIGRATE: its translations wait (16 R349). -/
def State.migrating (s : State) (ctx : BitVec 32) (va : Nat) : Bool :=
  s.pkg.invs.any fun v =>
    v.ctx == ctx && decide (v.start.toNat ≤ va) && decide (va < v.start.toNat + 2 ^ 14 * v.units) &&
      (match v.owner with
       | .migrate _ _ _ _ => true
       | .svc _ => false
       | .host _ _ => false)

/-- The leaves that a translation of an address may use now: cached ones, and those a walk of any die finds. -/
def State.leavesAt (s : State) (ctx : BitVec 32) (va : Nat) : List Xlat :=
  (s.pkg.tlb.filterMap fun e =>
    if e.ctx == ctx && decide (e.va.toNat ≤ va) && decide (va < e.va.toNat + pageBytes (leafSize e.leaf)) then
      some { leaf := e.leaf, level := e.level }
    else none) ++
  [none, some 0, some 1, some 2, some 3].filterMap fun d => (s.walk d ctx va).toOption

/-- The leaves an access to an address may use now, as they stand. -/
def State.usesAt (s : State) (ctx : BitVec 32) (va : Nat) : List LeafUse :=
  if isLocal va then []
  else (s.leavesAt ctx va).map fun x => { base := x.base va, size := pageBytes (leafSize x.leaf), glob := leafG x.leaf }

/-! ## From a leaf to a location -/

/-- The physical address a leaf gives (16 R336). -/
def Xlat.pa (x : Xlat) (va : Nat) : Nat := leafFrame x.leaf * 2 ^ 14 + va % pageBytes (leafSize x.leaf)

/-- W as it is used: a page of another context than 0 that meets a table region is not writable (16 R343). -/
def State.leafWrite (s : State) (ctx : BitVec 32) (x : Xlat) : Bool :=
  leafW x.leaf &&
    (ctx == 0 || !s.pkg.regions.any fun r =>
      r.2.1 == leafAper x.leaf && leafFrame x.leaf * 2 ^ 14 < r.2.2.1 + r.2.2.2 &&
        r.2.2.1 < leafFrame x.leaf * 2 ^ 14 + pageBytes (leafSize x.leaf))

/-- A peer whose capability record has been verified (19 R395). -/
def State.peer? (s : State) (id : Nat) : Option Peer := s.pkg.peers.find? fun p => p.pkg.toNat == id

/-- The location a leaf gives for an address, or CAUSE of XLATE_APERTURE (09 R192, R195, R196; 16 R336, R346). [DESIGN CHOICE, log 15] [DEDUCED, log 24] [DEDUCED, log 25] -/
def State.resolve (s : State) (ctx : BitVec 32) (x : Xlat) (va : Nat) : Except Nat Nat :=
  let pa := x.pa va
  match leafAper x.leaf with
  | 0 => if pa ≥ 2 ^ 39 || reserved pa then .error 8 else .ok (locOf spHbm 0 0 pa)
  | 1 => if s.ddrAbsent pa then .error 9 else .ok (locOf spDdr 0 0 pa)
  | 2 =>
    match s.ctx? ctx with
    | some c => if c.hasBank pa then .ok (locOf spBank 0 ctx.toNat pa) else .error 10
    | none => .error 10
  | 3 =>
    let sp := pa / 2 ^ 49 % 8
    if sp > 2 then .error 11
    else match s.peer? (leafPeer x.leaf) with
      | none => .error 11
      | some _ =>
        .ok (locOf sp (leafPeer x.leaf + 1) (if sp = 2 then ctx.toNat else 0) (pa % 2 ^ 49))
  | 4 => .ok (locOf spHost 0 0 pa)
  | a => .error a

/-! ## Ports and the ways to peers and the host (19 R394, R395) -/

/-- The number a port is kept under: Chrolu ports 0 and 1, then the UALink ports. -/
def portKey : PortSel → Nat
  | .chrolu p => p
  | .ualink p => 2 + p

def State.port (s : State) (p : PortSel) : Port := kvGet {} s.pkg.ports (portKey p)

def State.modPort (s : State) (p : PortSel) (f : Port → Port) : State :=
  { s with pkg := { s.pkg with ports := kvPut s.pkg.ports (portKey p) (f (s.port p)) } }

/-- Traffic other than SPDM crosses a port, but not in ERROR, and after it only once the port is in RUN again (19 R394).
[DEDUCED, log 85] -/
def State.carries (s : State) (p : PortSel) : Bool := (s.port p).lock != .error && !(s.port p).waiting

/-- A packet of a virtual channel enters the port's retry buffer under the channel's next link sequence number, and leaves where
the port carries it (18 R386; 19 R394, R397). -/
def State.sendPort (s : State) (p : PortSel) (chan : Nat) (o : Out) : State :=
  let k := 4 * portKey p + chan
  let n := kvGet 0 s.fab.sentNext k
  let t : State := { s with fab := { s.fab with
    sent := s.fab.sent ++ [{ port := p, chan := chan, seq := n, packet := o }], sentNext := kvPut s.fab.sentNext k (n + 1) } }
  if s.carries p then { t with out := o :: t.out } else t

/-- What a port's retry buffer holds of some virtual channels is sent again, in its order. -/
def State.resend (s : State) (p : PortSel) (f : Nat → Bool) : State :=
  let l := s.fab.sent.filter fun x => x.port == p && f x.chan
  { s with out := (l.map fun x => Out.replay p x.chan x.seq x.packet).reverse ++ s.out }

/-- The ports that reach a location: those of its peer, the Chrolu ports for host memory, none for this package's own. -/
def State.portsTo (s : State) (l : Nat) : List PortSel :=
  if locSpace l = spHost then [.chrolu 0, .chrolu 1]
  else if locPkg l = 0 then []
  else
    match s.peer? (locPkg l - 1) with
    | some p => ((List.range 16).filter fun i => p.ports.getLsbD i).map .ualink
    | none => []

/-- Requests to a location wait: no port that reaches it carries them. [DESIGN CHOICE, log 86] -/
def State.linkDown (s : State) (l : Nat) : Bool := !(s.portsTo l).isEmpty && (s.portsTo l).all fun p => !s.carries p

/-- A packet for the package of a location leaves by the first of its ports that carries it; a peer whose record names no port is
reached without a link. [DESIGN CHOICE, log 86] -/
def State.sendTo (s : State) (l chan : Nat) (o : Out) : State :=
  match (s.portsTo l).find? s.carries with
  | some p => s.sendPort p chan o
  | none => { s with out := o :: s.out }

/-- A new translated access to an address waits: its page is under MIGRATE, or its way is down. -/
def State.withheld (s : State) (ctx : BitVec 32) (va : Nat) : Bool :=
  s.migrating ctx va ||
    (s.pkg.ports.any (fun p => p.2.lock == .error || p.2.waiting) &&
      match s.walk none ctx va with
      | .error _ => false
      | .ok x =>
        match s.resolve ctx x va with
        | .ok l => s.linkDown l
        | .error _ => false)

/-! ## Device accesses to a context's virtual memory (rings, templates, rename tables, descriptors) -/

/-- The location of n bytes within one page that the device reads (or also writes) for a context, or the fault. -/
def State.devLoc (s : State) (ctx : BitVec 32) (va n : Nat) (write : Bool) : Except FaultInfo Nat :=
  if !isCanonical va || !isCanonical (va + n - 1) then
    .error { code := if isLocal va then fcAperture else fcNonCanon, cause := if isLocal va then 15 else 0, addr := BitVec.ofNat 64 va }
  else
    match s.walk none ctx va with
    | .error c => .error { code := fcNotMapped, cause := c, addr := BitVec.ofNat 64 va }
    | .ok x =>
      if !leafR x.leaf || (write && !s.leafWrite ctx x) then
        .error { code := fcPerm, cause := (if leafR x.leaf then 0 else 1) + (if write && !s.leafWrite ctx x then 2 else 0),
                 addr := BitVec.ofNat 64 va }
      else
        match s.resolve ctx x va with
        | .error c => .error { code := fcAperture, cause := c, addr := BitVec.ofNat 64 va }
        | .ok l => .ok l

/-- The 8-byte word at a virtual address of a context, as the device reads it. -/
def State.devWord (s : State) (ctx : BitVec 32) (va : Nat) : Except FaultInfo (BitVec 64) :=
  match s.devLoc ctx va 8 false with
  | .error f => .error f
  | .ok l => .ok (BitVec.ofNat 64 (s.mem.value l 8))

/-- Successive 8-byte words; the first failure ends the read. -/
def State.devWords (s : State) (ctx : BitVec 32) (va : Nat) : Nat → Except FaultInfo (List (BitVec 64))
  | 0 => .ok []
  | n + 1 =>
    match s.devWord ctx va with
    | .error f => .error f
    | .ok w =>
      match State.devWords s ctx (va + 8) n with
      | .error f => .error f
      | .ok ws => .ok (w :: ws)

end Sys2Proof.Machine
end

