-- ==== Sys2Proof/Machine/Ops.lean ====
section
/-! DEFINITION. Named operations on tiles, records and rings; writing a fault record; taking a fault and returning from
one (13 R271-R281; 18 R371-R373). -/

namespace Sys2Proof.Machine

/-! ## Tiles -/

def State.tile (s : State) (t : Nat) : Tile := kvGet {} s.tiles t

def State.setTile (s : State) (t : Nat) (v : Tile) : State := { s with tiles := kvPut s.tiles t v }

def State.modTile (s : State) (t : Nat) (f : Tile → Tile) : State := s.setTile t (f (s.tile t))

def State.run? (s : State) (t : Nat) : Option Run := (s.tile t).run

def State.setRun (s : State) (t : Nat) (r : Run) : State := s.modTile t fun v => { v with run := some r }

/-- Change the running task of a tile, if any. -/
def State.modRun (s : State) (t : Nat) (f : Run → Run) : State :=
  match s.run? t with
  | some r => s.setRun t (f r)
  | none => s

def State.setPitch (s : State) (t : Nat) (p : Pitch) : State := s.modRun t fun r => { r with pitch := some p }

/-- Die, physical cluster (as 17 × die + cluster) and index of a tile numbered 272 × die + 16 × cluster + index (01 R13). -/
def tileDie (t : Nat) : Nat := t / 272
def tileCluster (t : Nat) : Nat := t / 16
def tileIndex (t : Nat) : Nat := t % 16

/-- The tiles of a physical cluster. -/
def clusterTiles (c : Nat) : List Nat := (List.range 16).map fun i => 16 * c + i

/-- The logical id of a physical cluster, 63 when it has none in service (01 R15; 15 R330). -/
def State.logical (s : State) (c : Nat) : Nat :=
  (s.pkg.map.findIdx? fun m => m.pres && 17 * m.die + m.phys == c).getD 63

/-- The physical cluster of a logical id in service. -/
def State.physical (s : State) (id : Nat) : Option Nat :=
  match s.pkg.map[id]? with
  | some m => if m.pres then some (17 * m.die + m.phys) else none
  | none => none

def State.cluster (s : State) (c : Nat) : Cluster := kvGet {} s.pkg.clusters c

def State.modCluster (s : State) (c : Nat) (f : Cluster → Cluster) : State :=
  { s with pkg := { s.pkg with clusters := kvPut s.pkg.clusters c (f (s.cluster c)) } }

/-- TILEID without the package id: tile index and logical cluster (05 R111). -/
def State.tileId (s : State) (t : Nat) : Nat := tileIndex t + 16 * s.logical (tileCluster t)

/-- TILEID with the package id (05 R111). -/
def State.tileIdOf (s : State) (t : Nat) : BitVec 64 := BitVec.ofNat 64 (s.tileId t + 2 ^ 10 * s.pkg.id.toNat)

/-- CLUSTER (05 R111). -/
def State.clusterOf (s : State) (t : Nat) : BitVec 64 := BitVec.ofNat 64 (s.logical (tileCluster t))

/-- TIME: one reference cycle in seventeen package cycles (20 R403; 00 R8). -/
def State.time (s : State) : BitVec 64 := BitVec.ofNat 64 (s.cycle / 17)

/-- The tiles that run a task, in order. -/
def State.running (s : State) : List (Nat × Run) :=
  s.tiles.filterMap fun x => x.2.run.map fun r => (x.1, r)

/-! ## Instances and records -/

def State.inst? (s : State) (id : Nat) : Option Inst := s.insts.find? fun i => i.id == id

def State.modInst (s : State) (id : Nat) (f : Inst → Inst) : State :=
  { s with insts := s.insts.map fun i => if i.id == id then f i else i }

def State.rec? (s : State) (id idx : Nat) : Option Rec :=
  match s.inst? id with
  | some i => i.recs[idx]?
  | none => none

def State.modRec (s : State) (id idx : Nat) (f : Rec → Rec) : State :=
  s.modInst id fun i => { i with recs := i.recs.modify idx f }

/-- The virtual address of record idx of a template (15 R313). -/
def recordVa (templ : BitVec 64) (idx : Nat) : BitVec 64 := templ + BitVec.ofNat 64 (256 * (idx + 1))

def State.modDie (s : State) (d : Nat) (f : Die → Die) : State := { s with dies := s.dies.modify d f }

/-- Count on a die's decision counters (17 R351). -/
def State.count (s : State) (d : Nat) (f : Decisions → Decisions) : State :=
  s.modDie d fun x => { x with dec := f x.dec }

/-- The next free value's number; each is used once. [DESIGN CHOICE, log 9] -/
def State.nextFree (s : State) : State := { s with free := s.free + 1 }

/-! ## The larder (09 R203) -/

/-- Round up to a multiple of 64. -/
def up64 (n : Nat) : Nat := (n + 63) / 64 * 64

/-- Bytes of the larder an instance uses: spilled records and its rename table. -/
def Inst.larderUse (i : Inst) : Nat :=
  let n := (i.recs.filter fun r => r.spilled).length
  64 * n + if n = 0 then 0 else up64 (8 * i.rename.length)

/-- Bytes of the larder a context uses. Parked decrements stay in graph memory (15 R324 leaves the place open). -/
def State.larderUse (s : State) (c : Ctx) : Nat :=
  ((s.insts.filter fun i => i.ctx == c.id).map Inst.larderUse).sum +
    64 * (c.mboxes.map fun m => m.2.held.length - 32).sum + 64 * (c.heldRecs.filter fun r => r.larder).length

def State.larderRoom (s : State) (c : Ctx) (n : Nat) : Bool := s.larderUse c + n ≤ c.lardlen

/-! ## Mailbox acceptance (13 R283, R284) -/

def Ctx.mbox (c : Ctx) (m : Nat) : Mbox := kvGet {} c.mboxes m

def Ctx.modMbox (c : Ctx) (m : Nat) (f : Mbox → Mbox) : Ctx := { c with mboxes := kvPut c.mboxes m (f (c.mbox m)) }

/-- Accept a message: the next MSEQ, held until it is delivered. None when it must be held and the larder is full; a
message that can be delivered at once needs no place. -/
def State.acceptMessage (s : State) (ctx : BitVec 32) (m : Nat) (words : BitVec 512) : Option State :=
  match s.ctx? ctx with
  | none => none
  | some c =>
    let b := c.mbox m
    let direct := b.held.isEmpty && b.bound && b.live < b.h && !b.broken
    if direct || b.held.length < 32 || s.larderRoom c 64 then
      some (s.modCtx ctx fun c => c.modMbox m fun b => { b with mseq := b.mseq + 1, held := b.held ++ [(b.mseq, words)] })
    else none

/-! ## Rings (13 R271-R274) -/

/-- A queue control block as the device reads it. -/
structure Qcb where
  loc : Nat
  base : Nat
  ctl : BitVec 64
  tail : BitVec 64
  vec : BitVec 64
  head : BitVec 64
  drops : BitVec 64
  rest : Nat
  deriving DecidableEq, Repr

def Qcb.log2n (q : Qcb) : Nat := bitsAt q.ctl 0 5
def Qcb.kind (q : Qcb) : Nat := bitsAt q.ctl 5 2
def Qcb.notify (q : Qcb) : Bool := q.ctl.getLsbD 7
def Qcb.en (q : Qcb) : Bool := q.ctl.getLsbD 8
def Qcb.err (q : Qcb) : Bool := q.ctl.getLsbD 9
def Qcb.mbox (q : Qcb) : Nat := bitsAt q.ctl 16 8
def Qcb.mbv (q : Qcb) : Bool := q.ctl.getLsbD 24
def Qcb.mctx (q : Qcb) : BitVec 32 := BitVec.ofNat 32 (bitsAt q.ctl 32 32)
def Qcb.used (q : Qcb) : Nat := (BitVec.ofNat 32 (bitsAt q.tail 0 32) - BitVec.ofNat 32 (bitsAt q.head 0 32)).toNat
def Qcb.full (q : Qcb) : Bool := q.used == 2 ^ q.log2n

def qLaunch : Nat := 0
def qFault : Nat := 1
def qLog : Nat := 2

/-- Read a QCB: 64 bytes of HBM4 or DDR-5, readable and writable for the context (13 R271, R274). -/
def State.readQcb (s : State) (ctx : BitVec 32) (va : BitVec 64) : Except FaultInfo Qcb :=
  match s.devLoc ctx va.toNat 64 true with
  | .error f => .error { f with addr := va }
  | .ok l =>
    if locSpace l > spDdr ∨ locPkg l ≠ 0 then
      .error { code := fcAperture, cause := if locPkg l ≠ 0 then 11 else 8 + locSpace l, addr := va }
    else
      let w := fun o => BitVec.ofNat 64 (s.mem.value (l + o) 8)
      .ok { loc := l, base := s.mem.value l 8, ctl := w 8, tail := w 16, vec := w 24, head := w 32, drops := w 40,
            rest := s.mem.value (l + 48) 16 }

/-- A ring in error for the role it was registered in (13 R274, R280); a BASE that is not a multiple of 64 is one, and MCTX is
looked at with MBV = 1 alone. [DESIGN CHOICE, log 109] -/
def Qcb.bad (q : Qcb) (role : Nat) (ctx : BitVec 32) : Bool :=
  q.log2n < 4 || q.log2n > 20 || q.kind != role || bitsAt q.ctl 10 6 != 0 || bitsAt q.ctl 25 7 != 0 ||
    bitsAt q.tail 32 32 != 0 || bitsAt q.vec 16 48 != 0 || bitsAt q.head 32 32 != 0 || q.rest != 0 ||
    q.base % 64 != 0 || (role != qFault && q.mbv) || (role == qFault && q.mbv && q.mctx != ctx && q.mctx != 0) ||
    (role == qLaunch && q.used > 2 ^ q.log2n)

/-- A check value found failing, or a poison bit received, is counted for a context; where the count stands is open (09 R206).
[DESIGN CHOICE, log 127] -/
def State.countMismatch (s : State) (ctx : BitVec 32) : State := s.modCtx ctx fun c => { c with mismatches := c.mismatches + 1 }

/-- A line whose check value fails is poisoned from here on. -/
def State.failLine (s : State) (ctx : BitVec 32) (key : Nat) : State :=
  (s.modLine key fun m => { m with pois := true, chk := 0 }).countMismatch ctx

/-- A line that the device reads or merges for a ring fails its check value: the record of it is made at the end of the step
(State.tellMismatches), as it may itself go to that ring. -/
def State.noteLine (s : State) (ctx : BitVec 32) (key : Nat) : State :=
  if (s.line key).chkBad then (s.failLine ctx key).modCtx ctx fun c => { c with mism := c.mism ++ [key] } else s

/-- The device has read the QCB of a registered ring. -/
def State.noteRing (s : State) (ctx : BitVec 32) (q : Option QcbReg) : State :=
  match q with
  | none => s
  | some r =>
    if r.err then s
    else match s.readQcb ctx r.va with
      | .ok q => s.noteLine ctx (lineKey q.loc)
      | .error _ => s

/-- Write one 8-byte word of a QCB of a context. -/
def State.qcbWord (s : State) (ctx : BitVec 32) (l o : Nat) (w : Nat) : State :=
  (s.noteLine ctx (lineKey (l + o))).store (l + o) (toBytes w 8) false

/-- Set ERR (13 R274). -/
def State.qcbErr (s : State) (ctx : BitVec 32) (q : Qcb) : State := s.qcbWord ctx q.loc 8 (q.ctl ||| (1 <<< 9)).toNat

/-- What a registered ring gives the device: its QCB, or the error it is in. -/
inductive RingView where
  /-- not registered, not enabled, or in an error already reported -/
  | unused
  /-- usable -/
  | ready (q : Qcb)
  /-- readable, but in error now -/
  | broken (q : Qcb)
  /-- the QCB cannot be read or written -/
  | lost (f : FaultInfo)
  deriving DecidableEq, Repr

/-- Examine a registered ring in its role. [DEDUCED, log 60] -/
def State.viewRing (s : State) (ctx : BitVec 32) (role : Nat) (q : Option QcbReg) : RingView :=
  match q with
  | none => .unused
  | some r =>
    if r.err then .unused
    else match s.readQcb ctx r.va with
      | .error f => .lost f
      | .ok q =>
        if q.err then .unused
        else if !q.en && !(role == qFault && q.mbv) then .unused
        else if q.bad role ctx then .broken q
        else .ready q

/-- Location of entry i of a ring, entries of n bytes (13 R271); the device needs R and W. -/
def State.entryLoc (s : State) (ctx : BitVec 32) (q : Qcb) (n : Nat) (i : BitVec 64) : Except FaultInfo Nat :=
  s.devLoc ctx (q.base + n * (bitsAt i 0 32 % 2 ^ q.log2n)) n true

/-! ## What leaves through the ports (13 R273; 19 R394, R402) -/

/-- An answer to a peer's request: data, its poison bit and the check values of the lines it comes from (19 R402). -/
def State.answerPeer (s : State) (port : Nat) (bs : List Byte) (pois : Bool) (checks : List (BitVec 32)) : State :=
  s.sendPort (.ualink port) 0 (.peerData port bs pois checks)

def State.faultPeer (s : State) (port code : Nat) : State := s.sendPort (.ualink port) 0 (.peerFault port code)

/-- A notification leaves for the host; it waits while no Chrolu port carries it (13 R273; 19 R394). -/
def State.notify (s : State) (ctx : BitVec 32) (vec : BitVec 16) : State :=
  if s.carries (.chrolu 0) || s.carries (.chrolu 1) then { s with out := .notify vec :: s.out }
  else s.modCtx ctx fun c => { c with notes := c.notes ++ [vec] }

/-- Append an entry to a device-produced ring and advance TAIL, notifying the host when asked (13 R272, R273). -/
def State.ringAppend (s : State) (ctx : BitVec 32) (q : Qcb) (l : Nat) (bs : List Byte) : State :=
  let s := ((s.noteLine ctx (lineKey l)).store l bs false).qcbWord ctx q.loc 16 ((bitsAt q.tail 0 32 + 1) % 2 ^ 32)
  if q.notify then s.notify ctx (q.vec.setWidth 16) else s

/-! ## Fault records (13 R277-R280) -/

/-- The fields of a fault record but SEQ and CTX. -/
structure RecSpec where
  code : Nat
  cause : Nat := 0
  stall : Bool := false
  irrev : Bool := false
  commit : Bool := false
  record : BitVec 64 := 0
  tag : BitVec 32 := 0
  pitch : BitVec 64 := 0
  slot : Nat := 128
  lsid : Nat := 0xFF
  exit : Nat := 0xFF
  /-- the prior pitch, when PRIORV = 1 -/
  prior : Option (BitVec 64) := none
  addr : BitVec 64 := 0
  prog : Nat := 0
  deriving DecidableEq, Repr

/-- PRIOR: the signed offset in 16-byte units (13 R277). -/
def RecSpec.priorField (r : RecSpec) : Nat :=
  match r.prior with
  | none => 0
  | some p => ((p - r.pitch).sshiftRight 4).toNat % 2 ^ 40

/-- The 64 bytes of a record. -/
def RecSpec.bits (r : RecSpec) (ctx : BitVec 32) (seq : Nat) : BitVec 512 :=
  BitVec.ofNat 512
    (r.code + 2 ^ 16 * r.cause + 2 ^ 24 * r.stall.toNat + 2 ^ 25 * r.irrev.toNat + 2 ^ 26 * r.commit.toNat +
      2 ^ 27 * r.prior.isSome.toNat + 2 ^ 32 * ctx.toNat +
      2 ^ 64 * r.record.toNat + 2 ^ 128 * r.tag.toNat + 2 ^ 192 * r.pitch.toNat +
      2 ^ 256 * (r.slot + 2 ^ 8 * r.lsid + 2 ^ 16 * r.exit + 2 ^ 24 * r.priorField) +
      2 ^ 320 * r.addr.toNat + 2 ^ 384 * (r.prog % 2 ^ 64) + 2 ^ 448 * (seq % 2 ^ 64))

/-- REMOTE of a send control word (13 R286). -/
def scRemote (c : BitVec 64) : Bool := c.getLsbD 8

/-- SENDs wait for room in a mailbox of this package (13 R284). -/
def State.boxWaits (s : State) (ctx : BitVec 32) (m : Nat) : Bool :=
  s.fab.msgs.any fun x => x.ctx == ctx && x.mbox == m && !scRemote x.ctl && x.waiting

/-- The mailbox that takes the records of a context: MBV of its fault queue with a legal MCTX, in whatever condition the ring
itself is; a QCB that could not be reached is not examined until it is registered again (13 R274, R279, R280). -/
def State.faultMbox (s : State) (ctx : BitVec 32) : Option (BitVec 32 × Nat) :=
  match (s.ctx? ctx).bind fun c => c.faultQ with
  | none => none
  | some r =>
    if r.err then none else
    match s.readQcb ctx r.va with
    | .error _ => none
    | .ok q => if q.mbv && q.kind == qFault && (q.mctx == ctx || q.mctx == 0) then some (q.mctx, q.mbox) else none

/-- A record goes to the mailbox of its fault queue, in arrival order with the SENDs that wait there; none when that cannot
accept it (13 R280). -/
def State.mailRecord (s : State) (ctx : BitVec 32) (bits : BitVec 512) : Option State :=
  match s.faultMbox ctx with
  | none => none
  | some b => if s.boxWaits b.1 b.2 then none else s.acceptMessage b.1 b.2 bits

/-- Hold a record for lack of space, or drop it (13 R278, R279); with no ring, it takes no place in the larder. -/
def State.holdRecord (s : State) (ctx : BitVec 32) (q : Option Qcb) (f : FaultRec) : State :=
  match s.ctx? ctx with
  | none => s
  | some c =>
    let room := s.larderRoom c 64
    if f.stall || (room && q.isSome) then
      let s := s.modCtx ctx fun c => { c with heldRecs := c.heldRecs ++ [{ f with larder := room && q.isSome }] }
      match q with
      | some q => s.qcbWord ctx q.loc 40 (bitsAt q.drops 0 32 + 2 ^ 32 * (c.heldRecs.length + 1))
      | none => s
    else match q with
      | some q => s.qcbWord ctx q.loc 40 (min (bitsAt q.drops 0 32 + 1) 0xFFFFFFFF + 2 ^ 32 * c.heldRecs.length)
      | none => s

/-- The SEQ the next record of a context will carry. -/
def State.nextSeq (s : State) (ctx : BitVec 32) : Nat :=
  match s.ctx? ctx with
  | some c => c.seq
  | none => 0

/-- The address at which the fault queue of a context is registered. -/
def State.faultVa (s : State) (ctx : BitVec 32) : BitVec 64 :=
  match (s.ctx? ctx).bind fun c => c.faultQ with
  | some r => r.va
  | none => 0

/-- Put the fault queue itself in error: the record of that error goes to its mailbox, or finds no ring, so only its SEQ is used
(13 R274, R279, R280). -/
def State.faultRingError (s : State) (ctx : BitVec 32) (q : Option Qcb) (f : FaultInfo) : State :=
  let bits := RecSpec.bits { code := f.code, cause := f.cause, addr := s.faultVa ctx } ctx (s.nextSeq ctx)
  let s := s.modCtx ctx fun c => { c with seq := c.seq + 1 }
  match q with
  | some q => ((s.qcbErr ctx q).mailRecord ctx bits).getD (s.qcbErr ctx q)
  | none => s.modCtx ctx fun c => { c with faultQ := c.faultQ.map fun r => { r with err := true } }

/-- A record of a context that has no ring: to its mailbox, else held or dropped (13 R279, R280). -/
def State.unringed (s : State) (ctx : BitVec 32) (f : FaultRec) : State :=
  (s.mailRecord ctx f.bits).getD (s.holdRecord ctx none f)

/-- Write a record to the ring, or hold or drop it (13 R278, R279). -/
def State.ringRecord (s : State) (ctx : BitVec 32) (q : Qcb) (f : FaultRec) : State :=
  match s.ctx? ctx with
  | none => s
  | some c =>
    if !q.en then s.holdRecord ctx none f
    else if !c.heldRecs.isEmpty || q.full then s.holdRecord ctx (some q) f
    else match s.entryLoc ctx q 64 q.tail with
      | .error e => (s.holdRecord ctx none f).faultRingError ctx (some q) e
      | .ok l => s.ringAppend ctx q l (toBytes f.bits.toNat 64)

/-- Deliver a record: to the mailbox of the fault queue, or to its ring (13 R278-R280). [DEDUCED, log 56] -/
def State.deliverRecord (s : State) (ctx : BitVec 32) (f : FaultRec) : State :=
  match s.ctx? ctx with
  | none => s
  | some c =>
    let s := s.noteRing ctx c.faultQ
    match s.viewRing ctx qFault c.faultQ with
    | .unused => s.unringed ctx f
    | .lost e => (s.unringed ctx f).faultRingError ctx none e
    | .broken q => (s.unringed ctx f).faultRingError ctx (some q) { code := fcIllegalEncoding }
    | .ready q => (s.mailRecord ctx f.bits).getD (s.ringRecord ctx q f)

/-- Create a record with the next SEQ of the context and deliver it; a context that does not exist gets none (13 R277). -/
def State.record (s : State) (ctx : BitVec 32) (r : RecSpec) : State :=
  match s.ctx? ctx with
  | none => s
  | some c =>
    (s.modCtx ctx fun c => { c with seq := c.seq + 1 }).deliverRecord ctx
      { bits := r.bits ctx c.seq, stall := r.stall, seq := c.seq }

/-- Create a record with STALL = 1 and keep what awaits its RESUME (18 R371). -/
def State.recordAwait (s : State) (ctx : BitVec 32) (r : RecSpec) (of : AwaitOf) : State :=
  let n := s.nextSeq ctx
  (s.record ctx { r with stall := true }).modCtx ctx fun c =>
    { c with await := c.await ++ [{ seq := n, code := r.code, of := of }] }

/-- Report a ring error once (13 R274): the launch queue or the log ring of a context. -/
def State.ringError (s : State) (ctx : BitVec 32) (va : BitVec 64) (f : FaultInfo) : State :=
  s.record ctx { code := f.code, cause := f.cause, addr := va }

/-! ## Check-value verification (09 R206) -/

/-- A line that is read and fails its check value: the record goes to the reader's context and carries the line's physical
address. [DEDUCED, log 32] -/
def State.verifyLine (s : State) (ctx : BitVec 32) (key : Nat) : State :=
  if (s.line key).chkBad then
    (s.failLine ctx key).record ctx
      { code := fcCheckMismatch, addr := BitVec.ofNat 64 (locPa (key * 128)) }
  else s

/-- Verify lines that were read. -/
def State.verifyLines (s : State) (ctx : BitVec 32) : List Nat → State
  | [] => s
  | k :: rest => State.verifyLines (s.verifyLine ctx k) ctx rest

/-- A received poison bit is treated as a mismatch is: counted, and the record goes to the context the line is for (19 R402). -/
def State.gotPoison (s : State) (ctx : BitVec 32) (l : Nat) (pois : Bool) : State :=
  if pois then
    (s.countMismatch ctx).record ctx
      { code := fcCheckMismatch, addr := BitVec.ofNat 64 (locPa (lineKey l * 128)) }
  else s

/-- The records of failing lines are made. -/
def State.tellLines (s : State) (ctx : BitVec 32) : List Nat → State
  | [] => s
  | k :: rest =>
    State.tellLines (s.record ctx { code := fcCheckMismatch, addr := BitVec.ofNat 64 (locPa (k * 128)) }) ctx rest

def State.tellMismatches (s : State) : List Ctx → State
  | [] => s
  | c :: rest => State.tellMismatches ((s.modCtx c.id fun x => { x with mism := [] }).tellLines c.id c.mism) rest

/-- A line is read for a context: verified, and one that comes from a peer poisoned is reported (09 R206; 19 R402). -/
def State.readLine (s : State) (ctx : BitVec 32) (key : Nat) : State :=
  (s.verifyLine ctx key).gotPoison ctx (key * 128)
    (locPkg (key * 128) != 0 && ((s.line key).pois || absentLoc (key * 128)) && !(s.line key).chkBad)

/-- Lines that are read. -/
def State.readLines (s : State) (ctx : BitVec 32) : List Nat → State
  | [] => s
  | k :: rest => State.readLines (s.readLine ctx k) ctx rest

/-- Lines that a write of n bytes covers only in part. -/
def partLines (l n : Nat) : List Nat := (linesOf l n).filter fun k => decide (k * 128 < l) || decide (l + n < k * 128 + 128)

/-- Write bytes for a context: a line written in part is read for it, and verified; a peer drops what is written to an address it
does not have (16 R336). [DEDUCED, log 32] -/
def State.storeFor (s : State) (ctx : BitVec 32) (l : Nat) (bs : List Byte) (pois : Bool) : State :=
  if absentLoc l then s else (s.verifyLines ctx (partLines l bs.length)).store l bs pois

/-- Verify the lines of n 8-byte words that the device reads for a context. -/
def State.verifyWords (s : State) (ctx : BitVec 32) (va : Nat) : Nat → State
  | 0 => s
  | n + 1 =>
    let s := match s.devLoc ctx va 8 false with
      | .ok l => s.verifyLine ctx (lineKey l)
      | .error _ => s
    State.verifyWords s ctx (va + 8) n

/-- The line of the node entry that a walk ended at because it was poisoned or failed (16 R341). -/
def State.failedNode (s : State) (die : Option Nat) (ctx : BitVec 32) (va : Nat) : Nat → Nat → Nat → Nat → Option Nat
  | 0, _, _, _ => none
  | fuel + 1, level, aper, frame =>
    let pa := frame * 2 ^ 14 + 8 * vaIndex va level
    let e := s.walkEntry die ctx level va aper pa
    if e.2 then some (lineKey (locOf aper 0 0 pa))
    else if leafV e.1 && !entryIsLeaf level e.1 then State.failedNode s die ctx va fuel (level + 1) (leafAper e.1) (leafFrame e.1)
    else none

/-- A walk that failed at a node entry has read its line: the line is verified. -/
def State.verifyWalk (s : State) (die : Option Nat) (ctx : BitVec 32) (f : FaultInfo) : State :=
  if f.code = fcNotMapped ∧ f.cause / 4 % 4 = 2 then
    match (s.ctx? ctx).bind Ctx.root with
    | none => s
    | some r =>
      match s.failedNode die ctx f.addr.toNat 4 0 r.aper.toNat r.frame.toNat with
      | some k => s.verifyLine ctx k
      | none => s
  else s

/-! ## Values at pitch start (03 R54; 05 R102, R111-R116) -/

def TileState.code : TileState → Nat
  | .normal => 0
  | .derated => 1
  | .drained => 2
  | .quarantined => 3
  | .retired => 4

/-- CLPRES: bit i set when logical cluster i is in service. -/
def State.clpres (s : State) : BitVec 64 :=
  BitVec.ofNat 64 ((s.pkg.map.zipIdx.map fun m => if m.1.pres then 2 ^ m.2 else 0).sum)

def State.nclust (s : State) : Nat := (s.pkg.map.filter fun m => m.pres).length

/-- The device-written control registers as a pitch of this run starts. -/
def State.csrSnap (s : State) (t : Nat) (r : Run) : CsrSnap :=
  { nclust := BitVec.ofNat 64 s.nclust
    clpres := s.clpres
    topogen := s.pkg.topogen.setWidth 64
    ctags := r.ctags
    ctagpend := r.ctagpend
    cycleft := BitVec.ofNat 64 r.cycleft
    time := s.time
    wearctx := match s.ctx? r.ctx with
      | some c => BitVec.ofNat 64 c.charge
      | none => 0
    tilestate := BitVec.ofNat 64 (s.tile t).state.code
    poiscnt := BitVec.ofNat 64 r.poiscnt }

/-! ## Taking a fault -/

/-- The record of a fault of a running task, raised by its pitch or its commit (13 R277). -/
def Run.recSpec (r : Run) (f : FaultInfo) : RecSpec :=
  { code := f.code, cause := f.cause, irrev := r.irrevocable, record := recordVa r.templ r.idx, tag := r.tag, addr := f.addr }

/-- A pitch back at its start: no token, no effect (03 R76). -/
def Pitch.restart (p : Pitch) (snap : CsrSnap) : Pitch :=
  { addr := p.addr, hdr := p.hdr, words := p.words, slots := p.words.map fun _ => {}, snap := snap }

/-- The watchdog expired in an earlier cycle: what the task might do next waits for it. What happens in the cycle of the expiry
itself may come first (14 R293). -/
def Run.dogBefore (r : Run) (cycle : Nat) : Bool := r.watchdogDue && decide (r.dogCycle < cycle)

/-- A pitch of the run has begun and has not belayed: ending the run discards it (17 R354). -/
def Run.firing (r : Run) : Bool :=
  match r.phase with
  | .fire => true
  | .services _ => true
  | .imm _ => true
  | .fetch => false
  | .stalled _ _ _ => false
  | .committing => false
  | .twinWait => false

/-- Bring a run to STALLED: its pitch's tokens and effects are discarded (18 R371; 03 R76). -/
def Run.stall (r : Run) (seq : Nat) (resume : Resume) (inCommit : Bool) : Run :=
  { r with
    phase := .stalled seq resume inCommit
    pitch :=
      match resume with
      | .pitch | .watchdog => r.pitch.map fun p => p.restart {}
      | .fetch | .checks | .waits | .never => none }

/-- Whether a tile runs this task, or for a REDUNDANT task its twin or third run (18 R381). -/
def Run.sameTask (r q : Run) : Bool := r.inst == q.inst && r.idx == q.idx

/-- Stall the tiles that run a task: one, or the twins together (18 R381). -/
def State.stallTask (s : State) (r : Run) (seq : Nat) (resume : Resume) (inCommit : Bool) : State :=
  { s with tiles := s.tiles.map fun x =>
      match x.2.run with
      | some q =>
        if r.sameTask q then
          (x.1, { x.2 with run := some (q.stall seq resume inCommit), discards := x.2.discards + if q.firing then 1 else 0 })
        else x
      | none => x }

/-- TAKING A FAULT: the pitch, if one fires, is discarded, the task enters STALLED, and a record with STALL = 1 goes to
its context's fault queue; no register, memory byte or published effect changes (03 R76; 18 R371). -/
def State.takeFault (s : State) (t : Nat) (spec : RecSpec) (resume : Resume) (inCommit : Bool) : State :=
  match s.run? t with
  | none => s
  | some r =>
    let n := s.nextSeq r.ctx
    let s := s.stallTask r n (if r.twin.isSome then .never else resume) inCommit
    (s.modRec r.inst r.idx fun x => { x with st := .stalled })
      |>.recordAwait r.ctx { spec with irrev := r.irrevocable, commit := inCommit } (.task t)

/-- The phase a stalled run returns to, and whether that is in COMMITTING (18 R373; 14 R293). -/
def Run.returnPhase (r : Run) (resume : Resume) (inCommit : Bool) : Phase :=
  match resume with
  | .pitch => if r.pitch.isSome then .fire else .fetch
  | .fetch => .fetch
  | .checks | .waits => .committing
  | .watchdog => if inCommit then .committing else if r.pitch.isSome then .fire else .fetch
  | .never => r.phase

/-- RETURNING FROM A FAULT with RETRY or CONTINUE (18 R373): the pitch again from its start with the same registers, the
fetch of the next pitch, the commit checks or waits, or after a watchdog with a full cycle limit. -/
def State.retryFault (s : State) (t : Nat) : State :=
  match s.run? t with
  | none => s
  | some r =>
    match r.phase with
    | .stalled _ resume inCommit =>
      let ph := r.returnPhase resume inCommit
      let snap := s.csrSnap t r
      let r1 := { r with
        phase := ph
        pitch := r.pitch.map fun p => { p with snap := snap }
        cycleft := if resume = .watchdog then 2 ^ r.cyclim else r.cycleft
        watchdogDue := if resume = .watchdog then false else r.watchdogDue }
      (s.setRun t r1).modRec r.inst r.idx fun x =>
        { x with st := if ph = .committing then .committing else .running }
    | .fetch | .fire | .services _ | .imm _ | .committing | .twinWait => s

end Sys2Proof.Machine
end

