-- ==== Sys2Proof/Machine/Operands.lean ====
section
/-! DEFINITION. Operand positions and token kinds of every instruction, and the firing of one slot: the rules every
instruction of a pitch obeys (03 R57-R65; 04 R83). -/

namespace Sys2Proof.Machine

/-! ## Token kinds (03 R58) -/

/-- A set of token kinds. -/
structure Kinds where
  s : Bool := false
  v : Bool := false
  p : Bool := false
  n : Bool := false
  deriving DecidableEq, Repr

/-- What positions accept; a null token is accepted everywhere. -/
def kS : Kinds := { s := true, n := true }
def kV : Kinds := { v := true, n := true }
def kP : Kinds := { p := true, n := true }
def kSV : Kinds := { s := true, v := true, n := true }
def kAny : Kinds := { s := true, v := true, p := true, n := true }

def Kinds.union (a b : Kinds) : Kinds := { s := a.s || b.s, v := a.v || b.v, p := a.p || b.p, n := a.n || b.n }

/-- Every kind of a is in b. -/
def Kinds.sub (a b : Kinds) : Bool := (!a.s || b.s) && (!a.v || b.v) && (!a.p || b.p) && (!a.n || b.n)

/-- The kind of a result (03 R58; 06 R119). -/
inductive ResKind where
  | none | scalar | vector | pred | null
  /-- the kind of the left token (MOV, GATE) -/
  | asLeft
  /-- the kind of the right token, and null (SEL) -/
  | asRight
  deriving DecidableEq, Repr

/-- What the encoding and the instruction's chapter fix of an instruction: predication, positions, targets, result kind,
LSID, exit id, and whether it is immediate-class (03 R57, R64, R66, R70). -/
structure Sig where
  pr : Pr := .always
  left : Option Kinds := .none
  right : Option Kinds := .none
  /-- the third operand of a ternary instruction, in the predicate position -/
  third : Option Kinds := .none
  t0 : Target := .none
  t1 : Target := .none
  res : ResKind := .none
  lsid : Option (BitVec 7) := .none
  exit : Option (BitVec 3) := .none
  imm : Bool := false
  deriving DecidableEq, Repr

/-- The signature of an instruction; an event of the table has none. -/
def sigOf : Instr → Sig
  | .illegal p => { pr := p }
  | .readg _ u t => { t0 := t, t1 := u, res := .scalar }
  | .readv _ u t => { t0 := t, t1 := u, res := .vector }
  | .writeg _ => { left := kS }
  | .writev _ => { left := kV }
  | .mov p u t => { pr := p, left := kAny, t0 := t, t1 := u, res := .asLeft }
  | .null p u t => { pr := p, t0 := t, t1 := u, res := .null }
  | .const_ p _ t => { pr := p, t0 := t, res := .scalar }
  | .consth p _ t => { pr := p, left := kS, t0 := t, res := .scalar }
  | .pcrel p _ t => { pr := p, t0 := t, res := .scalar }
  | .sel p u t => { pr := p, left := kP, right := kAny, t0 := t, t1 := u, res := .asRight }
  | .gate p u t => { pr := p, left := kAny, right := kAny, t0 := t, t1 := u, res := .asLeft }
  | .nop p => { pr := p }
  | .br p exit _ => { pr := p, exit := some exit }
  | .bri p exit => { pr := p, left := kS, exit := some exit }
  | .call_ p exit _ => { pr := p, exit := some exit }
  | .calli p exit => { pr := p, left := kS, exit := some exit }
  | .done_ p exit => { pr := p, exit := some exit }
  | .abort p exit => { pr := p, exit := some exit }
  | .trap p _ => { pr := p }
  | .break_ p _ => { pr := p }
  | .svc p _ t => { pr := p, left := kS, right := kS, t0 := t, res := .scalar }
  | .add p u t => { pr := p, left := kS, right := kS, t0 := t, t1 := u, res := .scalar }
  | .sub p u t => { pr := p, left := kS, right := kS, t0 := t, t1 := u, res := .scalar }
  | .mul p u t => { pr := p, left := kS, right := kS, t0 := t, t1 := u, res := .scalar }
  | .mulh p u t => { pr := p, left := kS, right := kS, t0 := t, t1 := u, res := .scalar }
  | .mulhu p u t => { pr := p, left := kS, right := kS, t0 := t, t1 := u, res := .scalar }
  | .div p u t => { pr := p, left := kS, right := kS, t0 := t, t1 := u, res := .scalar }
  | .divu p u t => { pr := p, left := kS, right := kS, t0 := t, t1 := u, res := .scalar }
  | .rem_ p u t => { pr := p, left := kS, right := kS, t0 := t, t1 := u, res := .scalar }
  | .remu p u t => { pr := p, left := kS, right := kS, t0 := t, t1 := u, res := .scalar }
  | .and_ p u t => { pr := p, left := kS, right := kS, t0 := t, t1 := u, res := .scalar }
  | .or_ p u t => { pr := p, left := kS, right := kS, t0 := t, t1 := u, res := .scalar }
  | .xor_ p u t => { pr := p, left := kS, right := kS, t0 := t, t1 := u, res := .scalar }
  | .andn p u t => { pr := p, left := kS, right := kS, t0 := t, t1 := u, res := .scalar }
  | .shl p u t => { pr := p, left := kS, right := kS, t0 := t, t1 := u, res := .scalar }
  | .shr p u t => { pr := p, left := kS, right := kS, t0 := t, t1 := u, res := .scalar }
  | .sar p u t => { pr := p, left := kS, right := kS, t0 := t, t1 := u, res := .scalar }
  | .ror p u t => { pr := p, left := kS, right := kS, t0 := t, t1 := u, res := .scalar }
  | .min_ p u t => { pr := p, left := kS, right := kS, t0 := t, t1 := u, res := .scalar }
  | .max_ p u t => { pr := p, left := kS, right := kS, t0 := t, t1 := u, res := .scalar }
  | .minu p u t => { pr := p, left := kS, right := kS, t0 := t, t1 := u, res := .scalar }
  | .maxu p u t => { pr := p, left := kS, right := kS, t0 := t, t1 := u, res := .scalar }
  | .abs_ p u t => { pr := p, left := kS, t0 := t, t1 := u, res := .scalar }
  | .clz p u t => { pr := p, left := kS, t0 := t, t1 := u, res := .scalar }
  | .ctz p u t => { pr := p, left := kS, t0 := t, t1 := u, res := .scalar }
  | .popc p u t => { pr := p, left := kS, t0 := t, t1 := u, res := .scalar }
  | .sext p _ u t => { pr := p, left := kS, t0 := t, t1 := u, res := .scalar }
  | .zext p _ u t => { pr := p, left := kS, t0 := t, t1 := u, res := .scalar }
  | .bfx p u t => { pr := p, left := kS, right := kS, t0 := t, t1 := u, res := .scalar }
  | .bfi u t => { left := kS, right := kS, third := kS, t0 := t, t1 := u, res := .scalar }
  | .lea p u t => { pr := p, left := kS, right := kS, t0 := t, t1 := u, res := .scalar }
  | .addi p _ t => { pr := p, left := kS, t0 := t, res := .scalar }
  | .andi p _ t => { pr := p, left := kS, t0 := t, res := .scalar }
  | .ori p _ t => { pr := p, left := kS, t0 := t, res := .scalar }
  | .xori p _ t => { pr := p, left := kS, t0 := t, res := .scalar }
  | .shli p _ t => { pr := p, left := kS, t0 := t, res := .scalar }
  | .shri p _ t => { pr := p, left := kS, t0 := t, res := .scalar }
  | .sari p _ t => { pr := p, left := kS, t0 := t, res := .scalar }
  | .teq p u t => { pr := p, left := kS, right := kS, t0 := t, t1 := u, res := .pred }
  | .tne p u t => { pr := p, left := kS, right := kS, t0 := t, t1 := u, res := .pred }
  | .tlt p u t => { pr := p, left := kS, right := kS, t0 := t, t1 := u, res := .pred }
  | .tle p u t => { pr := p, left := kS, right := kS, t0 := t, t1 := u, res := .pred }
  | .tltu p u t => { pr := p, left := kS, right := kS, t0 := t, t1 := u, res := .pred }
  | .tleu p u t => { pr := p, left := kS, right := kS, t0 := t, t1 := u, res := .pred }
  | .teqi p _ t => { pr := p, left := kS, t0 := t, res := .pred }
  | .tnei p _ t => { pr := p, left := kS, t0 := t, res := .pred }
  | .tlti p _ t => { pr := p, left := kS, t0 := t, res := .pred }
  | .tlei p _ t => { pr := p, left := kS, t0 := t, res := .pred }
  | .fadd p u t => { pr := p, left := kS, right := kS, t0 := t, t1 := u, res := .scalar }
  | .fsub p u t => { pr := p, left := kS, right := kS, t0 := t, t1 := u, res := .scalar }
  | .fmul p u t => { pr := p, left := kS, right := kS, t0 := t, t1 := u, res := .scalar }
  | .ffma u t => { left := kS, right := kS, third := kS, t0 := t, t1 := u, res := .scalar }
  | .fdiv p u t => { pr := p, left := kS, right := kS, t0 := t, t1 := u, res := .scalar }
  | .fsqrt p u t => { pr := p, left := kS, t0 := t, t1 := u, res := .scalar }
  | .fmin p u t => { pr := p, left := kS, right := kS, t0 := t, t1 := u, res := .scalar }
  | .fmax p u t => { pr := p, left := kS, right := kS, t0 := t, t1 := u, res := .scalar }
  | .fabs p u t => { pr := p, left := kS, t0 := t, t1 := u, res := .scalar }
  | .fneg p u t => { pr := p, left := kS, t0 := t, t1 := u, res := .scalar }
  | .fcvt p _ _ t => { pr := p, left := kS, t0 := t, res := .scalar }
  | .fclass p u t => { pr := p, left := kS, t0 := t, t1 := u, res := .scalar }
  | .feq p u t => { pr := p, left := kS, right := kS, t0 := t, t1 := u, res := .pred }
  | .flt p u t => { pr := p, left := kS, right := kS, t0 := t, t1 := u, res := .pred }
  | .fle p u t => { pr := p, left := kS, right := kS, t0 := t, t1 := u, res := .pred }
  | .frnd p u t => { pr := p, left := kS, t0 := t, t1 := u, res := .scalar }
  | .vadd p _ u t => { pr := p, left := kV, right := kV, t0 := t, t1 := u, res := .vector }
  | .vsub p _ u t => { pr := p, left := kV, right := kV, t0 := t, t1 := u, res := .vector }
  | .vmul p _ u t => { pr := p, left := kV, right := kV, t0 := t, t1 := u, res := .vector }
  | .vfma _ u t => { left := kV, right := kV, third := kV, t0 := t, t1 := u, res := .vector }
  | .vfms _ u t => { left := kV, right := kV, third := kV, t0 := t, t1 := u, res := .vector }
  | .vdiv p _ u t => { pr := p, left := kV, right := kV, t0 := t, t1 := u, res := .vector }
  | .vsqrt p u t => { pr := p, left := kV, t0 := t, t1 := u, res := .vector }
  | .vmin p _ u t => { pr := p, left := kV, right := kV, t0 := t, t1 := u, res := .vector }
  | .vmax p _ u t => { pr := p, left := kV, right := kV, t0 := t, t1 := u, res := .vector }
  | .vabs p _ u t => { pr := p, left := kV, t0 := t, t1 := u, res := .vector }
  | .vneg p _ u t => { pr := p, left := kV, t0 := t, t1 := u, res := .vector }
  | .vadds p _ u t => { pr := p, left := kV, right := kV, t0 := t, t1 := u, res := .vector }
  | .vsubs p _ u t => { pr := p, left := kV, right := kV, t0 := t, t1 := u, res := .vector }
  | .vmulh p _ u t => { pr := p, left := kV, right := kV, t0 := t, t1 := u, res := .vector }
  | .vand p _ u t => { pr := p, left := kV, right := kV, t0 := t, t1 := u, res := .vector }
  | .vor p _ u t => { pr := p, left := kV, right := kV, t0 := t, t1 := u, res := .vector }
  | .vxor p _ u t => { pr := p, left := kV, right := kV, t0 := t, t1 := u, res := .vector }
  | .vshl p _ u t => { pr := p, left := kV, right := kV, t0 := t, t1 := u, res := .vector }
  | .vshr p _ u t => { pr := p, left := kV, right := kV, t0 := t, t1 := u, res := .vector }
  | .vsar p _ u t => { pr := p, left := kV, right := kV, t0 := t, t1 := u, res := .vector }
  | .vpopc p _ u t => { pr := p, left := kV, t0 := t, t1 := u, res := .vector }
  | .vclz p _ u t => { pr := p, left := kV, t0 := t, t1 := u, res := .vector }
  | .vsel _ u t => { left := kV, right := kV, third := kV, t0 := t, t1 := u, res := .vector }
  | .vclamp _ u t => { left := kV, right := kV, third := kV, t0 := t, t1 := u, res := .vector }
  | .vceq p _ u t => { pr := p, left := kV, right := kV, t0 := t, t1 := u, res := .vector }
  | .vclt p _ u t => { pr := p, left := kV, right := kV, t0 := t, t1 := u, res := .vector }
  | .vcle p _ u t => { pr := p, left := kV, right := kV, t0 := t, t1 := u, res := .vector }
  | .vexp2 p u t => { pr := p, left := kV, t0 := t, t1 := u, res := .vector }
  | .vlog2 p u t => { pr := p, left := kV, t0 := t, t1 := u, res := .vector }
  | .vrcp p u t => { pr := p, left := kV, t0 := t, t1 := u, res := .vector }
  | .vrsq p u t => { pr := p, left := kV, t0 := t, t1 := u, res := .vector }
  | .vtanh p u t => { pr := p, left := kV, t0 := t, t1 := u, res := .vector }
  | .vrnd p _ u t => { pr := p, left := kV, t0 := t, t1 := u, res := .vector }
  | .vcvtf p _ _ t => { pr := p, left := kV, t0 := t, res := .vector }
  | .vcvtt p _ _ t => { pr := p, left := kV, t0 := t, res := .vector }
  | .vpack4 p u t => { pr := p, left := kV, right := kS, t0 := t, t1 := u, res := .vector }
  | .vunpk4 p u t => { pr := p, left := kV, right := kS, t0 := t, t1 := u, res := .vector }
  | .vpack6 p u t => { pr := p, left := kV, right := kS, t0 := t, t1 := u, res := .vector }
  | .vunpk6 p u t => { pr := p, left := kV, right := kS, t0 := t, t1 := u, res := .vector }
  | .vbcast p _ u t => { pr := p, left := kS, t0 := t, t1 := u, res := .vector }
  | .vins p _ u t => { pr := p, left := kV, right := kS, t0 := t, t1 := u, res := .vector }
  | .vext p _ u t => { pr := p, left := kV, right := kS, t0 := t, t1 := u, res := .scalar }
  | .vshuf p _ u t => { pr := p, left := kV, right := kV, t0 := t, t1 := u, res := .vector }
  | .vrot p _ u t => { pr := p, left := kV, right := kS, t0 := t, t1 := u, res := .vector }
  | .viota p _ u t => { pr := p, left := kS, t0 := t, t1 := u, res := .vector }
  | .vredsum p _ u t => { pr := p, left := kV, t0 := t, t1 := u, res := .scalar }
  | .vredmax p _ u t => { pr := p, left := kV, t0 := t, t1 := u, res := .scalar }
  | .vredmin p _ u t => { pr := p, left := kV, t0 := t, t1 := u, res := .scalar }
  | .vredand p _ u t => { pr := p, left := kV, t0 := t, t1 := u, res := .scalar }
  | .vredor p _ u t => { pr := p, left := kV, t0 := t, t1 := u, res := .scalar }
  | .vargmax p _ u t => { pr := p, left := kV, t0 := t, t1 := u, res := .scalar }
  | .vscan p _ u t => { pr := p, left := kV, t0 := t, t1 := u, res := .vector }
  | .vdotf p _ u t => { pr := p, left := kV, right := kV, t0 := t, t1 := u, res := .scalar }
  | .vmaskpop p _ u t => { pr := p, left := kV, t0 := t, t1 := u, res := .scalar }
  | .vrand p _ u t => { pr := p, t0 := t, t1 := u, res := .vector }
  | .vdraw p _ u t => { pr := p, left := kV, right := kS, t0 := t, t1 := u, res := .scalar }
  | .vdrawm p u t => { pr := p, left := kS, right := kS, t0 := t, t1 := u, res := .scalar }
  | .vldexp p _ u t => { pr := p, left := kV, right := kV, t0 := t, t1 := u, res := .vector }
  | .vzip p _ u t => { pr := p, left := kV, right := kV, t0 := t, t1 := u, res := .vector }
  | .vunzip p _ u t => { pr := p, left := kV, right := kV, t0 := t, t1 := u, res := .vector }
  | .ldb p lsid _ t => { pr := p, left := kS, t0 := t, res := .scalar, lsid := some lsid }
  | .ldbu p lsid _ t => { pr := p, left := kS, t0 := t, res := .scalar, lsid := some lsid }
  | .ldh p lsid _ t => { pr := p, left := kS, t0 := t, res := .scalar, lsid := some lsid }
  | .ldhu p lsid _ t => { pr := p, left := kS, t0 := t, res := .scalar, lsid := some lsid }
  | .ldw p lsid _ t => { pr := p, left := kS, t0 := t, res := .scalar, lsid := some lsid }
  | .ldwu p lsid _ t => { pr := p, left := kS, t0 := t, res := .scalar, lsid := some lsid }
  | .ldd p lsid _ t => { pr := p, left := kS, t0 := t, res := .scalar, lsid := some lsid }
  | .stb p lsid _ => { pr := p, left := kS, right := kS, lsid := some lsid }
  | .sth p lsid _ => { pr := p, left := kS, right := kS, lsid := some lsid }
  | .stw p lsid _ => { pr := p, left := kS, right := kS, lsid := some lsid }
  | .std p lsid _ => { pr := p, left := kS, right := kS, lsid := some lsid }
  | .ldv p lsid _ t => { pr := p, left := kS, t0 := t, res := .vector, lsid := some lsid }
  | .stv p lsid _ => { pr := p, left := kS, right := kV, lsid := some lsid }
  | .ldvx p lsid t => { pr := p, left := kS, right := kV, t0 := t, res := .vector, lsid := some lsid }
  | .stvx lsid _ => { left := kS, right := kV, third := kV, lsid := some lsid }
  | .sld p lsid _ t => { pr := p, left := kS, t0 := t, res := .scalar, lsid := some lsid, imm := true }
  | .sst p lsid mode => { pr := p, left := kS, right := kS, lsid := some lsid, imm := mode != 2 && mode != 3 }
  | .sldv p lsid _ t => { pr := p, left := kS, t0 := t, res := .vector, lsid := some lsid, imm := true }
  | .sstv p lsid mode => { pr := p, left := kS, right := kV, lsid := some lsid, imm := mode != 2 && mode != 3 }
  | .amoi p lsid _ _ t => { pr := p, left := kS, right := kS, t0 := t, res := .scalar, lsid := some lsid, imm := true }
  | .amow p lsid _ _ t => { pr := p, left := kS, right := kS, t0 := t, res := .scalar, lsid := some lsid, imm := true }
  | .amof p lsid _ t => { pr := p, left := kS, right := kS, t0 := t, res := .scalar, lsid := some lsid, imm := true }
  | .cas lsid _ t => { left := kS, right := kS, third := kS, t0 := t, res := .scalar, lsid := some lsid, imm := true }
  | .redi p lsid _ _ => { pr := p, left := kS, right := kS, lsid := some lsid }
  | .redw p lsid _ _ => { pr := p, left := kS, right := kS, lsid := some lsid }
  | .redf p lsid _ => { pr := p, left := kS, right := kS, lsid := some lsid }
  | .redb p lsid _ _ => { pr := p, left := kS, right := kV, lsid := some lsid }
  | .redo p lsid => { pr := p, left := kS, right := kS, lsid := some lsid }
  | .drawm p lsid => { pr := p, left := kS, right := kV, lsid := some lsid }
  | .fence p lsid _ => { pr := p, lsid := some lsid }
  | .flushl p lsid _ => { pr := p, left := kS, lsid := some lsid }
  | .pref p lsid _ => { pr := p, left := kS, lsid := some lsid }
  | .cpy p lsid => { pr := p, left := kV, lsid := some lsid }
  | .cpys p lsid => { pr := p, left := kV, lsid := some lsid }
  | .cpyr p lsid _ _ => { pr := p, left := kV, lsid := some lsid }
  | .cpyb p lsid => { pr := p, left := kV, lsid := some lsid }
  | .cpyq p lsid t => { pr := p, left := kS, t0 := t, res := .scalar, lsid := some lsid }
  | .cwaita p lsid t => { pr := p, left := kS, t0 := t, res := .scalar, lsid := some lsid }
  | .cwaitl p lsid t => { pr := p, left := kS, t0 := t, res := .scalar, lsid := some lsid }
  | .cfind p lsid t => { pr := p, left := kS, t0 := t, res := .scalar, lsid := some lsid }
  | .ctclr p lsid => { pr := p, left := kS, lsid := some lsid }
  | .mwait p lsid t => { pr := p, left := kS, right := kS, t0 := t, res := .scalar, lsid := some lsid }
  | .spush p lsid _ => { pr := p, left := kV, right := kS, lsid := some lsid }
  | .spop p lsid _ t => { pr := p, t0 := t, res := .vector, lsid := some lsid }
  | .speek p lsid _ t => { pr := p, t0 := t, res := .vector, lsid := some lsid }
  | .seos p lsid _ _ => { pr := p, lsid := some lsid }
  | .sstat p lsid _ _ t => { pr := p, t0 := t, res := .scalar, lsid := some lsid }
  | .bload p lsid _ => { pr := p, left := kS, right := kS, lsid := some lsid }
  | .bswap p lsid _ _ => { pr := p, lsid := some lsid }
  | .bclr p lsid _ => { pr := p, lsid := some lsid }
  | .mma p lsid _ _ => { pr := p, left := kS, right := kS, lsid := some lsid }
  | .mmat p lsid _ _ => { pr := p, left := kS, right := kS, lsid := some lsid }
  | .mmaa p lsid _ _ => { pr := p, left := kS, right := kS, lsid := some lsid }
  | .accz p lsid _ => { pr := p, lsid := some lsid }
  | .accrd p lsid _ t => { pr := p, left := kS, t0 := t, res := .vector, lsid := some lsid }
  | .accwr p lsid _ => { pr := p, left := kS, right := kV, lsid := some lsid }
  | .accst p lsid _ => { pr := p, left := kS, lsid := some lsid }
  | .accstat p lsid _ => { pr := p, left := kS, lsid := some lsid }
  | .accscl p lsid _ _ => { pr := p, left := kS, lsid := some lsid }
  | .msync p lsid t => { pr := p, t0 := t, res := .scalar, lsid := some lsid }
  | .dec p lsid => { pr := p, left := kS, right := kS, lsid := some lsid }
  | .spawn p lsid => { pr := p, left := kV, lsid := some lsid }
  | .send p lsid => { pr := p, left := kV, right := kS, lsid := some lsid }
  | .bind_ p lsid => { pr := p, left := kS, right := kS, lsid := some lsid }
  | .unbind p lsid => { pr := p, left := kS, lsid := some lsid }
  | .ropejoin p lsid t => { pr := p, left := kS, right := kS, t0 := t, res := .scalar, lsid := some lsid, imm := true }
  | .ropeleave p lsid => { pr := p, left := kS, right := kS, lsid := some lsid }
  | .ropearr p lsid => { pr := p, left := kS, lsid := some lsid }
  | .ropewait p lsid t => { pr := p, left := kS, t0 := t, res := .scalar, lsid := some lsid, imm := true }
  | .ropesz p lsid t => { pr := p, left := kS, t0 := t, res := .scalar, lsid := some lsid }
  | .csrr p _ t => { pr := p, t0 := t, res := .scalar }
  | .csrw p _ t => { pr := p, left := kS, t0 := t, res := .scalar }
  | .csrs p _ t => { pr := p, left := kS, t0 := t, res := .scalar }
  | .csrc p _ t => { pr := p, left := kS, t0 := t, res := .scalar }
  | .rand p u t => { pr := p, t0 := t, t1 := u, res := .scalar }
  | .time_ p u t => { pr := p, left := kAny, t0 := t, t1 := u, res := .scalar }
  | .ispois p u t => { pr := p, left := kSV, t0 := t, t1 := u, res := .pred }
  | .chkl p u t => { pr := p, left := kV, t0 := t, t1 := u, res := .scalar }
  | .pmark p u t => { pr := p, left := kS, t0 := t, t1 := u, res := .scalar }
  | _ => {}

/-! ## The focused slot -/

/-- The slot that an instruction is executed in: the cursor's slot of the pitch in the window of the focused tile. -/
structure Env where
  s : State
  t : Nat
  r : Run
  p : Pitch
  k : Nat
  slot : Slot
  deriving DecidableEq, Repr

/-- The focused slot, when a pitch fires on the focused tile. -/
def State.env? (s : State) : Option Env :=
  match s.run? s.focus with
  | none => none
  | some r =>
    match r.phase, r.pitch with
    | .fire, some p =>
      match p.slots[p.cursor]? with
      | some sl => some { s := s, t := s.focus, r := r, p := p, k := p.cursor, slot := sl }
      | none => none
    | _, _ => none

/-- The token in the left, right or predicate position; a null token where there is none. -/
def Env.left (e : Env) : Token := e.slot.left.getD { val := .null }
def Env.right (e : Env) : Token := e.slot.right.getD { val := .null }
def Env.third (e : Env) : Token := e.slot.pred.getD { val := .null }

/-- The scalar a token holds. -/
def Token.sc (t : Token) : BitVec 64 :=
  match t.val with
  | .scalar v => v
  | .vector _ | .pred _ | .null => 0

/-- The vector a token holds. -/
def Token.vec (t : Token) : BitVec 2048 :=
  match t.val with
  | .vector v => v
  | .scalar _ | .pred _ | .null => 0

def Token.isNull (t : Token) : Bool := t.val == .null

def Env.a (e : Env) : BitVec 64 := e.left.sc
def Env.b (e : Env) : BitVec 64 := e.right.sc
def Env.c (e : Env) : BitVec 64 := e.third.sc
def Env.va (e : Env) : BitVec 2048 := e.left.vec
def Env.vb (e : Env) : BitVec 2048 := e.right.vec
def Env.vc (e : Env) : BitVec 2048 := e.third.vec

/-- The poison of every token the instruction consumes (03 R63; 02 R39). -/
def Env.pois (e : Env) : Bool :=
  (e.slot.left.map Token.pois).getD false || (e.slot.right.map Token.pois).getD false ||
    (e.slot.pred.map Token.pois).getD false

/-- Poison of the predicate token of a predicated instruction. [DEDUCED, log 19] -/
def Env.predPois (e : Env) (g : Sig) : Bool := g.pr != .always && (e.slot.pred.map Token.pois).getD false

/-- The context of the task. -/
def Env.ctx (e : Env) : BitVec 32 := e.r.ctx

/-! ## What a fired instruction answers -/

/-- The results and effects of an instruction that fires. -/
structure Act where
  out0 : Option TokVal := none
  out1 : Option TokVal := none
  pois : Bool := false
  effects : List Effect := []
  flags : Flags := 0
  exit : Option (Nat × ExitTo) := none
  trap : Option (Bool × BitVec 13) := none
  svc : Option SvcCall := none
  imm : Option ImmAccess := none
  /-- a poisoned token was taken by an exit, an access or a control word (03 R63) -/
  ctl : Bool := false
  /-- the result counts as a poisoned value delivered (05 R116) -/
  counted : Bool := false
  /-- lines read -/
  reads : List Nat := []
  deriving DecidableEq, Repr

/-- The answer of an instruction whose operands are all there and not null. -/
inductive Reply where
  /-- it does not fire yet: an operation of the pitch that precedes it is undecided (03 R64; 11 R253) -/
  | hold
  /-- it has fired and awaits its result (03 R67) -/
  | wait
  /-- an MWAIT has fired and waits for its word (11 R244) -/
  | waitFor (w : MemWait)
  | fault (f : FaultInfo)
  | done (a : Act)
  deriving DecidableEq, Repr

/-- One result for both targets, poisoned as the operands are. -/
def Env.result (e : Env) (v : TokVal) : Reply := .done { out0 := some v, out1 := some v, pois := e.pois }

def Env.scalar (e : Env) (v : BitVec 64) : Reply := e.result (.scalar v)
def Env.vector (e : Env) (v : BitVec 2048) : Reply := e.result (.vector v)
def Env.pred (e : Env) (b : Bool) : Reply := e.result (.pred b)

/-- A result with flags, kept in the pitch and OR-ed into FFLAGS at belay (02 R37). -/
def Env.scalarF (e : Env) (r : BitVec 64 × Flags) : Reply :=
  .done { out0 := some (.scalar r.1), out1 := some (.scalar r.1), pois := e.pois, flags := r.2 }
def Env.vectorF (e : Env) (r : BitVec 2048 × Flags) : Reply :=
  .done { out0 := some (.vector r.1), out1 := some (.vector r.1), pois := e.pois, flags := r.2 }

/-- Effects without a result. -/
def effectsReply (l : List Effect) : Reply := .done { effects := l }

/-! ## Delivery (03 R57, R62) -/

def Slot.holds (sl : Slot) : Pos → Bool
  | .left => sl.left.isSome
  | .right => sl.right.isSome
  | .pred => sl.pred.isSome

def Slot.put (sl : Slot) (pos : Pos) (tok : Token) : Slot :=
  match pos with
  | .left => { sl with left := some tok }
  | .right => { sl with right := some tok }
  | .pred => { sl with pred := some tok }

/-- Send a token to a target; a token that finds its position taken or its consumer done is a double delivery: the slot
is noted and the token dropped. -/
def Pitch.deliver (p : Pitch) (tok : Token) : Target → Pitch
  | .none => p
  | .to pos slot =>
    match p.slots[slot.toNat]? with
    | none => p
    | some sl =>
      if sl.status != .waiting || sl.holds pos then { p with doubles := slot.toNat :: p.doubles }
      else { p with slots := p.slots.set slot.toNat (sl.put pos tok) }

/-- Send a result, if there is one. -/
def Pitch.send (p : Pitch) (v : Option TokVal) (pois : Bool) (t : Target) : Pitch :=
  match v with
  | none => p
  | some v => p.deliver { val := v, pois := pois } t

def Pitch.setStatus (p : Pitch) (k : Nat) (st : SlotStatus) : Pitch :=
  { p with slots := p.slots.modify k fun sl => { sl with status := st } }

/-- The slot examined after slot k. -/
def Pitch.nextCursor (p : Pitch) (k : Nat) : Nat := if k + 1 < p.slots.length then k + 1 else 0

/-- Nothing changed at this slot. -/
def Pitch.skip (p : Pitch) (k : Nat) : Pitch := { p with cursor := p.nextCursor k, idle := if p.idle.contains k then p.idle else k :: p.idle }

/-- Something changed at this slot. -/
def Pitch.moved (p : Pitch) (k : Nat) : Pitch := { p with cursor := p.nextCursor k, idle := [] }

/-! ## Firing -/

/-- Every operand position holds a token (03 R59). -/
def Sig.ready (g : Sig) (sl : Slot) : Bool :=
  (g.left.isNone || sl.left.isSome) && (g.right.isNone || sl.right.isSome) &&
    ((g.third.isNone && g.pr == .always) || sl.pred.isSome)

/-- The predicate token matches PR; a null token counts as matching (03 R59, R61). -/
def Sig.matches (g : Sig) (sl : Slot) : Bool :=
  match g.pr, sl.pred with
  | .onTrue, some { val := .pred b, .. } => b
  | .onFalse, some { val := .pred b, .. } => !b
  | _, _ => true

/-- A null token stands in one of the operand positions (03 R61). -/
def Sig.hasNull (g : Sig) (sl : Slot) : Bool :=
  (g.left.isSome && (sl.left.map Token.isNull).getD false) || (g.right.isSome && (sl.right.map Token.isNull).getD false) ||
    ((g.third.isSome || g.pr != .always) && (sl.pred.map Token.isNull).getD false)

/-- Instructions that a null token nullifies: register writes, LSID instructions, exits and service calls (03 R61; 06 R122). -/
def nullifies : Instr → Bool
  | .writeg _ | .writev _ | .svc _ _ _ => true
  | i => (sigOf i).lsid.isSome || (sigOf i).exit.isSome

/-- A null token sent to each target of an instruction that has a result (03 R61). -/
def Pitch.sendNulls (p : Pitch) (g : Sig) (pois : Bool) : Pitch :=
  if g.res == .none then p else (p.send (some .null) pois g.t0).send (some .null) pois g.t1

/-- The pitch after an instruction has fired with results and effects. -/
def Pitch.perform (p : Pitch) (k : Nat) (g : Sig) (a : Act) : Pitch :=
  let p := (p.send a.out0 a.pois g.t0).send a.out1 a.pois g.t1
  { p with
    effects := p.effects ++ a.effects.map fun x => (k, x)
    flags := p.flags ||| a.flags
    exits := p.exits ++ (match a.exit with | some x => [(k, x.1, x.2)] | none => [])
    traps := p.traps ++ (match a.trap with | some x => [(k, x.1, x.2)] | none => [])
    svcs := p.svcs ++ (match a.svc with | some x => [x] | none => [])
    imm := match a.imm with | some x => some x | none => p.imm
    ctl := p.ctl || a.ctl
    poisoned := p.poisoned + if a.counted then 1 else 0 }

/-- The pitch of a slot after the answer of its instruction. -/
def Pitch.answer (p : Pitch) (k : Nat) (g : Sig) : Reply → Pitch
  | .hold => p.skip k
  | .wait => (p.setStatus k .pending).skip k
  | .waitFor w => { (p.setStatus k .pending).skip k with waits := p.waits ++ [w] }
  | .fault f =>
    if f.code = fcWait then (p.setStatus k .pending).skip k
    else { (p.setStatus k .fired).moved k with faults := p.faults ++ [(k, f)] }
  | .done a => ((p.setStatus k .fired).perform k g a).moved k

/-- Lines an answer read. -/
def Reply.reads : Reply → List Nat
  | .hold => []
  | .wait => []
  | .waitFor w => [lineKey w.loc]
  | .fault _ => []
  | .done a => a.reads

/-- Note that scratchpad lines were read by the running task (09 R189). -/
def State.touchPad (s : State) : List Nat → State
  | [] => s
  | k :: rest =>
    if locSpace (k * 128) = spPad then State.touchPad (s.modLine k fun m => { m with rd := true }) rest
    else State.touchPad s rest

/-- Write the pitch back, counting an instruction fired (17 R354). -/
def Env.store (e : Env) (p : Pitch) (counted : Bool) : State :=
  e.s.modTile e.t fun v =>
    { v with run := some { e.r with pitch := some p }, fired := v.fired + if counted then 1 else 0 }

/-- The state after a slot's instruction is examined once (03 R59-R61). An instruction whose predicate does not match, or one with a
null operand, is consumed only once a token stands in each of its positions [DESIGN CHOICE, log 117]; an exit so consumed has not
taken a poisoned token (R63, R120) [DESIGN CHOICE, log 118]. -/
def fireAt (i : Instr) (act : Env → Reply) (e : Env) : State :=
  let g := sigOf i
  match e.slot.status with
  | .fired | .unfired | .nullified => e.store (e.p.skip e.k) false
  | st =>
    if !g.ready e.slot then e.store (e.p.skip e.k) false
    else if !g.matches e.slot then e.store ((e.p.setStatus e.k .unfired).moved e.k) true
    else if g.hasNull e.slot then
      let done := if nullifies i then SlotStatus.nullified else .fired
      e.store (((e.p.setStatus e.k done).sendNulls g e.pois).moved e.k) true
    else
      let r := act e
      let s := ((e.store (e.p.answer e.k g r) (st == .waiting && r != .hold)).touchPad r.reads).readLines e.ctx r.reads
      match r with
      | .fault f => s.verifyWalk (some (tileDie e.t)) e.ctx f
      | .hold | .wait | .waitFor _ | .done _ => s

/-- An instruction of a pitch, executed in the focused slot. -/
def fire (i : Instr) (act : Env → Reply) (s : State) : Host.Outcome State Fault Refusal :=
  match s.env? with
  | none => .fault .noPitch
  | some e => .next (fireAt i act e)

/-- A machine fault with no further fields. -/
def faultOf (code : Nat) (addr : BitVec 64 := 0) (cause : Nat := 0) : Reply :=
  .fault { code := code, cause := cause, addr := addr }

end Sys2Proof.Machine
end

