-- ==== Sys2Proof/Machine/Exits.lean ====
section
/-! DEFINITION. Exits, traps and service calls, opcodes 0x10-0x18 (03 R66; 06 R120-R123). -/

namespace Sys2Proof.Machine

/-- The pitch a signed 16-byte offset from the own header names (03 R66). -/
def Env.pitchAt (e : Env) (off : BitVec 19) : BitVec 64 := e.p.addr + (off.signExtend 64 <<< 4)

/-- A fired exit; a poisoned predicate or address marks the task control-poisoned (03 R63). -/
def Env.leave (e : Env) (exit : BitVec 3) (dest : ExitTo) : Reply :=
  .done { exit := some (exit.toNat, dest), ctl := e.pois }

/-- 06 R120. -/
def execBr (p : Pr) (exit : BitVec 3) (off : BitVec 19) (s : State) : Host.Outcome State Fault Refusal :=
  fire (.br p exit off) (fun e => e.leave exit (.goto (e.pitchAt off))) s

/-- 06 R120. -/
def execBri (p : Pr) (exit : BitVec 3) (s : State) : Host.Outcome State Fault Refusal :=
  fire (.bri p exit) (fun e => e.leave exit (.goto e.a)) s

/-- 06 R120; g63 is written at belay. -/
def execCall (p : Pr) (exit : BitVec 3) (off : BitVec 19) (s : State) : Host.Outcome State Fault Refusal :=
  fire (.call_ p exit off) (fun e => e.leave exit (.call (e.pitchAt off))) s

/-- 06 R120. -/
def execCalli (p : Pr) (exit : BitVec 3) (s : State) : Host.Outcome State Fault Refusal :=
  fire (.calli p exit) (fun e => e.leave exit (.call e.a)) s

/-- 03 R79. -/
def execDone (p : Pr) (exit : BitVec 3) (s : State) : Host.Outcome State Fault Refusal :=
  fire (.done_ p exit) (fun e => e.leave exit .commit) s

/-- 03 R80. -/
def execAbort (p : Pr) (exit : BitVec 3) (s : State) : Host.Outcome State Fault Refusal :=
  fire (.abort p exit) (fun e => e.leave exit .abort) s

/-- 06 R121: taken after the pitch has belayed. -/
def execTrap (p : Pr) (imm : BitVec 13) (s : State) : Host.Outcome State Fault Refusal :=
  fire (.trap p imm) (fun _ => .done { trap := some (true, imm) }) s

/-- 06 R121. -/
def execBreak (p : Pr) (imm : BitVec 13) (s : State) : Host.Outcome State Fault Refusal :=
  fire (.break_ p imm) (fun _ => .done { trap := some (false, imm) }) s

/-- Service numbers (06 R123). -/
def svcLogNum : BitVec 13 := 0x001
def svcTlbinvNum : BitVec 13 := 0x100
def svcResumeNum : BitVec 13 := 0x101
def svcMigrateNum : BitVec 13 := 0x102

def svcIsSystem (n : BitVec 13) : Bool := n == svcTlbinvNum || n == svcResumeNum || n == svcMigrateNum

/-- 06 R122: the number is checked when SVC fires; the service is performed after the pitch passes its checks. A twin
may not become irrevocable (18 R381). -/
def execSvc (p : Pr) (imm : BitVec 13) (t : Target) (s : State) : Host.Outcome State Fault Refusal :=
  fire (.svc p imm t) (fun e =>
    if imm != svcLogNum && !svcIsSystem imm then faultOf fcIllegalEncoding
    else if svcIsSystem imm && e.ctx != 0 then faultOf fcIllegalEncoding
    else if svcIsSystem imm && e.r.twin.isSome then faultOf fcImmediateLimit
    else
      .done { out0 := some (.scalar 0),
              svc := some { slot := e.k, num := imm, l := e.a, r := e.b, pois := e.left.pois || e.right.pois,
                            resPois := e.pois, target := t } }) s

end Sys2Proof.Machine
end

