-- ==== Sys2Proof/Machine/Access.lean ====
section
/-! DEFINITION. Accesses of a task to memory: the checks made when one fires, the overlay of own stores, and what makes
one wait (03 R64; 08 R182; 09 R201; 10 R209-R214; 11 R241). -/

namespace Sys2Proof.Machine

/-! ## Checks (10 R210) -/

/-- What an access asks of the bytes it names. -/
structure Need where
  align : Nat
  r : Bool := false
  w : Bool := false
  /-- the local window may not be named -/
  noLocal : Bool := false
  /-- host memory may not be named -/
  noHost : Bool := false
  /-- SYNC is needed -/
  sync : Bool := false
  /-- RAP is needed on a peer page -/
  rap : Bool := false
  deriving DecidableEq, Repr

/-- A part of an access within one line: address, length, offset in the data, and the leaf of a translated part. -/
structure Part where
  va : Nat
  n : Nat
  off : Nat
  leaf : Option (Except Nat Xlat)

/-- A part whose checks have passed, with its location. -/
structure Bound where
  va : Nat
  n : Nat
  off : Nat
  loc : Nat
  leaf : Option Xlat
  deriving DecidableEq, Repr

/-- The leaf that bound a part of an access (16 R345). -/
def Bound.use (b : Bound) : Option LeafUse :=
  b.leaf.map fun x => { base := x.base b.va, size := pageBytes (leafSize x.leaf), glob := leafG x.leaf }

/-- An address modulo 2^64. -/
def wrap64 (a : Nat) : Nat := a % 2 ^ 64

/-- The first byte of a span that is neither canonical nor in the local window (09 R184). -/
def spanCanon (x : Nat × Nat) : Option FaultInfo :=
  ((List.range x.2).find? fun i => !isCanonical (wrap64 (x.1 + i)) && !isLocal (wrap64 (x.1 + i))).map fun i =>
    { code := fcNonCanon, addr := BitVec.ofNat 64 (x.1 + i) }

/-- Check 1 over spans: the lowest byte that fails, or of a gather or scatter the first byte of the lowest lane that fails. -/
def spansCanon : List (Nat × Nat) → Option FaultInfo
  | [x] => spanCanon x
  | xs => (xs.find? fun x => (spanCanon x).isSome).map fun x => { code := fcNonCanon, addr := BitVec.ofNat 64 x.1 }

/-- Parts of spans, cut at lines, numbered through the data. -/
def partsOf (s : State) (tile : Option Nat) (ctx : BitVec 32) : List (Nat × Nat) → Nat → List Part
  | [], _ => []
  | (a, n) :: rest, off =>
    ((cutLines a n (n + 1)).map fun c =>
      { va := c.1, n := c.2, off := off + (c.1 - a), leaf := if isLocal c.1 then none else some (s.translate tile ctx c.1) }) ++
      partsOf s tile ctx rest (off + n)

def Part.fault (p : Part) (code : Nat) (cause : Nat := 0) : FaultInfo :=
  { code := code, cause := cause, addr := BitVec.ofNat 64 p.va }

/-- Check 4. -/
def Part.notMapped (p : Part) : Option FaultInfo :=
  match p.leaf with
  | some (.error c) => some (p.fault fcNotMapped c)
  | some (.ok _) => none
  | none => none

/-- A check on the leaf of a translated part. -/
def Part.onLeaf (p : Part) (f : Xlat → Option FaultInfo) : Option FaultInfo :=
  match p.leaf with
  | some (.ok x) => f x
  | some (.error _) => none
  | none => none

/-- Check 5. -/
def Part.perm (s : State) (ctx : BitVec 32) (nd : Need) (p : Part) : Option FaultInfo :=
  p.onLeaf fun x =>
    let c := (if nd.r && !leafR x.leaf then 1 else 0) + (if nd.w && !s.leafWrite ctx x then 2 else 0)
    if c = 0 then none else some (p.fault fcPerm c)

/-- Check 6. -/
def Part.aperture (s : State) (ctx : BitVec 32) (nd : Need) (p : Part) : Option FaultInfo :=
  p.onLeaf fun x =>
    match s.resolve ctx x p.va with
    | .error c => some (p.fault fcAperture c)
    | .ok _ => if nd.noHost && leafAper x.leaf == 4 then some (p.fault fcAperture 12) else none

/-- Check 7. -/
def Part.notSync (nd : Need) (p : Part) : Option FaultInfo :=
  p.onLeaf fun x => if nd.sync && !leafSync x.leaf then some (p.fault fcNotSync) else none

/-- Check 8. -/
def Part.denied (nd : Need) (p : Part) : Option FaultInfo :=
  p.onLeaf fun x => if nd.rap && leafAper x.leaf == 3 && !leafRap x.leaf then some (p.fault fcAtomicDenied) else none

/-- The location of a part that has passed. -/
def Part.bound (s : State) (tile : Nat) (ctx : BitVec 32) (p : Part) : Bound :=
  match p.leaf with
  | some (.ok x) =>
    { va := p.va, n := p.n, off := p.off, leaf := some x, loc := match s.resolve ctx x p.va with | .ok l => l | .error _ => 0 }
  | _ => { va := p.va, n := p.n, off := p.off, leaf := none, loc := padLoc tile (p.va % 2 ^ 20) }

/-- Checks 4 to 8, each over every part before the next. -/
def State.checkParts (s : State) (ctx : BitVec 32) (nd : Need) (ps : List Part) : Option FaultInfo :=
  (ps.findSome? Part.notMapped).or <| (ps.findSome? (Part.perm s ctx nd)).or <| (ps.findSome? (Part.aperture s ctx nd)).or <|
    (ps.findSome? (Part.notSync nd)).or (ps.findSome? (Part.denied nd))

/-- The checks of R210 in their order, on spans of bytes. -/
def State.checkAccess (s : State) (tile : Nat) (ctx : BitVec 32) (nd : Need) (spans : List (Nat × Nat)) :
    Except FaultInfo (List Bound) :=
  match spansCanon spans with
  | some f => .error f
  | none =>
    match spans.find? fun x => x.1 % nd.align != 0 with
    | some x => .error { code := fcMisaligned, addr := BitVec.ofNat 64 x.1 }
    | none =>
      match spans.find? fun x => nd.noLocal && isLocal x.1 with
      | some x => .error { code := fcAperture, cause := 15, addr := BitVec.ofNat 64 x.1 }
      | none =>
        if spans.any fun x => s.withheld ctx x.1 || s.withheld ctx (x.1 + x.2 - 1) then .error { code := fcWait }
        else
          let ps := partsOf s (some tile) ctx spans 0
          match s.checkParts ctx nd ps with
          | some f => .error f
          | none => .ok (ps.map (Part.bound s tile ctx))

/-- The checks for the task of the focused slot. -/
def Env.access (e : Env) (nd : Need) (spans : List (Nat × Nat)) : Except FaultInfo (List Bound) :=
  e.s.checkAccess e.t e.ctx nd spans

def Bound.pad (b : Bound) : Bool := locSpace b.loc == spPad

/-! ## Stores as they take effect (09 R187, R201) -/

/-- The mask of n bytes from byte o of a line. -/
def byteMask (o n : Nat) : BitVec 128 := BitVec.ofNat 128 ((2 ^ n - 1) * 2 ^ o)

/-- Sector poison after a write of n bytes from byte o: replaced where the sector is written in full, else OR-ed. -/
def sectorPoison (old : BitVec 8) (o n : Nat) (pois : Bool) : BitVec 8 :=
  BitVec.ofNat 8 (((List.range 8).map fun i =>
    let touched := decide (o < 16 * i + 16 ∧ 16 * i < o + n)
    let whole := decide (o ≤ 16 * i ∧ 16 * i + 16 ≤ o + n)
    let b := if whole then pois else old.getLsbD i || (touched && pois)
    if b then 2 ^ i else 0).sum)

/-- Bytes laid over a line at offset o. -/
def overlayLine (line : BitVec 1024) (o : Nat) (bs : List Byte) : BitVec 1024 :=
  let m := BitVec.ofNat 1024 ((2 ^ (8 * bs.length) - 1) * 2 ^ (8 * o))
  (line &&& ~~~m) ||| BitVec.ofNat 1024 (leNat bs * 2 ^ (8 * o))

/-- A write to a shadow line. -/
def ShadowLine.put (l : ShadowLine) (o : Nat) (bs : List Byte) (pois : Bool) : ShadowLine :=
  { l with data := overlayLine l.data o bs, mask := l.mask ||| byteMask o bs.length, pois := sectorPoison l.pois o bs.length pois }

/-- The shadow lines after a store of bytes that lie in one line. -/
def shadowStore (l : List ShadowLine) (p : StorePiece) (pois : Bool) : List ShadowLine :=
  let base := p.loc - p.loc % 128
  if l.any fun x => x.loc == base then l.map fun x => if x.loc == base then x.put (p.loc % 128) p.bytes pois else x
  else
    l ++ [({ loc := base, va := p.va - BitVec.ofNat 64 (p.loc % 128), data := 0, mask := 0, pois := 0, leafVa := p.leafVa,
             leafSize := p.leafSize, leafGlobal := p.leafGlobal } : ShadowLine).put (p.loc % 128) p.bytes pois]

/-- The context of the task of a tile; 0 with none. -/
def State.runCtx (s : State) (t : Nat) : BitVec 32 :=
  match s.run? t with
  | some r => r.ctx
  | none => 0

/-- A store piece takes effect: directly in the scratchpad, or in the task's shadow lines. -/
def State.storePiece (s : State) (t : Nat) (pois : Bool) (p : StorePiece) : State :=
  if p.local_ then s.storeFor (s.runCtx t) p.loc p.bytes pois
  else s.modRun t fun r => { r with shadow := shadowStore r.shadow p pois }

def State.storePieces (s : State) (t : Nat) (pois : Bool) : List StorePiece → State
  | [] => s
  | p :: rest => State.storePieces (s.storePiece t pois p) t pois rest

/-- The store pieces of data over bounds. -/
def piecesOf (data : List Byte) (bs : List Bound) : List StorePiece :=
  bs.map fun b =>
    { va := BitVec.ofNat 64 b.va, loc := b.loc, bytes := (data.drop b.off).take b.n, local_ := b.pad
      leafVa := match b.leaf with | some x => BitVec.ofNat 64 (x.base b.va) | none => 0
      leafSize := match b.leaf with | some x => pageBytes (leafSize x.leaf) | none => 0
      leafGlobal := match b.leaf with | some x => leafG x.leaf | none => false }

/-! ## Reading with the task's own shadow bytes (10 R212) -/

/-- The shadow line of a run at a location, if any. -/
def shadowAt (l : List ShadowLine) (loc : Nat) : Option ShadowLine := l.find? fun x => x.loc == loc - loc % 128

/-- Bytes of a line with the masked shadow bytes laid over them. -/
def overlayShadow (x : Option ShadowLine) (o : Nat) (bs : List Byte) : List Byte :=
  match x with
  | none => bs
  | some x => bs.zipIdx.map fun b =>
      if x.mask.getLsbD (o + b.2) then BitVec.ofNat 8 (x.data.toNat / 2 ^ (8 * (o + b.2))) else b.1

/-- Whether a shadow byte of n bytes from byte o lies in a poisoned sector. -/
def shadowPoison (x : Option ShadowLine) (o n : Nat) : Bool :=
  match x with
  | none => false
  | some x => (List.range n).any fun i => x.mask.getLsbD (o + i) && x.pois.getLsbD ((o + i) / 16)

/-- n bytes of one line at a location as a run reads them, and their poison. -/
def State.readOwn (s : State) (r : Run) (loc n : Nat) : List Byte × Bool :=
  let x := shadowAt r.shadow loc
  (overlayShadow x (loc % 128) (s.mem.bytes loc n), s.poisonAt loc n || shadowPoison x (loc % 128) n)

/-- The bytes of an access in order, and their poison. [DEDUCED, log 20] -/
def State.readBounds (s : State) (t : Nat) (bs : List Bound) : List Byte × Bool :=
  match s.run? t with
  | none => ([], false)
  | some r =>
    let l := bs.map fun b => s.readOwn r b.loc b.n
    ((l.map Prod.fst).flatten, l.any Prod.snd)

/-! ## Order within the pitch (03 R64) -/

/-- The fired stores of the pitch with a lower LSID, in LSID order: LSID, pieces, poison. -/
def Pitch.storesBelow (p : Pitch) (lsid : Nat) : List (List StorePiece × Bool) :=
  (List.range lsid).flatMap fun i => p.effects.filterMap fun x =>
    match x.2 with
    | .store l ps pois => if l == i then some (ps, pois) else none
    | _ => none

def State.applyStores (s : State) (t : Nat) : List (List StorePiece × Bool) → State
  | [] => s
  | x :: rest => State.applyStores (s.storePieces t x.2 x.1) t rest

/-- The spans an operation of the pitch would touch, from the tokens it has: none while its address is unknown, empty for an
operation that touches no location itself. -/
def opSpans (i : Instr) (sl : Slot) : Option (List (Nat × Nat)) :=
  let at_ := fun (off : BitVec 64) (n : Nat) => sl.left.map fun a => [((a.sc + off).toNat, n)]
  let line := fun (off : BitVec 64) => sl.left.map fun a => [((a.sc + off).toNat / 128 * 128, 128)]
  let lanes := fun (off : BitVec 64) =>
    match sl.left, sl.right with
    | some a, some x =>
      some ((List.range 64).map fun k => ((a.sc + off + 4 * (x.vec.extractLsb' (32 * k) 32).signExtend 64).toNat, 4))
    | _, _ => none
  let scaled := fun (imm : BitVec 6) (n : Nat) => imm.signExtend 64 * BitVec.ofNat 64 n
  match i with
  | .ldb _ _ m _ => at_ (scaled m 1) 1
  | .ldbu _ _ m _ => at_ (scaled m 1) 1
  | .ldh _ _ m _ => at_ (scaled m 2) 2
  | .ldhu _ _ m _ => at_ (scaled m 2) 2
  | .ldw _ _ m _ => at_ (scaled m 4) 4
  | .ldwu _ _ m _ => at_ (scaled m 4) 4
  | .ldd _ _ m _ => at_ (scaled m 8) 8
  | .ldv _ _ m _ => at_ (scaled m 256) 256
  | .ldvx _ _ _ => lanes 0
  | .stb _ _ m => at_ (m.signExtend 64) 1
  | .sth _ _ m => at_ (m.signExtend 64) 2
  | .stw _ _ m => at_ (m.signExtend 64) 4
  | .std _ _ m => at_ (m.signExtend 64) 8
  | .stv _ _ m => at_ (m.signExtend 64) 256
  | .stvx _ m => lanes (m.signExtend 64)
  | .sld _ _ _ _ => at_ 0 8
  | .sst _ _ _ => at_ 0 8
  | .sldv _ _ _ _ => at_ 0 128
  | .sstv _ _ _ => at_ 0 128
  | .amoi _ _ _ _ _ => at_ 0 8
  | .amow _ _ _ _ _ => at_ 0 4
  | .amof _ _ _ _ => at_ 0 4
  | .cas _ m _ => at_ 0 (if m = 0 then 8 else 4)
  | .redi _ _ _ _ => at_ 0 8
  | .redw _ _ _ _ => at_ 0 4
  | .redf _ _ _ => at_ 0 4
  | .redb _ _ _ _ => at_ 0 128
  | .redo _ _ => at_ 0 16
  | .drawm _ _ => at_ 0 16
  | .flushl _ _ m => line (m.signExtend 64)
  | .pref _ _ m => line (scaled m 128)
  | .mwait _ _ _ => at_ 0 8
  | _ => some []

/-- Ordinary loads and stores: one that has fired and awaits its result has still to be performed. -/
def isLoadOrStore : Instr → Bool
  | .ldb _ _ _ _ | .ldbu _ _ _ _ | .ldh _ _ _ _ | .ldhu _ _ _ _ | .ldw _ _ _ _ | .ldwu _ _ _ _ | .ldd _ _ _ _ | .ldv _ _ _ _ => true
  | .ldvx _ _ _ | .stb _ _ _ | .sth _ _ _ | .stw _ _ _ | .std _ _ _ | .stv _ _ _ | .stvx _ _ => true
  | _ => false

/-- Whether two lists of bounds share a byte. -/
def overlaps (a b : List Bound) : Bool :=
  a.any fun x => b.any fun y => x.loc < y.loc + y.n && y.loc < x.loc + x.n

/-- Whether an operation may touch a byte of bounds: its address is unknown, or names one. One that would fault touches none. -/
def Env.mayTouch (e : Env) (i : Instr) (sl : Slot) (bs : List Bound) : Bool :=
  match opSpans i sl with
  | none => true
  | some spans =>
    match e.access { align := 1 } spans with
    | .error f => f.code == fcWait
    | .ok cs => overlaps bs cs

/-- Whether an unresolved operation of a lower LSID may touch a byte of a load. A null operand nullifies it. [DEDUCED, log 95] -/
def Env.blocks (e : Env) (lsid : Nat) (bs : List Bound) (w : BitVec 32) (sl : Slot) : Bool :=
  match decode w with
  | .error _ => false
  | .ok i =>
    match (sigOf i).lsid with
    | none => false
    | some l =>
      if l.toNat ≥ lsid then false
      else
        match sl.status with
        | .waiting => !(sigOf i).hasNull sl && e.mayTouch i sl bs
        | .pending => isLoadOrStore i && e.mayTouch i sl bs
        | .fired | .unfired | .nullified => false

/-- Whether a load must wait for an operation of its pitch (03 R64; 12 R261). -/
def Env.behindLower (e : Env) (lsid : Nat) (bs : List Bound) : Bool :=
  (e.p.words.zip e.p.slots).any fun x => e.blocks lsid bs x.1 x.2

/-! ## Footprints (08 R182; 11 R241) -/

/-- Whether the n bytes at a scratchpad offset and the m bytes at another share a byte, offsets modulo 2^20. -/
def padTouch (a n b m : Nat) : Bool :=
  let d := (b + 2 ^ 20 - a % 2 ^ 20) % 2 ^ 20
  let e := (a + 2 ^ 20 - b % 2 ^ 20) % 2 ^ 20
  n != 0 && m != 0 && (decide (d < n) || decide (e < m))

/-- Lines, not bytes, make a footprint: n bytes at an offset widened to whole lines. -/
def lineSpan (a n : Nat) : Nat × Nat := if n = 0 then (a, 0) else (a / 128 * 128, (a + n + 127) / 128 * 128 - a / 128 * 128)

/-- Bytes of a row of 128 elements by format code (08 R156). -/
def rowBytes (fmt : Nat) : Nat :=
  match fmt with
  | 0 => 64
  | 1 => 96
  | 2 | 3 | 6 => 128
  | _ => 256

/-- Bytes of n elements by format code. -/
def elemBytes (fmt n : Nat) : Nat := (rowBytes fmt * n + 127) / 128

/-- Bytes of a row of 128 output elements by the output type codes of 08 R174, R177. -/
def outBytes (ty : Nat) : Nat :=
  match ty with
  | 1 | 2 => 256
  | 3 | 4 => 128
  | _ => 512

/-- n rows from an offset at a stride. -/
def rowsAt (off stride len n : Nat) : List (Nat × Nat) := (List.range n).map fun i => (off + i * stride, len)

/-- Fields of an A word (08 R169). -/
def awOff (a : BitVec 64) : Nat := bitsAt a 0 20
def awStride (a : BitVec 64) : Nat := bitsAt a 20 20
def awRows (a : BitVec 64) : Nat := bitsAt a 40 12 + 1
def awFmt (a : BitVec 64) : Nat := bitsAt a 52 3
def awDef (a : BitVec 64) : Bool := a.getLsbD 55
def awScl (a : BitVec 64) : Bool := a.getLsbD 56
def awIacc (a : BitVec 64) : Bool := a.getLsbD 57
def awStrm (a : BitVec 64) : Bool := a.getLsbD 58
def awPort (a : BitVec 64) : Nat := bitsAt a 59 2

/-- Fields of a C word (08 R169). -/
def cwRow (c : BitVec 64) : Nat := bitsAt c 0 7
def cwTdef (c : BitVec 64) : Bool := c.getLsbD 7
def cwSoff (c : BitVec 64) : Nat := bitsAt c 8 20
def cwBoff (c : BitVec 64) : Nat := bitsAt c 28 20

/-- The format of the A rows of a job. -/
def MatJob.aFmt (j : MatJob) (a : BitVec 64) : Nat := if awDef a then j.fmta.toNat else awFmt a

/-- The scale tables of a job. -/
def MatJob.soff (j : MatJob) (c : BitVec 64) : Nat := if cwTdef c then j.scalep.toNat else cwSoff c
def MatJob.boff (j : MatJob) (c : BitVec 64) : Nat := if cwTdef c then j.bandp.toNat else cwBoff c

/-- The spans a job reads. -/
def MatJob.readSpans (j : MatJob) : List (Nat × Nat) :=
  match j.op with
  | .bload _ lw sw =>
    let f := bitsAt lw 40 3
    rowsAt (bitsAt lw 0 20) (bitsAt lw 20 20) (rowBytes f) 128 ++
      (if f ≤ 1 then [(bitsAt sw 0 20, 2048)] else []) ++ (if lw.getLsbD 43 then [(bitsAt sw 20 20, 4)] else [])
  | .mma _ _ a c =>
    let f := j.aFmt a
    (if awStrm a then [] else rowsAt (awOff a) (awStride a) (rowBytes f) (awRows a)) ++
      (if f ≤ 1 || awStrm a then [(j.soff c, 16 * awRows a)] else []) ++
      (if f ≤ 1 || awScl a || awStrm a then [(j.boff c, 2 * ((awRows a + 63) / 64))] else [])
  | .mmat _ _ a c =>
    rowsAt (awOff a) (awStride a) (elemBytes (j.aFmt a) (awRows a)) 128 ++ (if awScl a then [(j.boff c, 4)] else [])
  | .accscl _ _ w => [(bitsAt w 0 20, 1024)]
  | _ => []

/-- The spans a job writes. -/
def MatJob.writeSpans (j : MatJob) : List (Nat × Nat) :=
  match j.op with
  | .accst _ w => rowsAt (bitsAt w 0 20) (bitsAt w 20 20) (outBytes (bitsAt w 54 3)) (bitsAt w 47 7 + 1)
  | .accstat _ w => [(bitsAt w 0 20, 1024)]
  | _ => []

/-- Whether n bytes at a scratchpad offset touch the lines of a span. -/
def touchesLines (off n : Nat) (x : Nat × Nat) : Bool :=
  let y := lineSpan x.1 x.2
  padTouch off n y.1 y.2

/-- Whether an access to n scratchpad bytes touches the footprint of an uncompleted operation: a read only what is
written, a write both. -/
def Tile.footprint (v : Tile) (off n : Nat) (write : Bool) : Bool :=
  v.jobs.any fun j => (j.writeSpans.any (touchesLines off n)) || (write && j.readSpans.any (touchesLines off n))

/-- The offset element i of a descriptor adds to its source (11 R237). -/
def CopyDesc.srcOff (d : CopyDesc) (i : Nat) : BitVec 64 :=
  BitVec.ofNat 64 (i / d.row) * d.sstride + BitVec.ofNat 64 (16 * (i % d.row))

def CopyDesc.dstOff (d : CopyDesc) (i : Nat) : BitVec 64 :=
  BitVec.ofNat 64 (i / d.row) * d.dstride + BitVec.ofNat 64 (16 * (i % d.row))

/-- Whether an uncompleted copy of a task has still to read one of n scratchpad bytes (11 R241). -/
def Copy.stillReads (c : Copy) (off n : Nat) : Bool :=
  let touches := fun (a : Nat) =>
    let y := lineSpan (a % 2 ^ 20) 16
    padTouch off n y.1 y.2
  !c.done && c.desc.sin.isNone && isLocal c.desc.src.toNat &&
    (((List.range (c.desc.n - c.next)).any fun i => touches (c.desc.src + c.desc.srcOff (c.next + i)).toNat) ||
      c.fly.any fun e => !e.got && touches (locPa e.src))

/-- The copies of a tile's running task. -/
def State.copiesOf (s : State) (t : Nat) (r : Run) : List Copy :=
  s.fab.copies.filter fun c => c.tile == t && c.inst == r.inst && c.idx == r.idx && c.desc.kind != .prefetch

/-- Whether an access waits for the matrix unit or, a write, for a copy that has still to read its line. [DEDUCED, log 34] -/
def Env.held (e : Env) (write : Bool) (bs : List Bound) : Bool :=
  (bs.filter Bound.pad).any fun b =>
    (e.s.tile e.t).footprint (locPa b.loc) b.n write ||
      (write && (e.s.copiesOf e.t e.r).any fun c => c.stillReads (locPa b.loc) b.n)

/-! ## Loads and stores -/

/-- The lines of bounds. -/
def boundLines (bs : List Bound) : List Nat := bs.map fun b => lineKey b.loc

/-- The 16-byte sectors that bounds touch, by location. -/
def boundSectors (bs : List Bound) : List Nat :=
  (bs.flatMap fun b => (List.range ((b.loc % 16 + b.n + 15) / 16)).map fun i => b.loc / 16 * 16 + 16 * i).eraseDups

/-- What a load has read already. -/
def Pitch.earlyOf (p : Pitch) (k : Nat) : List SectorRead := p.early.filter fun x => x.slot == k

/-- The poison of a line as a load sees it of whose sectors some were read before. -/
def LineMeta.seen (m : LineMeta) (sectors : List Nat) (l : List SectorRead) : LineMeta :=
  if sectors.all fun o => l.any fun x => x.loc == o then { m with pois := l.any SectorRead.pois, chk := 0 }
  else { m with pois := m.pois || l.any SectorRead.pois }

/-- Memory as a load of bounds sees it: the sectors it has read already stand as they were then (12 R259). -/
def State.asRead (s : State) (bs : List Bound) (l : List SectorRead) : State :=
  let s1 : State := { s with mem := l.foldl (fun m x => m.writes x.loc (toBytes x.data.toNat 16)) s.mem }
  ((l.map fun x => lineKey x.loc).eraseDups).foldl
    (fun s k => s.modLine k fun m =>
      m.seen ((boundSectors bs).filter fun o => lineKey o == k) (l.filter fun x => lineKey x.loc == k)) s1

/-- A load of spans: performed when it fires, after the operations of lower LSID at its bytes (03 R64; 10 R211, R212). [DESIGN CHOICE, log 10] -/
def Env.load (e : Env) (lsid : BitVec 7) (align : Nat) (spans : List (Nat × Nat)) (mk : List Byte → TokVal) : Reply :=
  match e.access { align := align, r := true } spans with
  | .error f => .fault f
  | .ok bs =>
    if e.behindLower lsid.toNat bs then .hold
    else if e.held false bs then .wait
    else
      let d := ((e.s.asRead bs (e.p.earlyOf e.k)).applyStores e.t (e.p.storesBelow lsid.toNat)).readBounds e.t bs
      let pois := e.pois || d.2
      .done { out0 := some (mk d.1), pois := pois, counted := pois, reads := boundLines bs }

/-- The alignment a load needs (10 R209); none for what is no load. -/
def loadAlign : Instr → Option Nat
  | .ldb _ _ _ _ => some 1
  | .ldbu _ _ _ _ => some 1
  | .ldh _ _ _ _ => some 2
  | .ldhu _ _ _ _ => some 2
  | .ldw _ _ _ _ => some 4
  | .ldwu _ _ _ _ => some 4
  | .ldd _ _ _ _ => some 8
  | .ldv _ _ _ _ => some 16
  | .ldvx _ _ _ => some 4
  | _ => none

/-- Uniforms an instruction word uses, fired or not. -/
def uniformCount (w : BitVec 32) : Nat :=
  match (w.extractLsb' 24 8).toNat with
  | 0xF4 => 2
  | 0x96 => 64
  | 0x97 => 1
  | 0x98 => 1
  | _ => 0

/-- Uniforms a list of words uses. -/
def uniformSum (ws : List (BitVec 32)) : Nat := (ws.map uniformCount).sum

/-- Index of the first uniform of the focused slot. -/
def Env.uniformBase (e : Env) : BitVec 64 := e.r.rngctr + BitVec.ofNat 64 (uniformSum (e.p.words.take e.k))

/-- The words of the replay table that hold the next n uniforms of the focused slot (07 R149). -/
def Env.tableSpans (e : Env) (n : Nat) : List (Nat × Nat) :=
  (List.range n).map fun k => ((e.r.rngtab + 4 * (e.uniformBase + BitVec.ofNat 64 k)).toNat, 4)

/-- The alignment and spans of what an instruction reads before it fires, sector by sector: a load, or the replay table of a
draw; none of any other (07 R149; 12 R258, R259). -/
def Env.readAt (e : Env) (i : Instr) : Option (Nat × List (Nat × Nat)) :=
  match loadAlign i with
  | some n => (opSpans i e.slot).map fun l => (n, l)
  | none =>
    let n := uniformCount (e.p.words[e.k]?.getD 0)
    if e.r.rngmode && n != 0 then some (1, e.tableSpans n) else none

/-- The sectors that a load may read before it fires, at its bounds: those it has not read, while there is more than one
(12 R259). -/
def Env.unread (e : Env) (i : Instr) : List Bound → List Nat := fun bs =>
  if e.behindLower ((sigOf i).lsid.getD 0).toNat bs || e.held false bs then []
  else
    let l := (boundSectors bs).filter fun o => !(e.p.earlyOf e.k).any fun x => x.loc == o
    if l.length < 2 then [] else l

/-- A load whose operands are there, or a draw from a replay table, reads one of its sectors, in no fixed order among them (12 R259).
[DESIGN CHOICE, log 53] -/
def Env.readSector (e : Env) (i : Instr) : State :=
  match e.readAt i with
  | some (n, spans) =>
    match e.access { align := n, r := true } spans with
    | .error _ => e.s
    | .ok bs =>
      match e.unread i bs with
      | [] => e.s
      | l =>
        let o := l.getD ((Config.freeByte e.s.free).toNat % l.length) 0
        let x : SectorRead :=
          { slot := e.k, loc := o, data := BitVec.ofNat 128 (e.s.mem.value o 16), pois := e.s.poisonAt o 16 }
        let s := e.store { e.p with early := e.p.early ++ [x] } false
        (({ s with free := s.free + 1 } : State).touchPad [lineKey o]).readLine e.ctx (lineKey o)
  | none => e.s

/-- A store of data over spans, which takes effect at belay (10 R213); a poisoned address marks the task
control-poisoned (03 R63). -/
def Env.storeTo (e : Env) (lsid : BitVec 7) (align : Nat) (spans : List (Nat × Nat)) (data : List Byte) (pois addrPois : Bool) :
    Reply :=
  match e.access { align := align, w := true } spans with
  | .error f => .fault f
  | .ok bs =>
    if e.held true bs then .wait
    else .done { effects := [.store lsid.toNat (piecesOf data bs) pois], ctl := addrPois }

end Sys2Proof.Machine
end

