-- ==== Sys2Proof/Machine/Elementary.lean ====
section
/-! DEFINITION. The elementary functions of 02 R48 on exact values, to more bits than any rounding to F32 can tell apart. -/

namespace Sys2Proof.Machine

/-- Fraction bits of the fixed-point evaluations below. -/
def fixBits : Nat := 256

/-- One in fixed point. -/
def fixOne : Nat := 2 ^ fixBits

/-- The sum of z^(2i+1) / (2i+1) for i from k: the series of artanh, z in fixed point. -/
def artanhFrom (z2 : Nat) : Nat → Nat → Nat → Nat → Nat
  | 0, _, _, acc => acc
  | n + 1, k, p, acc => artanhFrom z2 n (k + 2) (p * z2 / fixOne) (acc + p / k)

/-- ln(y) for y in [1, 2], in fixed point: 2 artanh((y - 1) / (y + 1)). -/
def lnFix (y : Nat) : Nat :=
  let z := (y - fixOne) * fixOne / (y + fixOne)
  2 * artanhFrom (z * z / fixOne) 84 1 z 0

/-- ln 2 in fixed point. -/
def ln2Fix : Nat := lnFix (2 * fixOne)

/-- The exponential series in fixed point: term is x^k / k!. -/
def expFrom (x : Nat) : Nat → Nat → Nat → Nat → Nat
  | 0, _, _, acc => acc
  | n + 1, k, term, acc => expFrom x n (k + 1) (term * x / fixOne / k) (acc + term)

/-- 2^f for f in [0, 1), in fixed point. -/
def exp2Fix (f : Nat) : Nat := expFrom (f * ln2Fix / fixOne) 60 1 fixOne 0

/-- The floor and the fixed-point fraction of (-1)^neg × m × 2^e, for |x| < 2^9 and e ≥ -fixBits. -/
def splitFix (neg : Bool) (m : Nat) (e : Int) : Int × Nat :=
  let a : Int := (m * 2 ^ (e + fixBits).toNat : Nat)
  let s := if neg then -a else a
  (s / fixOne, (s % fixOne).toNat)

/-- VEXP2 (02 R48). -/
def Val.exp2 : Val → Res
  | .nan => (.nan, 0)
  | .inf neg => (if neg then .fin false 0 0 else .inf false, 0)
  | .fin neg m e =>
    if m = 0 then (.fin false 1 0, 0)
    else if 9 ≤ e + m.log2 then (.fin false 1 (if neg then -600 else 600), 0)
    else
      let s := splitFix neg m e
      if s.2 = 0 then (.fin false 1 s.1, 0)
      else (.fin false (4 * exp2Fix s.2 + 1) (s.1 - fixBits - 2), 0)

/-- VLOG2 (02 R48). -/
def Val.log2 : Val → Res
  | .nan => (.nan, 0)
  | .inf neg => if neg then (.nan, flagNV) else (.inf false, 0)
  | .fin neg m e =>
    if m = 0 then (.inf true, flagDZ)
    else if neg then (.nan, flagNV)
    else
      let k := m.log2
      let n : Int := e + k
      if m = 2 ^ k then (Val.ofInt n, 0)
      else
        let l := lnFix (m * 2 ^ (fixBits - k)) * fixOne / ln2Fix
        let t : Int := 4 * (n * fixOne + l) + 1
        (.fin (t < 0) t.natAbs (-fixBits - 2), 0)

/-- VRCP (02 R48). -/
def Val.rcp : Val → Res
  | .nan => (.nan, 0)
  | .inf neg => (.fin neg 0 0, 0)
  | .fin neg m e =>
    if m = 0 then (.inf neg, flagDZ)
    else let q := quotient 1 m; (.fin neg q.1 (q.2 - e), 0)

/-- VRSQ (02 R48). -/
def Val.rsq : Val → Res
  | .nan => (.nan, 0)
  | .inf neg => if neg then (.nan, flagNV) else (.fin false 0 0, 0)
  | .fin neg m e =>
    if m = 0 then (.inf neg, flagDZ)
    else if neg then (.nan, flagNV)
    else
      let e2 := if e % 2 = 0 then e else e - 1
      let m2 := if e % 2 = 0 then m else 2 * m
      let k := 2 ^ 240
      let r := isqrt (k / m2)
      if r * r * m2 = k then (.fin false r (-120 - e2 / 2), 0) else (.fin false (4 * r + 1) (-122 - e2 / 2), 0)

/-- VTANH (02 R48). Below 2^-13 the exact result lies just below the operand in magnitude; from 32 on just below 1. -/
def Val.tanh : Val → Res
  | .nan => (.nan, 0)
  | .inf neg => (.fin neg 1 0, 0)
  | .fin neg m e =>
    if m = 0 then (.fin neg 0 0, 0)
    else
      let top := e + m.log2
      if top < -13 then (.fin neg (m * 2 ^ 64 - 1) (e - 64), 0)
      else if 5 ≤ top then (.fin neg (2 ^ 64 - 1) (-64), 0)
      else
        let t := m * 2 ^ (e + 1 + fixBits).toNat * fixOne / ln2Fix
        let x := exp2Fix (t % fixOne) * 2 ^ (t / fixOne)
        (.fin neg (4 * ((x - fixOne) * fixOne / (x + fixOne)) + 1) (-fixBits - 2), 0)

end Sys2Proof.Machine
end

