-- ==== Sys2Proof/Machine/Scalar.lean ====
section
/-! DEFINITION. Scalar integer instructions, opcodes 0x20-0x4E (06 R124-R128). -/

namespace Sys2Proof.Machine

/-! ## The functions -/

/-- 06 R125. -/
def divS (a b : BitVec 64) : BitVec 64 := if b = 0 then BitVec.allOnes 64 else a.sdiv b
def divU (a b : BitVec 64) : BitVec 64 := if b = 0 then BitVec.allOnes 64 else a / b
def remS (a b : BitVec 64) : BitVec 64 := if b = 0 then a else a.srem b
def remU (a b : BitVec 64) : BitVec 64 := if b = 0 then a else a % b

/-- Bits [127:64] of the products (06 R124). -/
def mulHiS (a b : BitVec 64) : BitVec 64 := (a.signExtend 128 * b.signExtend 128).extractLsb' 64 64
def mulHiU (a b : BitVec 64) : BitVec 64 := (a.setWidth 128 * b.setWidth 128).extractLsb' 64 64

/-- Shift counts are b[5:0] (06 R124). -/
def shCount (b : BitVec 64) : Nat := b.toNat % 64

def minS (a b : BitVec 64) : BitVec 64 := if b.slt a then b else a
def maxS (a b : BitVec 64) : BitVec 64 := if a.slt b then b else a
def minU (a b : BitVec 64) : BitVec 64 := if b.ult a then b else a
def maxU (a b : BitVec 64) : BitVec 64 := if a.ult b then b else a

/-- |a|, with |-2^63| = -2^63 (06 R126). -/
def absS (a : BitVec 64) : BitVec 64 := if a.slt 0 then -a else a

/-- Leading zero bits of n in w bits. -/
def clzNat (w n : Nat) : Nat := if n = 0 then w else w - 1 - n.log2

/-- Trailing zero bits of n below bit k. -/
def ctzFrom : Nat → Nat → Nat
  | 0, _ => 0
  | k + 1, n => if n % 2 = 1 then 0 else 1 + ctzFrom k (n / 2)

/-- Set bits of n below bit k. -/
def popNat : Nat → Nat → Nat
  | 0, _ => 0
  | k + 1, n => n % 2 + popNat k (n / 2)

/-- pos and len of a bit-field control word (06 R126). -/
def bfPos (c : BitVec 64) : Nat := c.toNat % 64
def bfLen (c : BitVec 64) : Nat := min (bitsAt c 8 7) 64

/-- len low ones. -/
def ones (n : Nat) : BitVec 64 := BitVec.ofNat 64 (2 ^ n - 1)

def bfExtract (a c : BitVec 64) : BitVec 64 := (a >>> bfPos c) &&& ones (bfLen c)

def bfInsert (a b c : BitVec 64) : BitVec 64 :=
  let m := ones (bfLen c) <<< bfPos c
  (a &&& ~~~m) ||| ((b <<< bfPos c) &&& m)

/-- Sign extension from the width of a type (06 R126). -/
def sextBy (x : ElemType) (a : BitVec 64) : BitVec 64 :=
  match x with
  | .i32 => (a.setWidth 32).signExtend 64
  | .i16 => (a.setWidth 16).signExtend 64
  | .i8 => (a.setWidth 8).signExtend 64
  | _ => a

def zextBy (x : ElemType) (a : BitVec 64) : BitVec 64 :=
  match x with
  | .n32 => (a.setWidth 32).setWidth 64
  | .n16 => (a.setWidth 16).setWidth 64
  | .n8 => (a.setWidth 8).setWidth 64
  | _ => a

/-- An instruction of two scalars, of one, of one and an immediate; a compare of two and of one with an immediate. -/
def fire2 (i : Instr) (f : BitVec 64 → BitVec 64 → BitVec 64) (s : State) : Host.Outcome State Fault Refusal :=
  fire i (fun e => e.scalar (f e.a e.b)) s
def fire1 (i : Instr) (f : BitVec 64 → BitVec 64) (s : State) : Host.Outcome State Fault Refusal :=
  fire i (fun e => e.scalar (f e.a)) s
def fireCmp (i : Instr) (f : BitVec 64 → BitVec 64 → Bool) (s : State) : Host.Outcome State Fault Refusal :=
  fire i (fun e => e.pred (f e.a e.b)) s
def fireCmpI (i : Instr) (f : BitVec 64 → Bool) (s : State) : Host.Outcome State Fault Refusal :=
  fire i (fun e => e.pred (f e.a)) s

/-! ## The instructions -/

/-- 06 R124. -/
def execAdd (p : Pr) (u t : Target) (s : State) : Host.Outcome State Fault Refusal :=
  fire2 (.add p u t) (fun a b => a + b) s

/-- 06 R124. -/
def execSub (p : Pr) (u t : Target) (s : State) : Host.Outcome State Fault Refusal :=
  fire2 (.sub p u t) (fun a b => a - b) s

/-- 06 R124. -/
def execMul (p : Pr) (u t : Target) (s : State) : Host.Outcome State Fault Refusal :=
  fire2 (.mul p u t) (fun a b => a * b) s

/-- 06 R124. -/
def execMulh (p : Pr) (u t : Target) (s : State) : Host.Outcome State Fault Refusal :=
  fire2 (.mulh p u t) (fun a b => mulHiS a b) s

/-- 06 R124. -/
def execMulhu (p : Pr) (u t : Target) (s : State) : Host.Outcome State Fault Refusal :=
  fire2 (.mulhu p u t) (fun a b => mulHiU a b) s

/-- 06 R125. -/
def execDiv (p : Pr) (u t : Target) (s : State) : Host.Outcome State Fault Refusal :=
  fire2 (.div p u t) (fun a b => divS a b) s

/-- 06 R125. -/
def execDivu (p : Pr) (u t : Target) (s : State) : Host.Outcome State Fault Refusal :=
  fire2 (.divu p u t) (fun a b => divU a b) s

/-- 06 R125. -/
def execRem (p : Pr) (u t : Target) (s : State) : Host.Outcome State Fault Refusal :=
  fire2 (.rem_ p u t) (fun a b => remS a b) s

/-- 06 R125. -/
def execRemu (p : Pr) (u t : Target) (s : State) : Host.Outcome State Fault Refusal :=
  fire2 (.remu p u t) (fun a b => remU a b) s

/-- 06 R124. -/
def execAnd (p : Pr) (u t : Target) (s : State) : Host.Outcome State Fault Refusal :=
  fire2 (.and_ p u t) (fun a b => a &&& b) s

/-- 06 R124. -/
def execOr (p : Pr) (u t : Target) (s : State) : Host.Outcome State Fault Refusal :=
  fire2 (.or_ p u t) (fun a b => a ||| b) s

/-- 06 R124. -/
def execXor (p : Pr) (u t : Target) (s : State) : Host.Outcome State Fault Refusal :=
  fire2 (.xor_ p u t) (fun a b => a ^^^ b) s

/-- 06 R124. -/
def execAndn (p : Pr) (u t : Target) (s : State) : Host.Outcome State Fault Refusal :=
  fire2 (.andn p u t) (fun a b => a &&& ~~~b) s

/-- 06 R124. -/
def execShl (p : Pr) (u t : Target) (s : State) : Host.Outcome State Fault Refusal :=
  fire2 (.shl p u t) (fun a b => a <<< shCount b) s

/-- 06 R124. -/
def execShr (p : Pr) (u t : Target) (s : State) : Host.Outcome State Fault Refusal :=
  fire2 (.shr p u t) (fun a b => a >>> shCount b) s

/-- 06 R124. -/
def execSar (p : Pr) (u t : Target) (s : State) : Host.Outcome State Fault Refusal :=
  fire2 (.sar p u t) (fun a b => a.sshiftRight (shCount b)) s

/-- 06 R124. -/
def execRor (p : Pr) (u t : Target) (s : State) : Host.Outcome State Fault Refusal :=
  fire2 (.ror p u t) (fun a b => a.rotateRight (shCount b)) s

/-- 06 R124. -/
def execMin (p : Pr) (u t : Target) (s : State) : Host.Outcome State Fault Refusal :=
  fire2 (.min_ p u t) (fun a b => minS a b) s

/-- 06 R124. -/
def execMax (p : Pr) (u t : Target) (s : State) : Host.Outcome State Fault Refusal :=
  fire2 (.max_ p u t) (fun a b => maxS a b) s

/-- 06 R124. -/
def execMinu (p : Pr) (u t : Target) (s : State) : Host.Outcome State Fault Refusal :=
  fire2 (.minu p u t) (fun a b => minU a b) s

/-- 06 R124. -/
def execMaxu (p : Pr) (u t : Target) (s : State) : Host.Outcome State Fault Refusal :=
  fire2 (.maxu p u t) (fun a b => maxU a b) s

/-- 06 R126. -/
def execAbs (p : Pr) (u t : Target) (s : State) : Host.Outcome State Fault Refusal :=
  fire1 (.abs_ p u t) (fun a => absS a) s

/-- 06 R126. -/
def execClz (p : Pr) (u t : Target) (s : State) : Host.Outcome State Fault Refusal :=
  fire1 (.clz p u t) (fun a => BitVec.ofNat 64 (clzNat 64 a.toNat)) s

/-- 06 R126. -/
def execCtz (p : Pr) (u t : Target) (s : State) : Host.Outcome State Fault Refusal :=
  fire1 (.ctz p u t) (fun a => BitVec.ofNat 64 (ctzFrom 64 a.toNat)) s

/-- 06 R126. -/
def execPopc (p : Pr) (u t : Target) (s : State) : Host.Outcome State Fault Refusal :=
  fire1 (.popc p u t) (fun a => BitVec.ofNat 64 (popNat 64 a.toNat)) s

/-- 06 R126. -/
def execSext (p : Pr) (x : ElemType) (u t : Target) (s : State) : Host.Outcome State Fault Refusal :=
  fire1 (.sext p x u t) (sextBy x) s

/-- 06 R126. -/
def execZext (p : Pr) (x : ElemType) (u t : Target) (s : State) : Host.Outcome State Fault Refusal :=
  fire1 (.zext p x u t) (zextBy x) s

/-- 06 R126. -/
def execBfx (p : Pr) (u t : Target) (s : State) : Host.Outcome State Fault Refusal :=
  fire2 (.bfx p u t) bfExtract s

/-- 06 R126: ternary. -/
def execBfi (u t : Target) (s : State) : Host.Outcome State Fault Refusal :=
  fire (.bfi u t) (fun e => e.scalar (bfInsert e.a e.b e.c)) s

/-- 06 R124. -/
def execLea (p : Pr) (u t : Target) (s : State) : Host.Outcome State Fault Refusal :=
  fire2 (.lea p u t) (fun a b => a + (b <<< 7)) s

/-- 06 R127. -/
def execAddi (p : Pr) (imm : BitVec 13) (t : Target) (s : State) : Host.Outcome State Fault Refusal :=
  fire1 (.addi p imm t) (fun a => a + imm.signExtend 64) s

/-- 06 R127. -/
def execAndi (p : Pr) (imm : BitVec 13) (t : Target) (s : State) : Host.Outcome State Fault Refusal :=
  fire1 (.andi p imm t) (fun a => a &&& imm.signExtend 64) s

/-- 06 R127. -/
def execOri (p : Pr) (imm : BitVec 13) (t : Target) (s : State) : Host.Outcome State Fault Refusal :=
  fire1 (.ori p imm t) (fun a => a ||| imm.signExtend 64) s

/-- 06 R127. -/
def execXori (p : Pr) (imm : BitVec 13) (t : Target) (s : State) : Host.Outcome State Fault Refusal :=
  fire1 (.xori p imm t) (fun a => a ^^^ imm.signExtend 64) s

/-- 06 R127. -/
def execShli (p : Pr) (imm : BitVec 13) (t : Target) (s : State) : Host.Outcome State Fault Refusal :=
  fire1 (.shli p imm t) (fun a => a <<< imm.toNat) s

/-- 06 R127. -/
def execShri (p : Pr) (imm : BitVec 13) (t : Target) (s : State) : Host.Outcome State Fault Refusal :=
  fire1 (.shri p imm t) (fun a => a >>> imm.toNat) s

/-- 06 R127. -/
def execSari (p : Pr) (imm : BitVec 13) (t : Target) (s : State) : Host.Outcome State Fault Refusal :=
  fire1 (.sari p imm t) (fun a => a.sshiftRight imm.toNat) s

/-- 06 R128. -/
def execTeq (p : Pr) (u t : Target) (s : State) : Host.Outcome State Fault Refusal :=
  fireCmp (.teq p u t) (fun a b => a == b) s

/-- 06 R128. -/
def execTne (p : Pr) (u t : Target) (s : State) : Host.Outcome State Fault Refusal :=
  fireCmp (.tne p u t) (fun a b => a != b) s

/-- 06 R128. -/
def execTlt (p : Pr) (u t : Target) (s : State) : Host.Outcome State Fault Refusal :=
  fireCmp (.tlt p u t) (fun a b => a.slt b) s

/-- 06 R128. -/
def execTle (p : Pr) (u t : Target) (s : State) : Host.Outcome State Fault Refusal :=
  fireCmp (.tle p u t) (fun a b => a.sle b) s

/-- 06 R128. -/
def execTltu (p : Pr) (u t : Target) (s : State) : Host.Outcome State Fault Refusal :=
  fireCmp (.tltu p u t) (fun a b => a.ult b) s

/-- 06 R128. -/
def execTleu (p : Pr) (u t : Target) (s : State) : Host.Outcome State Fault Refusal :=
  fireCmp (.tleu p u t) (fun a b => a.ule b) s

/-- 06 R128. -/
def execTeqi (p : Pr) (imm : BitVec 13) (t : Target) (s : State) : Host.Outcome State Fault Refusal :=
  fireCmpI (.teqi p imm t) (fun a => a == imm.signExtend 64) s

/-- 06 R128. -/
def execTnei (p : Pr) (imm : BitVec 13) (t : Target) (s : State) : Host.Outcome State Fault Refusal :=
  fireCmpI (.tnei p imm t) (fun a => a != imm.signExtend 64) s

/-- 06 R128. -/
def execTlti (p : Pr) (imm : BitVec 13) (t : Target) (s : State) : Host.Outcome State Fault Refusal :=
  fireCmpI (.tlti p imm t) (fun a => a.slt (imm.signExtend 64)) s

/-- 06 R128. -/
def execTlei (p : Pr) (imm : BitVec 13) (t : Target) (s : State) : Host.Outcome State Fault Refusal :=
  fireCmpI (.tlei p imm t) (fun a => a.sle (imm.signExtend 64)) s

end Sys2Proof.Machine
end

