-- ==== Sys2Proof/Machine/ScalarFp.lean ====
section
/-! DEFINITION. Scalar FP32 instructions, opcodes 0x50-0x5F (06 R129-R131), and conversions between element types. -/

namespace Sys2Proof.Machine

/-! ## Element types as formats and integer ranges (02 R24, R27) -/

/-- The format of a floating-point type. -/
def fmtOf : ElemType → Option Fmt
  | .f32 => some fmtF32
  | .bf16 => some fmtBF16
  | .f16 => some fmtF16
  | .e4m3 => some fmtE4M3
  | .e5m2 => some fmtE5M2
  | .f6 => some fmtF6
  | .f4 => some fmtF4
  | .i32 | .i16 | .i8 | .n32 | .n16 | .n8 | .i64 => none

/-- Width in bits (02 R24). -/
def tyWidth : ElemType → Nat
  | .f32 | .i32 | .n32 => 32
  | .bf16 | .f16 | .i16 | .n16 => 16
  | .e4m3 | .e5m2 | .i8 | .n8 => 8
  | .f6 => 6
  | .f4 => 4
  | .i64 => 64

/-- A signed integer type. -/
def tySigned : ElemType → Bool
  | .i32 | .i16 | .i8 | .i64 => true
  | .n32 | .n16 | .n8 | .f32 | .bf16 | .f16 | .e4m3 | .e5m2 | .f6 | .f4 => false

/-- The integer an integer lane holds. -/
def tyInt (x : ElemType) (c : Nat) : Int :=
  if (tySigned x) && c ≥ 2 ^ ((tyWidth x) - 1) then (c : Int) - 2 ^ (tyWidth x) else c

/-- The low bits of an integer as a lane. -/
def tyWrap (x : ElemType) (i : Int) : Nat := (i % (2 ^ (tyWidth x) : Nat)).toNat

/-- The range of an integer type. -/
def tyLo (x : ElemType) : Int := if (tySigned x) then -(2 ^ ((tyWidth x) - 1) : Nat) else 0
def tyHi (x : ElemType) : Int := if (tySigned x) then (2 ^ ((tyWidth x) - 1) : Nat) - 1 else (2 ^ (tyWidth x) : Nat) - 1

/-- The exact value of a lane of any type. -/
def tyValue (x : ElemType) (c : Nat) : Val :=
  match fmtOf x with
  | some f => f.value c
  | none => Val.ofInt (tyInt x c)

/-- Conversion of one lane: floating-point targets round by the mode, integers of a floating-point source by R36,
integers of an integer by R27. -/
def convert (d src : ElemType) (fmode imode : Rnd) (c : Nat) : Nat × Flags :=
  match fmtOf d, fmtOf src with
  | some f, _ => f.roundVal fmode (tyValue src c)
  | none, some g =>
    let r := (g.value c).toInt imode (tyLo d) (tyHi d)
    (tyWrap d r.1, r.2)
  | none, none => ((tyWrap d) (tyInt src c), 0)

/-- The placement rule: a lane value in a 64-bit scalar (07 R135). -/
def tyPlace (x : ElemType) (c : Nat) : BitVec 64 :=
  match fmtOf x with
  | some _ => BitVec.ofNat 64 c
  | none => BitVec.ofInt 64 (tyInt x c)

/-! ## F32 operations on codes -/

def f32Val (c : Nat) : Val := fmtF32.value (c % 2 ^ 32)

/-- The F32 operand of a scalar: bits [31:0]. -/
def f32Of (a : BitVec 64) : Val := f32Val a.toNat

/-- A rounded F32 result in bits [31:0]. -/
def f32Res (mode : Rnd) (r : Res) : BitVec 64 × Flags :=
  let c := fmtF32.finish mode r
  (BitVec.ofNat 64 c.1, c.2)

/-- FCLASS (06 R130). -/
def fclassBit (c : Nat) : Nat :=
  let e := c / 2 ^ 23 % 256
  let m := c % 2 ^ 23
  let neg := c / 2 ^ 31 % 2 == 1
  if e = 255 then if m = 0 then (if neg then 0 else 7) else 8
  else if e = 0 then
    if m = 0 then (if neg then 3 else 4) else (if neg then 2 else 5)
  else if neg then 1 else 6

/-- FABS and FNEG of a value: a NaN stays NaN and becomes canonical (06 R129). -/
def Val.abs : Val → Val
  | .nan => .nan
  | .inf _ => .inf false
  | .fin _ m e => .fin false m e

/-- a < b (or ≤), NV on a NaN operand (06 R129). -/
def Val.cmp (orEq : Bool) (a b : Val) : Bool × Flags :=
  if a.isNan || b.isNan then (false, flagNV) else (a.lt b || (orEq && a.eq b), 0)

/-- Rounding mode of the run. -/
def Env.rnd (e : Env) : Rnd := rndOf e.r.frnd

/-- Instructions of one and of two F32 operands. -/
def fireF1 (i : Instr) (f : Rnd → Val → Res) (s : State) : Host.Outcome State Fault Refusal :=
  fire i (fun e => e.scalarF (f32Res e.rnd (f e.rnd (f32Of e.a)))) s
def fireF2 (i : Instr) (f : Rnd → Val → Val → Res) (s : State) : Host.Outcome State Fault Refusal :=
  fire i (fun e => e.scalarF (f32Res e.rnd (f e.rnd (f32Of e.a) (f32Of e.b)))) s

/-- A predicate with flags. -/
def Env.predF (e : Env) (r : Bool × Flags) : Reply :=
  .done { out0 := some (.pred r.1), out1 := some (.pred r.1), pois := e.pois, flags := r.2 }

/-! ## The instructions -/

/-- 06 R129. -/
def execFadd (p : Pr) (u t : Target) (s : State) : Host.Outcome State Fault Refusal :=
  fireF2 (.fadd p u t) Val.add s

/-- 06 R129. -/
def execFsub (p : Pr) (u t : Target) (s : State) : Host.Outcome State Fault Refusal :=
  fireF2 (.fsub p u t) Val.sub s

/-- 06 R129. -/
def execFmul (p : Pr) (u t : Target) (s : State) : Host.Outcome State Fault Refusal :=
  fireF2 (.fmul p u t) (fun _ => Val.mul) s

/-- 06 R129. -/
def execFdiv (p : Pr) (u t : Target) (s : State) : Host.Outcome State Fault Refusal :=
  fireF2 (.fdiv p u t) (fun _ => Val.div) s

/-- 06 R130. -/
def execFmin (p : Pr) (u t : Target) (s : State) : Host.Outcome State Fault Refusal :=
  fireF2 (.fmin p u t) (fun _ a b => (Val.minMax false a b, 0)) s

/-- 06 R130. -/
def execFmax (p : Pr) (u t : Target) (s : State) : Host.Outcome State Fault Refusal :=
  fireF2 (.fmax p u t) (fun _ a b => (Val.minMax true a b, 0)) s

/-- 06 R129: ternary, rounded once. -/
def execFfma (u t : Target) (s : State) : Host.Outcome State Fault Refusal :=
  fire (.ffma u t) (fun e => e.scalarF (f32Res e.rnd (Val.fma e.rnd (f32Of e.a) (f32Of e.b) (f32Of e.c)))) s

/-- 06 R129. -/
def execFsqrt (p : Pr) (u t : Target) (s : State) : Host.Outcome State Fault Refusal :=
  fireF1 (.fsqrt p u t) (fun _ => Val.sqrt) s

/-- 06 R129. -/
def execFabs (p : Pr) (u t : Target) (s : State) : Host.Outcome State Fault Refusal :=
  fireF1 (.fabs p u t) (fun _ a => (a.abs, 0)) s

/-- 06 R129. -/
def execFneg (p : Pr) (u t : Target) (s : State) : Host.Outcome State Fault Refusal :=
  fireF1 (.fneg p u t) (fun _ a => (a.neg, 0)) s

/-- 06 R129. -/
def execFrnd (p : Pr) (u t : Target) (s : State) : Host.Outcome State Fault Refusal :=
  fireF1 (.frnd p u t) Val.integral s

/-- 06 R131. -/
def execFcvt (p : Pr) (d src : ElemType) (t : Target) (s : State) : Host.Outcome State Fault Refusal :=
  fire (.fcvt p d src t) (fun e =>
    let r := convert d src e.rnd e.rnd (e.a.toNat % 2 ^ (tyWidth src))
    e.scalarF (tyPlace d r.1, r.2)) s

/-- 06 R130. -/
def execFclass (p : Pr) (u t : Target) (s : State) : Host.Outcome State Fault Refusal :=
  fire1 (.fclass p u t) (fun a => BitVec.ofNat 64 (2 ^ fclassBit (a.toNat % 2 ^ 32))) s

/-- 06 R130. -/
def execFeq (p : Pr) (u t : Target) (s : State) : Host.Outcome State Fault Refusal :=
  fireCmp (.feq p u t) (fun a b => (f32Of a).eq (f32Of b)) s

/-- 06 R129. -/
def execFlt (p : Pr) (u t : Target) (s : State) : Host.Outcome State Fault Refusal :=
  fire (.flt p u t) (fun e => e.predF (Val.cmp false (f32Of e.a) (f32Of e.b))) s

/-- 06 R129. -/
def execFle (p : Pr) (u t : Target) (s : State) : Host.Outcome State Fault Refusal :=
  fire (.fle p u t) (fun e => e.predF (Val.cmp true (f32Of e.a) (f32Of e.b))) s

end Sys2Proof.Machine
end

