-- ==== Sys2Proof/Machine/Lanes.lean ====
section
/-! DEFINITION. Lanes of a vector and the functions of the vector instructions on them (07 R135-R146; 02 R31-R48). -/

namespace Sys2Proof.Machine

/-! ## Lanes (07 R135) -/

/-- n lanes of w bits of a number. -/
def splitLanes (w n v : Nat) : List Nat := (List.range n).map fun i => v / 2 ^ (w * i) % 2 ^ w

/-- Lanes of w bits as one number. -/
def joinLanes (w : Nat) : List Nat → Nat
  | [] => 0
  | x :: rest => x % 2 ^ w + 2 ^ w * joinLanes w rest

/-- Lanes of a type in a vector (02 R24). -/
def tyLanes (x : ElemType) : Nat := 2048 / tyWidth x

def lanesOf (x : ElemType) (v : BitVec 2048) : List Nat := splitLanes (tyWidth x) (tyLanes x) v.toNat

def ofLanes (x : ElemType) (l : List Nat) : BitVec 2048 := BitVec.ofNat 2048 (joinLanes (tyWidth x) l)

/-- The OR of flags. -/
def orFlags (l : List Flags) : Flags := l.foldl (· ||| ·) 0

/-- Lanes computed with flags, as a vector of a type with the OR of the flags (02 R37). -/
def gather (x : ElemType) (l : List (Nat × Flags)) : BitVec 2048 × Flags :=
  (ofLanes x (l.map Prod.fst), orFlags (l.map Prod.snd))

/-! ## Element-wise (07 R138, R139) -/

/-- A function of exact values in a floating-point type, of integers in an integer type. -/
def arith1 (x : ElemType) (m : Rnd) (ff : Rnd → Val → Res) (fi : Int → Int) (a : Nat) : Nat × Flags :=
  match fmtOf x with
  | some f => f.finish m (ff m (f.value a))
  | none => (tyWrap x (fi (tyInt x a)), 0)

def arith2 (x : ElemType) (m : Rnd) (ff : Rnd → Val → Val → Res) (fi : Int → Int → Int) (a b : Nat) : Nat × Flags :=
  match fmtOf x with
  | some f => f.finish m (ff m (f.value a) (f.value b))
  | none => (tyWrap x (fi (tyInt x a) (tyInt x b)), 0)

def arith3 (x : ElemType) (m : Rnd) (ff : Rnd → Val → Val → Val → Res) (a b c : Nat) : Nat × Flags :=
  match fmtOf x with
  | some f => f.finish m (ff m (f.value a) (f.value b) (f.value c))
  | none => (0, 0)

/-- Saturation to the range of a type (02 R27). -/
def saturate (x : ElemType) (i : Int) : Int := if i < tyLo x then tyLo x else if tyHi x < i then tyHi x else i

/-- Minimum or maximum of two lanes by R139. -/
def laneMinMax (max : Bool) (x : ElemType) (a b : Nat) : Nat :=
  match fmtOf x with
  | some f => (f.roundVal .rne (Val.minMax max (f.value a) (f.value b))).1
  | none =>
    if max then (if tyInt x a < tyInt x b then b else a) else (if tyInt x b < tyInt x a then b else a)

/-- VCLAMP (07 R139): a NaN in a gives the canonical NaN. -/
def laneClamp (x : ElemType) (a b c : Nat) : Nat :=
  match fmtOf x with
  | some f => if (f.value a).isNan then f.nanCode else laneMinMax false x (laneMinMax true x a b) c
  | none => laneMinMax false x (laneMinMax true x a b) c

/-- A comparison mask: all ones or zero. -/
def laneMask (x : ElemType) (b : Bool) : Nat := if b then 2 ^ tyWidth x - 1 else 0

def laneEq (x : ElemType) (a b : Nat) : Nat × Flags := (laneMask x ((tyValue x a).eq (tyValue x b)), 0)

def laneCmp (orEq : Bool) (x : ElemType) (a b : Nat) : Nat × Flags :=
  let r := Val.cmp orEq (tyValue x a) (tyValue x b)
  (laneMask x r.1, r.2)

/-- A lane shifted right with copies of its top bit, for unsigned types too (07 R138). -/
def laneSar (x : ElemType) (a b : Nat) : Nat :=
  let w := tyWidth x
  let k := b % w
  let top := a / 2 ^ (w - 1) % 2
  a / 2 ^ k + (if top = 1 then 2 ^ w - 2 ^ (w - k) else 0)

/-- VLDEXP: a × 2^b, b a signed integer of w bits (07 R138). -/
def laneLdexp (x : ElemType) (m : Rnd) (a b : Nat) : Nat × Flags :=
  match fmtOf x with
  | some f =>
    let w := tyWidth x
    let k : Int := if b ≥ 2 ^ (w - 1) then (b : Int) - (2 ^ w : Nat) else b
    match f.value a with
    | .nan => (f.nanCode, 0)
    | .inf n => f.roundVal m (.inf n)
    | .fin n mm e => f.round m n mm (e + k)
  | none => (0, 0)

/-- An F32 lane function. -/
def laneF32 (m : Rnd) (f : Val → Res) (a : Nat) : Nat × Flags := fmtF32.finish m (f (fmtF32.value a))

/-! ## Conversions and packing (07 R141, R142; 02 R31-R33, R40, R41) -/

/-- The lanes below both lane counts are converted; every other bit is zero. -/
def convertVec (d src : ElemType) (fmode imode : Rnd) (v : BitVec 2048) : BitVec 2048 × Flags :=
  gather d (((lanesOf src v).take (min (tyLanes src) (tyLanes d))).map (convert d src fmode imode))

/-- The value of an E3M5 block scale that is neither 0x00 nor 0xFF (02 R31). -/
def blockScale (c : Nat) : Val :=
  let e := c / 32
  let m := c % 32
  if e = 0 then .fin false m (-8) else .fin false (32 + m) ((e : Int) - 9)

/-- The scaled value of an element (02 R33); a scale that does not apply is 1. Where the block scale is 0x00 the value is zero, here
+0 whatever the signs of code and band (02 R41 leaves the sign open). [DESIGN CHOICE, log 18] -/
def scaledValue (code : Val) (bs : Option Nat) (band : Val) : Val :=
  match bs with
  | none => (Val.mul code band).1
  | some c =>
    if c = 0xFF then .nan
    else if c = 0 then .fin false 0 0
    else (Val.mul (Val.mul code (blockScale c)).1 band).1

/-- The larger magnitude of two values that are not NaN. -/
def maxMag (a b : Val) : Val := if a.abs.lt b.abs then b.abs else a.abs

/-- The smallest scale code from c on whose value times q × b is at least amax; 0xFE when there is none (02 R40). -/
def findScale (amax qb : Val) : Nat → Nat → Nat
  | 0, _ => 0xFE
  | n + 1, c => if (Val.mul (blockScale c) qb).1.lt amax then findScale amax qb n (c + 1) else c

/-- `pack_block` (02 R40): eight codes, the scale code, flags. -/
def packBlock (f : Fmt) (b : Val) (x : List Val) : List Nat × Nat × Flags :=
  let bad := match b with
    | .nan => true
    | .inf _ => true
    | .fin n m _ => n || m == 0
  if bad || x.any Val.isNan then (x.map fun _ => 0, 0xFF, flagNV)
  else
    let amax := x.foldl maxMag (.fin false 0 0)
    if amax.isZero then (x.map fun _ => 0, 0, 0)
    else
      let q := f.value f.maxCode
      let s := findScale amax (Val.mul q b).1 254 1
      let r := x.map fun v => f.roundVal .rne (Val.div v (Val.mul b (blockScale s)).1).1
      (r.map Prod.fst, s, orFlags (r.map Prod.snd))

/-- The blocks of eight of a list. -/
def chunks (k : Nat) : Nat → List α → List (List α)
  | 0, _ => []
  | n + 1, l => l.take k :: chunks k n (l.drop k)

/-- VPACK4, VPACK6: codes of w bits from bit 0, scales from bit 64 × w (02 R41). -/
def packVec (f : Fmt) (w : Nat) (v : BitVec 2048) (band : Val) : BitVec 2048 × Flags :=
  let r := (chunks 8 8 ((lanesOf .f32 v).map fmtF32.value)).map (packBlock f band)
  let codes := joinLanes w (r.map fun b => b.1).flatten
  let scales := joinLanes 8 (r.map fun b => b.2.1)
  (BitVec.ofNat 2048 (codes + 2 ^ (64 * w) * scales), orFlags (r.map fun b => b.2.2))

/-- VUNPK4, VUNPK6 (02 R41). [DESIGN CHOICE, log 18] -/
def unpackVec (f : Fmt) (w : Nat) (v : BitVec 2048) (band : Val) : BitVec 2048 × Flags :=
  let codes := splitLanes w 64 v.toNat
  let scales := splitLanes 8 8 (v.toNat / 2 ^ (64 * w))
  gather .f32 (codes.zipIdx.map fun c =>
    fmtF32.roundVal .rne (scaledValue (f.value c.1) (some (scales[c.2 / 8]?.getD 0)) band))

/-- The BF16 value in the low bits of a scalar. -/
def bf16Of (a : BitVec 64) : Val := fmtBF16.value (a.toNat % 2 ^ 16)

/-! ## Permutes (07 R143) -/

/-- Lane k of a list of lanes. -/
def laneAt (l : List Nat) (k : Nat) : Nat := l[k]?.getD 0

/-- Lane i of the result is lane f i of the operand. -/
def permute (x : ElemType) (v : BitVec 2048) (f : Nat → Nat) : BitVec 2048 :=
  let l := lanesOf x v
  ofLanes x ((List.range (tyLanes x)).map fun i => laneAt l (f i))

/-- Alternating lanes of two lists. -/
def interleave : List Nat → List Nat → List Nat
  | a :: as, b :: bs => a :: b :: interleave as bs
  | _, _ => []

/-- The lanes of even position. -/
def evens : List Nat → List Nat
  | a :: _ :: rest => a :: evens rest
  | l => l

/-- The lanes of odd position. -/
def odds : List Nat → List Nat
  | _ :: b :: rest => b :: odds rest
  | _ => []

/-! ## Reductions (07 R144-R146; 02 R42-R47) -/

/-- One level of the tree of R45. -/
def pairUp (add : Nat → Nat → Nat × Flags) : List (Nat × Flags) → List (Nat × Flags)
  | a :: b :: rest =>
    let c := add a.1 b.1
    (c.1, a.2 ||| b.2 ||| c.2) :: pairUp add rest
  | l => l

/-- The tree of R45 over 2^n lanes. -/
def pairTree (add : Nat → Nat → Nat × Flags) : Nat → List (Nat × Flags) → Nat × Flags
  | 0, l => l.headD (0, 0)
  | n + 1, l => pairTree add n (pairUp add l)

/-- One level of the tree of R46: each lane i ≥ d adds lane i - d on the left. -/
def scanLevel (add : Nat → Nat → Nat × Flags) (d : Nat) (l : List (Nat × Flags)) : List (Nat × Flags) :=
  l.take d ++ List.zipWith (fun a b => let c := add a.1 b.1; (c.1, a.2 ||| b.2 ||| c.2)) l (l.drop d)

/-- The tree of R46, level distance d doubling. -/
def scanTree (add : Nat → Nat → Nat × Flags) : Nat → Nat → List (Nat × Flags) → List (Nat × Flags)
  | 0, _, l => l
  | n + 1, d, l => scanTree add n (2 * d) (scanLevel add d l)

/-- The lane addition of the trees: rounded in the type, or wrapping. -/
def laneAdd (x : ElemType) (m : Rnd) : Nat → Nat → Nat × Flags := arith2 x m Val.add (· + ·)

/-- VREDSUM. -/
def redSum (x : ElemType) (m : Rnd) (v : BitVec 2048) : BitVec 64 × Flags :=
  let l := lanesOf x v
  match fmtOf x with
  | some _ =>
    let r := pairTree (laneAdd x m) 8 (l.map fun c => (c, 0))
    (tyPlace x r.1, r.2)
  | none => (BitVec.ofInt 64 ((l.map (tyInt x)).foldl (· + ·) 0), 0)

/-- VREDMAX, VREDMIN. -/
def redMinMax (max : Bool) (x : ElemType) (v : BitVec 2048) : BitVec 64 :=
  match lanesOf x v with
  | [] => 0
  | a :: rest => tyPlace x (rest.foldl (laneMinMax max x) a)

/-- VARGMAX: the lowest index of the largest lane that is not NaN (07 R145). -/
def argMax (x : ElemType) (v : BitVec 2048) : BitVec 64 :=
  let r := (lanesOf x v).zipIdx.foldl (fun (best : Option (Val × Nat)) c =>
    let y := tyValue x c.1
    if y.isNan then best
    else match best with
      | none => some (y, c.2)
      | some b => if b.1.below y then some (y, c.2) else best) none
  match r with
  | none => BitVec.allOnes 64
  | some b => BitVec.ofNat 64 b.2

/-- VSCAN: over 2^8 lanes at most; the levels past the lane count add nothing. -/
def scanVec (x : ElemType) (m : Rnd) (v : BitVec 2048) : BitVec 2048 × Flags :=
  gather x (scanTree (laneAdd x m) 8 1 ((lanesOf x v).map fun c => (c, 0)))

/-- VDOTF (07 R146; 02 R44): one exact sum of the addend and the products above bit 31, rounded once. -/
def dotVec (x : ElemType) (m : Rnd) (a b : BitVec 2048) : BitVec 64 × Flags :=
  let k := 32 / tyWidth x
  let prods := List.zipWith (fun p q => Val.mul (tyValue x p) (tyValue x q)) ((lanesOf x a).drop k) ((lanesOf x b).drop k)
  let c := fmtF32.value (a.toNat % 2 ^ 32)
  let s := (prods.map Prod.fst).foldl ExactSum.push (ExactSum.push {} c)
  let nv := orFlags (prods.map Prod.snd) ||| (if s.pinf && s.ninf then flagNV else 0)
  f32Res m (s.toVal (zeroSign m), nv)

end Sys2Proof.Machine
end

