-- ==== Sys2Proof/Machine/Matrix.lean ====
section
/-! DEFINITION. What the operations of the matrix unit do to the arrays, the accumulators and the scratchpad
(08 R154-R179; 02 R42, R43). -/

namespace Sys2Proof.Machine

/-! ## The scratchpad by offset, modulo 2^20 (08 R163) -/

def padSize : Nat := 2 ^ 20

/-- n bytes from an offset. -/
def State.padBytes (s : State) (t off n : Nat) : List Byte :=
  (List.range n).map fun i => s.mem.read (padLoc t ((off + i) % padSize))

/-- The lines n bytes from an offset touch. -/
def padLines (t off n : Nat) : List Nat :=
  if n = 0 then []
  else
    let o := off % padSize
    (List.range ((o + n + 127) / 128 - o / 128)).map fun i => lineKey (padLoc t ((o / 128 + i) % 8192 * 128))

/-- Whether one of the lines read is delivered poisoned. -/
def State.padPoison (s : State) (t off n : Nat) : Bool :=
  (padLines t off n).any fun k => (s.line k).pois || (s.line k).chkBad

/-- Write bytes from an offset for the tile's task, around the end of the scratchpad. -/
def State.padWrite (s : State) (t off : Nat) (bs : List Byte) (pois : Bool) : State :=
  let o := off % padSize
  let k := padSize - o
  let s := s.storeFor (s.runCtx t) (padLoc t o) (bs.take k) pois
  if bs.length ≤ k then s else s.storeFor (s.runCtx t) (padLoc t 0) (bs.drop k) pois

/-- Write bytes line by line, each line once, with the poison of the bytes that fall in it (09 R205). -/
def State.padWriteLines (s : State) (t off : Nat) (bs : List (Byte × Bool)) : List (Nat × Nat) → State
  | [] => s
  | (a, k) :: rest =>
    let part := (bs.drop (a - off)).take k
    State.padWriteLines (s.padWrite t a (part.map fun x => x.1) (part.any fun x => x.2)) t off bs rest

/-- Change the F bit of lines; every change sets WR (09 R187). A line at an address its peer does not have has no F bit. -/
def State.setFull (s : State) (f : Bool) : List Nat → State
  | [] => s
  | k :: rest => if absentLoc (k * 128) then State.setFull s f rest else State.setFull (s.modLine k fun m => { m with full := f, wr := m.wr || locSpace (k * 128) == spPad }) f rest

/-! ## Formats (02 R26; 08 R156) -/

/-- The element type of a format code below 7. -/
def matType (fmt : Nat) : ElemType :=
  match fmt with
  | 0 => .f4
  | 1 => .f6
  | 2 => .e4m3
  | 3 => .e5m2
  | 4 => .bf16
  | 5 => .f16
  | _ => .i8

/-- Width of an element of a format code. -/
def matWidth (fmt : Nat) : Nat := tyWidth (matType fmt)

/-- Elements of a row as codes. -/
def rowCodes (fmt n : Nat) (bs : List Byte) : List Nat := splitLanes (matWidth fmt) n (leNat bs)

/-- Whether band scales apply (02 R32). -/
def bandApplies (fmt : Nat) (scl : Bool) : Bool := fmt ≤ 1 || scl

/-- The scaled value of one element (02 R33). -/
def matValue (fmt code : Nat) (bs : Nat) (band : Nat) (scl : Bool) : Val :=
  scaledValue (tyValue (matType fmt) code) (if fmt ≤ 1 then some bs else none)
    (if bandApplies fmt scl then fmtBF16.value band else .fin false 1 0)

/-! ## Arrays and accumulators -/

def Tile.array (v : Tile) (a : Nat) : WArray := v.arrays[a]?.getD {}

/-- Replace an array; the list always holds four. -/
def Tile.setArray (v : Tile) (a : Nat) (w : WArray) : Tile :=
  { v with arrays := (List.range 4).map fun i => if i = a then w else v.array i }

def Tile.accRow (v : Tile) (acc c : Nat) : AccRow := kvGet {} v.acc (128 * acc + c)

def Tile.setAccRow (v : Tile) (acc c : Nat) (x : AccRow) : Tile := { v with acc := kvPut v.acc (128 * acc + c) x }

/-- Element codes of stored row n of an array. -/
def WArray.codes (w : WArray) (n : Nat) : List Nat := splitLanes 16 128 ((w.elem[n]?.getD 0).toNat)

/-- Scaled values of stored row n of an array. -/
def WArray.values (w : WArray) (n : Nat) (scl : Bool) : List Val :=
  let sc := w.bsc[n]?.getD 0
  let band := if n < 64 then w.band0.toNat else w.band1.toNat
  (w.codes n).zipIdx.map fun x => matValue w.fmt.toNat x.1 (sc.toNat / 2 ^ (8 * (x.2 / 8)) % 256) band scl

/-- `mma_element` (02 R42): rounded once; an exact zero is +0. -/
def mmaElement (c : Nat) (a w : List Val) : Nat :=
  let s := (List.zipWith (fun x y => (Val.mul x y).1) a w).foldl ExactSum.push (ExactSum.push {} (f32Val c))
  (fmtF32.roundVal .rne (s.toVal false)).1

/-- The I32 element of R43. -/
def mmaInt (c : Nat) (a w : List Nat) : Nat :=
  let s := (List.zipWith (fun x y => tyInt .i8 x * tyInt .i8 y) a w).foldl (· + ·) (tyInt .i32 c)
  tyWrap .i32 s

/-- One A row ready to be multiplied: codes, scaled values, poison of the lines read. -/
structure ARow where
  codes : List Nat
  vals : List Val
  pois : Bool

/-- The accumulator row after an A row has passed (08 R170). -/
def passRow (w : WArray) (scl iacc zacc : Bool) (a : ARow) (old : AccRow) : AccRow :=
  let c := if zacc then List.replicate 128 0 else splitLanes 32 128 old.bits.toNat
  let r := c.zipIdx.map fun x =>
    if iacc then mmaInt x.1 a.codes (w.codes x.2) else mmaElement x.1 a.vals (w.values x.2 scl)
  { bits := BitVec.ofNat 4096 (joinLanes 32 r), pois := (!zacc && old.pois) || a.pois || w.pois }

/-- A BF16 halfword of the scratchpad. -/
def State.padHalf (s : State) (t off : Nat) : Nat := leNat (s.padBytes t off 2)

/-- An A row from its codes with the scale tables at two offsets; only the row's own lines poison it (08 R170). -/
def State.scaledRow (s : State) (t fmt : Nat) (scl : Bool) (soff boff i : Nat) (codes : List Nat) (pois : Bool) : ARow :=
  let sc := if fmt ≤ 1 then s.padBytes t (soff + 16 * i) 16 else []
  let band := if bandApplies fmt scl then s.padHalf t (boff + 2 * (i / 64)) else 0
  { codes := codes
    vals := codes.zipIdx.map fun x => matValue fmt x.1 ((sc[x.2 / 8]?.getD 0).toNat) band scl
    pois := pois }

/-- A row of an MMA or MMAA in the scratchpad. -/
def State.aRow (s : State) (t fmt : Nat) (scl : Bool) (off stride soff boff i : Nat) : ARow :=
  let o := off + i * stride
  s.scaledRow t fmt scl soff boff i (rowCodes fmt 128 (s.padBytes t o (rowBytes fmt))) (s.padPoison t o (rowBytes fmt))

/-- A row of an MMAT: element i of each stored row, scaled by stored-row bands; the lines that hold those elements poison it
(08 R171). -/
def State.aRowT (s : State) (t fmt : Nat) (scl : Bool) (off stride m boff i : Nat) : ARow :=
  let n := elemBytes fmt m
  let codes := (List.range 128).map fun k => (rowCodes fmt m (s.padBytes t (off + k * stride) n))[i]?.getD 0
  { codes := codes
    vals := codes.zipIdx.map fun x => matValue fmt x.1 0 (if scl then s.padHalf t (boff + 2 * (x.2 / 64)) else 0) scl
    pois := (List.range 128).any fun k => s.padPoison t (off + k * stride + i * (matWidth fmt / 8)) (matWidth fmt / 8) }

/-- Pass rows i to i + n - 1 of an A operand through an array into an accumulator, and count them (17 R354). -/
def State.passRows (s : State) (t arr acc crow : Nat) (scl iacc zacc : Bool) (row : Nat → ARow) : Nat → Nat → State
  | 0, _ => s
  | n + 1, i =>
    let v := s.tile t
    let c := (crow + i) % 128
    State.passRows
      (s.setTile t { (v.setAccRow acc c (passRow (v.array arr) scl iacc zacc (row i) (v.accRow acc c))) with
        macrows := v.macrows + 1 })
      t arr acc crow scl iacc zacc row n (i + 1)

/-! ## Loading weights (08 R166-R168) -/

/-- `bload` over an array; a format without block scales leaves them as they stood. -/
def State.loadArray (s : State) (t : Nat) (old : WArray) (lw sw : BitVec 64) : WArray :=
  let f := bitsAt lw 40 3
  let row := fun n => s.padBytes t (bitsAt lw 0 20 + n * bitsAt lw 20 20) (rowBytes f)
  let soff := bitsAt sw 0 20
  let boff := bitsAt sw 20 20
  let banded := lw.getLsbD 43
  { elem := (List.range 128).map fun n => BitVec.ofNat 2048 (joinLanes 16 (rowCodes f 128 (row n)))
    fmt := BitVec.ofNat 3 f
    bsc := if f ≤ 1 then (List.range 128).map fun n => BitVec.ofNat 128 (leNat (s.padBytes t (soff + 16 * n) 16)) else old.bsc
    band0 := if banded then BitVec.ofNat 16 (s.padHalf t boff) else 0x3F80
    band1 := if banded then BitVec.ofNat 16 (s.padHalf t (boff + 2)) else 0x3F80
    rtag := BitVec.ofNat 24 (bitsAt sw 40 24)
    valid := true
    pois := ((List.range 128).any fun n => s.padPoison t (bitsAt lw 0 20 + n * bitsAt lw 20 20) (rowBytes f)) ||
      (f ≤ 1 && s.padPoison t soff 2048) || (banded && s.padPoison t boff 4) }

/-- A conditional load finds what it names. -/
def WArray.holds (w : WArray) (lw sw : BitVec 64) : Bool :=
  lw.getLsbD 44 && w.valid && w.fmt.toNat == bitsAt lw 40 3 && w.rtag.toNat == bitsAt sw 40 24

/-! ## Accumulator operations (08 R176-R179) -/

/-- Words of an accumulator row as bytes of an output type (08 R174, R177). -/
def outRow (ty : Nat) (x : AccRow) : List Byte :=
  let ws := splitLanes 32 128 x.bits.toNat
  let f : ElemType := match ty with | 1 => .bf16 | 2 => .f16 | 3 => .e4m3 | 4 => .e5m2 | _ => .f32
  if ty = 7 then toBytes x.bits.toNat 512
  else toBytes (joinLanes (tyWidth f) (ws.map fun w => (convert f .f32 .rne .rne w).1)) (outBytes ty)

/-- Write n rows of an accumulator from row i of an ACCST. -/
def State.storeRows (s : State) (t acc : Nat) (w : BitVec 64) : Nat → Nat → State
  | 0, _ => s
  | n + 1, i =>
    let x := (s.tile t).accRow acc ((bitsAt w 40 7 + i) % 128)
    let off := bitsAt w 0 20 + i * bitsAt w 20 20
    let bs := outRow (bitsAt w 54 3) x
    let s := s.padWrite t off bs x.pois
    State.storeRows (if w.getLsbD 57 then s.setFull true (padLines t off bs.length) else s) t acc w n (i + 1)

def f32Round (v : Val) : Val := f32Val (fmtF32.roundVal .rne v).1

/-- exp2 of (x - m) s with every step rounded (08 R178, R179). -/
def expTerm (x m s : Val) : Val :=
  f32Round (Val.exp2 (f32Round (Val.mul (f32Round (Val.sub .rne x m).1) s).1)).1

/-- The term of one column of ACCSTAT. -/
def statTerm (m s x : Val) : Val :=
  match m with
  | .inf neg => if neg then .fin false 0 0 else if x == .inf false then .fin false 1 0 else .fin false 0 0
  | .nan => .nan
  | .fin _ _ _ => expTerm x m s

/-- Row maximum and sum of ACCSTAT. -/
def rowStat (s : Val) (xs : List Val) : Val × Val :=
  let bad := match s with
    | .nan => true
    | .inf _ => true
    | .fin _ _ _ => false
  if bad || xs.any Val.isNan then (.nan, .nan)
  else
    let m := xs.foldl (fun a b => Val.minMax true a b) (.inf true)
    (m, xs.foldl (fun t x => f32Round (Val.add .rne t (statTerm m s x)).1) (.fin false 0 0))

/-- The F32 code of a value. -/
def f32Code (v : Val) : Nat := (fmtF32.roundVal .rne v).1

/-- Row c of ACCSTAT: maximum and sum, both with the poison of the row. -/
def State.statRow (s : State) (t acc : Nat) (w : BitVec 64) (c : Nat) : Val × Val × Bool :=
  let x := (s.tile t).accRow acc c
  let r := rowStat (f32Val (bitsAt w 20 32)) ((splitLanes 32 128 x.bits.toNat).map f32Val)
  (r.1, r.2, x.pois)

/-- The bytes of a column of the table. -/
def columnBytes (l : List (Val × Bool)) : List (Byte × Bool) :=
  l.flatMap fun x => (toBytes (f32Code x.1) 4).map fun b => (b, x.2)

/-- ACCSTAT: the table of the maxima of the 128 rows, and after it that of the sums (08 R178). -/
def State.statRows (s : State) (t acc : Nat) (w : BitVec 64) : State :=
  let rows := (List.range 128).map (s.statRow t acc w)
  let bs := columnBytes (rows.map fun r => (r.1, r.2.2)) ++ columnBytes (rows.map fun r => (r.2.1, r.2.2))
  s.padWriteLines t (bitsAt w 0 20) bs (cutLines (bitsAt w 0 20) 1024 1025)

/-- One word of ACCSCL. -/
def scaleWord (exp : Bool) (s m f : Val) (x : Nat) : Nat :=
  if exp then f32Code (Val.mul (expTerm (f32Val x) m s) f).1 else f32Code (Val.mul (f32Val x) f).1

/-- ACCSCL from row c on. -/
def State.scaleRows (s : State) (t acc : Nat) (exp : Bool) (w : BitVec 64) : Nat → Nat → State
  | 0, _ => s
  | n + 1, c =>
    let v := s.tile t
    let x := v.accRow acc c
    let off := bitsAt w 0 20
    let word := fun o => f32Val (leNat (s.padBytes t o 4))
    let f := word (off + 512 + 4 * c)
    let m := word (off + 4 * c)
    let r := (splitLanes 32 128 x.bits.toNat).map (scaleWord exp (f32Val (bitsAt w 20 32)) m f)
    let pois := x.pois || s.padPoison t (off + 512 + 4 * c) 4 || s.padPoison t (off + 4 * c) 4
    State.scaleRows (s.setTile t (v.setAccRow acc c { bits := BitVec.ofNat 4096 (joinLanes 32 r), pois := pois })) t acc exp
      w n (c + 1)

/-- Half a row replaced by a vector (08 R176). -/
def writeHalf (x : AccRow) (half : Bool) (d : BitVec 2048) (pois : Bool) : AccRow :=
  let lo := x.bits.extractLsb' 0 2048
  let hi := x.bits.extractLsb' 2048 2048
  { bits := if half then d ++ lo else hi ++ d, pois := x.pois || pois }

/-- Clear rows 0 to n - 1 of an accumulator. -/
def Tile.clearAcc (v : Tile) (acc : Nat) : Tile :=
  { v with acc := v.acc.filter fun x => x.1 / 128 != acc }

/-! ## Jobs (08 R161, R162) -/

/-- Arrays an operation holds. -/
def MatOp.arrays : MatOp → List Nat
  | .bload a _ _ => [a]
  | .bswap a b => [a, b]
  | .bclr a => [a]
  | .mma a _ _ _ => [a]
  | .mmat a _ _ _ => [a]
  | .mmaa a _ _ _ => [a]
  | .accz _ => []
  | .accwr _ _ _ _ => []
  | .accst _ _ => []
  | .accstat _ _ => []
  | .accscl _ _ _ => []

/-- Accumulators an operation holds. -/
def MatOp.accs : MatOp → List Nat
  | .bload _ _ _ => []
  | .bswap _ _ => []
  | .bclr _ => []
  | .mma _ c _ _ => [c]
  | .mmat _ c _ _ => [c]
  | .mmaa _ c _ _ => [c]
  | .accz c => [c]
  | .accwr c _ _ _ => [c]
  | .accst c _ => [c]
  | .accstat c _ => [c]
  | .accscl c _ _ => [c]

/-- Operations that hold a compute path while they run. -/
def MatOp.paths : MatOp → Nat
  | .mma _ _ _ _ => 1
  | .mmat _ _ _ _ => 1
  | _ => 0

/-- Arrays an operation changes for R157; a conditional load that has found a match changes none. -/
def MatJob.changes (j : MatJob) : List Nat :=
  match j.op with
  | .bload a _ _ => if j.matched then [] else [a]
  | .bswap a b => [a, b]
  | .bclr a => [a]
  | _ => []

/-- The issue view of the arrays: VALID and FMT as every issued operation will leave them (08 R164). -/
abbrev View := List (Bool × Nat)

def View.at (v : View) (a : Nat) : Bool × Nat := v[a]?.getD (false, 0)

/-- The view after one more issue. -/
def View.issue (v : View) : MatOp → View
  | .bload a lw _ => v.set a (true, bitsAt lw 40 3)
  | .bswap a b => (v.set a (View.at v b)).set b (View.at v a)
  | .bclr a => v.set a (false, (View.at v a).2)
  | _ => v

/-- The view of a tile. -/
def Tile.view (v : Tile) : View :=
  v.jobs.foldl (fun w j => w.issue j.op) ((List.range 4).map fun i => ((v.array i).valid, (v.array i).fmt.toNat))

/-! ## Checks at exhaustion (08 R164) -/

def mult16 (n : Nat) : Bool := n % 16 == 0
def mult128 (n : Nat) : Bool := n % 128 == 0

/-- ILLEGAL_ENCODING of an A word. -/
def awBad (a : BitVec 64) (line stream : Bool) : Bool :=
  bitsAt a 61 3 != 0 || (!awStrm a && awPort a != 0) || (awDef a && awFmt a != 0) || (awStrm a && !stream) ||
    (awStrm a && (awOff a != 0 || awStride a != 0 || awFmt a != 0 || awDef a)) ||
    (if line then !mult128 (awOff a) || !mult128 (awStride a) else !mult16 (awOff a) || !mult16 (awStride a))

/-- ILLEGAL_ENCODING of a C word. -/
def cwBad (c : BitVec 64) : Bool :=
  bitsAt c 48 16 != 0 || (cwTdef c && (cwSoff c != 0 || cwBoff c != 0)) || !mult16 (cwSoff c) || !mult16 (cwBoff c)

/-- ILLEGAL_ENCODING of an output word of MMAA. -/
def owBad (w : BitVec 64) : Bool :=
  bitsAt w 52 12 != 0 || !mult128 (bitsAt w 0 20) || !mult128 (bitsAt w 20 20) || bitsAt w 40 3 > 4

/-- ILLEGAL_ENCODING of a control word. -/
def MatOp.badWord : MatOp → Bool
  | .bload _ lw sw =>
    bitsAt lw 45 19 != 0 || !mult16 (bitsAt lw 0 20) || !mult16 (bitsAt lw 20 20) || !mult16 (bitsAt sw 0 20) ||
      !mult16 (bitsAt sw 20 20)
  | .bswap _ _ => false
  | .bclr _ => false
  | .mma _ _ a c => awBad a false true || cwBad c
  | .mmat _ _ a c => awBad a false false || cwBad c
  | .mmaa _ _ a w => awBad a true false || owBad w
  | .accz _ => false
  | .accwr _ row _ _ => bitsAt row 8 56 != 0
  | .accst _ w =>
    bitsAt w 58 6 != 0 || bitsAt w 54 3 == 5 || bitsAt w 54 3 == 6 ||
      (if w.getLsbD 57 then !mult128 (bitsAt w 0 20) || !mult128 (bitsAt w 20 20)
       else !mult16 (bitsAt w 0 20) || !mult16 (bitsAt w 20 20))
  | .accstat _ w => bitsAt w 52 12 != 0 || !mult16 (bitsAt w 0 20)
  | .accscl _ _ w => bitsAt w 52 12 != 0 || !mult16 (bitsAt w 0 20)

/-- ILLEGAL_FORMAT of an MMA: A's format (none while it comes from a stream), W's in the view, IACC and SCL. -/
def mmaBad (transposed : Bool) (v : View) (arr : Nat) (a : BitVec 64) (fmta : Nat) : Bool :=
  let f := if awDef a then fmta else awFmt a
  let w := View.at v arr
  (!awStrm a && (f == 7 || (transposed && f ≤ 1))) || !w.1 ||
    (awIacc a && (awScl a || (!awStrm a && f != 6) || w.2 != 6))

/-- ILLEGAL_FORMAT of an operation against the view. [DEDUCED, log 38] -/
def MatOp.badFormat (v : View) (fmta : Nat) : MatOp → Bool
  | .bload _ lw _ => bitsAt lw 40 3 == 7
  | .mma arr _ a _ => mmaBad false v arr a fmta
  | .mmat arr _ a _ => mmaBad true v arr a fmta
  | .mmaa arr _ a _ => mmaBad false v arr a fmta
  | _ => false

end Sys2Proof.Machine
end

