-- ==== Sys2Proof/Machine/MatrixOps.lean ====
section
/-! DEFINITION. Matrix instructions, opcodes 0xD0-0xDC, as they fire: an operation to be issued at belay, or a read of an
accumulator (08 R160-R180). Their control words are examined at exhaustion. -/

namespace Sys2Proof.Machine

/-- An operation issued at belay; a poisoned control word marks the task control-poisoned (08 R161, R163). -/
def Env.matrix (lsid : BitVec 7) (op : MatOp) (ctl : Bool) : Reply :=
  .done { effects := [.matrix lsid.toNat op], ctl := ctl }

/-- 08 R166, R168. -/
def execBload (p : Pr) (lsid : BitVec 7) (arr : BitVec 2) (s : State) : Host.Outcome State Fault Refusal :=
  fire (.bload p lsid arr) (fun e => Env.matrix lsid (.bload arr.toNat e.a e.b) (e.left.pois || e.right.pois)) s

/-- 08 R167. -/
def execBswap (p : Pr) (lsid : BitVec 7) (arr arr2 : BitVec 2) (s : State) : Host.Outcome State Fault Refusal :=
  fire (.bswap p lsid arr arr2) (fun _ => Env.matrix lsid (.bswap arr.toNat arr2.toNat) false) s

/-- 08 R167. -/
def execBclr (p : Pr) (lsid : BitVec 7) (arr : BitVec 2) (s : State) : Host.Outcome State Fault Refusal :=
  fire (.bclr p lsid arr) (fun _ => Env.matrix lsid (.bclr arr.toNat) false) s

/-- 08 R170. -/
def execMma (p : Pr) (lsid : BitVec 7) (arr acc : BitVec 2) (s : State) : Host.Outcome State Fault Refusal :=
  fire (.mma p lsid arr acc) (fun e =>
    Env.matrix lsid (.mma arr.toNat acc.toNat e.a e.b) (e.left.pois || e.right.pois)) s

/-- 08 R171. -/
def execMmat (p : Pr) (lsid : BitVec 7) (arr acc : BitVec 2) (s : State) : Host.Outcome State Fault Refusal :=
  fire (.mmat p lsid arr acc) (fun e =>
    Env.matrix lsid (.mmat arr.toNat acc.toNat e.a e.b) (e.left.pois || e.right.pois)) s

/-- 08 R174. -/
def execMmaa (p : Pr) (lsid : BitVec 7) (arr acc : BitVec 2) (s : State) : Host.Outcome State Fault Refusal :=
  fire (.mmaa p lsid arr acc) (fun e =>
    Env.matrix lsid (.mmaa arr.toNat acc.toNat e.a e.b) (e.left.pois || e.right.pois)) s

/-- 08 R176. -/
def execAccz (p : Pr) (lsid : BitVec 7) (acc : BitVec 2) (s : State) : Host.Outcome State Fault Refusal :=
  fire (.accz p lsid acc) (fun _ => Env.matrix lsid (.accz acc.toNat) false) s

/-- Row and half of a row word (08 R176). -/
def rwRow (w : BitVec 64) : Nat := bitsAt w 0 7
def rwHalf (w : BitVec 64) : Bool := w.getLsbD 7

/-- 08 R176: waits for every operation issued on the accumulator, then reads half a row. -/
def execAccrd (p : Pr) (lsid : BitVec 7) (acc : BitVec 2) (t : Target) (s : State) : Host.Outcome State Fault Refusal :=
  fire (.accrd p lsid acc t) (fun e =>
    let v := e.s.tile e.t
    if v.jobs.any fun j => j.op.accs.contains acc.toNat then .wait
    else
      let x := v.accRow acc.toNat (rwRow e.a)
      .done { out0 := some (.vector (x.bits.extractLsb' (if rwHalf e.a then 2048 else 0) 2048)), pois := e.pois || x.pois,
              effects := [.rowWord e.a], ctl := e.left.pois }) s

/-- 08 R176. -/
def execAccwr (p : Pr) (lsid : BitVec 7) (acc : BitVec 2) (s : State) : Host.Outcome State Fault Refusal :=
  fire (.accwr p lsid acc) (fun e => Env.matrix lsid (.accwr acc.toNat e.a e.vb e.right.pois) e.left.pois) s

/-- 08 R177. -/
def execAccst (p : Pr) (lsid : BitVec 7) (acc : BitVec 2) (s : State) : Host.Outcome State Fault Refusal :=
  fire (.accst p lsid acc) (fun e => Env.matrix lsid (.accst acc.toNat e.a) e.left.pois) s

/-- 08 R178. -/
def execAccstat (p : Pr) (lsid : BitVec 7) (acc : BitVec 2) (s : State) : Host.Outcome State Fault Refusal :=
  fire (.accstat p lsid acc) (fun e => Env.matrix lsid (.accstat acc.toNat e.a) e.left.pois) s

/-- 08 R179. -/
def execAccscl (p : Pr) (lsid : BitVec 7) (mode : BitVec 3) (acc : BitVec 2) (s : State) :
    Host.Outcome State Fault Refusal :=
  fire (.accscl p lsid mode acc) (fun e => Env.matrix lsid (.accscl acc.toNat (mode == 1) e.a) e.left.pois) s

/-- Whether an accumulator has a poisoned row. -/
def Tile.accPoison (v : Tile) (acc : Nat) : Bool := v.acc.any fun x => x.1 / 128 == acc && x.2.pois

/-- The poison summary of MSYNC (08 R180). -/
def Tile.summary (v : Tile) : BitVec 64 :=
  BitVec.ofNat 64 (((List.range 4).map fun i => if v.accPoison i then 2 ^ i else 0).sum +
    ((List.range 4).map fun i => if (v.array i).pois then 2 ^ (4 + i) else 0).sum)

/-- 08 R180: waits for every operation issued before its pitch; the result is unpoisoned. -/
def execMsync (p : Pr) (lsid : BitVec 7) (t : Target) (s : State) : Host.Outcome State Fault Refusal :=
  fire (.msync p lsid t) (fun e =>
    let v := e.s.tile e.t
    if v.jobs.isEmpty then .done { out0 := some (.scalar v.summary) } else .wait) s

end Sys2Proof.Machine
end

