-- ==== Sys2Proof/Machine/MemoryOps.lean ====
section
/-! DEFINITION. Load, store, synchronised, atomic and reduction instructions, opcodes 0xA0-0xBF (10). -/

namespace Sys2Proof.Machine

/-! ## Loads and stores (10 R209, R212, R213) -/

/-- Address of an L-format access of n bytes. -/
def Env.addrL (e : Env) (imm : BitVec 6) (n : Nat) : Nat := (e.a + imm.signExtend 64 * BitVec.ofNat 64 n).toNat

/-- Address of an S-format access. -/
def Env.addrS (e : Env) (imm : BitVec 15) : Nat := (e.a + imm.signExtend 64).toNat

/-- A loaded integer, extended to 64 bits. -/
def extended (signed : Bool) (n : Nat) (bs : List Byte) : BitVec 64 :=
  if signed then (BitVec.ofNat (8 * n) (leNat bs)).signExtend 64 else BitVec.ofNat 64 (leNat bs)

/-- A scalar load. -/
def fireLoad (i : Instr) (lsid : BitVec 7) (imm : BitVec 6) (signed : Bool) (n : Nat) (s : State) :
    Host.Outcome State Fault Refusal :=
  fire i (fun e => e.load lsid n [(e.addrL imm n, n)] (fun bs => .scalar (extended signed n bs))) s

/-- A scalar store. -/
def fireStore (i : Instr) (lsid : BitVec 7) (imm : BitVec 15) (n : Nat) (s : State) : Host.Outcome State Fault Refusal :=
  fire i (fun e =>
    e.storeTo lsid n [(e.addrS imm, n)] (toBytes e.b.toNat n) (e.right.pois || e.predPois (sigOf i)) e.left.pois) s

/-- 10 R212. -/
def execLdb (p : Pr) (lsid : BitVec 7) (imm : BitVec 6) (t : Target) (s : State) : Host.Outcome State Fault Refusal :=
  fireLoad (.ldb p lsid imm t) lsid imm true 1 s

/-- 10 R212. -/
def execLdbu (p : Pr) (lsid : BitVec 7) (imm : BitVec 6) (t : Target) (s : State) : Host.Outcome State Fault Refusal :=
  fireLoad (.ldbu p lsid imm t) lsid imm false 1 s

/-- 10 R212. -/
def execLdh (p : Pr) (lsid : BitVec 7) (imm : BitVec 6) (t : Target) (s : State) : Host.Outcome State Fault Refusal :=
  fireLoad (.ldh p lsid imm t) lsid imm true 2 s

/-- 10 R212. -/
def execLdhu (p : Pr) (lsid : BitVec 7) (imm : BitVec 6) (t : Target) (s : State) : Host.Outcome State Fault Refusal :=
  fireLoad (.ldhu p lsid imm t) lsid imm false 2 s

/-- 10 R212. -/
def execLdw (p : Pr) (lsid : BitVec 7) (imm : BitVec 6) (t : Target) (s : State) : Host.Outcome State Fault Refusal :=
  fireLoad (.ldw p lsid imm t) lsid imm true 4 s

/-- 10 R212. -/
def execLdwu (p : Pr) (lsid : BitVec 7) (imm : BitVec 6) (t : Target) (s : State) : Host.Outcome State Fault Refusal :=
  fireLoad (.ldwu p lsid imm t) lsid imm false 4 s

/-- 10 R212. -/
def execLdd (p : Pr) (lsid : BitVec 7) (imm : BitVec 6) (t : Target) (s : State) : Host.Outcome State Fault Refusal :=
  fireLoad (.ldd p lsid imm t) lsid imm false 8 s

/-- 10 R213. -/
def execStb (p : Pr) (lsid : BitVec 7) (imm : BitVec 15) (s : State) : Host.Outcome State Fault Refusal :=
  fireStore (.stb p lsid imm) lsid imm 1 s

/-- 10 R213. -/
def execSth (p : Pr) (lsid : BitVec 7) (imm : BitVec 15) (s : State) : Host.Outcome State Fault Refusal :=
  fireStore (.sth p lsid imm) lsid imm 2 s

/-- 10 R213. -/
def execStw (p : Pr) (lsid : BitVec 7) (imm : BitVec 15) (s : State) : Host.Outcome State Fault Refusal :=
  fireStore (.stw p lsid imm) lsid imm 4 s

/-- 10 R213. -/
def execStd (p : Pr) (lsid : BitVec 7) (imm : BitVec 15) (s : State) : Host.Outcome State Fault Refusal :=
  fireStore (.std p lsid imm) lsid imm 8 s

/-- 10 R212, R214. -/
def execLdv (p : Pr) (lsid : BitVec 7) (imm : BitVec 6) (t : Target) (s : State) : Host.Outcome State Fault Refusal :=
  fire (.ldv p lsid imm t) (fun e =>
    e.load lsid 16 [(e.addrL imm 256, 256)] (fun bs => .vector (BitVec.ofNat 2048 (leNat bs)))) s

/-- 10 R213, R214. -/
def execStv (p : Pr) (lsid : BitVec 7) (imm : BitVec 15) (s : State) : Host.Outcome State Fault Refusal :=
  fire (.stv p lsid imm) (fun e =>
    e.storeTo lsid 16 [(e.addrS imm, 256)] (toBytes e.vb.toNat 256) (e.right.pois || e.predPois (sigOf (.stv p lsid imm)))
      e.left.pois) s

/-- The address of a lane of a gather or scatter (10 R215). -/
def laneAddr (base : BitVec 64) (idx : BitVec 2048) (k : Nat) : Nat :=
  (base + 4 * (idx.extractLsb' (32 * k) 32).signExtend 64).toNat

/-- The 64 spans of a gather or scatter. -/
def laneSpans (base : BitVec 64) (idx : BitVec 2048) : List (Nat × Nat) :=
  (List.range 64).map fun k => (laneAddr base idx k, 4)

/-- 10 R215. -/
def execLdvx (p : Pr) (lsid : BitVec 7) (t : Target) (s : State) : Host.Outcome State Fault Refusal :=
  fire (.ldvx p lsid t) (fun e =>
    e.load lsid 4 (laneSpans e.a e.vb) (fun bs => .vector (BitVec.ofNat 2048 (leNat bs)))) s

/-- 10 R215: the poison of every operand goes into the written sectors. -/
def execStvx (lsid : BitVec 7) (imm : BitVec 15) (s : State) : Host.Outcome State Fault Refusal :=
  fire (.stvx lsid imm) (fun e =>
    e.storeTo lsid 4 (laneSpans (e.a + imm.signExtend 64) e.vb) (toBytes e.vc.toNat 256) e.pois
      (e.left.pois || e.right.pois)) s

/-! ## Synchronised accesses, atomics and CAS (10 R216-R220): performed at the belay of the pitch (03 R71) -/

/-- The opcode of the focused slot's word. -/
def Env.opcode (e : Env) : BitVec 8 := (e.p.words[e.k]?.getD 0).extractLsb' 24 8

/-- An immediate-class access fires: its checks are made and it is noted; its tokens count as delivered. A twin may not
become irrevocable (18 R381). -/
def Env.immediate (e : Env) (i : Instr) (nd : Need) (n : Nat) (write : Bool) (op : ImmOp) (pois resPois ctl : Bool) : Reply :=
  if e.r.twin.isSome then faultOf fcImmediateLimit
  else
    match e.access nd [(e.a.toNat, n)] with
    | .error f => .fault f
    | .ok bs =>
      if e.held write bs then .wait
      else
        let loc := match bs with | b :: _ => b.loc | [] => 0
        let v : Option TokVal :=
          match (sigOf i).res with
          | .scalar => some (.scalar 0)
          | .vector => some (.vector 0)
          | .none | .pred | .null | .asLeft | .asRight => none
        .done { out0 := v, ctl := ctl,
                imm := some { slot := e.k, lsid := ((sigOf i).lsid.getD 0).toNat, op := op, va := e.a, loc := loc,
                              local_ := locSpace loc == spPad, peer := if locPkg loc = 0 then none else some (locPkg loc - 1),
                              pois := pois, resPois := resPois, targets := [(sigOf i).t0],
                              opcode := e.opcode, via := bs.filterMap Bound.use } }

/-- The digest's byte of mode and x3 (18 R379), as they stand side by side in the word. [DESIGN CHOICE, log 97] -/
def subOf (mode x3 : BitVec 3) : BitVec 8 := (mode ++ x3).setWidth 8

/-- An entry of the commit set (03 R69); its exit is known at belay. -/
def Env.entry (e : Env) (i : Instr) (op : CommitOp) (addr : BitVec 64) (pois : Bool) (sub : BitVec 8) : Effect :=
  .entry { op := op, addr := addr, pois := pois, pitch := e.p.addr, exit := 255, slot := e.k,
           lsid := ((sigOf i).lsid.getD 0).toNat, opcode := e.opcode, sub := sub }

/-- A reduction, ordered contribution or release form fires: the checks of R210, then an entry of the commit set. -/
def Env.commitAccess (e : Env) (i : Instr) (nd : Need) (n : Nat) (op : CommitOp) (sub : BitVec 8) : Reply :=
  match e.access nd [(e.a.toNat, n)] with
  | .error f => .fault f
  | .ok _ => .done { effects := [e.entry i op e.a e.pois sub], ctl := e.left.pois }

/-- The mode of a synchronised load (10 R208). -/
def sldMode (m : BitVec 3) : SyncMode := if m = 0 then .readfull else if m = 1 then .consume else .peek

/-- The immediate-class mode of a synchronised store. -/
def sstMode (m : BitVec 3) : SyncMode := if m = 0 then .produce else if m = 1 then .fill else .clear

/-- What a synchronised load needs. -/
def sldNeed (m : BitVec 3) (n : Nat) : Need :=
  { align := n, r := true, w := m == 1, noHost := true, sync := true, rap := true }

/-- What a synchronised store needs; the release forms may not name the local window. -/
def sstNeed (m : BitVec 3) (n : Nat) : Need :=
  if m == 2 || m == 3 then { align := n, w := true, noLocal := true, noHost := true, sync := true }
  else { align := n, w := true, noHost := true, sync := true, rap := true }

/-- A synchronised store of 8 bytes or a line. -/
def Env.syncStore (e : Env) (i : Instr) (m : BitVec 3) (vec : Bool) (data : BitVec 1024) : Reply :=
  let n := if vec then 128 else 8
  if m == 2 || m == 3 then
    e.commitAccess i (sstNeed m n) n (.release (m == 3) vec data) (subOf m 0)
  else e.immediate i (sstNeed m n) n true (.sync (sstMode m) vec data) (e.right.pois || e.predPois (sigOf i)) false e.left.pois

/-- 10 R216, R217. -/
def execSld (p : Pr) (lsid : BitVec 7) (mode : BitVec 3) (t : Target) (s : State) : Host.Outcome State Fault Refusal :=
  fire (.sld p lsid mode t) (fun e =>
    e.immediate (.sld p lsid mode t) (sldNeed mode 8) 8 false (.sync (sldMode mode) false 0) false e.pois e.left.pois) s

/-- 10 R216, R217, R226. -/
def execSst (p : Pr) (lsid : BitVec 7) (mode : BitVec 3) (s : State) : Host.Outcome State Fault Refusal :=
  fire (.sst p lsid mode) (fun e => e.syncStore (.sst p lsid mode) mode false (e.b.setWidth 1024)) s

/-- 10 R216, R217. -/
def execSldv (p : Pr) (lsid : BitVec 7) (mode : BitVec 3) (t : Target) (s : State) : Host.Outcome State Fault Refusal :=
  fire (.sldv p lsid mode t) (fun e =>
    e.immediate (.sldv p lsid mode t) (sldNeed mode 128) 128 false (.sync (sldMode mode) true 0) false e.pois e.left.pois) s

/-- 10 R216, R217, R226. -/
def execSstv (p : Pr) (lsid : BitVec 7) (mode : BitVec 3) (s : State) : Host.Outcome State Fault Refusal :=
  fire (.sstv p lsid mode) (fun e => e.syncStore (.sstv p lsid mode) mode true (e.vb.setWidth 1024)) s

/-- The combining operation of a mode code (10 R208). -/
def redOpOf (m : BitVec 3) : RedOp :=
  match m.toNat with
  | 1 => .swap
  | 2 => .and
  | 3 => .or
  | 4 => .xor
  | 5 => .min
  | 6 => .max
  | _ => .add

/-- What an atomic or CAS of n bytes needs. -/
def amoNeed (n : Nat) : Need := { align := n, r := true, w := true, noHost := true, rap := true }

/-- 10 R219. -/
def execAmoi (p : Pr) (lsid : BitVec 7) (mode : BitVec 3) (un : Bool) (t : Target) (s : State) :
    Host.Outcome State Fault Refusal :=
  fire (.amoi p lsid mode un t) (fun e =>
    e.immediate (.amoi p lsid mode un t) (amoNeed 8) 8 true (.amo (redOpOf mode) un 8 e.b)
      (e.right.pois || e.predPois (sigOf (.amoi p lsid mode un t))) (e.predPois (sigOf (.amoi p lsid mode un t))) e.left.pois) s

/-- 10 R219. -/
def execAmow (p : Pr) (lsid : BitVec 7) (mode : BitVec 3) (un : Bool) (t : Target) (s : State) :
    Host.Outcome State Fault Refusal :=
  fire (.amow p lsid mode un t) (fun e =>
    e.immediate (.amow p lsid mode un t) (amoNeed 4) 4 true (.amo (redOpOf mode) un 4 e.b)
      (e.right.pois || e.predPois (sigOf (.amow p lsid mode un t))) (e.predPois (sigOf (.amow p lsid mode un t))) e.left.pois) s

/-- 10 R219. -/
def execAmof (p : Pr) (lsid : BitVec 7) (mode : BitVec 3) (t : Target) (s : State) : Host.Outcome State Fault Refusal :=
  fire (.amof p lsid mode t) (fun e =>
    e.immediate (.amof p lsid mode t) (amoNeed 4) 4 true (.amof (redOpOf mode) (e.b.setWidth 32))
      (e.right.pois || e.predPois (sigOf (.amof p lsid mode t))) (e.predPois (sigOf (.amof p lsid mode t))) e.left.pois) s

/-- 10 R220. -/
def execCas (lsid : BitVec 7) (mode : BitVec 3) (t : Target) (s : State) : Host.Outcome State Fault Refusal :=
  fire (.cas lsid mode t) (fun e =>
    let n := if mode = 0 then 8 else 4
    e.immediate (.cas lsid mode t) (amoNeed n) n true (.cas n e.b e.c e.third.pois) e.third.pois false e.left.pois) s

/-! ## Non-returning reductions (10 R221-R225): entries of the commit set -/

/-- What a reduction of n bytes needs. -/
def redNeed (n : Nat) : Need := { align := n, w := true, noLocal := true, noHost := true }

/-- 10 R221. -/
def execRedi (p : Pr) (lsid : BitVec 7) (mode : BitVec 3) (un : Bool) (s : State) : Host.Outcome State Fault Refusal :=
  fire (.redi p lsid mode un) (fun e =>
    e.commitAccess (.redi p lsid mode un) (redNeed 8) 8 (.redInt (redOpOf mode) un 8 e.b) (subOf mode (if un then 1 else 0))) s

/-- 10 R221. -/
def execRedw (p : Pr) (lsid : BitVec 7) (mode : BitVec 3) (un : Bool) (s : State) : Host.Outcome State Fault Refusal :=
  fire (.redw p lsid mode un) (fun e =>
    e.commitAccess (.redw p lsid mode un) (redNeed 4) 4 (.redInt (redOpOf mode) un 4 e.b) (subOf mode (if un then 1 else 0))) s

/-- 10 R221. -/
def execRedf (p : Pr) (lsid : BitVec 7) (mode : BitVec 3) (s : State) : Host.Outcome State Fault Refusal :=
  fire (.redf p lsid mode) (fun e =>
    e.commitAccess (.redf p lsid mode) (redNeed 4) 4 (.redF (redOpOf mode) e.b) (subOf mode 0)) s

/-- 10 R221. -/
def execRedb (p : Pr) (lsid : BitVec 7) (mode x3 : BitVec 3) (s : State) : Host.Outcome State Fault Refusal :=
  fire (.redb p lsid mode x3) (fun e =>
    e.commitAccess (.redb p lsid mode x3) (redNeed 128) 128 (.redB (redOpOf mode) (redType x3) (e.vb.setWidth 1024))
      (subOf mode x3)) s

/-- 10 R223, R224. -/
def execRedo (p : Pr) (lsid : BitVec 7) (s : State) : Host.Outcome State Fault Refusal :=
  fire (.redo p lsid) (fun e =>
    e.commitAccess (.redo p lsid) (redNeed 16) 16 (.redo (e.b.setWidth 32) (e.b.extractLsb' 32 32)) 0) s

/-- 10 R223, R224. -/
def execDrawm (p : Pr) (lsid : BitVec 7) (s : State) : Host.Outcome State Fault Refusal :=
  fire (.drawm p lsid) (fun e =>
    e.commitAccess (.drawm p lsid) (redNeed 16) 16
      (.drawm (e.vb.setWidth 64) (e.vb.extractLsb' 64 32) (e.vb.extractLsb' 96 32)) 0) s

/-! ## Fences, flushes and prefetches (10 R229-R231) -/

/-- Whether a location lies within the scope of a fence of a tile. -/
def inScope (scope t loc : Nat) : Bool :=
  if scope ≥ 4 then true
  else if locPkg loc ≠ 0 || locSpace loc == spHost then false
  else if scope = 3 then true
  else if locSpace loc == spPad then
    if scope = 0 then locCtx loc == t else tileCluster (locCtx loc) == tileCluster t
  else
    match bankOf loc with
    | some b => scope = 2 && b / 128 == tileDie t
    | none => false

/-- Whether the stamp of a copy is still to be written within the scope. -/
def Env.stampWithin (e : Env) (scope : Nat) (c : Copy) : Bool :=
  match c.desc.stamp with
  | none => false
  | some (a, _) =>
    if c.stampDone then false
    else
      match e.access { align := 1 } [(a.toNat, 8)] with
      | .ok (b :: _) => inScope scope e.t b.loc
      | .ok [] => false
      | .error _ => scope ≥ 4

/-- Whether a copy has performed every read, and every write within the scope. -/
def Env.fenced (e : Env) (scope : Nat) (c : Copy) : Bool :=
  c.done || (c.next ≥ c.desc.n && (c.fly.all fun x => x.got) && !(c.fly.any fun x => inScope scope e.t x.loc) && !e.stampWithin scope c)

/-- 10 R229. -/
def execFence (p : Pr) (lsid : BitVec 7) (x3 : BitVec 3) (s : State) : Host.Outcome State Fault Refusal :=
  fire (.fence p lsid x3) (fun e =>
    if (e.s.copiesOf e.t e.r).all (e.fenced x3.toNat) then .done {} else .wait) s

/-- 10 R230. [DEDUCED, log 26] -/
def execFlushl (p : Pr) (lsid : BitVec 7) (imm : BitVec 15) (s : State) : Host.Outcome State Fault Refusal :=
  fire (.flushl p lsid imm) (fun e =>
    let a := e.addrS imm
    match e.access { align := 1 } [(a / 128 * 128, 128)] with
    | .error f => .fault f
    | .ok _ => .done { effects := [e.entry (.flushl p lsid imm) .flush (BitVec.ofNat 64 a) e.pois 0], ctl := e.left.pois }) s

/-- Whether an address would pass the checks of a PREF: canonical or local, and mapped to memory that is present. -/
def Env.prefetchable (e : Env) (a : Nat) : Bool :=
  match e.access { align := 1 } [(a, 1)] with
  | .ok _ => true
  | .error _ => false

/-- 10 R231; performed on a poisoned address it marks the task control-poisoned (03 R63). [DEDUCED, log 96] -/
def execPref (p : Pr) (lsid : BitVec 7) (imm : BitVec 6) (s : State) : Host.Outcome State Fault Refusal :=
  fire (.pref p lsid imm) (fun e =>
    .done { effects := [.prefetchLine (BitVec.ofNat 64 (e.addrL imm 128))]
            ctl := e.left.pois && e.prefetchable (e.addrL imm 128) }) s

end Sys2Proof.Machine
end

