-- ==== Sys2Proof/Machine/Sampling.lean ====
section
/-! DEFINITION. The task's stream of uniforms and the sampling instructions (07 R147-R153; 06 R134). -/

namespace Sys2Proof.Machine

/-! ## The keyed generator (07 R148) -/

/-- The 128-bit counter and 64-bit key of Philox4x32. -/
structure Philox where
  c0 : BitVec 32
  c1 : BitVec 32
  c2 : BitVec 32
  c3 : BitVec 32
  k0 : BitVec 32
  k1 : BitVec 32
  deriving DecidableEq, Repr

/-- One round. -/
def Philox.round (x : Philox) : Philox :=
  let p0 := 0xD2511F53 * x.c0.toNat
  let p1 := 0xCD9E8D57 * x.c2.toNat
  { c0 := BitVec.ofNat 32 (p1 / 2 ^ 32) ^^^ x.c1 ^^^ x.k0
    c1 := BitVec.ofNat 32 p1
    c2 := BitVec.ofNat 32 (p0 / 2 ^ 32) ^^^ x.c3 ^^^ x.k1
    c3 := BitVec.ofNat 32 p0
    k0 := x.k0 + 0x9E3779B9
    k1 := x.k1 + 0xBB67AE85 }

def Philox.rounds : Nat → Philox → Philox
  | 0, x => x
  | n + 1, x => Philox.rounds n x.round

/-- Uniform number i of a task: `uniform_keyed`. -/
def uniformKeyed (key : BitVec 64) (tag : BitVec 32) (idx : Nat) (i : BitVec 64) : BitVec 32 :=
  let b := i >>> 2
  let x := Philox.rounds 10
    { c0 := b.setWidth 32, c1 := (b >>> 32).setWidth 32, c2 := tag, c3 := BitVec.ofNat 32 (idx % 2 ^ 24)
      k0 := key.setWidth 32, k1 := (key >>> 32).setWidth 32 }
  match i.toNat % 4 with
  | 0 => x.c0
  | 1 => x.c1
  | 2 => x.c2
  | _ => x.c3

/-! ## The uniforms of a slot (07 R147, R149) -/

/-- Uniforms delivered to an instruction: their values, the poison of a replay table, the lines read. -/
structure Draws where
  us : List Nat
  pois : Bool := false
  reads : List Nat := []
  deriving DecidableEq, Repr

/-- The n uniforms of the focused slot, given to an instruction; a replay-table read may fault or wait as a load does, its
words checked as the lanes of one gather are (07 R149 leaves the order open), and sectors of it read before the others stand as they
were then (12 R259). [DESIGN CHOICE, log 115] -/
def Env.withUniforms (e : Env) (n : Nat) (f : Draws → Reply) : Reply :=
  if e.r.rngmode then
    match e.access { align := 1, r := true } (e.tableSpans n) with
    | .error x => .fault x
    | .ok bs =>
      if e.held false bs then .wait
      else
        let d := (e.s.asRead bs (e.p.earlyOf e.k)).readBounds e.t bs
        f { us := splitLanes 32 n (leNat d.1), pois := d.2, reads := boundLines bs }
  else
    f { us := (List.range n).map fun k =>
          (uniformKeyed e.r.rngkey e.r.tag e.r.idx (e.uniformBase + BitVec.ofNat 64 k)).toNat }

/-- A result computed with uniforms. -/
def Env.drawn (e : Env) (d : Draws) (v : TokVal) (fl : Flags) : Reply :=
  .done { out0 := some v, out1 := some v, pois := e.pois || d.pois, flags := fl, reads := d.reads }

/-! ## Draws (07 R151, R152) -/

/-- A draw pair: total weight and index. -/
def drawPair (w i : Nat) : BitVec 64 := BitVec.ofNat 64 (w % 2 ^ 32 * 2 ^ 32 + i % 2 ^ 32)

/-- The index that means none. -/
def noIndex : Nat := 0xFFFFFFFF

/-- A nonnegative finite F32 value in units of 2^-149; anything else counts as zero. -/
def unitsOf : Val → Nat
  | .nan => 0
  | .inf _ => 0
  | .fin neg m e => if neg then 0 else m * 2 ^ (e + 149).toNat

/-- An F32 code rounded from units of 2^-149. -/
def unitsCode (n : Nat) : Nat := (fmtF32.round .rne false n (-149)).1

/-- A weight lane of mode 0: its units, and NV for a negative, NaN or infinite lane. -/
def weightLane (v : Val) : Nat × Flags :=
  match v with
  | .nan => (0, flagNV)
  | .inf _ => (0, flagNV)
  | .fin neg m _ => (unitsOf v, if neg && m != 0 then flagNV else 0)

/-- The exponential weight of a logit below the maximum m. -/
def logitWeight (m s x : Val) : Nat :=
  match x with
  | .nan => 0
  | .inf neg => if neg then 0 else 2 ^ 149
  | .fin _ _ _ =>
    match m with
    | .inf _ => 0
    | _ =>
      if s.isZero then 2 ^ 149
      else
        let d := fmtF32.roundVal .rne (Val.sub .rne x m).1
        let y := fmtF32.roundVal .rne (Val.mul (f32Val d.1) s).1
        unitsOf (f32Val (fmtF32.roundVal .rne (Val.exp2 (f32Val y.1)).1).1)

/-- The largest of the values that are not NaN; none when there is none. -/
def maxValue (l : List Val) : Option Val :=
  l.foldl (fun b x => if x.isNan then b else match b with | none => some x | some y => if y.lt x then some x else b) none

/-- The smallest index whose prefix sum exceeds u/2^32 of the total, from index k with prefix sum p. -/
def pickIndex (u total : Nat) : List Nat → Nat → Nat → Nat
  | [], k, _ => k
  | w :: rest, k, p => if u * total < (p + w) * 2 ^ 32 then k else pickIndex u total rest (k + 1) (p + w)

/-- The draw from weights in units of 2^-149. -/
def drawFrom (ws : List Nat) (u : Nat) : BitVec 64 :=
  let total := ws.sum
  if total = 0 then drawPair 0 noIndex else drawPair (unitsCode total) (pickIndex u total ws 0 0)

/-- `vdraw` of logits. -/
def drawLogits (xs : List Val) (s : Val) (u : Nat) : BitVec 64 × Flags :=
  let bad := match s with
    | .nan => true
    | .inf _ => true
    | .fin neg m _ => neg && m != 0
  if bad then (drawPair 0 noIndex, flagNV)
  else
    let nv : Flags := if xs.any Val.isNan then flagNV else 0
    (drawFrom (xs.map (logitWeight ((maxValue xs).getD (.inf true)) s)) u, nv)

/-- `vdraw` (07 R151). -/
def vdrawOf (x : ElemType) (v : BitVec 2048) (r : BitVec 64) (u : Nat) : BitVec 64 × Flags :=
  let xs := (lanesOf x v).map (tyValue x)
  if x == .f32 && !r.getLsbD 32 then
    let ws := xs.map weightLane
    (drawFrom (ws.map Prod.fst) u, orFlags (ws.map Prod.snd))
  else drawLogits xs (f32Of r) u

/-- The weight of a pair: +infinity (none) or units; NaN, -infinity and negative values give 0 and raise NV. -/
def pairWeight (p : BitVec 64) : Option Nat × Flags :=
  match f32Val (p.toNat / 2 ^ 32) with
  | .inf false => (none, 0)
  | v => (some (weightLane v).1, (weightLane v).2)

/-- `draw_merge` (07 R152). -/
def drawMerge (p1 p2 : BitVec 64) (u : Nat) : BitVec 64 × Flags :=
  let w1 := pairWeight p1
  let w2 := pairWeight p2
  let nv := w1.2 ||| w2.2
  let i1 := p1.toNat % 2 ^ 32
  let i2 := p2.toNat % 2 ^ 32
  match w1.1, w2.1 with
  | none, none => (drawPair fmtF32.infCode (if u < 2 ^ 31 then i1 else i2), nv)
  | none, some _ => (drawPair fmtF32.infCode i1, nv)
  | some _, none => (drawPair fmtF32.infCode i2, nv)
  | some a, some b =>
    if a + b = 0 then (drawPair 0 noIndex, nv)
    else (drawPair (unitsCode (a + b)) (if u * (a + b) < a * 2 ^ 32 then i1 else i2), nv)

/-! ## The instructions -/

/-- 07 R150. -/
def execVrand (p : Pr) (x : ElemType) (u t : Target) (s : State) : Host.Outcome State Fault Refusal :=
  fire (.vrand p x u t) (fun e =>
    e.withUniforms 64 fun d =>
      let lane := fun n => if x == .f32 then (fmtF32.round .rne false (n / 2 ^ 8) (-24)).1 else n
      e.drawn d (.vector (BitVec.ofNat 2048 (joinLanes 32 (d.us.map lane)))) 0) s

/-- 07 R151. -/
def execVdraw (p : Pr) (x : ElemType) (u t : Target) (s : State) : Host.Outcome State Fault Refusal :=
  fire (.vdraw p x u t) (fun e =>
    e.withUniforms 1 fun d =>
      let r := vdrawOf x e.va e.b (d.us.headD 0)
      e.drawn d (.scalar r.1) r.2) s

/-- 07 R152. -/
def execVdrawm (p : Pr) (u t : Target) (s : State) : Host.Outcome State Fault Refusal :=
  fire (.vdrawm p u t) (fun e =>
    e.withUniforms 1 fun d =>
      let r := drawMerge e.a e.b (d.us.headD 0)
      e.drawn d (.scalar r.1) r.2) s

/-- 06 R134: two uniforms as one scalar. -/
def execRand (p : Pr) (u t : Target) (s : State) : Host.Outcome State Fault Refusal :=
  fire (.rand p u t) (fun e =>
    e.withUniforms 2 fun d => e.drawn d (.scalar (BitVec.ofNat 64 (joinLanes 32 d.us))) 0) s

end Sys2Proof.Machine
end

