-- ==== Sys2Proof/Machine/CopyOps.lean ====
section
/-! DEFINITION. Copy and tag instructions, opcodes 0xC0-0xC9: what they check and read when they fire (11 R235-R244). The
copies themselves are carried out by the streamers. -/

namespace Sys2Proof.Machine

/-! ## Stream ports of a task (11 R249) -/

def State.inPort? (s : State) (inst idx port : Nat) : Option InPort :=
  s.fab.inPorts.find? fun x => x.inst == inst && x.idx == idx && x.port == port

def Env.inPort? (e : Env) (port : Nat) : Option InPort := e.s.inPort? e.r.inst e.r.idx port

def Run.outPort (r : Run) (port : Nat) : OutPort := r.out[port]?.getD {}

/-! ## The descriptor (11 R236) -/

/-- Lane i of 64 bits of a descriptor. -/
def qLane (v : BitVec 2048) (i : Nat) : BitVec 64 := v.extractLsb' (64 * i) 64

/-- Which copy instruction reads a descriptor. -/
inductive CopyForm where
  | cpy | cpys | cpyr | cpyb
  deriving DecidableEq, Repr

def qTag (v : BitVec 2048) : Nat := bitsAt (qLane v 5) 0 6
def qStamp (v : BitVec 2048) : Bool := (qLane v 5).getLsbD 6
def qOrd (v : BitVec 2048) : Bool := (qLane v 5).getLsbD 7
def qSout (v : BitVec 2048) : Bool := (qLane v 5).getLsbD 8
def qSin (v : BitVec 2048) : Bool := (qLane v 5).getLsbD 9
def qTmask (v : BitVec 2048) : Nat := bitsAt (qLane v 5) 16 16
def qSeq (v : BitVec 2048) : Nat := bitsAt (qLane v 5) 32 32
def qLen (v : BitVec 2048) : Nat := bitsAt (qLane v 2) 0 40
def qRowLen (v : BitVec 2048) : Nat := bitsAt (qLane v 2) 0 20
def qRows (v : BitVec 2048) : Nat := bitsAt (qLane v 2) 20 20 + 1

/-- Check 1 of R238 on the fields alone. [DEDUCED, log 40] -/
def descBad (f : CopyForm) (v : BitVec 2048) : Bool :=
  bitsAt (qLane v 2) 40 24 != 0 || bitsAt (qLane v 5) 10 6 != 0 ||
    (if f = .cpys then qRowLen v = 0 || qRowLen v % 16 != 0 || (qLane v 3).toNat % 16 != 0 || (qLane v 4).toNat % 16 != 0
     else qLen v % 16 != 0 || qLane v 3 != 0 || qLane v 4 != 0) ||
    (qOrd v && f ≠ .cpyr) || (qSout v && f ≠ .cpy && f ≠ .cpys) || (qSin v && f ≠ .cpy) || (qSin v && qSout v) ||
    (qTmask v != 0 && f ≠ .cpyb) || (qSeq v != 0 && !qOrd v) ||
    (!qStamp v && (qLane v 6 != 0 || qLane v 7 != 0)) ||
    (qSin v && (qLane v 0).toNat ≥ 4) || (qSout v && (qLane v 1).toNat ≥ 4) ||
    (qOrd v && ((qLane v 1).toNat % 128 != 0 || qLen v % 128 != 0))

/-- Check 1 of R238: the ports. -/
def Env.portsBad (e : Env) (v : BitVec 2048) : Bool :=
  (qSin v && (e.inPort? (qLane v 0).toNat).isNone) || (qSout v && !(e.r.outPort (qLane v 1).toNat).bound)

/-- Check 2 of R238: the first misaligned address. -/
def descMisaligned (v : BitVec 2048) : Option (BitVec 64) :=
  if !qSin v && (qLane v 0).toNat % 16 != 0 then some (qLane v 0)
  else if !qSout v && (qLane v 1).toNat % 16 != 0 then some (qLane v 1)
  else if qStamp v && (qLane v 6).toNat % 8 != 0 then some (qLane v 6)
  else none

/-- Whether the bytes of rows of a local-window range all lie in the window: offsets from the base, lowest and highest. -/
def rangeInWindow (a : BitVec 64) (stride : BitVec 64) (rows len : Nat) : Bool :=
  let span := stride.toInt * ((rows : Int) - 1)
  let o : Int := ((a.toNat - Config.localBase : Nat) : Int)
  let lo := if span < 0 then o + span else o
  let hi := (if 0 < span then o + span else o) + len
  len = 0 || (decide (0 ≤ lo) && decide (hi ≤ (Config.localSize : Int)))

/-- Check 3 of R238 on one range. -/
def rangeBad (a : BitVec 64) (stride : BitVec 64) (rows len : Nat) (mustLocal : Bool) : Bool :=
  if isLocal a.toNat then !rangeInWindow a stride rows len else mustLocal || !isCanonical a.toNat

/-- Rows, their length and the strides of a descriptor. -/
def descRows (f : CopyForm) (v : BitVec 2048) : Nat := if f = .cpys then qRows v else 1
def descLen (f : CopyForm) (v : BitVec 2048) : Nat := if f = .cpys then qRowLen v else qLen v

/-- Check 3 of R238: the first address that fails. -/
def descNonCanon (f : CopyForm) (v : BitVec 2048) : Option (BitVec 64) :=
  if !qSin v && rangeBad (qLane v 0) (qLane v 3) (descRows f v) (descLen f v) false then some (qLane v 0)
  else if !qSout v && rangeBad (qLane v 1) (qLane v 4) (descRows f v) (descLen f v) (f = .cpyb) then some (qLane v 1)
  else if qStamp v && rangeBad (qLane v 6) 0 1 8 false then some (qLane v 6)
  else none

/-- The descriptor as the streamer uses it. -/
def descOf (k : CopyKind) (f : CopyForm) (v : BitVec 2048) : CopyDesc :=
  { kind := k, src := qLane v 0, dst := qLane v 1
    n := if f = .cpys then qRows v * (qRowLen v / 16) else qLen v / 16
    row := if f = .cpys then qRowLen v / 16 else qLen v / 16
    sstride := qLane v 3, dstride := qLane v 4, tag := some (qTag v)
    stamp := if qStamp v then some (qLane v 6, qLane v 7) else none
    ord := qOrd v, seq := BitVec.ofNat 32 (qSeq v)
    sin := if qSin v then some ((qLane v 0).toNat % 4) else none
    sout := if qSout v then some ((qLane v 1).toNat % 4) else none
    tmask := BitVec.ofNat 16 (qTmask v) }

/-- Whether the issue of a copy makes its task irrevocable (11 R235). -/
def CopyDesc.irrevocable (d : CopyDesc) (tile : Nat) : Bool :=
  (match d.kind with
   | .cpyb => d.tmask &&& ~~~((1 : BitVec 16) <<< tileIndex tile) != 0
   | .cpy | .cpys | .cpyr _ _ | .prefetch => d.sout.isNone && !isLocal d.dst.toNat) ||
    (match d.stamp with
     | some (a, _) => !isLocal a.toNat
     | none => false)

/-- A copy instruction fires: the checks of R238 and R235, then the issue at belay; it waits while its tag is pending. -/
def Env.copyIssue (e : Env) (lsid : BitVec 7) (k : CopyKind) (f : CopyForm) : Reply :=
  let v := e.va
  if descBad f v || e.portsBad v then faultOf fcIllegalEncoding
  else
    match descMisaligned v with
    | some a => faultOf fcMisaligned a
    | none =>
      match descNonCanon f v with
      | some a => faultOf fcNonCanon a
      | none =>
        let d := descOf k f v
        if (e.r.twin.isSome || e.r.revocableOnly) && d.irrevocable e.t then faultOf fcImmediateLimit
        else if e.r.ctagpend.getLsbD (qTag v) then .wait
        else .done { effects := [.copy lsid.toNat d], ctl := e.left.pois }

/-- 11 R237. -/
def execCpy (p : Pr) (lsid : BitVec 7) (s : State) : Host.Outcome State Fault Refusal :=
  fire (.cpy p lsid) (fun e => e.copyIssue lsid .cpy .cpy) s

/-- 11 R237. -/
def execCpys (p : Pr) (lsid : BitVec 7) (s : State) : Host.Outcome State Fault Refusal :=
  fire (.cpys p lsid) (fun e => e.copyIssue lsid .cpys .cpys) s

/-- 11 R239. -/
def execCpyr (p : Pr) (lsid : BitVec 7) (mode x3 : BitVec 3) (s : State) : Host.Outcome State Fault Refusal :=
  fire (.cpyr p lsid mode x3) (fun e => e.copyIssue lsid (.cpyr (redOpOf mode) (redType x3)) .cpyr) s

/-- 11 R240. -/
def execCpyb (p : Pr) (lsid : BitVec 7) (s : State) : Host.Outcome State Fault Refusal :=
  fire (.cpyb p lsid) (fun e => e.copyIssue lsid .cpyb .cpyb) s

/-! ## Tags (11 R242, R243) -/

/-- A scalar result of a tag instruction. -/
def Env.tagResult (e : Env) (v : BitVec 64) : Reply := .done { out0 := some (.scalar v), pois := e.pois }

/-- Index of the lowest set bit. -/
def lowestBit (m : BitVec 64) : BitVec 64 :=
  match (List.range 64).find? fun i => m.getLsbD i with
  | some i => BitVec.ofNat 64 i
  | none => BitVec.allOnes 64

/-- The state of the last copy of a tag. -/
def Env.copyState (e : Env) (tag : Nat) : BitVec 64 :=
  match e.r.lastCopy.find? fun x => x.1 == tag with
  | none => 0
  | some x =>
    match e.s.fab.copies.find? fun c => c.id == x.2 with
    | none => 0
    | some c =>
      BitVec.ofNat 64 (c.prog % 2 ^ 40 + (if c.done then 0 else 2 ^ 40) + (if c.stall = .no then 0 else 2 ^ 41) +
        2 ^ 48 * c.skip.toNat)

/-- 11 R243. -/
def execCpyq (p : Pr) (lsid : BitVec 7) (t : Target) (s : State) : Host.Outcome State Fault Refusal :=
  fire (.cpyq p lsid t) (fun e => e.tagResult (e.copyState (e.a.toNat % 64))) s

/-- 11 R242. -/
def execCwaita (p : Pr) (lsid : BitVec 7) (t : Target) (s : State) : Host.Outcome State Fault Refusal :=
  fire (.cwaita p lsid t) (fun e =>
    if e.a = 0 then e.tagResult (BitVec.allOnes 64)
    else if e.r.ctags &&& e.a = 0 then .wait
    else e.tagResult (lowestBit (e.r.ctags &&& e.a))) s

/-- 11 R242. -/
def execCwaitl (p : Pr) (lsid : BitVec 7) (t : Target) (s : State) : Host.Outcome State Fault Refusal :=
  fire (.cwaitl p lsid t) (fun e =>
    if e.r.ctags &&& e.a = e.a then e.tagResult e.a else .wait) s

/-- 11 R242. -/
def execCfind (p : Pr) (lsid : BitVec 7) (t : Target) (s : State) : Host.Outcome State Fault Refusal :=
  fire (.cfind p lsid t) (fun e => e.tagResult (lowestBit (e.r.ctags &&& e.a))) s

/-- 11 R242. -/
def execCtclr (p : Pr) (lsid : BitVec 7) (s : State) : Host.Outcome State Fault Refusal :=
  fire (.ctclr p lsid) (fun e => .done { effects := [.ctclr e.a], ctl := e.left.pois }) s

/-- The word an MWAIT examines, with the task's shadow bytes laid over it, and its poison. -/
def State.waitWord (s : State) (r : Run) (loc : Nat) : BitVec 64 × Bool :=
  let d := s.readOwn r loc 8
  (BitVec.ofNat 64 (leNat d.1), d.2)

/-- The answer of an MWAIT whose word has reached its threshold. -/
def Env.waitOver (e : Env) (loc : Nat) (w : BitVec 64 × Bool) : Reply :=
  .done { out0 := some (.scalar w.1), pois := e.pois || w.2, reads := [lineKey loc] }

/-- Whether a location is that of a peer which does not implement MWAIT, opcode 0xC9, for its memory (10 R232; 19 R395). -/
def State.mwaitLacks (s : State) (loc : Nat) : Bool :=
  locPkg loc != 0 && !(match s.peer? (locPkg loc - 1) with | some p => p.ops.getLsbD 41 | none => false)

/-- 11 R244: the checks are made when it fires; the word, unsigned, is compared at every examination, of which a wait keeps the
first that reached the threshold. -/
def execMwait (p : Pr) (lsid : BitVec 7) (t : Target) (s : State) : Host.Outcome State Fault Refusal :=
  fire (.mwait p lsid t) (fun e =>
    match e.p.waits.find? fun m => m.slot == e.k with
    | some m =>
      match m.hit with
      | some w => e.waitOver m.loc w
      | none => .wait
    | none =>
      match e.access { align := 8, r := true } [(e.a.toNat, 8)] with
      | .error f => .fault f
      | .ok bs =>
        if e.held false bs then .wait
        else
          match bs with
          | [] => .wait
          | b :: _ =>
            let w := e.s.waitWord e.r b.loc
            if e.s.mwaitLacks b.loc then faultOf fcOpUnsupported e.a
            else if w.1.ult e.b then .waitFor { slot := e.k, loc := b.loc, t := e.b, via := bs.filterMap Bound.use } else e.waitOver b.loc w) s

/-! ## The examination of waiting words (11 R244) -/

/-- A waiting MWAIT examined: the first word that reaches the threshold is kept. A word in the footprint of a matrix operation
is not read before the operation completes (08 R182). -/
def State.examineWait (s : State) (t : Nat) (r : Run) (m : MemWait) : MemWait :=
  if m.hit.isSome || (locSpace m.loc == spPad && (s.tile t).footprint (locPa m.loc) 8 false) then m
  else
    let w := s.waitWord r m.loc
    if w.1.ult m.t then m else { m with hit := some w }

/-- The MWAITs of a run examined. -/
def State.examineRun (s : State) (t : Nat) (r : Run) : Run :=
  match r.pitch with
  | some p => if p.waits.isEmpty then r else { r with pitch := some { p with waits := p.waits.map (s.examineWait t r) } }
  | none => r

/-- Every waiting MWAIT is examined, as its home bank or tile does at each write of the line. -/
def State.examine (s : State) : State :=
  { s with tiles := s.tiles.map fun x => (x.1, { x.2 with run := x.2.run.map (s.examineRun x.1) }) }

end Sys2Proof.Machine
end

