-- ==== Sys2Proof/Machine/StreamOps.lean ====
section
/-! DEFINITION. Stream instructions, opcodes 0xCA-0xCE (11 R250-R257). -/

namespace Sys2Proof.Machine

/-- Packets of a payload a fired SPUSH or SEOS of the pitch will enter on a port. -/
def Pitch.reserved (p : Pitch) (port : Nat) : Nat :=
  (p.effects.filter fun x => match x.2 with | .push q _ _ _ _ _ => q == port | _ => false).length

/-- Places of an output queue, and packets it may hold unacknowledged (11 R252). -/
def outPlaces : Nat := 8
def outLimit : Nat := 64

/-- Packets of an output port that its consumer has not acknowledged, those still in its queue among them. [DESIGN CHOICE, log 98] -/
def OutPort.outstanding (o : OutPort) : Nat := o.queue.length + o.unacked.length

/-- An output port can take one more packet beside n reserved places. -/
def OutPort.hasRoom (o : OutPort) (n : Nat) : Bool :=
  o.queue.length + n < outPlaces && o.outstanding + n < outLimit

/-- A packet is pushed at belay; its place is reserved now, waiting while there is none. -/
def Env.push (e : Env) (port : BitVec 2) (payload : BitVec 1024) (fmt : BitVec 3) (eot abort pois : Bool) : Reply :=
  let o := e.r.outPort port.toNat
  if !o.bound then faultOf fcIllegalEncoding
  else if o.hasRoom (e.p.reserved port.toNat) then effectsReply [.push port.toNat payload fmt eot abort pois]
  else .wait

/-- What a SPOP of a lower slot does: takes a packet, takes none, or is undecided. -/
inductive Take where
  | yes | no | unknown
  deriving DecidableEq, Repr

/-- What a slot takes from a port. -/
def takeOf (port : BitVec 2) (w : BitVec 32) (sl : Slot) : Take :=
  match decode w with
  | .ok (.spop p lsid q t) =>
    if q != port then .no
    else
      match sl.status with
      | .unfired | .nullified => .no
      | .fired | .pending => .yes
      | .waiting =>
        let g := sigOf (.spop p lsid q t)
        if !g.ready sl then .unknown else if g.matches sl && !g.hasNull sl then .yes else .no
  | _ => .no

/-- The position in an input queue of the packet the focused slot gets; none while a lower SPOP is undecided. -/
def Env.position (e : Env) (port : BitVec 2) : Option Nat :=
  let l := ((e.p.words.zip e.p.slots).take e.k).map fun x => takeOf port x.1 x.2
  if l.contains .unknown then none else some (l.filter (· == .yes)).length

/-- The header word (11 R250). -/
def headerWord (k : Packet) : BitVec 64 :=
  BitVec.ofNat 64 (k.fmt.toNat + 8 * k.eot.toNat + 16 * k.eos.toNat + 32 * k.abort.toNat + 128 + 256 * k.src.toNat +
    2 ^ 32 * k.seq.toNat)

/-- The vector SPOP and SPEEK return: payload, header word, zeros. -/
def packetVec (payload : BitVec 1024) (h : BitVec 64) : BitVec 2048 := payload.setWidth 2048 ||| (h.setWidth 2048 <<< 1024)

/-- What an empty ended port returns (11 R254). -/
def endMarker : Packet := { payload := 0, eos := true, seq := 0xFFFFFFFF }

/-- A packet as a result; a POIS packet comes poisoned and is counted. -/
def Env.packetResult (e : Env) (k : Packet) (counted : Bool) (l : List Effect) : Reply :=
  .done { out0 := some (.vector (packetVec k.payload (headerWord k))), pois := e.pois || k.pois, effects := l,
          counted := counted && (e.pois || k.pois) }

/-- 11 R252. -/
def execSpush (p : Pr) (lsid : BitVec 7) (port : BitVec 2) (s : State) : Host.Outcome State Fault Refusal :=
  fire (.spush p lsid port) (fun e =>
    e.push port (e.va.setWidth 1024) (e.b.setWidth 3) false false (e.left.pois || e.right.pois)) s

/-- 11 R253: waits for a packet, returns it now and removes it at belay. Behind the ending packet, which an earlier SPOP of the
pitch takes, it answers as on an empty ended port. [DEDUCED, log 99] -/
def execSpop (p : Pr) (lsid : BitVec 7) (port : BitVec 2) (t : Target) (s : State) : Host.Outcome State Fault Refusal :=
  fire (.spop p lsid port t) (fun e =>
    match e.inPort? port.toNat with
    | none => faultOf fcIllegalEncoding
    | some q =>
      match e.position port with
      | none => .hold
      | some n =>
        match q.queue[n]? with
        | some k => e.packetResult k true [.pop port.toNat]
        | none => if q.ended then e.packetResult endMarker true [] else .wait) s

/-- 11 R253: does not wait and removes nothing. -/
def execSpeek (p : Pr) (lsid : BitVec 7) (port : BitVec 2) (t : Target) (s : State) : Host.Outcome State Fault Refusal :=
  fire (.speek p lsid port t) (fun e =>
    match e.inPort? port.toNat with
    | none => faultOf fcIllegalEncoding
    | some q =>
      match e.position port with
      | none => .hold
      | some n =>
        match q.queue[n]? with
        | some k => e.packetResult k false []
        | none =>
          if q.ended then e.packetResult endMarker false []
          else .done { out0 := some (.vector 0), pois := e.pois }) s

/-- 11 R254. [DEDUCED, log 47] -/
def execSeos (p : Pr) (lsid : BitVec 7) (mode : BitVec 3) (port : BitVec 2) (s : State) : Host.Outcome State Fault Refusal :=
  fire (.seos p lsid mode port) (fun e => e.push port 0 0 (mode == 0) (mode == 1) e.pois) s

/-- States in which a record stands on a tile or in a placed queue, or has ended. -/
def RecSt.seated : RecSt → Bool
  | .waiting => false
  | .pending => false
  | .abandoned => false
  | .placed => true
  | .runnable => true
  | .running => true
  | .stalled => true
  | .twinWait => true
  | .committing => true
  | .killed => true
  | .retired => true

/-- The circuit of an output port is complete: its consumer is placed (11 R249). -/
def State.circuit (s : State) (r : Run) (o : OutPort) : Bool :=
  o.bound && (s.inPort? r.inst o.peer o.peerPort).isSome && (((s.rec? r.inst o.peer).map fun x => x.st.seated).getD false)

/-- SSTAT's word (11 R257); a count beyond its field keeps its low bits [DESIGN CHOICE, log 98], and that of an output port which is
not bound is 0 [DESIGN CHOICE, log 121]. -/
def Env.portStatus (e : Env) (out : Bool) (port : Nat) : BitVec 64 :=
  if out then
    let o := e.r.outPort port
    if o.bound then
      BitVec.ofNat 64 ((outPlaces - o.queue.length - e.p.reserved port) + 2 ^ 8 * o.outstanding +
        2 ^ 16 * (e.s.circuit e.r o).toNat)
    else 0
  else
    match e.inPort? port with
    | some q => BitVec.ofNat 64 (q.queue.length % 256 + 2 ^ 8 * (q.eots % 16) + 2 ^ 12 * q.ended.toNat + 2 ^ 13)
    | none => 0

/-- 11 R257: never faults. -/
def execSstat (p : Pr) (lsid : BitVec 7) (mode : BitVec 3) (port : BitVec 2) (t : Target) (s : State) :
    Host.Outcome State Fault Refusal :=
  fire (.sstat p lsid mode port t) (fun e =>
    .done { out0 := some (.scalar (e.portStatus (mode == 1) port.toNat)), pois := e.pois }) s

end Sys2Proof.Machine
end

