-- ==== Sys2Proof/Machine/Structure.lean ====
section
/-! DEFINITION. The structure instructions, opcodes 0x00-0x0C (06 R119; 04 R89). -/

namespace Sys2Proof.Machine

/-- 06 R119; 04 R89. -/
def execIllegal (p : Pr) (s : State) : Host.Outcome State Fault Refusal :=
  fire (.illegal p) (fun _ => faultOf fcIllegalOpcode) s

/-- 05 R103. -/
def execReadg (r : BitVec 6) (u t : Target) (s : State) : Host.Outcome State Fault Refusal :=
  fire (.readg r u t) (fun e =>
    let g := e.r.g[r.toNat]?.getD {}
    .done { out0 := some (.scalar g.v), out1 := some (.scalar g.v), pois := g.pois }) s

/-- 05 R105. -/
def execReadv (r : BitVec 5) (u t : Target) (s : State) : Host.Outcome State Fault Refusal :=
  fire (.readv r u t) (fun e =>
    let v := e.r.vr[r.toNat]?.getD {}
    .done { out0 := some (.vector v.v), out1 := some (.vector v.v), pois := v.pois }) s

/-- 05 R103. -/
def execWriteg (r : BitVec 6) (s : State) : Host.Outcome State Fault Refusal :=
  fire (.writeg r) (fun e => effectsReply [.writeG r { v := e.a, pois := e.pois }]) s

/-- 05 R105. -/
def execWritev (r : BitVec 5) (s : State) : Host.Outcome State Fault Refusal :=
  fire (.writev r) (fun e => effectsReply [.writeV r { v := e.va, pois := e.pois }]) s

/-- 06 R119. -/
def execMov (p : Pr) (u t : Target) (s : State) : Host.Outcome State Fault Refusal :=
  fire (.mov p u t) (fun e => e.result e.left.val) s

/-- 06 R119. -/
def execNull (p : Pr) (u t : Target) (s : State) : Host.Outcome State Fault Refusal :=
  fire (.null p u t) (fun e => e.result .null) s

/-- 06 R119. -/
def execConst (p : Pr) (imm : BitVec 13) (t : Target) (s : State) : Host.Outcome State Fault Refusal :=
  fire (.const_ p imm t) (fun e => e.scalar (imm.signExtend 64)) s

/-- 06 R119. -/
def execConsth (p : Pr) (imm : BitVec 13) (t : Target) (s : State) : Host.Outcome State Fault Refusal :=
  fire (.consth p imm t) (fun e => e.scalar ((e.a <<< 13) ||| imm.setWidth 64)) s

/-- 06 R119. -/
def execPcrel (p : Pr) (imm : BitVec 13) (t : Target) (s : State) : Host.Outcome State Fault Refusal :=
  fire (.pcrel p imm t) (fun e => e.scalar (e.p.addr + (imm.signExtend 64 <<< 4))) s

/-- 06 R119: the right token to T0 or T1 by the left predicate, a null token to the other. -/
def execSel (p : Pr) (u t : Target) (s : State) : Host.Outcome State Fault Refusal :=
  fire (.sel p u t) (fun e =>
    if e.left.val == .pred true then .done { out0 := some e.right.val, out1 := some .null, pois := e.pois }
    else .done { out0 := some .null, out1 := some e.right.val, pois := e.pois }) s

/-- 06 R119. -/
def execGate (p : Pr) (u t : Target) (s : State) : Host.Outcome State Fault Refusal :=
  fire (.gate p u t) (fun e => e.result e.left.val) s

/-- 06 R119. -/
def execNop (p : Pr) (s : State) : Host.Outcome State Fault Refusal :=
  fire (.nop p) (fun _ => .done {}) s

end Sys2Proof.Machine
end

