-- ==== Sys2Proof/Machine/System.lean ====
section
/-! DEFINITION. Control registers and system instructions, opcodes 0xF0-0xF8 but RAND (05 R108-R116; 06 R132-R134). -/

namespace Sys2Proof.Machine

/-- The value of a control register at pitch start; a reserved number reads 0 (05 R102, R108-R116). -/
def Env.csr (e : Env) (num : BitVec 12) : BitVec 64 :=
  match num.toNat with
  | 0x000 => BitVec.ofNat 64 (e.r.idx % 2 ^ 24)
  | 0x001 => e.r.tag.setWidth 64
  | 0x002 => e.r.templ
  | 0x003 => e.r.ctx.setWidth 64
  | 0x004 => e.r.tileid
  | 0x005 => e.r.clusterid
  | 0x006 => e.p.snap.nclust
  | 0x007 => e.p.snap.clpres
  | 0x008 => e.p.snap.topogen
  | 0x010 => e.p.snap.ctags
  | 0x011 => e.p.snap.ctagpend
  | 0x020 => e.r.fmta.setWidth 64
  | 0x021 => e.r.scalep.setWidth 64
  | 0x022 => e.r.bandp.setWidth 64
  | 0x023 => e.r.frnd.setWidth 64
  | 0x024 => e.r.fflags.setWidth 64
  | 0x030 => e.r.rngkey
  | 0x031 => e.r.rngctr
  | 0x032 => if e.r.rngmode then 1 else 0
  | 0x033 => e.r.rngtab
  | 0x040 => e.p.snap.cycleft
  | 0x041 => e.p.snap.time
  | 0x042 => e.p.snap.wearctx
  | 0x043 => e.p.snap.tilestate
  | 0x050 => e.p.snap.poiscnt
  | _ => 0

/-- A control-register instruction: the value at pitch start, unpoisoned, and at belay the change (06 R132). A poisoned
data token marks the task control-poisoned (05 R108). -/
def Env.csrChange (e : Env) (op : CsrOp) (num : BitVec 12) : Reply :=
  .done { out0 := some (.scalar (e.csr num)), effects := [.csr op num e.a], ctl := e.left.pois }

/-- 06 R132: unpoisoned, whatever the predicate. -/
def execCsrr (p : Pr) (num : BitVec 12) (t : Target) (s : State) : Host.Outcome State Fault Refusal :=
  fire (.csrr p num t) (fun e => .done { out0 := some (.scalar (e.csr num)) }) s

/-- 06 R132. -/
def execCsrw (p : Pr) (num : BitVec 12) (t : Target) (s : State) : Host.Outcome State Fault Refusal :=
  fire (.csrw p num t) (fun e => e.csrChange .write num) s

/-- 06 R132. -/
def execCsrs (p : Pr) (num : BitVec 12) (t : Target) (s : State) : Host.Outcome State Fault Refusal :=
  fire (.csrs p num t) (fun e => e.csrChange .set num) s

/-- 06 R132. -/
def execCsrc (p : Pr) (num : BitVec 12) (t : Target) (s : State) : Host.Outcome State Fault Refusal :=
  fire (.csrc p num t) (fun e => e.csrChange .clear num) s

/-- 06 R134. -/
def execTime (p : Pr) (u t : Target) (s : State) : Host.Outcome State Fault Refusal :=
  fire (.time_ p u t) (fun e => e.scalar e.s.time) s

/-- 06 R134. -/
def execIspois (p : Pr) (u t : Target) (s : State) : Host.Outcome State Fault Refusal :=
  fire (.ispois p u t) (fun e =>
    .done { out0 := some (.pred e.left.pois), out1 := some (.pred e.left.pois) }) s

/-- 06 R134: the CRC-32C of each half of a vector. -/
def execChkl (p : Pr) (u t : Target) (s : State) : Host.Outcome State Fault Refusal :=
  fire (.chkl p u t) (fun e =>
    let bs := toBytes e.va.toNat 256
    e.scalar (BitVec.ofNat 64 (crc32c (bs.take 128) + 2 ^ 32 * crc32c (bs.drop 128)))) s

/-- 06 R134: the time now, and a mark at belay (17 R355). -/
def execPmark (p : Pr) (u t : Target) (s : State) : Host.Outcome State Fault Refusal :=
  fire (.pmark p u t) (fun e =>
    .done { out0 := some (.scalar e.s.time), out1 := some (.scalar e.s.time), pois := e.pois,
            effects := [.mark (e.a.setWidth 32) e.s.time] }) s

end Sys2Proof.Machine
end

