-- ==== Sys2Proof/Machine/Validate.lean ====
section
/-! DEFINITION. The pitch header and the validation of a fetched pitch (03 R56, R70, R74, R75). -/

namespace Sys2Proof.Machine

/-! ## The header (03 R56) -/

/-- n bits of a header from bit lo. -/
def hdrBits (h : BitVec 128) (lo n : Nat) : Nat := h.toNat / 2 ^ lo % 2 ^ n

def hdrMark (h : BitVec 128) : Nat := hdrBits h 120 8
def hdrNinst (h : BitVec 128) : Nat := hdrBits h 113 7 + 1
def hdrNlsid (h : BitVec 128) : Nat := hdrBits h 106 7
def hdrNexit (h : BitVec 128) : Nat := hdrBits h 103 3 + 1
def hdrImm (h : BitVec 128) : Bool := h.getLsbD 102
def hdrCaller (h : BitVec 128) : Bool := h.getLsbD 101
def hdrGmask (h : BitVec 128) : Nat := hdrBits h 32 64
def hdrVmask (h : BitVec 128) : Nat := hdrBits h 0 32

/-- The LSID field of a word: formats L, S and A carry one (04 R88); 0xFF for others. -/
def wordLsid (w : BitVec 32) : Nat :=
  let op := (w.extractLsb' 24 8).toNat
  if (0xA0 ≤ op && op ≤ 0xCE) || (0xD0 ≤ op && op ≤ 0xDC) || (0xE0 ≤ op && op ≤ 0xE9) then (w.extractLsb' 15 7).toNat
  else 0xFF

/-- A failed check: code, slot, and the fault-address field. -/
structure CheckFail where
  code : Nat
  slot : Nat
  addr : Nat := 0
  deriving DecidableEq, Repr

/-! ## Checks 3 and 4 -/

/-- The lowest slot whose word the decoder refuses for this reason. -/
def refusedSlot (err : DecodeError) (ws : List (BitVec 32)) : Option Nat :=
  ws.findIdx? fun w =>
    match decode w with
    | .error e => e == err
    | .ok _ => false

/-- The instructions of words that decode. -/
def decoded (ws : List (BitVec 32)) : List Instr :=
  ws.filterMap fun w =>
    match decode w with
    | .ok i => some i
    | .error _ => none

/-! ## Check 5: targets and kinds -/

/-- What a position of an instruction accepts; none when it has no such position (03 R57). -/
def Sig.accepts (g : Sig) : Pos → Option Kinds
  | .left => g.left
  | .right => g.right
  | .pred => if g.third.isSome then g.third else if g.pr == .always then none else some kP

/-- Whether an instruction sends to a position of a slot. -/
def Sig.sendsTo (g : Sig) (pos : Pos) (k : Nat) : Bool :=
  [g.t0, g.t1].any fun t =>
    match t with
    | .none => false
    | .to p s => p == pos && s.toNat == k

/-- The kinds that can arrive at a position of a slot. -/
def arriving (gs : List Sig) (ks : List Kinds) (pos : Pos) (k : Nat) : Kinds :=
  (gs.zip ks).foldl (fun a x => if x.1.sendsTo pos k then a.union x.2 else a) {}

/-- The kinds an instruction can send, given those of all. -/
def sentKinds (gs : List Sig) (ks : List Kinds) (g : Sig) (k : Nat) : Kinds :=
  match g.res with
  | .none => {}
  | .scalar => { s := true }
  | .vector => { v := true }
  | .pred => { p := true }
  | .null => { n := true }
  | .asLeft => arriving gs ks .left k
  | .asRight => (arriving gs ks .right k).union { n := true }

/-- Kinds spread through MOV, GATE and SEL, one hop a round. -/
def spreadKinds (gs : List Sig) : Nat → List Kinds → List Kinds
  | 0, ks => ks
  | n + 1, ks => spreadKinds gs n (gs.zipIdx.map fun x => sentKinds gs ks x.1 x.2)

/-- Whether a target of slot k is wrong: beyond the pitch, the own slot, no such position, a kind not accepted, or the
status of an SVC sent to anything but the left position of a WRITEG (06 R122). -/
def targetBad (is : List Instr) (k : Nat) (i : Instr) (sent : Kinds) : Target → Bool
  | .none => false
  | .to pos s =>
    match is[s.toNat]? with
    | none => true
    | some j =>
      s.toNat == k ||
        (match (sigOf j).accepts pos with
         | none => true
         | some a => !sent.sub a) ||
        (match i, j with
         | .svc _ _ _, .writeg _ => pos != .left
         | .svc _ _ _, _ => true
         | _, _ => false)

/-- The lowest slot that fails check 5. -/
def targetsFail (is : List Instr) : Option Nat :=
  let gs := is.map sigOf
  let ks := spreadKinds gs (is.length + 1) (gs.map fun _ => {})
  ((is.zip ks).zipIdx.find? fun x =>
    targetBad is x.2 x.1.1 x.1.2 (sigOf x.1.1).t0 || targetBad is x.2 x.1.1 x.1.2 (sigOf x.1.1).t1).map Prod.snd

/-! ## Checks 6 and 7: LSIDs and exits -/

/-- The lowest slot whose id is out of range or shared; 128 when only the count is wrong. -/
def idsFail (l : List (Nat × Nat)) (limit : Nat) : Option Nat :=
  match l.find? fun x => limit ≤ x.2 || l.any fun y => y.1 != x.1 && y.2 == x.2 with
  | some x => some x.1
  | none => if l.length = limit then none else some 128

/-- Slots with their ids. -/
def slotIds (is : List Instr) (f : Sig → Option Nat) : List (Nat × Nat) :=
  is.zipIdx.filterMap fun x => (f (sigOf x.1)).map fun v => (x.2, v)

/-! ## Check 8: register masks -/

/-- The mask bit of a register write: g0-g63, then v0-v31. -/
def maskBit : Instr → Option Nat
  | .writeg r => some r.toNat
  | .writev r => some (64 + r.toNat)
  | _ => none

/-- Check 8. -/
def masksFail (h : BitVec 128) (is : List Instr) : Option CheckFail :=
  let mask := hdrGmask h + 2 ^ 64 * hdrVmask h
  let bad := fun (b : Nat) => !mask.testBit b || (hdrCaller h && b == 63)
  match is.findIdx? fun i => match maskBit i with | some b => bad b | none => false with
  | some k => some { code := fcIllegalPitch, slot := k }
  | none =>
    ((List.range 96).find? fun b => mask.testBit b && !is.any fun i => maskBit i == some b).map fun b =>
      { code := fcIllegalPitch, slot := 128, addr := b }

/-! ## Checks 9 and 10 -/

/-- CALL and CALLI. -/
def isCall : Instr → Bool
  | .call_ _ _ _ => true
  | .calli _ _ => true
  | _ => false

/-- Whether a target is a register write. -/
def toWrite (is : List Instr) : Target → Bool
  | .none => true
  | .to _ s =>
    match is[s.toNat]? with
    | some i => (maskBit i).isSome
    | none => false

/-- Check 10 (03 R70). [DEDUCED, log 35] -/
def immediateFail (h : BitVec 128) (is : List Instr) : Option Nat :=
  match is.zipIdx.filter fun x => (sigOf x.1).imm with
  | [] => none
  | [x] =>
    let g := sigOf x.1
    if (g.lsid.map BitVec.toNat) == some (hdrNlsid h - 1) && toWrite is g.t0 && toWrite is g.t1 then none else some x.2
  | _ :: y :: _ => some y.2

/-! ## Validation (03 R74) -/

/-- Checks 1 and 2, on the header alone. -/
def headerFail (h : BitVec 128) : Option CheckFail :=
  if hdrMark h ≠ 0xC9 then some { code := fcIllegalPitch, slot := 128 }
  else if hdrBits h 96 5 ≠ 0 then some { code := fcIllegalEncoding, slot := 128 }
  else none

/-- Checks 5 to 10, on instructions. -/
def pitchFail (h : BitVec 128) (is : List Instr) : Option CheckFail :=
  let at_ := fun (o : Option Nat) => o.map fun k => ({ code := fcIllegalPitch, slot := k } : CheckFail)
  (at_ (targetsFail is)).or <|
    (at_ (idsFail (slotIds is fun g => g.lsid.map BitVec.toNat) (hdrNlsid h))).or <|
    (at_ (idsFail (slotIds is fun g => g.exit.map BitVec.toNat) (hdrNexit h))).or <|
    (masksFail h is).or <|
    (if hdrImm h != (is.any fun i => (sigOf i).imm) || hdrCaller h != is.any isCall
     then some { code := fcIllegalPitch, slot := 128 } else none).or <|
    (immediateFail h is).map fun k => { code := fcImmediateLimit, slot := k }

/-- Every check in its order; the first failure. -/
def validate (h : BitVec 128) (ws : List (BitVec 32)) : Option CheckFail :=
  (headerFail h).or <|
    ((refusedSlot .illegalOpcode ws).map fun k => { code := fcIllegalOpcode, slot := k }).or <|
    ((refusedSlot .illegalEncoding ws).map fun k => { code := fcIllegalEncoding, slot := k }).or <|
    pitchFail h (decoded ws)

end Sys2Proof.Machine
end

