-- ==== Sys2Proof/Machine/Fetch.lean ====
section
/-! DEFINITION. PITCH_FETCH: fetching a pitch, validating it, and firing its instructions without operand positions
(03 R53-R59, R74-R78; 18 R377). -/

namespace Sys2Proof.Machine

/-! ## Reading the bytes (03 R55, R78) -/

/-- X permission on a part. -/
def Part.noExec (p : Part) : Option FaultInfo :=
  p.onLeaf fun x => if leafX x.leaf then none else some (p.fault fcPerm 4)

/-- Only HBM4 and DDR-5 can be fetched (16 R338). -/
def Part.noFetch (s : State) (ctx : BitVec 32) (p : Part) : Option FaultInfo :=
  p.onLeaf fun x =>
    match s.resolve ctx x p.va with
    | .error c => some (p.fault fcAperture c)
    | .ok _ => if leafAper x.leaf ≤ 1 then none else some (p.fault fcAperture (8 + leafAper x.leaf))

/-- The checks of a fetch of n bytes, in the order of 10 R210: canonical, aligned, not in the local window, mapped,
executable, present. -/
def State.checkFetch (s : State) (t : Nat) (ctx : BitVec 32) (a n : Nat) : Except FaultInfo (List Bound) :=
  match spanCanon (a, n) with
  | some f => .error f
  | none =>
    if a % 16 ≠ 0 then .error { code := fcMisaligned, addr := BitVec.ofNat 64 a }
    else if isLocal a then .error { code := fcAperture, cause := 15, addr := BitVec.ofNat 64 a }
    else
      let ps := partsOf s (some t) ctx [(a, n)] 0
      match (ps.findSome? Part.notMapped).or <| (ps.findSome? Part.noExec).or (ps.findSome? (Part.noFetch s ctx)) with
      | some f => .error f
      | none => .ok (ps.map (Part.bound s t ctx))

/-- Why a fetch failed, and the slot and LSID it names. -/
structure FetchFail where
  f : FaultInfo
  slot : Nat := 128
  lsid : Nat := 0xFF
  deriving DecidableEq, Repr

/-- n bytes of pitch memory as they stood when the task started; a poisoned line is read once more, and fails (18 R377). [DEDUCED, log 7] -/
def State.fetchBytes (s : State) (t : Nat) (r : Run) (a n : Nat) : Except FetchFail (List Byte) × List Nat :=
  match s.checkFetch t r.ctx a n with
  | .error f => (.error { f := f }, [])
  | .ok bs =>
    match bs.find? fun b => s.poisonAt b.loc b.n with
    | some b => (.error { f := { code := fcCheckMismatch, addr := BitVec.ofNat 64 b.va } }, boundLines bs)
    | none => (.ok (bs.flatMap fun b => r.fetchMem.bytes b.loc b.n), boundLines bs)

/-- Instruction words from bytes. -/
def wordsFrom : List Byte → Nat → List (BitVec 32)
  | _, 0 => []
  | bs, n + 1 => BitVec.ofNat 32 (leNat (bs.take 4)) :: wordsFrom (bs.drop 4) n

/-- A failed check of validation as a failed fetch. -/
def CheckFail.fetch (ws : List (BitVec 32)) (c : CheckFail) : FetchFail :=
  { f := { code := c.code, addr := BitVec.ofNat 64 c.addr }, slot := c.slot, lsid := (ws[c.slot]?.map wordLsid).getD 0xFF }

/-- The pitch at an address, read and validated; and the lines read. [DEDUCED, log 33] -/
def State.fetchPitch (s : State) (t : Nat) (r : Run) (a : Nat) :
    Except FetchFail (BitVec 128 × List (BitVec 32)) × List Nat :=
  match s.fetchBytes t r a 16 with
  | (.error f, ls) => (.error f, ls)
  | (.ok hb, ls) =>
    let h := BitVec.ofNat 128 (leNat hb)
    match headerFail h with
    | some c => (.error (c.fetch []), ls)
    | none =>
      match s.fetchBytes t r (wrap64 (a + 16)) (4 * hdrNinst h) with
      | (.error f, ls') => (.error f, ls ++ ls')
      | (.ok wb, ls') =>
        let ws := wordsFrom wb (hdrNinst h)
        match validate h ws with
        | some c => (.error (c.fetch ws), ls ++ ls')
        | none => (.ok (h, ws), ls ++ ls')

/-! ## The window -/

/-- A fetched pitch with nothing fired. -/
def freshPitch (a : BitVec 64) (h : BitVec 128) (ws : List (BitVec 32)) (snap : CsrSnap) : Pitch :=
  { addr := a, hdr := h, words := ws, slots := ws.map fun _ => {}, snap := snap }

/-- The state an outcome gives; a stop leaves the state as it was. -/
def outcomeOr (s : State) : Host.Outcome State Fault Refusal → State
  | .next t => t
  | .fault _ => s
  | .refused _ => s

/-- Fire an instruction that has no operand positions; others wait for tokens (03 R59). -/
def fireFirst (s : State) : Instr → State
  | .illegal p => outcomeOr s (execIllegal p s)
  | .readg r u t => outcomeOr s (execReadg r u t s)
  | .readv r u t => outcomeOr s (execReadv r u t s)
  | .null p u t => outcomeOr s (execNull p u t s)
  | .const_ p i t => outcomeOr s (execConst p i t s)
  | .pcrel p i t => outcomeOr s (execPcrel p i t s)
  | .nop p => outcomeOr s (execNop p s)
  | .br p x o => outcomeOr s (execBr p x o s)
  | .call_ p x o => outcomeOr s (execCall p x o s)
  | .done_ p x => outcomeOr s (execDone p x s)
  | .abort p x => outcomeOr s (execAbort p x s)
  | .trap p i => outcomeOr s (execTrap p i s)
  | .break_ p i => outcomeOr s (execBreak p i s)
  | .vrand p x u t => outcomeOr s (execVrand p x u t s)
  | .fence p l x => outcomeOr s (execFence p l x s)
  | .spop p l q t => outcomeOr s (execSpop p l q t s)
  | .speek p l q t => outcomeOr s (execSpeek p l q t s)
  | .seos p l m q => outcomeOr s (execSeos p l m q s)
  | .sstat p l m q t => outcomeOr s (execSstat p l m q t s)
  | .bswap p l a b => outcomeOr s (execBswap p l a b s)
  | .bclr p l a => outcomeOr s (execBclr p l a s)
  | .accz p l a => outcomeOr s (execAccz p l a s)
  | .msync p l t => outcomeOr s (execMsync p l t s)
  | .csrr p n t => outcomeOr s (execCsrr p n t s)
  | .rand p u t => outcomeOr s (execRand p u t s)
  | _ => s

/-- Examine slot k of the pitch of the focused tile. -/
def State.fireSlot (s : State) (k : Nat) (w : BitVec 32) : State :=
  match decode w with
  | .error _ => s
  | .ok i => fireFirst (s.modRun s.focus fun r => { r with pitch := r.pitch.map fun p => { p with cursor := k } }) i

/-- Examine the slots from k on. -/
def State.fireSlots (s : State) : Nat → List (BitVec 32) → State
  | _, [] => s
  | k, w :: ws => State.fireSlots (s.fireSlot k w) (k + 1) ws

/-- A pitch begins: the values of its start are kept, and the instructions without operand positions fire. -/
def State.beginPitch (s : State) (t : Nat) (p : Pitch) : State :=
  match s.run? t with
  | none => s
  | some r =>
    let s1 := { s.setRun t { r with phase := .fire, pitch := some { p with snap := s.csrSnap t r } } with focus := t }
    let s2 := s1.fireSlots 0 p.words
    { s2.modRun t fun r => { r with pitch := r.pitch.map fun p => { p with cursor := 0, idle := [] } } with focus := s.focus }

/-- The record of a failed fetch: the pitch is the target, EXIT and PRIOR name the exit that led to it (13 R277; 03 R75,
R78). -/
def Run.fetchSpec (r : Run) (f : FetchFail) : RecSpec :=
  { r.recSpec f.f with
    pitch := r.next, slot := f.slot, lsid := f.lsid
    exit := match r.prior with | some x => x.2 | none => 0xFF
    prior := r.prior.map Prod.fst }

/-- The next pitch of a tile's task is fetched and validated, or the task stalls (03 R53, R74, R78). -/
def State.fetchNext (s : State) (t : Nat) (r : Run) : State :=
  let x := s.fetchPitch t r r.next.toNat
  let s := s.readLines r.ctx x.2
  match x.1 with
  | .error f => (s.verifyWalk (some (tileDie t)) r.ctx f.f).takeFault t (r.fetchSpec f) .fetch false
  | .ok (h, ws) => s.beginPitch t (freshPitch r.next h ws {})

/-- PITCH_FETCH (03 R74): a task whose next pitch has not begun, its watchdog not to be taken first (03 R73). -/
def execPitchFetch (tile : Nat) (s : State) : Host.Outcome State Fault Refusal :=
  match s.run? tile with
  | none => .next s
  | some r =>
    if r.phase = .fetch && !r.dogBefore s.cycle && !s.migrating r.ctx r.next.toNat then .next (s.fetchNext tile r) else .next s

end Sys2Proof.Machine
end

