-- ==== Sys2Proof/Machine/GraphOps.lean ====
section
/-! DEFINITION. Graph, mailbox and rope instructions, opcodes 0xE0-0xE9 (13 R286-R289; 15 R325-R329). DEC, SPAWN, SEND,
BIND and UNBIND join the commit set; the rope instructions act at belay, as the immediate-class access, or at once. -/

namespace Sys2Proof.Machine

/-- Records of the task's template. -/
def Env.nrec (e : Env) : Nat :=
  match e.s.inst? e.r.inst with
  | some i => i.nrec
  | none => 0

/-! ## Successor entries and launch entries (13 R275; 15 R322) -/

def sucScope (w : BitVec 32) : Nat := (w.extractLsb' 30 2).toNat
def sucAmt (w : BitVec 32) : Nat := (w.extractLsb' 24 6).toNat
def sucTarget (w : BitVec 32) : Nat := (w.extractLsb' 0 24).toNat

/-- Fields of a launch entry of 32 bytes. -/
def leTempl (x : BitVec 256) : BitVec 64 := x.extractLsb' 0 64
def leRename (x : BitVec 256) : BitVec 64 := x.extractLsb' 64 64
def leTag (x : BitVec 256) : BitVec 32 := x.extractLsb' 128 32
def lePrio (x : BitVec 256) : Nat := (x.extractLsb' 160 3).toNat
def leCont (x : BitVec 256) : BitVec 32 := x.extractLsb' 192 32
def leCv (x : BitVec 256) : Bool := x.getLsbD 224

/-- The zero fields of a launch entry are zero. -/
def leZeros (x : BitVec 256) : Bool := x.extractLsb' 163 29 == 0 && x.extractLsb' 225 31 == 0

/-- A RENAME that is a table address: 0 or a multiple of 8. -/
def renameOk (a : BitVec 64) : Bool := a.toNat % 8 == 0

/-- The checks of DEC: ILLEGAL_ENCODING (15 R325). -/
def Env.decBad (e : Env) (l r : BitVec 64) : Bool :=
  let w := l.setWidth 32
  sucAmt w = 0 || l.extractLsb' 32 32 != 0 || (sucScope w != 3 && r != 0) ||
    (sucScope w ≤ 1 && e.nrec ≤ sucTarget w)

/-- 15 R325. -/
def execDec (p : Pr) (lsid : BitVec 7) (s : State) : Host.Outcome State Fault Refusal :=
  fire (.dec p lsid) (fun e =>
    if e.decBad e.a e.b then faultOf fcIllegalEncoding
    else if e.b.toNat % 256 != 0 then faultOf fcMisaligned e.b
    else effectsReply [e.entry (.dec p lsid) (.dec (e.a.setWidth 32) e.b) e.b e.pois 0]) s

/-- 15 R325. -/
def execSpawn (p : Pr) (lsid : BitVec 7) (s : State) : Host.Outcome State Fault Refusal :=
  fire (.spawn p lsid) (fun e =>
    let x : BitVec 256 := e.va.setWidth 256
    if !leZeros x then faultOf fcIllegalEncoding
    else if (leTempl x).toNat % 256 != 0 then faultOf fcMisaligned (leTempl x)
    else if leRename x != 1 && !renameOk (leRename x) then faultOf fcMisaligned (leRename x)
    else effectsReply [e.entry (.spawn p lsid) (.spawn x) 0 e.pois 0]) s

/-! ## Mailboxes (13 R286-R287) -/

/-- Fields of a send control word. -/
def scMbox (w : BitVec 64) : Nat := bitsAt w 0 8
def scPkg (w : BitVec 64) : Nat := bitsAt w 9 10
def scXctx (w : BitVec 64) : Bool := w.getLsbD 19
def scCtx (w : BitVec 64) : BitVec 32 := BitVec.ofNat 32 (bitsAt w 20 32)

/-- The check of a send control word. -/
def Env.sendBad (e : Env) (w : BitVec 64) : Bool :=
  bitsAt w 52 12 != 0 || (!scRemote w && scPkg w != 0) || (!scXctx w && scCtx w != 0) || (scXctx w && e.ctx != 0) ||
    (scRemote w && scPkg w == e.s.pkg.id.toNat)

/-- Fields of a bind control word. -/
def bcMbox (w : BitVec 64) : Nat := bitsAt w 0 8
def bcHm1 (w : BitVec 64) : Nat := bitsAt w 8 8
def bcHrec (w : BitVec 64) : Nat := bitsAt w 16 24
def bcPrio (w : BitVec 64) : Nat := bitsAt w 40 3

/-- 13 R286. -/
def execSend (p : Pr) (lsid : BitVec 7) (s : State) : Host.Outcome State Fault Refusal :=
  fire (.send p lsid) (fun e =>
    if e.sendBad e.b then faultOf fcIllegalEncoding
    else effectsReply [e.entry (.send p lsid) (.send (e.va.setWidth 512) e.b) 0 e.pois 0]) s

/-- 13 R286. -/
def execBind (p : Pr) (lsid : BitVec 7) (s : State) : Host.Outcome State Fault Refusal :=
  fire (.bind_ p lsid) (fun e =>
    if bitsAt e.b 43 21 != 0 then faultOf fcIllegalEncoding
    else if e.a.toNat % 256 != 0 then faultOf fcMisaligned e.a
    else effectsReply [e.entry (.bind_ p lsid) (.bind e.a e.b) 0 e.pois 0]) s

/-- 13 R286. -/
def execUnbind (p : Pr) (lsid : BitVec 7) (s : State) : Host.Outcome State Fault Refusal :=
  fire (.unbind p lsid) (fun e =>
    if bitsAt e.a 8 56 != 0 then faultOf fcIllegalEncoding
    else effectsReply [e.entry (.unbind p lsid) (.unbind (e.a.setWidth 8)) 0 e.pois 0]) s

/-! ## Ropes (15 R326-R329) -/

def State.rope? (s : State) (ctx key : BitVec 32) : Option Rope := s.ropes.find? fun x => x.key == key && x.ctx == ctx

/-- The record a member word names, or none for a faulty word (15 R327). -/
def Env.member (e : Env) (w : BitVec 64) : Option Nat :=
  let i := bitsAt w 0 24
  if bitsAt w 25 39 != 0 then none
  else if w.getLsbD 24 then (if i = 0 then some e.r.idx else none)
  else if i < e.nrec then some i else none

/-- A rope key of 32 bits. -/
def keyOk (w : BitVec 64) : Bool := bitsAt w 32 32 == 0

/-- A returning rope operation: immediate-class; a twin may not become irrevocable (15 R327; 18 R381). [DEDUCED, log 21] -/
def Env.ropeImm (e : Env) (i : Instr) (op : ImmOp) : Reply :=
  if e.r.twin.isSome then faultOf fcImmediateLimit
  else
    .done { out0 := some (.scalar 0), ctl := e.pois,
            imm := some { slot := e.k, lsid := ((sigOf i).lsid.getD 0).toNat, op := op, va := 0, loc := 0, local_ := false,
                          resPois := e.pois, targets := [(sigOf i).t0], opcode := e.opcode } }

/-- 15 R328. -/
def execRopejoin (p : Pr) (lsid : BitVec 7) (t : Target) (s : State) : Host.Outcome State Fault Refusal :=
  fire (.ropejoin p lsid t) (fun e =>
    match e.member e.b with
    | none => faultOf fcIllegalEncoding
    | some i =>
      if keyOk e.a then e.ropeImm (.ropejoin p lsid t) (.ropeJoin (e.a.setWidth 32) i) else faultOf fcIllegalEncoding) s

/-- 15 R328, R329. -/
def execRopeleave (p : Pr) (lsid : BitVec 7) (s : State) : Host.Outcome State Fault Refusal :=
  fire (.ropeleave p lsid) (fun e =>
    match e.member e.b with
    | none => faultOf fcIllegalEncoding
    | some i =>
      if keyOk e.a then .done { effects := [.ropeLeave (e.a.setWidth 32) i], ctl := e.pois } else faultOf fcIllegalEncoding) s

/-- 15 R328, R329. -/
def execRopearr (p : Pr) (lsid : BitVec 7) (s : State) : Host.Outcome State Fault Refusal :=
  fire (.ropearr p lsid) (fun e =>
    if keyOk e.a then .done { effects := [.ropeArr (e.a.setWidth 32)], ctl := e.pois } else faultOf fcIllegalEncoding) s

/-- 15 R328. -/
def execRopewait (p : Pr) (lsid : BitVec 7) (t : Target) (s : State) : Host.Outcome State Fault Refusal :=
  fire (.ropewait p lsid t) (fun e =>
    if keyOk e.a then e.ropeImm (.ropewait p lsid t) (.ropeWait (e.a.setWidth 32)) else faultOf fcIllegalEncoding) s

/-- 15 R328. -/
def execRopesz (p : Pr) (lsid : BitVec 7) (t : Target) (s : State) : Host.Outcome State Fault Refusal :=
  fire (.ropesz p lsid t) (fun e =>
    if keyOk e.a then
      let v : BitVec 64 :=
        match e.s.rope? e.ctx (e.a.setWidth 32) with
        | some x => BitVec.ofNat 64 (x.members.length + 2 ^ 32 * x.phase.toNat)
        | none => 0
      .done { out0 := some (.scalar v), pois := e.pois, ctl := e.pois }
    else faultOf fcIllegalEncoding) s

end Sys2Proof.Machine
end

