-- ==== Sys2Proof/Machine/Recovery.lean ====
section
/-! DEFINITION. The ends of runs and records: rollback, abandoning, killing and retiring, and the scratchpad resets that
go with them (09 R188-R191; 14 R292, R293, R301; 15 R318, R321, R326; 18 R376, R438). -/

namespace Sys2Proof.Machine

/-! ## Scratchpad lines (09 R189-R191) -/

/-- Whether a line is one of a tile's scratchpad. -/
def isPadLine (t key : Nat) : Bool := locSpace (key * 128) == spPad && locCtx (key * 128) == t

/-- A line reset: data, full bit and poison zero. -/
def State.resetLine (s : State) (key : Nat) : State :=
  { s with mem := s.mem.writes (key * 128) (List.replicate 128 0) }.setLine key {}

def State.resetLines (s : State) : List Nat → State
  | [] => s
  | k :: rest => State.resetLines (s.resetLine k) rest

/-- Lines of a tile written by the running task. -/
def State.writtenLines (s : State) (t : Nat) : List Nat :=
  (s.lines.filter fun x => isPadLine t x.1 && x.2.wr).map Prod.fst

/-- Lines of a tile with something to tell of the running task. -/
def State.touchedLines (s : State) (t : Nat) : List Nat :=
  (s.lines.filter fun x => isPadLine t x.1 && (x.2.wr || x.2.rd)).map Prod.fst

def State.untouch (s : State) : List Nat → State
  | [] => s
  | k :: rest => State.untouch (s.modLine k fun m => { m with wr := false, rd := false }) rest

/-- WR is cleared in every line of a tile (09 R190). -/
def State.clearWr (s : State) (t : Nat) : State := s.untouch (s.touchedLines t)

/-- Every line of a tile reset (09 R191). -/
def State.resetPad (s : State) (t : Nat) : State :=
  { s with
    mem := { cells := s.mem.cells.filter fun c => !(locSpace c.1 == spPad && locCtx c.1 == t) }
    lines := s.lines.filter fun x => !isPadLine t x.1 }

/-- A tile turns to another context: its lines, arrays and accumulators are cleared (05 R106, R107; 08 R157; 09 R191). [DESIGN CHOICE, log 27] -/
def State.turnTile (s : State) (t : Nat) (ctx : BitVec 32) : State :=
  if (s.tile t).lastCtx == some ctx then s
  else
    (s.resetPad t).modTile t fun v =>
      { v with lastCtx := some ctx, acc := [], arrays := v.arrays.map fun w => { w with valid := false } }

/-! ## Retry lists and claims (09 R199; 10 R226-R228) -/

/-- The entries of a tile leave the retry lists. -/
def State.dropRetry (s : State) (t : Nat) : State :=
  { s with fab := { s.fab with retry := s.fab.retry.filter fun e => e.tile != t || e.remote.isSome } }

/-- The claims of a run are released. -/
def State.unclaim (s : State) : List Claim → State
  | [] => s
  | c :: rest => State.unclaim (if c.granted then s.modLine (lineKey c.loc) fun m => { m with claimed := false } else s) rest

/-! ## Streams (11 R255, R256) -/

/-- The packets a run removed go back to the head of their ports. -/
def State.restoreStreams (s : State) (r : Run) : State :=
  { s with fab := { s.fab with inPorts := s.fab.inPorts.map fun p =>
      if p.inst == r.inst && p.idx == r.idx then { p with queue := p.kept ++ p.queue, kept := [] } else p } }

/-- The packets a run removed are let go (11 R256). -/
def State.releaseStreams (s : State) (r : Run) : State :=
  { s with fab := { s.fab with inPorts := s.fab.inPorts.map fun p =>
      if p.inst == r.inst && p.idx == r.idx then { p with kept := [] } else p } }

/-! ## Rolling back one run (18 R376) -/

/-- Whether an await belongs to a run or to one of its copies. -/
def Await.ofRun (t : Option Nat) (copies : List Nat) (w : Await) : Bool :=
  match w.of with
  | .task k => some k == t
  | .copy c => copies.contains c
  | .unplaceable _ _ => false

/-- Records that awaited a RESUME of a tile's run or its copies are superseded (18 R372). -/
def State.supersede (s : State) (ctx : BitVec 32) (t : Option Nat) (copies : List Nat) : State :=
  s.modCtx ctx fun c => { c with await := c.await.filter fun w => !w.ofRun t copies }

/-- The arrays a rolled-back run makes invalid: those its issued BLOAD, BSWAP and BCLR named, a conditional load that
found a match apart (08 R157). -/
def Tile.spoiled (v : Tile) (r : Run) : List Nat := r.named ++ v.jobs.flatMap MatJob.changes

/-- The tile without its run: jobs cancelled, spoiled arrays invalid. -/
def Tile.dropRun (v : Tile) (r : Run) : Tile :=
  { v with
    run := none
    jobs := []
    arrays := v.arrays.zipIdx.map fun x => if (v.spoiled r).contains x.2 then { x.1 with valid := false } else x.1
    discards := v.discards + if r.firing then 1 else 0 }

/-- Whether an invalidation is the service of a tile. -/
def Invalidation.isFor (v : Invalidation) (t : Nat) : Bool :=
  match v.owner with
  | .svc k => k == t
  | .migrate k _ _ _ => k == t
  | .host _ _ => false

/-- A contribution that is a line of one of some copies (11 R239, R246). -/
def Contribution.isOf (c : Contribution) (ids : List Nat) : Bool :=
  match c.op with
  | .line _ _ _ copy _ => ids.contains copy
  | .redo _ => false
  | .drawm _ _ => false

/-- The run of a tile is undone; what R376 lists as surviving survives. -/
def State.undoRun (s : State) (t : Nat) (r : Run) : State :=
  let ids := (s.copiesOf t r).map Copy.id
  let s := ((s.unclaim r.claims).dropRetry t).restoreStreams r
  let s := (s.supersede r.ctx (some t) ids).resetLines (s.writtenLines t)
  let s := (s.clearWr t).modTile t fun v => v.dropRun r
  { s with
    fab := { s.fab with
      copies := s.fab.copies.filter fun c => !ids.contains c.id
      arriving := s.fab.arriving.filter fun c => !c.isOf ids
      held := s.fab.held.filter fun c => !c.isOf ids
      ropeArr := s.fab.ropeArr.map fun a => if a.tile == t then { a with live := false } else a }
    pkg := { s.pkg with invs := s.pkg.invs.filter fun v => !v.isFor t } }

/-! ## Placed entries (13 R290; 14 R301) -/

/-- The prefetch copies of a placed entry. -/
def State.prefetchesOf (s : State) (t : Nat) (p : Placed) : List Copy :=
  s.fab.copies.filter fun c =>
    c.tile == t && c.inst == p.inst && c.idx == p.idx && c.twin == p.twin && c.desc.kind == .prefetch

/-- The lines a prefetch has landed in. -/
def Copy.landed (c : Copy) (t : Nat) : List Nat :=
  ((List.range c.prog) ++ c.above).map fun n => lineKey (padLoc t ((c.desc.dst + c.desc.dstOff n).toNat % 2 ^ 20))

/-- An entry leaves the placed queue: its prefetches are cancelled, their landings undone, their records superseded. -/
def State.dropPlaced (s : State) (t : Nat) (p : Placed) : State :=
  let cs := s.prefetchesOf t p
  let ids := cs.map Copy.id
  let s := (s.resetLines (cs.flatMap fun c => c.landed t)).supersede p.ctx none ids
  let s := s.modTile t fun v =>
    { v with queue := v.queue.filter fun q => !(q.inst == p.inst && q.idx == p.idx && q.twin == p.twin) }
  { s with fab := { s.fab with copies := s.fab.copies.filter fun c => !ids.contains c.id } }

/-- A record enters PENDING again: its wait begins anew (14 R293, R305). -/
def State.pendAgain (s : State) (inst idx : Nat) : State :=
  s.modRec inst idx fun x => { x with st := .pending, since := s.cycle, blocked := none, held := false }

/-! ## Every run of a task -/

/-- The runs of a record: one, or those of twins. -/
def State.runsOf (s : State) (inst idx : Nat) : List (Nat × Run) :=
  s.running.filter fun x => x.2.inst == inst && x.2.idx == idx

def State.undoRuns (s : State) : List (Nat × Run) → State
  | [] => s
  | x :: rest => State.undoRuns (s.undoRun x.1 x.2) rest

/-- The placed entries of a record. -/
def State.placesOf (s : State) (inst idx : Nat) : List (Nat × Placed) :=
  s.tiles.flatMap fun x => (x.2.queue.filter fun p => p.inst == inst && p.idx == idx).map fun p => (x.1, p)

/-- An entry removed from a tile's queue: its task goes back to PENDING, unless a twin of it stands elsewhere (13 R290). -/
def State.unplaceOne (s : State) (t : Nat) (p : Placed) : State :=
  let s := s.dropPlaced t p
  if (s.runsOf p.inst p.idx).isEmpty && (s.placesOf p.inst p.idx).isEmpty then s.pendAgain p.inst p.idx else s

/-- Entries removed from a tile's queue (13 R290). -/
def State.unplaceAll (s : State) (t : Nat) : List Placed → State
  | [] => s
  | p :: rest => State.unplaceAll (s.unplaceOne t p) t rest

/-- The placed queue of a tile is emptied (13 R290). -/
def State.emptyQueue (s : State) (t : Nat) : State := s.unplaceAll t (s.tile t).queue

def State.dropPlaces (s : State) : List (Nat × Placed) → State
  | [] => s
  | x :: rest => State.dropPlaces (s.dropPlaced x.1 x.2) rest

/-- ROLLBACK of a task: every run and every placed entry of its record (18 R376, R381). -/
def State.rollback (s : State) (inst idx : Nat) : State :=
  (s.undoRuns (s.runsOf inst idx)).dropPlaces ((s.undoRuns (s.runsOf inst idx)).placesOf inst idx)

/-! ## Counts and repeat counts -/

/-- Change the quiescence counts of a context on a die (14 R311). -/
def State.tally (s : State) (ctx : BitVec 32) (die : Nat) (f : Counts → Counts) : State :=
  s.modCtx ctx fun c => { c with counts := c.counts.modify die f }

/-- Why a run ended, for the repeat counts (18 R438). -/
inductive RunEnd where
  | dog | refusal | vote | other
  deriving DecidableEq, Repr

/-- The repeat counts after a run ended. -/
def Rec.repeated (x : Rec) (e : RunEnd) : Rec :=
  { x with
    dogs := if e = .dog then x.dogs + 1 else 0
    refusals := if e = .refusal then x.refusals + 1 else 0
    votes := if e = .vote then x.votes + 1 else 0 }

/-- A task is abandoned: rolled back, and PENDING again at once (14 R293). -/
def State.abandonTask (s : State) (inst idx : Nat) (e : RunEnd) : State :=
  ((s.rollback inst idx).modRec inst idx fun x => { x.repeated e with third := false }).pendAgain inst idx

/-! ## The end of a record (15 R318, R326) -/

/-- A member's arrivals are beyond a phase: A > PHASE, for counters that wrap at their width (15 R326; 17 R350).
[DEDUCED, log 111] -/
def Member.beyond (m : Member) (phase : BitVec 32) : Bool := m.a != phase && decide ((m.a - phase).toNat < 2 ^ 31)

/-- Advance a rope while every member has arrived beyond its phase; fuel bounds the phases. -/
def Rope.advance (x : Rope) : Nat → Rope
  | 0 => x
  | n + 1 =>
    if !x.members.isEmpty && x.members.all fun m => m.beyond x.phase then
      Rope.advance { x with phase := x.phase + 1 } n
    else x

/-- Complete every phase that can be completed (15 R326). -/
def Rope.complete (x : Rope) : Rope := x.advance ((x.members.map fun m => (m.a - x.phase).toNat).sum + 1)

/-- A record leaves every rope it belongs to; an empty rope dissolves. -/
def State.leaveRopes (s : State) (inst idx : Nat) : State :=
  { s with ropes := (s.ropes.map fun x =>
      if x.members.any fun m => m.inst == inst && m.idx == idx then
        ({ x with members := x.members.filter fun m => !(m.inst == inst && m.idx == idx) } : Rope).complete
      else x).filter fun x => !x.members.isEmpty }

/-- Records that end: RETIRED, KILLED. -/
def RecSt.final : RecSt → Bool
  | .killed => true
  | .retired => true
  | _ => false

/-- An instance whose every record has ended is no longer live: it leaves its place under K, and its handler's place in
its mailbox (13 R283; 15 R318); the bindings of its stream input ports end with it (11 R249; 13 R291) [DESIGN CHOICE, log 122]. -/
def State.reapInst (s : State) (inst : Nat) : State :=
  match s.inst? inst with
  | none => s
  | some i =>
    if i.recs.all fun x => x.st.final then
      let s := { s with insts := s.insts.filter fun j => j.id != inst, fab := { s.fab with
        inPorts := s.fab.inPorts.filter fun p => p.inst != inst } }
      match i.mbox with
      | none => s
      | some m => s.modCtx i.ctx fun c => c.modMbox m fun b => { b with live := b.live - 1 }
    else s

/-- The home die of an instance. -/
def State.dieOf (s : State) (inst : Nat) : Nat :=
  match s.inst? inst with
  | some i => i.die
  | none => 0

/-- A record ends: its slot is freed and its generation advances; one that entered PENDING counts as retired. -/
def State.endRecord (s : State) (inst idx : Nat) (st : RecSt) (counted : Bool) : State :=
  match s.inst? inst with
  | none => s
  | some i =>
    let s := s.modRec inst idx fun x => { x.repeated .other with st := st, gen := x.gen + 1, spilled := false, third := false }
    let s := if counted then s.tally i.ctx i.die fun c => { c with retired := c.retired + 1 } else s
    (s.leaveRopes inst idx).reapInst inst

/-! ## Graph memory (15 R321) -/

/-- Record slots a context uses in the graph memory of a die. -/
def State.graphUse (s : State) (ctx : BitVec 32) (die : Nat) : Nat :=
  ((s.insts.filter fun i => i.ctx == ctx && i.die == die).map fun i =>
    (i.recs.filter fun x => !x.spilled && !x.st.final).length).sum

/-- Record slots in use in the graph memory of a die, and those it has (01 R14, R19). -/
def State.graphSlots (s : State) (die : Nat) : Nat := (s.ctxs.map fun c => s.graphUse c.id die).sum

def dieGraphSlots : Nat := 131072

/-- The oldest WAITING record of a context in the graph memory of a die, in creation order. -/
def State.spillable (s : State) (ctx : BitVec 32) (die : Nat) : Option (Nat × Nat) :=
  (s.insts.filter fun i => i.ctx == ctx && i.die == die).findSome? fun i =>
    (i.recs.findIdx? fun x => x.st == .waiting && !x.spilled && x.counter != 0).map fun k => (i.id, k)

/-- Larder bytes that spilling one record of an instance would take. -/
def Inst.spillCost (i : Inst) : Nat :=
  64 + if i.recs.any fun x => x.spilled then 0 else up64 (8 * i.rename.length)

/-- Spill the oldest record; none when there is none or the larder has no room. -/
def State.spillOne (s : State) (ctx : BitVec 32) (die : Nat) : Option State :=
  if s.pkg.change.isSome then none else
  match s.spillable ctx die, s.ctx? ctx with
  | some (inst, idx), some c =>
    match s.inst? inst with
    | none => none
    | some i =>
      if s.larderRoom c i.spillCost then
        some ((s.modRec inst idx fun x => { x with spilled := true }).count i.die fun d => { d with spill := d.spill + 1 })
      else none
  | _, _ => none

/-- Spill until the quota is kept and the die's slots suffice; none when that cannot be done. [DESIGN CHOICE, log 107] -/
def State.makeRoom (s : State) (ctx : BitVec 32) (die : Nat) : Nat → Option State
  | 0 => none
  | fuel + 1 =>
    match s.ctx? ctx with
    | none => none
    | some c =>
      if s.graphUse ctx die ≤ c.gquota ∧ s.graphSlots die ≤ dieGraphSlots then some s
      else
        match s.spillOne ctx die with
        | none => none
        | some s => State.makeRoom s ctx die fuel

/-- The quota of a context on a die kept by spilling (15 R321). -/
def State.room (s : State) (ctx : BitVec 32) (die : Nat) : Option State := s.makeRoom ctx die (s.graphUse ctx die + 1)

/-- The words of a record, read again from the template image; those held before where it cannot be read (15 R314). -/
def State.recWords (s : State) (ctx : BitVec 32) (templ : BitVec 64) (idx : Nat) : Except FaultInfo (List (BitVec 64)) :=
  s.devWords ctx (recordVa templ idx).toNat 32

/-- RECORD_RELOAD: a spilled record is brought back into graph memory, its bytes read again from the image, and others
spilled for it (14 R293; 15 R321). Its own place in the larder is free first. -/
def State.reload (s : State) (inst idx : Nat) : Option State :=
  match s.inst? inst with
  | none => none
  | some i =>
    match i.recs[idx]? with
    | none => none
    | some x =>
      if x.spilled then
        if s.pkg.change.isSome then none else
        let ws := match s.recWords i.ctx i.templ idx with
          | .ok ws => ws
          | .error _ => x.words
        (((s.verifyWords i.ctx (recordVa i.templ idx).toNat 32).modRec inst idx fun x => { x with spilled := false, st := .pending, words := ws }).room i.ctx i.die).map fun s =>
          s.count i.die fun d => { d with reload := d.reload + 1 }
      else some s

/-- A record whose counter is zero becomes PENDING, brought back first; one that cannot be brought back stays WAITING with
counter zero until there is room. -/
def State.toPending (s : State) (inst idx : Nat) : State :=
  match s.reload inst idx, s.inst? inst with
  | some s, some i =>
    (s.modRec inst idx fun x => { x with st := .pending, since := s.cycle }).tally i.ctx i.die fun c =>
      { c with created := c.created + 1 }
  | _, _ => s

/-- A spilled record whose counter is zero and that waits for room. -/
def State.stuckRecord (s : State) : Option (Nat × Nat) :=
  s.insts.findSome? fun i =>
    (i.recs.findIdx? fun x => x.st == .waiting && x.spilled && x.counter == 0).map fun k => (i.id, k)

/-- Records that waited for room are brought back when there is some (14 R293). -/
def State.reloadStuck (s : State) : Nat → State
  | 0 => s
  | n + 1 =>
    match s.stuckRecord with
    | none => s
    | some x => State.reloadStuck (s.toPending x.1 x.2) n

/-! ## KILL -/

/-- A task is killed: rolled back, its decrements withheld (18 R373). -/
def State.killTask (s : State) (inst idx : Nat) : State :=
  match s.rec? inst idx with
  | none => s
  | some x => ((s.rollback inst idx).endRecord inst idx .killed (x.st != .waiting)).reloadStuck s.insts.length

/-! ## Scratchpad, arrays and jobs at a handover -/

/-- The end of a run at the handover: WR clears, streams let go, the tile is free (03 R79; 09 R190; 11 R256). -/
def State.freeTile (s : State) (t : Nat) (r : Run) : State :=
  let s := (s.clearWr t).releaseStreams r
  let s := s.modTile t fun v => { v with run := none, jobs := [] }
  { s with fab := { s.fab with
      copies := s.fab.copies.filter fun c => !(c.tile == t && c.inst == r.inst && c.idx == r.idx && c.desc.kind != .prefetch)
      ropeArr := s.fab.ropeArr.map fun a => if a.tile == t then { a with live := false } else a } }

end Sys2Proof.Machine
end

