-- ==== Sys2Proof/Machine/Perform.lean ====
section
/-! DEFINITION. What banks do: synchronised accesses, atomics, CAS, reductions, claims and the retry lists (09 R198-R200;
10 R216-R227, R232). -/

namespace Sys2Proof.Machine

/-! ## The F bit as an access sees it (10 R216, R227) -/

/-- A claimed line counts as full for FILL, PRODUCE and claims, and as empty for READFULL, CONSUME and PEEK. -/
def LineMeta.fullFor (m : LineMeta) : SyncMode → Bool
  | .fill => m.full || m.claimed
  | .produce => m.full || m.claimed
  | .clear => m.full || m.claimed
  | .readfull => m.full && !m.claimed
  | .consume => m.full && !m.claimed
  | .peek => m.full && !m.claimed

/-- The condition of a mode. -/
def LineMeta.allows (m : LineMeta) (x : SyncMode) : Bool :=
  match x with
  | .readfull => m.fullFor .readfull
  | .consume => m.fullFor .consume
  | .produce => !m.fullFor .produce
  | .peek => true
  | .fill => true
  | .clear => true

/-- F after a mode has been performed; none when it stays. -/
def SyncMode.after : SyncMode → Option Bool
  | .readfull => none
  | .peek => none
  | .consume => some false
  | .clear => some false
  | .fill => some true
  | .produce => some true

def SyncMode.writes : SyncMode → Bool
  | .fill => true
  | .produce => true
  | .readfull => false
  | .consume => false
  | .peek => false
  | .clear => false

def SyncMode.returns : SyncMode → Bool
  | .readfull => true
  | .consume => true
  | .peek => true
  | .fill => false
  | .produce => false
  | .clear => false

/-! ## Combining (10 R219, R221, R224) -/

/-- An integer of n bits combined. -/
def combineInt (op : RedOp) (uns : Bool) (n old v : Nat) : Nat :=
  let lt := fun (a b : Nat) => if uns then a < b else (BitVec.ofNat n a).toInt < (BitVec.ofNat n b).toInt
  match op with
  | .add => (old + v) % 2 ^ n
  | .swap => v
  | .and => old &&& v
  | .or => old ||| v
  | .xor => old ^^^ v
  | .min => if lt v old then v else old
  | .max => if lt old v then v else old

/-- One lane of a type combined, rounded to nearest even. -/
def combineLane (op : RedOp) (ty : ElemType) (old v : Nat) : Nat :=
  match op with
  | .add => (laneAdd ty .rne old v).1
  | .swap => v
  | .and => old &&& v
  | .or => old ||| v
  | .xor => old ^^^ v
  | .min => laneMinMax false ty old v
  | .max => laneMinMax true ty old v

/-- A line combined lane by lane. -/
def combineLine (op : RedOp) (ty : ElemType) (old v : Nat) : Nat :=
  let n := 1024 / tyWidth ty
  joinLanes (tyWidth ty) (List.zipWith (combineLane op ty) (splitLanes (tyWidth ty) n old) (splitLanes (tyWidth ty) n v))

/-- Read, combine and write n bytes for a context; the result carries the poison of both (09 R206). -/
def State.combine (s : State) (ctx : BitVec 32) (l n : Nat) (f : Nat → Nat) (pois : Bool) : State :=
  (s.verifyLines ctx (linesOf l n)).storeFor ctx l (toBytes (f (s.mem.value l n)) n) (pois || s.poisonAt l n)

/-- A non-returning reduction applied at its bank (10 R221). -/
def State.reduce (s : State) (ctx : BitVec 32) (l : Nat) : CommitOp → State
  | .redInt op uns n v => s.combine ctx l n (fun o => combineInt op uns (8 * n) o (v.toNat % 2 ^ (8 * n))) false
  | .redF op v => s.combine ctx l 4 (fun o => combineLane op .f32 o (v.toNat % 2 ^ 32)) false
  | .redB op ty v => s.combine ctx l 128 (fun o => combineLine op ty o v.toNat) false
  | .redo _ _ => s
  | .drawm _ _ _ => s
  | .release _ _ _ => s
  | .flush => s
  | .dec _ _ => s
  | .spawn _ => s
  | .send _ _ => s
  | .bind _ _ => s
  | .unbind _ => s

/-! ## Immediate-class accesses (10 R217, R219, R220) -/

/-- The access of a tile has been performed: its result waits for the belay. -/
def State.answerImm (s : State) (t : Nat) (tok : Option Token) : State :=
  s.modRun t fun r => { r with phase := .imm (.done tok) }

/-- A fault raised by the immediate-class access of a tile: its pitch is discarded (10 R217; 03 R76). -/
def State.faultImm (s : State) (t : Nat) (r : Run) (a : ImmAccess) (code cause : Nat) : State :=
  match r.pitch with
  | none => s
  | some p =>
    s.takeFault t
      { r.recSpec { code := code, cause := cause, addr := a.va } with
        pitch := p.addr, slot := a.slot, lsid := a.lsid, prior := r.prior.map Prod.fst
        exit := match p.exits with | [x] => x.2.1 | _ => 0xFF }
      .pitch false

/-- What a synchronised load returns. -/
def syncToken (s : State) (r : Run) (a : ImmAccess) (m : SyncMode) (vec : Bool) : Token :=
  match m with
  | .peek => { val := .scalar (if (s.line (lineKey a.loc)).fullFor .peek then 1 else 0), pois := a.resPois }
  | _ =>
    let d := s.readOwn r a.loc (if vec then 128 else 8)
    { val := if vec then .vector (BitVec.ofNat 2048 (leNat d.1)) else .scalar (BitVec.ofNat 64 (leNat d.1))
      pois := a.resPois || d.2 }

/-- A synchronised access whose condition holds, in one atomic step of its line (10 R216). -/
def State.syncPerform (s : State) (t : Nat) (r : Run) (a : ImmAccess) (m : SyncMode) (vec : Bool) (data : BitVec 1024) :
    State :=
  let key := lineKey a.loc
  let n := if vec then 128 else 8
  let tok := if m.returns then some (syncToken s r a m vec) else none
  let seen := m = .readfull || m = .consume || m = .peek
  let s := if m.writes then s.storeFor r.ctx a.loc (toBytes data.toNat n) a.pois else s
  let s := match m.after with
    | some f => s.setFull f [key]
    | none => s
  let s := if seen then s.touchPad [key] else s
  let s := if seen && m != .peek then s.readLine r.ctx key else s
  s.answerImm t tok

/-- A synchronised access arrives and its condition holds: FILL of a full line faults. -/
def State.syncDo (s : State) (t : Nat) (r : Run) (a : ImmAccess) (m : SyncMode) (vec : Bool) (data : BitVec 1024) : State :=
  if m = .fill && (s.line (lineKey a.loc)).fullFor .fill then s.faultImm t r a fcFutureFull 0
  else s.syncPerform t r a m vec data

/-- The old value of an atomic as its result: words sign-extended. -/
def oldToken (n old : Nat) (signed pois : Bool) : Token :=
  { val := .scalar (extended (signed && n = 4) n (toBytes old n)), pois := pois }

/-- An atomic or CAS, in one atomic step; own shadow bytes are not applied (10 R219, R220). -/
def State.atomicPerform (s : State) (t : Nat) (r : Run) (a : ImmAccess) (n : Nat) (signed : Bool) (f : Nat → Option Nat)
    (wpois : Bool) : State :=
  let old := s.mem.value a.loc n
  let pois := s.poisonAt a.loc n
  let s := (s.touchPad [lineKey a.loc]).readLine r.ctx (lineKey a.loc)
  let s := match f old with
    | some v => s.storeFor r.ctx a.loc (toBytes v n) (pois || wpois)
    | none => s
  s.answerImm t (some (oldToken n old signed (pois || a.resPois)))

/-! ## What peers implement (10 R232; 19 R395) -/

/-- REDT's bit of an element type (10 R208). -/
def redTypeCode (x : ElemType) : Nat := ((List.range 8).find? fun i => redType (BitVec.ofNat 3 i) == x).getD 15

/-- Whether a peer implements an opcode and, where one is given, an element type for its memory. -/
def State.peerDoes (s : State) (pkg : Nat) (opcode : BitVec 8) (ty : Option ElemType) : Bool :=
  match s.peer? pkg with
  | none => false
  | some p =>
    p.ops.getLsbD (opcode.toNat - 0xA0) &&
      (match ty with
       | some x => p.redt.getLsbD (redTypeCode x)
       | none => true)

/-! ## Retry lists (09 R199, R200; 10 R226) -/

/-- Waiting entries of the bank of a line. -/
def State.bankWaits (s : State) (bank : Nat) : Nat := (s.fab.retry.filter fun e => bankOf (e.line * 128) == some bank).length

/-- Entries in the overflow list of a die. -/
def State.overflowed (s : State) (die : Nat) : Nat :=
  ((List.range 128).map fun b => s.bankWaits (128 * die + b) - 256).sum

/-- Whether the lists of a line's bank have room for one more; a tile's own window and a peer are not bounded here. [DEDUCED, log 31] -/
def State.retryRoom (s : State) (key : Nat) : Bool :=
  match bankOf (key * 128) with
  | none => true
  | some b => decide (s.bankWaits b < 256) || decide (s.overflowed (b / 128) < Config.overflowEntries)

def State.enlist (s : State) (e : RetryEntry) : State := { s with fab := { s.fab with retry := s.fab.retry ++ [e] } }

def State.delist (s : State) (e : RetryEntry) : State :=
  { s with fab := { s.fab with retry := s.fab.retry.erase e } }

/-- The synchronised access a tile waits with. -/
def Run.syncOp (r : Run) : Option (ImmAccess × SyncMode × Bool × BitVec 1024) :=
  match r.pitch with
  | none => none
  | some p =>
    match p.imm with
    | none => none
    | some a =>
      match a.op with
      | .sync m vec d => some (a, m, vec, d)
      | _ => none

/-- A claim is granted on its line. -/
def State.grant (s : State) (t k : Nat) : State :=
  match s.run? t with
  | none => s
  | some r =>
    match r.claims[k]? with
    | none => s
    | some c =>
      (s.setRun t { r with claims := r.claims.modify k fun c => { c with granted := true } }).modLine (lineKey c.loc)
        fun m => { m with claimed := true }

/-- Whether the F bit satisfies a waiting entry now. -/
def State.satisfied (s : State) (e : RetryEntry) : Bool :=
  match e.remote, e.claim with
  | some (.sync _ _ _ m _ _ _), _ => (s.line e.line).allows m
  | some (.claim _), _ => !(s.line e.line).fullFor .produce
  | none, some _ => !(s.line e.line).fullFor .produce
  | none, none =>
    match (s.run? e.tile).bind Run.syncOp with
    | none => false
    | some x => (s.line e.line).allows x.2.1

/-- A synchronised access of a peer whose condition holds, in one atomic step of its line; its answer goes back over its port
(10 R216, R232). -/
def State.peerSync (s : State) (port : Nat) (ctx : BitVec 32) (loc : Nat) (m : SyncMode) (vec : Bool) (data : BitVec 1024) (pois : Bool) : State :=
  let n := if vec then 128 else 8
  let key := lineKey loc
  let old := s.mem.bytes loc n
  let bad := s.poisonAt loc n
  let chk := s.chk key
  let full := (s.line key).fullFor .peek
  let s := if m.writes then s.storeFor ctx loc (toBytes data.toNat n) pois else s
  let s := if m = .readfull ∨ m = .consume then s.verifyLine ctx key else s
  let s := match m.after with
    | some f => s.setFull f [key]
    | none => s
  match m with
  | .peek => s.answerPeer port (toBytes full.toNat 8) false []
  | .readfull => s.answerPeer port old bad [chk]
  | .consume => s.answerPeer port old bad [chk]
  | .fill => s.answerPeer port [] false []
  | .produce => s.answerPeer port [] false []
  | .clear => s.answerPeer port [] false []

/-- A claim of a peer's task is granted. -/
def State.peerClaim (s : State) (port key : Nat) : State :=
  let s := s.modLine key fun m => { m with claimed := true }
  s.answerPeer port [] false []

/-- Perform a satisfied entry. -/
def State.serveEntry (s : State) (e : RetryEntry) : State :=
  let s := s.delist e
  match e.remote, e.claim with
  | some (.sync port ctx loc m vec d p), _ => s.peerSync port ctx loc m vec d p
  | some (.claim port), _ => s.peerClaim port e.line
  | none, some k => s.grant e.tile k
  | none, none =>
    match s.run? e.tile with
    | none => s
    | some r =>
      match r.syncOp with
      | none => s
      | some x => s.syncDo e.tile r x.1 x.2.1 x.2.2.1 x.2.2.2

/-- The first satisfied entry in arrival order is performed, and the list examined again from its head; MWAITs see the line as it
stands between two of them (11 R244). [DEDUCED, log 30] -/
def State.serveFrom (s : State) : Nat → State
  | 0 => s
  | n + 1 =>
    match s.fab.retry.find? fun e => s.satisfied e with
    | none => s
    | some e => State.serveFrom (s.examine.serveEntry e) n

/-- The retry lists after an access that may have changed an F bit or a claim (09 R199). -/
def State.serve (s : State) : State := s.serveFrom s.fab.retry.length

/-- A synchronised access to an address its peer does not have: a read is zero and poisoned, a write is dropped there, and no F bit
holds it (16 R336). [DESIGN CHOICE, log 128] -/
def State.syncAbsent (s : State) (t : Nat) (r : Run) (a : ImmAccess) (m : SyncMode) (vec : Bool) : State :=
  let s := if m.returns then s.readLine r.ctx (lineKey a.loc) else s
  s.answerImm t (if m.returns then some { val := if vec then .vector 0 else .scalar 0, pois := true } else none)

/-- A synchronised access of a tile reaches its bank: performed, listed, or answered busy (09 R199, R200). -/
def State.syncArrive (s : State) (t : Nat) (r : Run) (a : ImmAccess) (m : SyncMode) (vec : Bool) (data : BitVec 1024) : State :=
  let key := lineKey a.loc
  if (match a.peer with
      | some p => !s.peerDoes p a.opcode none
      | none => false) then s.faultImm t r a fcOpUnsupported 0
  else if absentLoc a.loc then s.syncAbsent t r a m vec
  else if (s.line key).allows m then (s.syncDo t r a m vec data).serve
  else if s.retryRoom key then (s.setRun t { r with phase := .imm .waiting }).enlist { line := key, tile := t }
  else s.setRun t { r with phase := .imm .busy }

/-- A claim reaches its bank: granted, listed, or answered busy; a FILL.REL claim has been found granted before. -/
def State.claimArrive (s : State) (t : Nat) (k : Nat) (c : Claim) : State :=
  let key := lineKey c.loc
  if !(s.line key).fullFor .produce then s.grant t k
  else if s.retryRoom key then s.enlist { line := key, tile := t, claim := some k }
  else s

/-- The claims of a run that are neither granted nor listed arrive again, in order (09 R200). -/
def State.claimsArrive (s : State) (t : Nat) : List (Claim × Nat) → State
  | [] => s
  | x :: rest =>
    State.claimsArrive
      (if x.1.granted || s.linkDown x.1.loc || s.fab.retry.any fun e => e.tile == t && e.claim == some x.2 then s else s.claimArrive t x.2 x.1)
      t rest

/-- The synchronised access of a tile arrives at its bank, if one has been sent. -/
def State.syncSent (s : State) (t : Nat) : State :=
  match s.run? t with
  | none => s
  | some r =>
    match r.syncOp with
    | none => s
    | some x => if r.phase = .imm .sent && !s.linkDown x.1.loc then s.syncArrive t r x.1 x.2.1 x.2.2.1 x.2.2.2 else s

/-- SYNC_ACCESS_ARRIVE: an access a tile has sent, or the claims of its commit that are still to arrive (09 R199; 10 R226). -/
def execSyncAccessArrive (tile : Nat) (s : State) : Host.Outcome State Fault Refusal :=
  match s.run? tile with
  | none => .next s
  | some r => .next (if r.phase = .committing then s.claimsArrive tile r.claims.zipIdx else s.syncSent tile)

/-- RETRY_LIST_BUSY_RESEND: a busy access is sent again, as a new arrival (09 R200). -/
def execRetryListBusyResend (tile : Nat) (s : State) : Host.Outcome State Fault Refusal :=
  .next (s.modRun tile fun r => if r.phase = .imm .busy then { r with phase := .imm .sent } else r)

end Sys2Proof.Machine
end

