-- ==== Sys2Proof/Machine/Exhaust.lean ====
section
/-! DEFINITION. The checks of an exhausted pitch, and the room its belay needs (03 R62, R67-R69; 05 R108-R116; 06 R132,
R133; 08 R164; 09 R194, R197, R201). -/

namespace Sys2Proof.Machine

/-! ## Slots in order -/

/-- The effects of a pitch in slot order, and of one slot in their own order. -/
def Pitch.bySlot (p : Pitch) : List (Nat × Effect) :=
  (List.range p.slots.length).flatMap fun k => p.effects.filter fun x => x.1 == k

/-- The pair of the lowest number. -/
def lowest {α : Type} (l : List (Nat × α)) : Option (Nat × α) :=
  l.foldl (fun b x => match b with
    | none => some x
    | some y => if x.1 < y.1 then some x else some y) none

/-- The record of a fault raised by a slot of a pitch (13 R277). -/
def Run.pitchSpec (r : Run) (p : Pitch) (f : FaultInfo) (slot : Nat) : RecSpec :=
  { r.recSpec f with
    pitch := p.addr, slot := slot, lsid := (p.words[slot]?.map wordLsid).getD 0xFF
    exit := match p.exits with | [x] => x.2.1 | _ => 0xFF
    prior := r.prior.map Prod.fst }

/-! ## Double deliveries (03 R62) -/

/-- Registers written with a token that is not null, with their slots, in slot order: general by number, vector from 64. -/
def Pitch.regWrites (p : Pitch) : List (Nat × Nat) :=
  p.bySlot.filterMap fun x =>
    match x.2 with
    | .writeG g _ => some (g.toNat, x.1)
    | .writeV v _ => some (64 + v.toNat, x.1)
    | _ => none

/-- The second slot that wrote each register written twice. -/
def secondWriters : List (Nat × Nat) → List Nat
  | [] => []
  | (g, _) :: rest =>
    (match rest.find? fun x => x.1 == g with
     | some x => [x.2]
     | none => []) ++ secondWriters rest

/-- The slot a double delivery names. [DESIGN CHOICE, log 37] -/
def Pitch.doubleSlot (p : Pitch) : Option Nat := (p.doubles ++ secondWriters p.regWrites).min?

/-! ## Control registers (05 R108-R116; 06 R132, R133) -/

/-- The value of a register that may be written; none for a reserved, RO or HW one. -/
def Run.csrRead (r : Run) (num : Nat) : Option (BitVec 64) :=
  match num with
  | 0x010 => some r.ctags
  | 0x020 => some (r.fmta.setWidth 64)
  | 0x021 => some (r.scalep.setWidth 64)
  | 0x022 => some (r.bandp.setWidth 64)
  | 0x023 => some (r.frnd.setWidth 64)
  | 0x024 => some (r.fflags.setWidth 64)
  | 0x030 => some r.rngkey
  | 0x031 => some r.rngctr
  | 0x032 => some (if r.rngmode then 1 else 0)
  | 0x033 => some r.rngtab
  | _ => none

/-- Whether a value may stand in a register. -/
def csrLegal (num : Nat) (v : BitVec 64) : Bool :=
  match num with
  | 0x020 => v.toNat < 8
  | 0x021 => v.toNat < 2 ^ 20 && v.toNat % 16 == 0
  | 0x022 => v.toNat < 2 ^ 20 && v.toNat % 16 == 0
  | 0x023 => v.toNat ≤ 4
  | 0x024 => v.toNat < 32
  | 0x032 => v.toNat ≤ 1
  | 0x033 => v.toNat % 4 == 0
  | _ => true

/-- Write a register. -/
def Run.csrPut (r : Run) (num : Nat) (v : BitVec 64) : Run :=
  match num with
  | 0x010 => { r with ctags := v }
  | 0x020 => { r with fmta := v.setWidth 3 }
  | 0x021 => { r with scalep := v.setWidth 20 }
  | 0x022 => { r with bandp := v.setWidth 20 }
  | 0x023 => { r with frnd := v.setWidth 3 }
  | 0x024 => { r with fflags := v.setWidth 5 }
  | 0x030 => { r with rngkey := v }
  | 0x031 => { r with rngctr := v }
  | 0x032 => { r with rngmode := v.getLsbD 0 }
  | 0x033 => { r with rngtab := v }
  | _ => r

/-- The new value of a register. -/
def CsrOp.value (op : CsrOp) (old d : BitVec 64) : BitVec 64 :=
  match op with
  | .write => d
  | .set => old ||| d
  | .clear => old &&& ~~~d

/-- One change of a control register, or none where it faults. -/
def Run.csrStep (r : Run) : Effect → Option Run
  | .csr op num d =>
    match r.csrRead num.toNat with
    | none => none
    | some old => if csrLegal num.toNat (op.value old d) then some (r.csrPut num.toNat (op.value old d)) else none
  | .ctclr m => some { r with ctags := r.ctags &&& ~~~m }
  | _ => some r

/-- The control registers after a pitch: the generator's advance, the writes in slot order, then the flags (05 R110). The
slot of the first faulting write otherwise. -/
def Run.csrSteps (r : Run) : List (Nat × Effect) → Except Nat Run
  | [] => .ok r
  | x :: rest =>
    match r.csrStep x.2 with
    | none => .error x.1
    | some r => Run.csrSteps r rest

/-- RNGCTR advanced by every consuming instruction of a pitch, fired or not (07 R147). -/
def Run.advanceRng (r : Run) (p : Pitch) : Run := { r with rngctr := r.rngctr + BitVec.ofNat 64 (uniformSum p.words) }

/-- The control registers as the belay of a pitch leaves them. -/
def Run.csrBelay (r : Run) (p : Pitch) : Except Nat Run := (r.advanceRng p).csrSteps p.bySlot

def Pitch.csrFault (p : Pitch) (r : Run) : List (Nat × FaultInfo) :=
  match r.csrBelay p with
  | .ok _ => []
  | .error k => [(k, { code := fcIllegalEncoding })]

/-! ## Matrix instructions (08 R164) -/

/-- The first failing matrix instruction against the issue view (08 R164); of two faults of one instruction, ILLEGAL_ENCODING is
reported. [DESIGN CHOICE, log 119] -/
def matrixFault (v : View) (fmta : Nat) : List (Nat × Effect) → List (Nat × FaultInfo)
  | [] => []
  | (k, .matrix _ op) :: rest =>
    if op.badWord then [(k, { code := fcIllegalEncoding })]
    else if op.badFormat v fmta then [(k, { code := fcIllegalFormat })]
    else matrixFault (v.issue op) fmta rest
  | (k, .rowWord w) :: rest =>
    if bitsAt w 8 56 != 0 then [(k, { code := fcIllegalEncoding })] else matrixFault v fmta rest
  | _ :: rest => matrixFault v fmta rest

/-! ## Copies (11 R238) -/

/-- The tags named by copy instructions, with their slots. -/
def Pitch.copyTags (p : Pitch) : List (Nat × Nat) :=
  p.bySlot.filterMap fun x =>
    match x.2 with
    | .copy _ d => d.tag.map fun t => (t, x.1)
    | _ => none

/-- Two copies of one tag fault at the higher slot. -/
def Pitch.tagFault (p : Pitch) : List (Nat × FaultInfo) :=
  (secondWriters p.copyTags).map fun k => (k, { code := fcIllegalEncoding })

/-! ## The verdict (03 R68) -/

/-- What an exhausted pitch does: fault at a slot, or proceed. -/
inductive Verdict where
  | fault (slot : Nat) (f : FaultInfo)
  | proceed
  deriving DecidableEq, Repr

/-- The register a word writes: general by number, vector from 64. -/
def wordReg (w : BitVec 32) : Option Nat :=
  match decode w with
  | .ok (.writeg g) => some g.toNat
  | .ok (.writev v) => some (64 + v.toNat)
  | _ => none

/-- A register is resolved when a write of it has fired or been nullified (03 R61, R68). -/
def Pitch.regResolved (p : Pitch) (g : Nat) : Bool :=
  (p.words.zip p.slots).any fun x => x.2.status != .waiting && wordReg x.1 == some g

/-- The lowest slot not resolved: an LSID instruction still waiting, or a waiting write of a register that no write has
resolved. -/
def unresolvedSlot (p : Pitch) : Option Nat :=
  (p.words.zip p.slots).findIdx? fun x =>
    x.2.status == .waiting &&
      (match wordReg x.1 with
       | some g => !p.regResolved g
       | none =>
         match decode x.1 with
         | .ok i => (sigOf i).lsid.isSome
         | .error _ => false)

/-- Step 1: the lowest slot that raised a fault. -/
def Pitch.slotFault (p : Pitch) (v : Tile) (r : Run) : Option (Nat × FaultInfo) :=
  lowest (p.faults ++ p.csrFault r ++ matrixFault v.view r.fmta.toNat p.bySlot ++ p.tagFault)

/-- The checks of R68 in their order. -/
def Pitch.verdict (p : Pitch) (v : Tile) (r : Run) : Verdict :=
  match p.doubleSlot with
  | some k => .fault k { code := fcIllegalPitch }
  | none =>
    match p.slotFault v r with
    | some x => .fault x.1 x.2
    | none =>
      match (p.exits.map fun x => x.1).max?, p.exits with
      | none, _ => .fault 128 { code := fcNoExit }
      | some k, _ :: _ :: _ => .fault k { code := fcMultiExit }
      | some _, _ =>
        match unresolvedSlot p with
        | some k => .fault k { code := fcIllegalPitch }
        | none => .proceed

/-! ## Shadow lines: their limit and their room (03 R69; 09 R194, R197, R201) -/

/-- The bank that holds a shadow line: its home bank; for host and peer memory the one of the issuing die that the hash of the
virtual address selects (10 R213; 09 R201). -/
def shadowBank (die loc : Nat) (va : BitVec 64) : Nat :=
  match bankOf loc with
  | some b => b
  | none => 128 * die + homeBank va.toNat

/-- A line that a pitch stores to: the slot, the line, and the address it is stored to by. -/
structure StoredLine where
  slot : Nat
  key : Nat
  va : BitVec 64
  deriving DecidableEq, Repr

/-- Store pieces of a pitch to device memory, with their slots. -/
def Pitch.devicePieces (p : Pitch) : List StoredLine :=
  p.bySlot.flatMap fun x =>
    match x.2 with
    | .store _ ps _ => (ps.filter fun q => !q.local_).map fun q => { slot := x.1, key := lineKey q.loc, va := q.va }
    | _ => []

/-- Shadow lines a task may hold. -/
def shadowLimit : Nat := 8192

/-- Lines of a pitch that are new to the shadow set. [DEDUCED, log 28] -/
def Pitch.newLines (p : Pitch) (r : Run) : List StoredLine :=
  p.devicePieces.filter fun x => !(r.shadow.any fun l => lineKey l.loc == x.key)

/-- A pitch that would take the task beyond its limit names its lowest store slot with a new line. -/
def Pitch.overflow (p : Pitch) (r : Run) : Option Nat :=
  let fresh := p.newLines r
  if r.shadow.length + ((fresh.map fun x => x.key).eraseDups).length ≤ shadowLimit then none
  else (fresh.map fun x => x.slot).min?

/-- Count keys. -/
def tallyKeys : List Nat → List (Nat × Nat)
  | [] => []
  | k :: rest =>
    let l := tallyKeys rest
    kvPut l k (kvGet 0 l k + 1)

/-- Places of the spill region that shadow lines held at some banks need: those beyond the cache slices there (1,024 lines a
slice). -/
def Ctx.shadowSpill (c : Ctx) (banks : List Nat) : Nat :=
  ((tallyKeys banks).map fun x => x.2 - 1024 * kvGet 0 c.cache x.1).sum

/-- The context of an input port's record. -/
def State.portCtx (s : State) (q : InPort) : BitVec 32 := ((s.inst? q.inst).map Inst.ctx).getD 0

/-- Packets kept beyond 16 a port (11 R256). -/
def State.keptSpill (s : State) (ctx : BitVec 32) : Nat :=
  ((s.fab.inPorts.filter fun q => s.portCtx q == ctx).map fun q => q.kept.length - 16).sum

/-- The banks of the shadow lines of a context: of its runs, and of its publications until they are written. -/
def State.shadowLines (s : State) (ctx : BitVec 32) : List Nat :=
  ((s.running.filter fun x => x.2.ctx == ctx).flatMap fun x => x.2.shadow.map fun l => shadowBank (tileDie x.1) l.loc l.va) ++
    (s.fab.pubs.filter fun p => p.ctx == ctx).flatMap fun p =>
      p.stores.map fun l => shadowBank (tileDie p.tile) l.line.loc l.line.va

/-- Packets a pitch removes, by port. -/
def Pitch.pops (p : Pitch) : List Nat :=
  p.effects.filterMap fun x => match x.2 with | .pop q => some q | _ => none

/-- Places beyond 16 that the pops of a pitch need. -/
def State.popSpill (s : State) (r : Run) (p : Pitch) : Nat :=
  ((tallyKeys p.pops).map fun x =>
    match s.inPort? r.inst r.idx x.1 with
    | some q => (q.kept.length + x.2 - 16) - (q.kept.length - 16)
    | none => 0).sum

/-- Whether the spill region has the places that the belay of a pitch needs. -/
def State.belayRoom (s : State) (t : Nat) (r : Run) (p : Pitch) : Bool :=
  let lines := p.newLines r
  let fresh := ((lines.map fun x => x.key).eraseDups).map fun k =>
    shadowBank (tileDie t) (128 * k) (((lines.find? fun x => x.key == k).map fun x => x.va).getD 0)
  if fresh.isEmpty && p.pops.isEmpty then true
  else
    match s.ctx? r.ctx with
    | none => true
    | some c =>
      let held := s.shadowLines r.ctx
      let more := c.shadowSpill (held ++ fresh) - c.shadowSpill held + s.popSpill r p
      more == 0 || decide (c.shadowSpill held + s.keptSpill r.ctx + more ≤ c.spillLen / 128)

/-! ## Ropes at belay (15 R328, R329) -/

/-- Whether a record is a member of a rope. -/
def State.isMember (s : State) (ctx key : BitVec 32) (inst idx : Nat) : Bool :=
  match s.rope? ctx key with
  | some x => x.members.any fun m => m.inst == inst && m.idx == idx
  | none => false

/-- The ropes on which a run has numbered arrivals, or sent them as a member. -/
def State.arrivalKeys (s : State) (t : Nat) (r : Run) : List (BitVec 32) :=
  (r.arrivals.map fun x => x.1) ++
    ((s.fab.ropeArr.filter fun a => a.tile == t && a.live && s.isMember a.ctx a.key a.inst a.idx).map fun a => a.key)

/-- The first ROPEARR that arrives on a fifth rope. [DEDUCED, log 67] -/
def fifthRope (s : State) (r : Run) (keys left : List (BitVec 32)) : List (Nat × Effect) → Option Nat
  | [] => none
  | (k, .ropeArr key) :: rest =>
    if keys.contains key || left.contains key || !s.isMember r.ctx key r.inst r.idx then fifthRope s r keys left rest
    else if (keys.eraseDups).length ≥ 4 then some k
    else fifthRope s r (key :: keys) left rest
  | (_, .ropeLeave key idx) :: rest => fifthRope s r keys (if idx = r.idx then key :: left else left) rest
  | _ :: rest => fifthRope s r keys left rest

/-- What a pitch that has passed R68 can still fault with before anything of it takes effect. -/
def State.belayFault (s : State) (t : Nat) (r : Run) (p : Pitch) : Option (Nat × FaultInfo) :=
  match p.overflow r with
  | some k => some (k, { code := fcCommitOverflow })
  | none => (fifthRope s r (s.arrivalKeys t r) [] p.bySlot).map fun k => (k, { code := fcRopeLimit })

end Sys2Proof.Machine
end

