-- ==== Sys2Proof/Machine/Belay.lean ====
section
/-! DEFINITION. PITCH_EXHAUSTION, the belay, IMMEDIATE_ACCESS_COMPLETE and what follows a belay: traps, matrix faults, DONE
and ABORT (03 R65-R72, R79, R80; 06 R121, R122; 15 R328, R329). -/

namespace Sys2Proof.Machine

/-! ## Results that come after exhaustion (03 R71; 06 R122) -/

/-- The value a register write takes from a token. -/
def Effect.withToken (tok : Token) : Effect → Effect
  | .writeG g _ => .writeG g { v := tok.sc, pois := tok.pois }
  | .writeV v _ => .writeV v { v := tok.vec, pois := tok.pois }
  | e => e

/-- A result reaches the register writes of its targets. -/
def Pitch.resolve (p : Pitch) (ts : List Target) (tok : Token) : Pitch :=
  { p with effects := p.effects.map fun x =>
      if ts.any (fun t => match t with | .to _ k => k.toNat == x.1 | .none => false) then (x.1, x.2.withToken tok) else x }

/-! ## The parts of a belay (03 R69) -/

/-- Register writes. -/
def Run.writeRegs (r : Run) : List (Nat × Effect) → Run
  | [] => r
  | (_, .writeG g v) :: rest => Run.writeRegs { r with g := r.g.set g.toNat v } rest
  | (_, .writeV w v) :: rest => Run.writeRegs { r with vr := r.vr.set w.toNat v } rest
  | _ :: rest => Run.writeRegs r rest

/-- The control registers and flags (05 R110; 02 R37). -/
def Run.writeCsrs (r : Run) (p : Pitch) : Run :=
  match r.csrBelay p with
  | .ok q => { q with fflags := q.fflags ||| p.flags }
  | .error _ => r

/-- Exit id of the fired exit. -/
def Pitch.exitId (p : Pitch) : Nat := match p.exits with | x :: _ => x.2.1 | [] => 255

/-- The entries the pitch adds to the commit set. -/
def Pitch.entries (p : Pitch) : List CommitEntry :=
  p.bySlot.filterMap fun x => match x.2 with | .entry e => some { e with exit := p.exitId } | _ => none

/-- The next free number for copies and publications. -/
def State.takeId (s : State) : State := { s with fab := { s.fab with nextId := s.fab.nextId + 1 } }

/-- A copy with nothing to do completes at issue (11 R238). -/
def CopyDesc.trivial (d : CopyDesc) : Bool := d.n = 0 && d.stamp.isNone

/-- Tag bits of an issue (05 R113); the last copy of the tag (11 R243); what makes the task irrevocable (11 R235). -/
def Run.issueCopy (r : Run) (id tile : Nat) (d : CopyDesc) : Run :=
  match d.tag with
  | none => r
  | some g =>
    let bit : BitVec 64 := 1 <<< g
    { r with
      ctags := if d.trivial then r.ctags ||| bit else r.ctags &&& ~~~bit
      ctagpend := if d.trivial then r.ctagpend &&& ~~~bit else r.ctagpend ||| bit
      lastCopy := (r.lastCopy.filter fun x => x.1 != g) ++ [(g, id)]
      irrevocable := r.irrevocable || d.irrevocable tile }

/-- The issue of a copy. -/
def State.issueCopy (s : State) (t : Nat) (r : Run) (p : Pitch) (k lsid : Nat) (d : CopyDesc) : State :=
  let id := s.fab.nextId
  let c : Copy :=
    { id := id, tile := t, ctx := r.ctx, inst := r.inst, idx := r.idx, twin := r.twin, desc := d, pitch := p.addr, slot := k,
      lsid := lsid, done := d.trivial, issuedAt := s.cycle, epoch := (s.tile t).belays.toNat }
  let old := r.lastCopy.filter fun x => some x.1 == d.tag
  let s := { s with fab := { s.fab with copies := (s.fab.copies.filter fun (x : Copy) => !old.any fun y => y.2 == x.id) ++ [c] } }
  (s.setRun t (r.issueCopy id t d)).takeId

/-- The issue of a matrix operation, with the control registers as they stood when its pitch began (08 R164, R169). One issued
after an operation has stopped at a bad packet is cancelled (08 R181). -/
def State.issueMatrix (s : State) (t : Nat) (r : Run) (p : Pitch) (k lsid : Nat) (op : MatOp) : State :=
  let j : MatJob :=
    { op := op, fmta := r.fmta, scalep := r.scalep, bandp := r.bandp, pitch := p.addr, slot := k, lsid := lsid, exit := p.exitId
      epoch := (s.tile t).belays.toNat }
  if ((s.run? t).bind Run.matFault).isSome then s.modRun t fun q => { q with named := q.named ++ j.changes }
  else s.modTile t fun v => { v with jobs := v.jobs ++ [j] }

/-- The first packet of an input port is removed and kept (11 R256). -/
def InPort.take (q : InPort) : InPort :=
  match q.queue with
  | [] => q
  | k :: rest => { q with queue := rest, kept := q.kept ++ [k] }

def State.modInPort (s : State) (inst idx port : Nat) (f : InPort → InPort) : State :=
  { s with fab := { s.fab with inPorts := s.fab.inPorts.map fun q =>
      if q.inst == inst && q.idx == idx && q.port == port then f q else q } }

/-- A packet enters an output queue with the next number of its port (11 R252). -/
def OutPort.enter (o : OutPort) (k : Packet) : OutPort :=
  { o with queue := o.queue ++ [{ k with seq := o.nextSeq }], nextSeq := o.nextSeq + 1 }

def Run.modOut (r : Run) (port : Nat) (f : OutPort → OutPort) : Run := { r with out := r.out.modify port f }

/-- A mark enters the mark buffer of a tile (17 R355). -/
def Tile.mark (v : Tile) (ctx : BitVec 32) (m : BitVec 32) (time : BitVec 64) : Tile :=
  { v with marks := kvPut v.marks (v.markn.toNat % 16) (ctx ++ m ++ time), markn := v.markn + 1 }

/-- One effect of the issuing kinds, in slot order; r0 is the run as the pitch began. -/
def State.belayEffect (s : State) (t : Nat) (r0 : Run) (p : Pitch) (x : Nat × Effect) : State :=
  match s.run? t with
  | none => s
  | some r =>
    match x.2 with
    | .copy lsid d => s.issueCopy t r p x.1 lsid d
    | .matrix lsid op => s.issueMatrix t r0 p x.1 lsid op
    | .push port payload fmt eot abort pois =>
      s.setRun t (r.modOut port fun o =>
        o.enter { payload := payload, fmt := fmt, eot := eot, eos := false, abort := abort, pois := pois })
    | .pop port => s.modInPort r.inst r.idx port InPort.take
    | .mark v time => s.modTile t fun w => w.mark r.ctx v time
    | _ => s

def State.belayEffects (s : State) (t : Nat) (r0 : Run) (p : Pitch) : List (Nat × Effect) → State
  | [] => s
  | x :: rest => State.belayEffects (s.belayEffect t r0 p x) t r0 p rest

/-! ## Ropes (15 R326-R329) -/

/-- Outstanding arrivals of a tile on a rope. -/
def State.outstanding (s : State) (t : Nat) (key : BitVec 32) : Nat :=
  (s.fab.ropeArr.filter fun a => a.tile == t && a.key == key && a.live).length

/-- The number of the next arrival of a run on a rope: those answered as a member, and those whose answer is awaited. -/
def Run.arrivalNo (r : Run) (key : BitVec 32) : Nat := ((r.arrivals.find? fun x => x.1 == key).map fun x => x.2).getD 0

def State.sendArrival (s : State) (t : Nat) (r : Run) (key : BitVec 32) : State :=
  let a : Arrival :=
    { tile := t, ctx := r.ctx, key := key, inst := r.inst, idx := r.idx, n := r.arrivalNo key + s.outstanding t key }
  { s with fab := { s.fab with ropeArr := s.fab.ropeArr ++ [a] } }

/-- An arrival applied to its rope: counted only when B + n = A (15 R328). -/
def Member.arrive (m : Member) (n : Nat) : Member :=
  if m.b + BitVec.ofNat 32 n = m.a then { m with a := m.a + 1 } else m

def State.modRope (s : State) (ctx key : BitVec 32) (f : Rope → Rope) : State :=
  { s with ropes := s.ropes.map fun x => if x.key == key && x.ctx == ctx then f x else x }

/-- The answer of the rope's die: an arrival of a member takes its number; that of a task that is not a member takes
none, and those behind it move up. -/
def State.answerArrival (s : State) (a : Arrival) (member : Bool) : State :=
  if !a.live then s
  else if member then
    s.modRun a.tile fun r => { r with arrivals := (r.arrivals.filter fun x => x.1 != a.key) ++ [(a.key, a.n + 1)] }
  else
    { s with fab := { s.fab with ropeArr := s.fab.ropeArr.map fun b =>
        if b.tile == a.tile && b.key == a.key && b.live then { b with n := b.n - 1 } else b } }

/-- An arrival reaches the die of its rope. -/
def State.landArrival (s : State) (a : Arrival) : State :=
  let m := s.isMember a.ctx a.key a.inst a.idx
  let s := s.modRope a.ctx a.key fun x =>
    ({ x with members := x.members.map fun y => if y.inst == a.inst && y.idx == a.idx then y.arrive a.n else y } : Rope).complete
  s.answerArrival a m

/-- The first outstanding arrival from a tile on a rope. -/
def State.firstArrival (s : State) (t : Nat) (key : BitVec 32) : Option Arrival :=
  s.fab.ropeArr.find? fun a => a.tile == t && a.key == key

def State.dropArrival (s : State) (a : Arrival) : State := { s with fab := { s.fab with ropeArr := s.fab.ropeArr.erase a } }

/-- Every outstanding arrival from a tile on a rope lands, in the order sent. -/
def State.flushArrivals (s : State) (t : Nat) (key : BitVec 32) : Nat → State
  | 0 => s
  | n + 1 =>
    match s.firstArrival t key with
    | none => s
    | some a => State.flushArrivals ((s.dropArrival a).landArrival a) t key n

/-- A record leaves one rope (15 R328). -/
def State.leaveRope (s : State) (ctx key : BitVec 32) (inst idx : Nat) : State :=
  let s := s.modRope ctx key fun x =>
    ({ x with members := x.members.filter fun m => !(m.inst == inst && m.idx == idx) } : Rope).complete
  { s with ropes := s.ropes.filter fun x => !x.members.isEmpty }

/-- ROPELEAVE and ROPEARR of a pitch, in slot order. -/
def State.belayRopes (s : State) (t : Nat) (r : Run) : List (Nat × Effect) → State
  | [] => s
  | (_, .ropeLeave key idx) :: rest =>
    State.belayRopes ((s.flushArrivals t key s.fab.ropeArr.length).leaveRope r.ctx key r.inst idx) t r rest
  | (_, .ropeArr key) :: rest =>
    State.belayRopes (match s.run? t with
      | some r => s.sendArrival t r key
      | none => s) t r rest
  | _ :: rest => State.belayRopes s t r rest

/-! ## DONE: the waits of R79 -/

/-- The waits of R79, steps 1 to 3, are over. -/
def State.waitsDone (s : State) (t : Nat) (r : Run) : Bool :=
  (s.copiesOf t r).all (fun c => c.done) && (s.tile t).jobs.isEmpty && r.out.all fun o => o.queue.isEmpty && o.unacked.isEmpty

/-- The runs of a record wait for their partners' digests, at least two of them. -/
def State.allWait (s : State) (inst idx : Nat) : Bool :=
  let l := (s.runsOf inst idx).map fun x => x.2.phase
  decide (2 ≤ l.length) && l.all fun x => x == .twinWait

/-- A twin whose waits are over enters TWIN-WAIT; its record does so with the last of its runs (14 R293; 18 R379).
[DESIGN CHOICE, log 123] -/
def State.twinEnter (s : State) (t : Nat) : State :=
  match s.run? t with
  | none => s
  | some r =>
    if r.phase = .committing && r.twin.isSome && !r.voted && s.waitsDone t r then
      let s := s.setRun t { r with phase := .twinWait, twinCycle := s.cycle }
      if s.allWait r.inst r.idx then s.modRec r.inst r.idx fun x => { x with st := .twinWait } else s
    else s

/-- The stalled copy of a run, if any. -/
def State.stalledCopy (s : State) (t : Nat) (r : Run) : Option Nat :=
  (s.copiesOf t r).findSome? fun c =>
    match c.stall with
    | .stalled n _ => some n
    | .no => none
    | .draining _ => none

/-- A task enters COMMITTING; while one of its copies is stalled it enters STALLED instead (03 R79; 18 R371). A twin makes the waits
of R79 with its record RUNNING (18 R379). -/
def State.enterCommit (s : State) (t : Nat) (p : Pitch) : State :=
  match s.run? t with
  | none => s
  | some r =>
    match s.stalledCopy t r with
    | some n =>
      (s.setRun t { r with phase := .stalled n .waits true, donePitch := p.addr, doneExit := p.exitId }).modRec r.inst r.idx
        fun x => { x with st := .stalled }
    | none =>
      ((s.setRun t { r with phase := .committing, donePitch := p.addr, doneExit := p.exitId }).modRec r.inst r.idx
        fun x => { x with st := if r.twin.isSome then x.st else .committing }).twinEnter t

/-! ## After a belay -/

/-- The record of a TRAP or BREAK, of an ABORT, or of a matrix fault (06 R121; 03 R80; 08 R181). -/
def Run.exitSpec (r : Run) (p : Pitch) (code slot lsid : Nat) (a : BitVec 64) (prior : Option (BitVec 64 × Nat)) : RecSpec :=
  { r.recSpec { code := code, addr := a } with
    pitch := p.addr, slot := slot, lsid := lsid, exit := p.exitId, prior := prior.map Prod.fst }

/-- The lowest fired TRAP or BREAK. [DEDUCED, log 36] -/
def Pitch.trapOf (p : Pitch) : Option (Nat × Bool × BitVec 13) := lowest p.traps

/-- A matrix fault found by an operation whose rows come from a stream (08 R181): the record names its pitch and slot, and the exit
of that pitch where it is raised at a belay, none in COMMITTING (13 R277). -/
def State.takeMatFault (s : State) (t : Nat) (inCommit : Bool) : State :=
  match s.run? t with
  | none => s
  | some r =>
    match r.matFault with
    | none => s
    | some (f, pitch, slot, lsid, exit, rows) =>
      s.takeFault t
        { r.recSpec f with pitch := pitch, slot := slot, lsid := lsid, exit := if inCommit then 0xFF else exit, prog := rows } .never inCommit

/-- The fault taken once a pitch has belayed: a matrix fault, with which the task ends, or its TRAP or BREAK. [DESIGN CHOICE, log 101] -/
def State.afterBelay (s : State) (t : Nat) (p : Pitch) (prior : Option (BitVec 64 × Nat)) (done : Bool) : State :=
  match s.run? t with
  | none => s
  | some r =>
    if r.matFault.isSome then s.takeMatFault t done
    else
      match p.trapOf with
      | some (k, trap, code) =>
        s.takeFault t (r.exitSpec p (if trap then fcTrap else fcBreak) k 0xFF (code.setWidth 64) prior)
          (if done then .waits else .fetch) false
      | none => s

/-- ABORT (03 R80). -/
def State.abortTask (s : State) (p : Pitch) (r : Run) (prior : Option (BitVec 64 × Nat)) : State :=
  (s.record r.ctx { r.exitSpec p fcAborted ((p.exits.map fun x => x.1).headD 128) 0xFF 0 prior with irrev := r.irrevocable }).killTask
    r.inst r.idx

/-! ## The belay -/

/-- The address of the next pitch in memory (03 R66). -/
def Pitch.after (p : Pitch) : BitVec 64 := BitVec.ofNat 64 ((p.addr.toNat + 16 + 4 * hdrNinst p.hdr + 15) / 16 * 16)

/-- The run after the register part of a belay: registers, control registers, g63, the next pitch, poison counts. -/
def Run.belay (r : Run) (p : Pitch) : Run :=
  let q := (r.writeRegs p.bySlot).writeCsrs p
  let q :=
    match p.exits with
    | (_, _, .call _) :: _ => { q with g := q.g.set 63 { v := p.after } }
    | _ => q
  { q with
    pitch := none
    dogInService := false
    phase := .fetch
    commit := q.commit ++ p.entries
    ctlPois := q.ctlPois || p.ctl
    poiscnt := min (q.poiscnt + p.poisoned) (2 ^ 32 - 1)
    prior := some (p.addr, p.exitId)
    next :=
      match p.exits with
      | (_, _, .goto a) :: _ => a
      | (_, _, .call a) :: _ => a
      | (_, _, .commit) :: _ => q.next
      | (_, _, .abort) :: _ => q.next
      | [] => q.next }

/-- BELAY: every effect of a pitch takes effect together (03 R69). An ABORT ends the task though a matrix fault stands for it
(06 R121; 08 R181). [DESIGN CHOICE, log 101] -/
def State.belay (s : State) (t : Nat) (p : Pitch) : State :=
  match s.run? t with
  | none => s
  | some r =>
    let s := (s.setRun t (r.belay p)).applyStores t (p.storesBelow 128)
    let s := (s.belayEffects t r p p.bySlot).modTile t fun v => { v with belays := v.belays + 1 }
    let s := if p.imm.isSome then s else s.belayRopes t r p.bySlot
    match p.exits with
    | (_, _, .abort) :: _ => s.abortTask p r r.prior
    | (_, _, .commit) :: _ =>
      if p.traps.isEmpty then (s.enterCommit t p).takeMatFault t true
      else (s.modRun t fun r => { r with donePitch := p.addr, doneExit := p.exitId }).afterBelay t p r.prior true
    | _ => s.afterBelay t p r.prior false

/-! ## From exhaustion to belay -/

/-- What an immediate-class access of memory needs, and its bytes; none for a rope operation. -/
def ImmOp.need : ImmOp → Option (Need × Nat)
  | .sync m vec _ =>
    let n := if vec then 128 else 8
    some ({ align := n, r := m.returns, w := !m.returns || m == .consume, noHost := true, sync := true, rap := true }, n)
  | .amo _ _ n _ => some ({ align := n, r := true, w := true, noHost := true, rap := true }, n)
  | .amof _ _ => some ({ align := 4, r := true, w := true, noHost := true, rap := true }, 4)
  | .cas n _ _ _ => some ({ align := n, r := true, w := true, noHost := true, rap := true }, n)
  | .ropeJoin _ _ => none
  | .ropeWait _ => none

/-- The immediate-class access of a pitch as it is sent: behind a TLBINV of the same pitch it is translated again, since what the
service dropped may not be used once it has completed (06 R122; 16 R345). [DESIGN CHOICE, log 130] -/
def State.rebound (s : State) (t : Nat) (r : Run) (p : Pitch) (a : ImmAccess) : Except FaultInfo ImmAccess :=
  match a.op.need with
  | none => .ok a
  | some (nd, n) =>
    if p.svcs.any fun c => c.num == 0x100 then
      match s.checkAccess t r.ctx nd [(a.va.toNat, n)] with
      | .error f => if f.code = fcWait then .ok a else .error f
      | .ok [] => .ok a
      | .ok (b :: bs) =>
        .ok { a with loc := b.loc, local_ := locSpace b.loc == spPad, peer := if locPkg b.loc = 0 then none else some (locPkg b.loc - 1)
                     via := (b :: bs).filterMap Bound.use }
    else .ok a

/-- The services are done: ropes and the immediate-class access, or the belay (03 R71; 15 R329). -/
def State.finishPitch (s : State) (t : Nat) : State :=
  match s.run? t with
  | none => s
  | some r =>
    match r.pitch with
    | none => s
    | some p =>
      match p.imm with
      | none => s.belay t p
      | some a =>
        match s.rebound t r p a with
        | .error f => s.takeFault t (r.pitchSpec p f a.slot) .pitch false
        | .ok b => ((s.setRun t { r with phase := .imm .sent, pitch := some { p with imm := some b } }).belayRopes t r p.bySlot)

/-- Service number k of a pitch is next; a service whose argument is poisoned is not performed: status 3, and the task is
control-poisoned (06 R122). -/
def State.nextService (s : State) (t k : Nat) : Nat → State
  | 0 => s
  | n + 1 =>
    match s.run? t with
    | none => s
    | some r =>
      match r.pitch with
      | none => s
      | some p =>
        match p.svcs[k]? with
        | none => s.finishPitch t
        | some c =>
          if c.pois then
            State.nextService
              (s.setRun t { r with
                phase := .services k
                pitch := some { p.resolve [c.target] { val := .scalar 3, pois := c.resPois } with ctl := true } }) t (k + 1) n
          else s.setRun t { r with phase := .services k }

/-- The services of a pitch in ascending slot order. -/
def Pitch.sortServices (p : Pitch) : Pitch :=
  { p with svcs := (List.range p.slots.length).flatMap fun k => p.svcs.filter fun c => c.slot == k }

/-- A service of a tile completes with a status; a system service makes the task irrevocable (06 R122). -/
def State.serviceDone (s : State) (t : Nat) (status : Nat) : State :=
  match s.run? t with
  | none => s
  | some r =>
    match r.phase, r.pitch with
    | .services k, some p =>
      match p.svcs[k]? with
      | none => s
      | some c =>
        (s.setRun t { r with
          irrevocable := r.irrevocable || svcIsSystem c.num
          pitch := some (p.resolve [c.target] { val := .scalar (BitVec.ofNat 64 status), pois := c.resPois }) }).nextService t
          (k + 1) (p.svcs.length + 1)
    | _, _ => s

/-- The service a tile performs now, if it has a given number. -/
def State.service? (s : State) (t : Nat) (num : BitVec 13) : Option (Run × SvcCall) :=
  match s.run? t with
  | none => none
  | some r =>
    match r.phase, r.pitch with
    | .services k, some p =>
      match p.svcs[k]? with
      | some c => if c.num == num then some (r, c) else none
      | none => none
    | _, _ => none

/-- A pitch that has passed the checks proceeds. -/
def State.proceed (s : State) (t : Nat) (r : Run) (p : Pitch) : State :=
  match s.belayFault t r p with
  | some x => s.takeFault t (r.pitchSpec p x.2 x.1) .pitch false
  | none =>
    let q := p.sortServices
    (s.setRun t { r with pitch := some q }).nextService t 0 (q.svcs.length + 1)

/-- Nothing in the pitch can fire and nothing awaits a result (03 R67). -/
def Pitch.exhausted (p : Pitch) : Bool := p.slots.length ≤ p.idle.length && p.slots.all fun sl => sl.status != .pending

/-- An exhausted pitch is checked, and faults, waits for room in the spill region, or proceeds; one that would take the task beyond its
limit faults, whatever room there is (03 R68, R69; 09 R197). -/
def State.exhaust (s : State) (t : Nat) : State :=
  match s.run? t with
  | none => s
  | some r =>
    match r.pitch with
    | none => s
    | some p =>
      if r.phase = .fire && p.exhausted && !r.dogBefore s.cycle then
        match p.verdict (s.tile t) r with
        | .fault k f => s.takeFault t (r.pitchSpec p f k) .pitch false
        | .proceed => if (p.overflow r).isSome || s.belayRoom t r p then s.proceed t r p else s
      else s

/-- PITCH_EXHAUSTION (03 R68). -/
def execPitchExhaustion (tile : Nat) (s : State) : Host.Outcome State Fault Refusal := .next (s.exhaust tile)

/-- SPILL_PLACE_FREED: a belay that waited for a place proceeds (09 R197). -/
def execSpillPlaceFreed (tile : Nat) (s : State) : Host.Outcome State Fault Refusal := .next (s.exhaust tile)

/-! ## IMMEDIATE_ACCESS_COMPLETE (03 R71, R72) -/

/-- The belay of a pitch whose immediate-class access has completed: the task is irrevocable from here on. -/
def State.belayImm (s : State) (t : Nat) (r : Run) (p : Pitch) (a : ImmAccess) (tok : Option Token) : State :=
  let q :=
    match tok with
    | none => p
    | some k =>
      let p := p.resolve a.targets k
      match a.op with
      | .sync _ _ _ => { p with poisoned := p.poisoned + if k.pois then 1 else 0 }
      | _ => p
  (s.setRun t { r with irrevocable := true, pitch := some q }).belay t q

/-- ROPEJOIN performed at the die of its rope; none when the table of the die is full (15 R326, R328). -/
def State.ropeJoin (s : State) (r : Run) (key : BitVec 32) (idx : Nat) : Option (State × BitVec 64) :=
  match s.rope? r.ctx key with
  | some x =>
    if x.members.any fun m => m.inst == r.inst && m.idx == idx then some (s, 1)
    else if (match s.rec? r.inst idx with
        | some c => c.st.final
        | none => true) then some (s, 0)
    else if ((s.ctx? r.ctx).map Ctx.tquota).getD 0 ≤ x.members.length then some (s, 0)
    else some (s.modRope r.ctx key fun x =>
      { x with members := x.members ++ [{ inst := r.inst, idx := idx, b := x.phase, a := x.phase }] }, 1)
  | none =>
    if (match s.rec? r.inst idx with
        | some c => c.st.final
        | none => true) then some (s, 0)
    else if ((s.ctx? r.ctx).map Ctx.tquota).getD 0 < 1 then some (s, 0)
    else if 4096 ≤ (s.ropes.filter fun x => x.key.toNat % 4 == key.toNat % 4).length then none
    else some ({ s with ropes := s.ropes ++ [{ key := key, ctx := r.ctx, members := [{ inst := r.inst, idx := idx, b := 0, a := 0 }] }] }, 1)

/-- What ROPEWAIT answers now; none while it waits (15 R328). -/
def State.ropeWait (s : State) (r : Run) (key : BitVec 32) : Option (BitVec 64) :=
  match s.rope? r.ctx key with
  | none => some (BitVec.allOnes 64)
  | some x =>
    match x.members.find? fun m => m.inst == r.inst && m.idx == r.idx with
    | none => some (BitVec.allOnes 64)
    | some m => if m.beyond x.phase then none else some (x.phase.setWidth 64)

/-- Whether a peer access is one its peer does not implement. -/
def State.immLacks (s : State) (a : ImmAccess) : Bool :=
  match a.peer with
  | some p => !s.peerDoes p a.opcode none
  | none => false

/-- An atomic, CAS or rope operation that has been sent is performed; synchronised accesses are performed by their banks. -/
def State.performImm (s : State) (t : Nat) (r : Run) (a : ImmAccess) : State :=
  match a.op with
  | .sync _ _ _ => s
  | .amo op uns n v =>
    if s.linkDown a.loc then s
    else if s.immLacks a then s.faultImm t r a fcOpUnsupported 0
    else s.atomicPerform t r a n true (fun o => some (combineInt op uns (8 * n) o (v.toNat % 2 ^ (8 * n)))) a.pois
  | .amof op v =>
    if s.linkDown a.loc then s
    else if s.immLacks a then s.faultImm t r a fcOpUnsupported 0
    else s.atomicPerform t r a 4 false (fun o => some (combineLane op .f32 o v.toNat)) a.pois
  | .cas n e v _ =>
    if s.linkDown a.loc then s
    else if s.immLacks a then s.faultImm t r a fcOpUnsupported 0
    else
      s.atomicPerform t r a n true (fun o => if o = e.toNat % 2 ^ (8 * n) then some (v.toNat % 2 ^ (8 * n)) else none) a.pois
  | .ropeJoin key idx =>
    if (s.firstArrival t key).isSome then s
    else
      match s.ropeJoin r key idx with
      | none => s.faultImm t r a fcRopeLimit 0
      | some x => x.1.answerImm t (some { val := .scalar x.2, pois := a.resPois })
  | .ropeWait key =>
    if (s.firstArrival t key).isSome then s
    else
      match s.ropeWait r key with
      | some v => s.answerImm t (some { val := .scalar v, pois := a.resPois })
      | none => s.setRun t { r with phase := .imm .waiting }

/-- Whether an access still has to be performed at its bank or rope. -/
def ImmState.open : ImmState → Bool
  | .sent => true
  | .waiting => true
  | .busy => false
  | .done _ => false

/-- The pitch of a performed access belays. -/
def State.completeImm (s : State) (t : Nat) : State :=
  match s.run? t with
  | none => s
  | some r =>
    match r.phase, r.pitch with
    | .imm (.done tok), some p =>
      match p.imm with
      | some a => s.belayImm t r p a tok
      | none => s
    | _, _ => s

/-- Perform the access of a tile where it has not been performed. -/
def State.reachImm (s : State) (t : Nat) : State :=
  match s.run? t with
  | none => s
  | some r =>
    match r.phase, r.pitch with
    | .imm st, some p =>
      match p.imm with
      | some a => if st.open then s.performImm t r a else s
      | none => s
    | _, _ => s

/-- IMMEDIATE_ACCESS_COMPLETE (03 R71). -/
def execImmediateAccessComplete (tile : Nat) (s : State) : Host.Outcome State Fault Refusal :=
  .next ((s.reachImm tile).completeImm tile)

/-- ROPE_ARRIVAL: an arrival reaches its rope's die, those of one tile on one rope in the order sent (15 R328). -/
def execRopeArrival (k : Nat) (s : State) : Host.Outcome State Fault Refusal :=
  match s.fab.ropeArr[k]? with
  | none => .next s
  | some a =>
    if (s.fab.ropeArr.take k).any fun b => b.tile == a.tile && b.key == a.key then .next s
    else .next (({ s with fab := { s.fab with ropeArr := s.fab.ropeArr.eraseIdx k } } : State).landArrival a)

end Sys2Proof.Machine
end

