-- ==== Sys2Proof/Machine/Digest.lean ====
section
/-! DEFINITION. SHAKE256, the hash of commit digests, microcode images and reports (18 R379; 19 R401; 20 R406). -/

namespace Sys2Proof.Machine

/-- Lane (x, y) of a Keccak state stands at x + 5 y. -/
def lane (a : List (BitVec 64)) (x y : Nat) : BitVec 64 := a[x % 5 + 5 * (y % 5)]?.getD 0

/-- A state from its lanes. -/
def lanes (f : Nat → Nat → BitVec 64) : List (BitVec 64) := (List.range 25).map fun i => f (i % 5) (i / 5)

/-- Rotation offsets, by lane. -/
def keccakRot : List Nat := [0, 1, 62, 28, 27, 36, 44, 6, 55, 20, 3, 10, 43, 25, 39, 41, 45, 15, 21, 8, 18, 2, 61, 56, 14]

/-- Round constants. -/
def keccakRC : List (BitVec 64) :=
  [0x0000000000000001, 0x0000000000008082, 0x800000000000808A, 0x8000000080008000, 0x000000000000808B, 0x0000000080000001,
   0x8000000080008081, 0x8000000000008009, 0x000000000000008A, 0x0000000000000088, 0x0000000080008009, 0x000000008000000A] ++
  [0x000000008000808B, 0x800000000000008B, 0x8000000000008089, 0x8000000000008003, 0x8000000000008002, 0x8000000000000080,
   0x000000000000800A, 0x800000008000000A, 0x8000000080008081, 0x8000000000008080, 0x0000000080000001, 0x8000000080008008]

def keccakTheta (a : List (BitVec 64)) : List (BitVec 64) :=
  let c := (List.range 5).map fun x => lane a x 0 ^^^ lane a x 1 ^^^ lane a x 2 ^^^ lane a x 3 ^^^ lane a x 4
  let at_ := fun (x : Nat) => c.getD (x % 5) 0
  lanes fun x y => lane a x y ^^^ at_ (x + 4) ^^^ (at_ (x + 1)).rotateLeft 1

def keccakRhoPi (a : List (BitVec 64)) : List (BitVec 64) :=
  lanes fun x y => (lane a (x + 3 * y) x).rotateLeft (keccakRot[(x + 3 * y) % 5 + 5 * x]?.getD 0)

def keccakChi (a : List (BitVec 64)) : List (BitVec 64) :=
  lanes fun x y => lane a x y ^^^ (~~~(lane a (x + 1) y) &&& lane a (x + 2) y)

def keccakIota (rc : BitVec 64) : List (BitVec 64) → List (BitVec 64)
  | [] => []
  | x :: rest => (x ^^^ rc) :: rest

/-- Rounds of Keccak-f[1600]. -/
def keccakRounds (a : List (BitVec 64)) : List (BitVec 64) → List (BitVec 64)
  | [] => a
  | rc :: rest => keccakRounds (keccakIota rc (keccakChi (keccakRhoPi (keccakTheta a)))) rest

/-- Bytes absorbed at a time. -/
def shakeRate : Nat := 136

/-- One block XORed into a state. -/
def keccakAbsorb (a : List (BitVec 64)) (block : List Byte) : List (BitVec 64) :=
  a.zipIdx.map fun x => x.1 ^^^ BitVec.ofNat 64 (leNat ((block.drop (8 * x.2)).take 8))

/-- Absorb n blocks. -/
def shakeBlocks (a : List (BitVec 64)) (bs : List Byte) : Nat → List (BitVec 64)
  | 0 => a
  | n + 1 => shakeBlocks (keccakRounds (keccakAbsorb a (bs.take shakeRate)) keccakRC) (bs.drop shakeRate) n

/-- The message with SHAKE's suffix and padding. -/
def shakePad (bs : List Byte) : List Byte :=
  let k := shakeRate - bs.length % shakeRate
  bs ++ (if k = 1 then [0x9F] else [0x1F] ++ List.replicate (k - 2) 0 ++ [0x80])

/-- The first 32 bytes of SHAKE256. [PRESUMED, log 13] -/
def shake256 (bs : List Byte) : List Byte :=
  let p := shakePad bs
  ((shakeBlocks (List.replicate 25 0) p (p.length / shakeRate)).take 4).flatMap fun x => toBytes x.toNat 8

end Sys2Proof.Machine
end

