-- ==== Sys2Proof/Machine/Template.lean ====
section
/-! DEFINITION. Template images: the record fields, rename marks, the template check and the placement checks
(11 R249; 14 R303, R304; 15 R313-R319; 18 R378). -/

namespace Sys2Proof.Machine

/-! ## Fields of a record (15 R315) -/

def wordOf (ws : List (BitVec 64)) (k : Nat) : BitVec 64 := ws[k]?.getD 0

def recEntry (ws : List (BitVec 64)) : BitVec 64 := wordOf ws 0
def recRedundant (ws : List (BitVec 64)) : Bool := (wordOf ws 1).getLsbD 0
def recRevocableOnly (ws : List (BitVec 64)) : Bool := (wordOf ws 1).getLsbD 1
def recWeartol (ws : List (BitVec 64)) : Bool := (wordOf ws 1).getLsbD 2
def recPrio (ws : List (BitVec 64)) : Nat := bitsAt (wordOf ws 1) 8 3
def recCyclim (ws : List (BitVec 64)) : Nat := bitsAt (wordOf ws 1) 16 6
def recPin (ws : List (BitVec 64)) : Nat := bitsAt (wordOf ws 1) 22 7
def recCount (ws : List (BitVec 64)) : Nat := bitsAt (wordOf ws 2) 0 32
def recAffinity (ws : List (BitVec 64)) : Nat := bitsAt (wordOf ws 2) 32 24
def recSuccoff (ws : List (BitVec 64)) : Nat := bitsAt (wordOf ws 3) 0 32
def recSuccn (ws : List (BitVec 64)) : Nat := bitsAt (wordOf ws 3) 32 12
def recArg (ws : List (BitVec 64)) (k : Nat) : BitVec 64 := wordOf ws (16 + k)

/-- Prefetch descriptor j (15 R316). -/
structure Pref where
  src : BitVec 64
  doff : Nat
  len : Nat
  zero : Nat
  deriving DecidableEq, Repr

def recPref (ws : List (BitVec 64)) (j : Nat) : Option Pref :=
  let q1 := wordOf ws (5 + 2 * j)
  if q1.getLsbD 63 then
    some { src := wordOf ws (4 + 2 * j), doff := bitsAt q1 0 20, len := bitsAt q1 20 21, zero := bitsAt q1 41 22 }
  else none

/-- Port binding j (11 R249). -/
structure Binding where
  out : Bool
  port : Nat
  fanin : Nat
  peer : Nat
  deriving DecidableEq, Repr

def recBinding (ws : List (BitVec 64)) (j : Nat) : Option Binding :=
  let b := bitsAt (wordOf ws (12 + j / 2)) (32 * (j % 2)) 32
  if b / 2 ^ 31 % 2 = 1 then
    some { out := b / 2 ^ 30 % 2 == 1, port := b / 2 ^ 28 % 4, fanin := b / 2 ^ 24 % 16, peer := b % 2 ^ 24 }
  else none

/-- The valid bindings of a record, with their numbers. -/
def recBindings (ws : List (BitVec 64)) : List (Nat × Binding) :=
  (List.range 8).filterMap fun j => (recBinding ws j).map fun b => (j, b)

/-! ## Rename marks (15 R317) -/

/-- SLOTP1 of a mark; none when the value is no mark. -/
def markSlot (v : BitVec 64) : Option Nat :=
  if bitsAt v 56 8 = 0xFE && bitsAt v 44 12 ≠ 0 then some (bitsAt v 44 12) else none

/-- A value with its mark resolved. -/
def resolveMark (ren : List (BitVec 64)) (v : BitVec 64) : BitVec 64 :=
  match markSlot v with
  | none => v
  | some n => ren[n - 1]?.getD 0 + BitVec.ofNat 64 (bitsAt v 0 44)

/-! ## The template check (15 R313, R319) -/

/-- The first offending word of a header, by its offset. [DEDUCED, log 64] -/
def headerBad (h : List (BitVec 64)) : Option Nat :=
  let w0 := wordOf h 0
  let w1 := wordOf h 1
  let nrec := bitsAt w0 16 24
  if bitsAt w0 0 8 ≠ 0xA7 || bitsAt w0 52 12 ≠ 0 || nrec = 0 || 65536 < nrec then some 0
  else if bitsAt w1 0 32 % 8 ≠ 0 || bitsAt w1 32 32 % 8 ≠ 0 || bitsAt w1 0 32 < 256 * (nrec + 1) then some 8
  else ((List.range 30).find? fun k => wordOf h (k + 2) != 0).map fun k => 8 * (k + 2)

/-- What a header gives. -/
def headerInfo (templ : BitVec 64) (loc : Nat) (h : List (BitVec 64)) : TemplInfo :=
  let w0 := wordOf h 0
  { templ := templ, loc := loc, k := bitsAt w0 8 8 + 1, nrec := bitsAt w0 16 24, nbuf := bitsAt w0 40 12
    succoff := bitsAt (wordOf h 1) 0 32, succlen := bitsAt (wordOf h 1) 32 32 }

/-- A successor entry at a byte offset of the successor lists of an image (15 R322). -/
def imageEntry (list : List (BitVec 64)) (off : Nat) : BitVec 32 := BitVec.ofNat 32 (bitsAt (wordOf list (off / 8)) (off % 8 * 8) 32)

/-- An entry that breaks R319. -/
def entryBad (t : TemplInfo) (w : BitVec 32) : Bool :=
  sucAmt w = 0 || (sucScope w ≤ 1 && t.nrec ≤ sucTarget w) ||
    (sucScope w = 3 && (8 * sucTarget w < t.succoff || t.succoff + t.succlen < 8 * sucTarget w + 8))

/-- A successor list that does not lie in the successor area. -/
def listBad (t : TemplInfo) (ws : List (BitVec 64)) : Bool :=
  bitsAt (wordOf ws 3) 44 20 != 0 ||
    (recSuccn ws != 0 &&
      (recSuccoff ws % 4 != 0 || recSuccoff ws < t.succoff || t.succoff + t.succlen < recSuccoff ws + 4 * recSuccn ws))

/-- A mark beyond the rename table. -/
def markBad (t : TemplInfo) (v : BitVec 64) : Bool :=
  match markSlot v with
  | none => false
  | some n => t.nbuf < n

/-- A binding with a non-zero zero field. -/
def bindingBad (ws : List (BitVec 64)) (j : Nat) : Bool :=
  match recBinding ws j with
  | none => false
  | some b => if b.out then 4 ≤ b.fanin else b.peer != 0

/-- Offending offsets of a record, from the words of the successor lists and its own. -/
def recordBad (t : TemplInfo) (list ws : List (BitVec 64)) (i : Nat) : List Nat :=
  let b := 256 * (i + 1)
  let w1 := wordOf ws 1
  (if bitsAt w1 3 5 ≠ 0 || bitsAt w1 11 5 ≠ 0 || bitsAt w1 29 35 ≠ 0 || 64 < recPin ws then [b + 8] else []) ++
    (if bitsAt (wordOf ws 2) 56 8 ≠ 0 then [b + 16] else []) ++
    (if listBad t ws then [b + 24]
     else (List.range (recSuccn ws)).filterMap fun k =>
       let o := recSuccoff ws + 4 * k
       if entryBad t (imageEntry list (o - t.succoff)) then some (o / 8 * 8) else none) ++
    ((List.range 4).filterMap fun j => if markBad t (wordOf ws (4 + 2 * j)) then some (b + 32 + 16 * j) else none) ++
    ((List.range 8).filterMap fun j => if bindingBad ws j then some (b + 96 + j / 2 * 8) else none) ++
    ((List.range 16).filterMap fun j => if markBad t (recArg ws j) then some (b + 128 + 8 * j) else none)

/-- Words of record i in an image. -/
def imageRecord (img : List (BitVec 64)) (i : Nat) : List (BitVec 64) := (img.drop (32 * (i + 1))).take 32

/-- A part of a template image: its offset from TEMPL, its bytes, where they lie. -/
structure ImagePart where
  off : Nat
  len : Nat
  loc : Nat
  deriving DecidableEq, Repr

/-- Where n bytes at an offset of an image lie now, in parts of 16 KiB, the smallest page. -/
def State.imageParts (s : State) (ctx : BitVec 32) (templ off n : Nat) : List ImagePart :=
  (List.range (n / 2 ^ 14 + 2)).filterMap fun k =>
    let page := (templ + off) / 2 ^ 14 + k
    let a := max (templ + off) (2 ^ 14 * page)
    let e := min (templ + off + n) (2 ^ 14 * (page + 1))
    if a < e then
      match s.devLoc ctx a (e - a) false with
      | .ok l => some { off := a - templ, len := e - a, loc := l }
      | .error _ => none
    else none

/-- The template check of an image that can be read: its header and records, and its successor lists; what lies between is not
read. [DEDUCED, log 62] -/
def State.checkTemplate (s : State) (ctx : BitVec 32) (templ : BitVec 64) : Except FaultInfo TemplInfo :=
  match s.devLoc ctx templ.toNat 256 false with
  | .error f => .error f
  | .ok loc =>
    match s.devWords ctx templ.toNat 32 with
    | .error f => .error f
    | .ok h =>
      let t := headerInfo templ loc h
      match headerBad h with
      | some o => .ok { t with bad := some (templ + BitVec.ofNat 64 o) }
      | none =>
        match s.devWords ctx templ.toNat (32 * (t.nrec + 1)), s.devWords ctx (templ.toNat + t.succoff) (t.succlen / 8) with
        | .error f, _ => .error f
        | .ok _, .error f => .error f
        | .ok recs, .ok list =>
          let bad := ((List.range t.nrec).flatMap fun i => recordBad t list (imageRecord recs i) i).min?
          .ok { t with bad := bad.map fun o => templ + BitVec.ofNat 64 o }

/-- The lines that a check has read. -/
def State.verifyTemplate (s : State) (ctx : BitVec 32) (t : TemplInfo) : State :=
  (s.verifyWords ctx t.templ.toNat (32 * (t.nrec + 1))).verifyWords ctx (t.templ.toNat + t.succoff) (t.succlen / 8)

/-- The verdict of a template: the one kept, or a check made now and kept. -/
def State.verdictOf (s : State) (ctx : BitVec 32) (templ : BitVec 64) : State × Except FaultInfo TemplInfo :=
  match s.ctx? ctx with
  | none => (s, .error { code := fcNotMapped, addr := templ })
  | some c =>
    match c.templates.find? fun t => t.templ == templ with
    | some t => (s, .ok t)
    | none =>
      match s.checkTemplate ctx templ with
      | .error f => (s.verifyWalk none ctx f, .error f)
      | .ok t => ((s.verifyTemplate ctx t).modCtx ctx fun c => { c with templates := c.templates ++ [t] }, .ok t)

/-! ## The placement checks (14 R304) -/

/-- A bad prefetch descriptor of a record with a rename table: the offset of its offending word. -/
def prefBad (ren : List (BitVec 64)) (ws : List (BitVec 64)) (j : Nat) : Option Nat :=
  match recPref ws j with
  | none => none
  | some p =>
    if (resolveMark ren p.src).toNat % 16 ≠ 0 then some (32 + 16 * j)
    else if p.zero ≠ 0 || p.len = 0 || p.len % 16 ≠ 0 || p.doff % 16 ≠ 0 || 2 ^ 20 < p.doff + p.len then some (40 + 16 * j)
    else none

/-- Two valid bindings of one port and direction: the word of the first. -/
def bindingTwice : List (Nat × Binding) → Option Nat
  | [] => none
  | (j, b) :: rest =>
    if rest.any fun x => x.2.out == b.out && x.2.port == b.port then some (96 + j / 2 * 8) else bindingTwice rest

/-- Whether a record has a valid input binding of a port. -/
def hasInput (ws : List (BitVec 64)) (port : Nat) : Bool := (recBindings ws).any fun x => !x.2.out && x.2.port == port

/-- An output whose consumer lacks the input binding. -/
def Inst.outputBad (i : Inst) (ws : List (BitVec 64)) : Option Nat :=
  ((recBindings ws).find? fun x =>
    x.2.out && !(match i.recs[x.2.peer]? with
      | some y => hasInput y.words (x.2.fanin % 4)
      | none => false)).map fun x => 96 + x.1 / 2 * 8

/-- The offset of the first offending word of a record, none for a placeable one. [DEDUCED, log 63] -/
def Inst.unplaceable (i : Inst) (ws : List (BitVec 64)) : Option Nat :=
  (if recCyclim ws < 10 || 40 < recCyclim ws || (recRedundant ws && !(recBindings ws).isEmpty) then some 8 else none).or <|
    ((List.range 4).findSome? (prefBad i.rename ws)).or <|
      ((bindingTwice (recBindings ws)).toList ++ (i.outputBad ws).toList).min?

end Sys2Proof.Machine
end

