-- ==== Sys2Proof/Machine/TileStates.lean ====
section
/-! DEFINITION. Tile states and their transitions, the lifetime record, and the retirement of clusters begun by a tile
count (13 R290; 17 R358, R362-R370). -/

namespace Sys2Proof.Machine

/-! ## The lifetime record (17 R368, R369) -/

/-- What the record holds of a tile. -/
def Tile.lifeData (v : Tile) : TileLife :=
  { state := v.state, life := v.life, blame := v.blame, margin := v.margin, made := v.made, af := v.af, em0 := v.em0, em1 := v.em1 }

/-- The record as the package stands. -/
def State.lifeNow (s : State) (n : Nat) : LifeRecord :=
  { valid := true, count := n
    tiles := s.tiles.map fun x => (x.1, x.2.lifeData)
    retired := s.pkg.clusters.filterMap fun c => if c.2.retire = .retired then some c.1 else none
    spareFor := s.pkg.map.filterMap fun m => if m.pres then m.was.map fun p => 17 * m.die + p else none
    sparesUsed := s.dies.zipIdx.filterMap fun d => if d.1.spareUsed then some d.2 else none
    lcs := s.pkg.lcs }

/-- Whether copy A is the one last written. -/
def Pkg.lastIsA (p : Pkg) : Bool := p.lifeA.valid && (!p.lifeB.valid || decide (p.lifeB.count ≤ p.lifeA.count))

/-- A write of the record: the copy not written last takes the package as it stands (17 R369). -/
def State.writeLife (s : State) : State :=
  let n := max s.pkg.lifeA.count s.pkg.lifeB.count + 1
  let l := s.lifeNow n
  if s.pkg.lastIsA then { s with pkg := { s.pkg with lifeB := l, lifeAt := some s.cycle } }
  else { s with pkg := { s.pkg with lifeA := l, lifeAt := some s.cycle } }

/-- A record that has not been written for 2^32 cycles is written (17 R369). -/
def State.lifeDue (s : State) : State :=
  if s.pkg.power = .on ∧ s.pkg.lifeAt.getD 0 + 2 ^ 32 ≤ s.cycle then s.writeLife else s

/-- The copy written last does not verify: its write was cut short. -/
def Pkg.cutWrite (p : Pkg) : Pkg :=
  if p.lastIsA then { p with lifeA := { p.lifeA with valid := false } } else { p with lifeB := { p.lifeB with valid := false } }

/-! ## Wear (17 R358) -/

/-- Cycles of a wear interval. -/
def interval : Nat := 2 ^ 20

/-- A tile's own time: cycles of the package in which heat had not stopped its clock (01 R22; 17 R357, R358; 20 R410). -/
def State.tileTime (s : State) (t : Nat) : Nat := s.cycle - (s.cluster (tileCluster t)).stopped

/-- The budget of a tile in 2^-32 WU. -/
def wearBudget : Nat := 260000000 * 2 ^ 32

/-- The wear fraction that placement uses. [DEDUCED, log 73] -/
def Tile.wearU (v : Tile) : Nat := min 255 (256 * v.life / wearBudget)

/-- The largest 32.32 value. -/
def max3232 : Nat := 2 ^ 64 - 1

/-! ## States (17 R362-R365) -/

/-- The entries of a placed queue that a state excludes (13 R290; 17 R364). -/
def State.excluded (s : State) (st : TileState) (p : Placed) : Bool :=
  match st with
  | .normal => false
  | .derated => !(((s.rec? p.inst p.idx).map fun x => recWeartol x.words).getD false)
  | .drained => true
  | .quarantined => true
  | .retired => true

def TileState.usable : TileState → Bool
  | .normal => true
  | .derated => true
  | .drained => false
  | .quarantined => false
  | .retired => false

/-- Usable tiles of a cluster (17 R365). -/
def State.usableTiles (s : State) (c : Nat) : Nat := ((clusterTiles c).filter fun t => (s.tile t).state.usable).length

/-- Whether a physical cluster is in service. -/
def State.inService (s : State) (c : Nat) : Bool := s.pkg.map.any fun m => m.pres && 17 * m.die + m.phys == c

/-- Empty the placed queues of some tiles. -/
def State.emptyQueues (s : State) : List Nat → State
  | [] => s
  | t :: rest => State.emptyQueues (s.emptyQueue t) rest

/-- A cluster in service with fewer than 12 usable tiles begins to retire: no more placement, queues empty (17 R365, R366). -/
def State.checkCluster (s : State) (c : Nat) : State :=
  if s.inService c && (s.cluster c).retire = .no && decide (s.usableTiles c < 12) then
    (s.modCluster c fun x => { x with retire := .byCount }).emptyQueues (clusterTiles c)
  else s

/-- A shared part of a cluster in service has failed: it begins to retire (17 R365, R366). -/
def State.failShared (s : State) (c : Nat) : State :=
  if s.inService c && (s.cluster c).retire != .retired then
    (s.modCluster c fun x => { x with retire := .shared }).emptyQueues (clusterTiles c)
  else s

/-- CYCIDLE: every clocked cycle of a tile that is not busy (17 R354). -/
def State.cycIdle (s : State) (t : Nat) : Nat :=
  (s.tile t).idleEnd.getD (s.cycle - (s.cluster (tileCluster t)).unclocked - (s.tile t).cycbusy.toNat)

/-- The state a tile had before this cycle: where a transition starts from (17 R363). -/
def State.origin (s : State) (t : Nat) : TileState :=
  match (s.tile t).moved with
  | some (st, n) => if n = s.cycle then st else (s.tile t).state
  | none => (s.tile t).state

/-- The order of targets of transitions at one moment (17 R363). -/
def TileState.rank : TileState → Nat
  | .retired => 0
  | .drained => 1
  | .quarantined => 2
  | .derated => 3
  | .normal => 4

/-- A tile changes state (17 R363, R364); of two transitions in one cycle the one whose target stands first is taken. -/
def State.changeTile (s : State) (t : Nat) (st : TileState) : State :=
  if (s.tile t).state = st || (s.origin t != (s.tile t).state && (s.tile t).state.rank < st.rank) then s
  else
    let from_ := s.origin t
    let s := s.modTile t fun v =>
      { v with
        moved := some (from_, s.cycle)
        state := st, passes := 0, drainedAt := if st = .drained then s.cycle else v.drainedAt
        idleEnd := if st = .retired then some (s.cycIdle t) else v.idleEnd
        arrays := if st = .quarantined || st = .retired then v.arrays.map fun w => { w with valid := false } else v.arrays }
    let s := s.unplaceAll t ((s.tile t).queue.filter (s.excluded st))
    (s.checkCluster (tileCluster t)).writeLife

/-- T2 and T1 in units of 1/256 percent. -/
def marginT1 : Nat := 1024
def marginT2 : Nat := 512

/-- Two samples below a threshold in a row (17 R357). -/
def Tile.below (v : Tile) (m : Nat) : Bool := decide (v.margin < m) && decide (v.prevMargin < m)

/-- The state that margin and wear ask for, from a state: DRAINED stands before DERATED (17 R363). -/
def Tile.aged (v : Tile) (st : TileState) : TileState :=
  match st with
  | .normal =>
    if v.below marginT2 || decide (wearBudget ≤ v.life) then .drained
    else if v.below marginT1 || decide (85 * wearBudget ≤ 100 * v.life) then .derated
    else .normal
  | .derated => if v.below marginT2 || decide (wearBudget ≤ v.life) then .drained else .derated
  | .quarantined => if v.below marginT2 || decide (wearBudget ≤ v.life) then .drained else .quarantined
  | .drained => .drained
  | .retired => .retired

/-- The transitions of margin and wear. -/
def State.age (s : State) (t : Nat) : State :=
  let st := (s.tile t).aged (s.origin t)
  if st = s.origin t then s else s.changeTile t st

/-- One blame (17 R363). -/
def State.blame (s : State) (t : Nat) : State :=
  let s := s.modTile t fun v => { v with blame := min 255 (v.blame + 1) }
  match s.origin t with
  | .normal => if 2 ≤ (s.tile t).blame then s.changeTile t .quarantined else s
  | .derated => if 2 ≤ (s.tile t).blame then s.changeTile t .quarantined else s
  | .quarantined => s.changeTile t .retired
  | .drained => s
  | .retired => s

/-- Clusters that the lifetime record brings back with fewer than 12 usable tiles begin to retire (17 R365). -/
def State.checkClusters (s : State) : List Nat → State
  | [] => s
  | c :: rest => State.checkClusters (s.checkCluster c) rest

/-- A DRAINED tile whose 2^30 cycles are over retires, unless a task runs on it (17 R363). -/
def State.drainedOver (s : State) (t : Nat) : State :=
  let v := s.tile t
  if v.state = .drained && v.run.isNone && decide (v.drainedAt + 2 ^ 30 ≤ s.cycle) then s.changeTile t .retired else s

/-- Every DRAINED tile whose time is over. -/
def State.drainsOver (s : State) : List (Nat × Tile) → State
  | [] => s
  | x :: rest => State.drainsOver (if x.2.state = .drained then s.drainedOver x.1 else s) rest

end Sys2Proof.Machine
end

