-- ==== Sys2Proof/Machine/Prefetch.lean ====
section
/-! DEFINITION. Prefetch before runnable: the copies of a placed task, when they are issued, and their merging
(09 R189, R191; 11 R248; 14 R300). -/

namespace Sys2Proof.Machine

/-! ## Merging (11 R248) -/

/-- The location of a byte of a source, none where it does not translate. -/
def State.srcLoc (s : State) (ctx : BitVec 32) (va : Nat) : Option Nat :=
  if isCanonical va then
    match s.walk none ctx va with
    | .error _ => none
    | .ok x => if leafR x.leaf then (s.resolve ctx x va).toOption else none
  else none

/-- Two sources of n elements that hold the same physical bytes. -/
def State.sameSource (s : State) (ctx : BitVec 32) (a b : BitVec 64) (n : Nat) : Bool :=
  (List.range n).all fun i =>
    match s.srcLoc ctx (a.toNat + 16 * i), s.srcLoc ctx (b.toNat + 16 * i) with
    | some x, some y => x == y
    | _, _ => false

/-- The prefetches read together with a copy. [DEDUCED, log 48] -/
def State.groupOf (s : State) (root : Nat) : List Copy := s.fab.copies.filter fun c => c.id == root || c.merged == some root

/-- Whether a prefetch under way takes another into its read. -/
def State.takesIn (s : State) (c : Copy) (ctx : BitVec 32) (d : CopyDesc) : Bool :=
  c.desc.kind == .prefetch && c.ctx == ctx && c.merged.isNone && c.desc.n == d.n && c.prog == 0 && c.above.isEmpty && !c.done &&
    c.stall == .no && decide (s.cycle ≤ c.issuedAt + 512) && decide ((s.groupOf c.id).length < 16) &&
    s.sameSource ctx c.desc.src d.src d.n

/-- The prefetch that a new one merges into. -/
def State.mergeInto (s : State) (ctx : BitVec 32) (d : CopyDesc) : Option Nat :=
  (s.fab.copies.find? fun c => s.takesIn c ctx d).map fun c => c.id

/-! ## Issue (14 R300) -/

/-- The copy of a prefetch descriptor (15 R316). -/
def Pref.desc (x : Pref) (ren : List (BitVec 64)) : CopyDesc :=
  { kind := .prefetch, src := resolveMark ren x.src, dst := BitVec.ofNat 64 (Config.localBase + x.doff), n := x.len / 16
    row := x.len / 16 }

/-- The valid prefetch descriptors of a record. -/
def recPrefs (ws : List (BitVec 64)) : List Pref := (List.range 4).filterMap fun j => recPref ws j

/-- One prefetch of a placed task is issued, merged where it can be. -/
def State.issuePrefetch (s : State) (t : Nat) (p : Placed) (d : CopyDesc) : State :=
  let m := s.mergeInto p.ctx d
  let c : Copy :=
    { id := s.fab.nextId, tile := t, ctx := p.ctx, inst := p.inst, idx := p.idx, twin := p.twin, desc := d, merged := m
      issuedAt := s.cycle }
  let s : State := { s with fab := { s.fab with copies := s.fab.copies ++ [c], nextId := s.fab.nextId + 1 } }
  if m.isSome then s.count (tileDie t) fun x => { x with pfmerge := x.pfmerge + 1 } else s

def State.issuePrefetches (s : State) (t : Nat) (p : Placed) (ren : List (BitVec 64)) : List Pref → State
  | [] => s
  | x :: rest => State.issuePrefetches (s.issuePrefetch t p (x.desc ren)) t p ren rest

/-- Whether two entries are the same. -/
def Placed.same (p q : Placed) : Bool := p.inst == q.inst && p.idx == q.idx && p.twin == q.twin

/-- Change an entry of a placed queue. -/
def State.modPlaced (s : State) (t : Nat) (p : Placed) (f : Placed → Placed) : State :=
  s.modTile t fun v => { v with queue := v.queue.map fun q => if q.same p then f q else q }

/-- A placed task becomes RUNNABLE (14 R293, R300); the record of a REDUNDANT task does so with the first of its twins.
[DESIGN CHOICE, log 123] -/
def State.markRunnable (s : State) (t : Nat) (p : Placed) : State :=
  (s.modPlaced t p fun q => { q with runnable := true }).modRec p.inst p.idx fun x =>
    { x with st := if x.st = .placed then .runnable else x.st }

/-- Whether the prefetches of an entry may be issued now: the running task and every entry ahead are of its context. -/
def State.mayPrefetch (s : State) (t : Nat) (ahead : List Placed) (p : Placed) : Bool :=
  (match s.run? t with
   | some r => r.ctx == p.ctx
   | none => true) && ahead.all fun q => q.ctx == p.ctx

/-- The prefetches of one entry are issued, the tile having turned to its context; with none it is RUNNABLE. -/
def State.startEntry (s : State) (t : Nat) (p : Placed) : State :=
  let ws := ((s.rec? p.inst p.idx).map Rec.words).getD []
  let ren := ((s.inst? p.inst).map Inst.rename).getD []
  if (recPrefs ws).isEmpty then (s.modPlaced t p fun q => { q with issued := true }).markRunnable t p
  else ((s.turnTile t p.ctx).modPlaced t p fun q => { q with issued := true }).issuePrefetches t p ren (recPrefs ws)

/-- Whether a record has prefetches to issue. -/
def State.hasPrefetch (s : State) (p : Placed) : Bool := !(recPrefs (((s.rec? p.inst p.idx).map Rec.words).getD [])).isEmpty

/-- The entries of a queue whose turn for prefetches has come (09 R189; 14 R300). -/
def State.kickFrom (s : State) (t : Nat) : List Placed → List Placed → State
  | _, [] => s
  | ahead, p :: rest =>
    let s1 := if !p.issued && (!s.hasPrefetch p || s.mayPrefetch t ahead p) then s.startEntry t p else s
    State.kickFrom s1 t (ahead ++ [p]) rest

def State.kick (s : State) (t : Nat) : State := s.kickFrom t [] (s.tile t).queue

/-- The end of a run at its handover: a DRAINED tile may retire, deferred prefetches are issued (09 R189; 17 R363). -/
def State.afterRun (s : State) (t : Nat) : State := (s.drainedOver t).kick t

end Sys2Proof.Machine
end

