-- ==== Sys2Proof/Machine/Landing.lean ====
section
/-! DEFINITION. The progress of copies: which elements are complete, how a stall is reported, and landings in a scratchpad
(09 R186-R190; 11 R234, R240, R245; 14 R301; 18 R371, R381). -/

namespace Sys2Proof.Machine

/-- A run stands in COMMITTING, or stalled there. -/
def Run.inCommit (r : Run) : Bool :=
  match r.phase with
  | .committing => true
  | .stalled _ _ c => c
  | .twinWait => false
  | .fetch => false
  | .fire => false
  | .services _ => false
  | .imm _ => false

def State.copy? (s : State) (id : Nat) : Option Copy := s.fab.copies.find? fun c => c.id == id

def State.modCopy (s : State) (id : Nat) (f : Copy → Copy) : State :=
  { s with fab := { s.fab with copies := s.fab.copies.map fun c => if c.id == id then f c else c } }

/-! ## Progress (11 R234) -/

/-- The leading completed elements are counted in P. -/
def Copy.advance (c : Copy) : Nat → Copy
  | 0 => c
  | n + 1 =>
    if c.above.contains c.prog then
      Copy.advance { c with prog := c.prog + 1, above := c.above.filter fun i => i != c.prog } n
    else c

/-- Elements have been completed. -/
def Copy.complete (c : Copy) (l : List Nat) : Copy :=
  ({ c with above := c.above ++ l, fly := c.fly.filter fun e => !l.contains e.n } : Copy).advance (c.above.length + l.length)

/-- The elements a copy moves, as far as is known: one cut short by the end of its port moves what it has issued (11 R254). -/
def Copy.bound (c : Copy) : Nat := if c.cut then c.next else c.desc.n

/-- Whether element i has been written, in the scratchpad of a tile where it goes to one: it is complete, or nothing of it is under
way to there. -/
def Copy.has (c : Copy) (t i : Nat) : Bool :=
  decide (i < c.prog) || c.above.contains i ||
    (decide (i < c.next) && !c.fly.any fun e => e.n == i && (!e.got || locSpace e.loc != spPad || locCtx e.loc == t))

/-! ## Stalls (11 R245; 14 R301) -/

/-- The run a copy was issued by; none for a prefetch. -/
def State.copyRun (s : State) (c : Copy) : Option Run :=
  if c.desc.kind = .prefetch then none
  else
    match s.run? c.tile with
    | some r => if r.inst = c.inst ∧ r.idx = c.idx then some r else none
    | none => none

/-- The COPY_FAULT record of a copy: no exit, no prior pitch (13 R277). -/
def State.copySpec (s : State) (c : Copy) (f : FaultInfo) : RecSpec :=
  let i := s.inst? c.inst
  { code := fcCopyFault, cause := f.code, addr := f.addr, prog := c.prog, slot := c.slot, lsid := c.lsid, pitch := c.pitch
    record := recordVa ((i.map Inst.templ).getD 0) c.idx, tag := (i.map Inst.tag).getD 0 }

/-- Whether a copy is of the task of another: of a REDUNDANT task, of either twin. -/
def Copy.ofTask (c d : Copy) : Bool := c.inst == d.inst && c.idx == d.idx

/-- Whether a copy has a record that awaits RESUME. -/
def Copy.reported (c : Copy) : Bool :=
  match c.stall with
  | .stalled _ _ => true
  | .no => false
  | .draining _ => false

/-- The task of a twin's copy has been stopped: by a fault of either twin, or by another copy of it (18 R381). -/
def State.twinStopped (s : State) (c : Copy) : Bool :=
  ((s.rec? c.inst c.idx).any fun x => x.st == .stalled) || s.fab.copies.any fun d => d.ofTask c && d.reported

/-- A stalled copy of a twin: it stops both twins, by one record of the task; where no twin runs, the task stays PLACED (14 R301;
18 R381). -/
def State.reportTwinCopy (s : State) (c : Copy) (f : FaultInfo) : State :=
  if s.twinStopped c then s
  else
    let n := s.nextSeq c.ctx
    let spec := s.copySpec c f
    let s := s.modCopy c.id fun x => { x with stall := .stalled n f }
    match s.running.find? fun x => x.2.inst == c.inst && x.2.idx == c.idx with
    | some x => s.takeFault x.1 spec .never x.2.inCommit
    | none => s.recordAwait c.ctx spec (.copy c.id)

/-- A stalled copy is reported. Its task is held where it is committing; both twins are held (18 R371, R381). -/
def State.reportCopy (s : State) (c : Copy) (f : FaultInfo) : State :=
  if c.twin.isSome then s.reportTwinCopy c f
  else
    let spec := s.copySpec c f
    let n := s.nextSeq c.ctx
    let s := s.modCopy c.id fun x => { x with stall := .stalled n f }
    match s.copyRun c with
    | none => s.recordAwait c.ctx spec (.copy c.id)
    | some r =>
      let s := s.recordAwait c.ctx { spec with irrev := r.irrevocable, commit := r.inCommit } (.copy c.id)
      if r.phase = .committing then
        (s.setRun c.tile { r with phase := .stalled n .waits true }).modRec r.inst r.idx fun x => { x with st := .stalled }
      else s

/-- A copy whose failing element is reached by P is reported. -/
def State.settleCopy (s : State) (id : Nat) : State :=
  match s.copy? id with
  | none => s
  | some c =>
    match c.stall with
    | .draining f => if c.prog = c.next then s.reportCopy c f else s
    | .no => s
    | .stalled _ _ => s

/-- Elements of a copy have been completed. -/
def State.elementsDone (s : State) (id : Nat) (l : List Nat) : State := (s.modCopy id fun c => c.complete l).settleCopy id

/-! ## Landings in a scratchpad (09 R186, R187, R189; 11 R240) -/

/-- The scratchpad line of a tile that element i of a copy lands in. -/
def Copy.padLine (c : Copy) (t i : Nat) : Nat := lineKey (padLoc t ((c.desc.dst + c.desc.dstOff i).toNat % 2 ^ 20))

/-- Whether the stamp of a copy is still to be written in a line of its tile. [DEDUCED, log 49] -/
def Copy.stampIn (c : Copy) (key : Nat) : Bool :=
  match c.desc.stamp with
  | some (a, _) => !c.stampDone && isLocal a.toNat && lineKey (padLoc c.tile (a.toNat % 2 ^ 20)) == key
  | none => false

/-- Whether a copy has written every byte that it writes in a line. -/
def Copy.lineOver (c : Copy) (t key : Nat) : Bool :=
  (List.range c.bound).all (fun i => c.padLine t i != key || c.has t i) && !(t == c.tile && c.stampIn key)

/-- A sector or stamp lands; a prefetch leaves WR as it was. -/
def State.landBytes (s : State) (ctx : BitVec 32) (loc : Nat) (bs : List Byte) (pois mark : Bool) : State :=
  let w := (s.line (lineKey loc)).wr
  let s := s.storeFor ctx loc bs pois
  if mark then s else s.modLine (lineKey loc) fun m => { m with wr := w }

/-- F := 1 for a line that a copy has completed, and waiting accesses are served. -/
def State.landFull (s : State) (key : Nat) (mark : Bool) : State :=
  (s.modLine key fun m => { m with full := true, wr := m.wr || mark }).serve

/-- A line landed poisoned counts once for the task of its tile (05 R116). [DEDUCED, log 22] -/
def State.countPoison (s : State) (id t key : Nat) : State :=
  match s.copy? id with
  | none => s
  | some c =>
    if c.poisLines.contains key then s
    else
      (if c.desc.kind = .prefetch then s
        else s.modRun t fun r => { r with poiscnt := min (r.poiscnt + 1) (2 ^ 32 - 1) }).modCopy id fun c =>
        { c with poisLines := key :: c.poisLines }

/-- How many sectors of a line some elements of a copy write there, each counted once. -/
def Copy.sectorsOf (c : Copy) (l : List Nat) : Nat := ((l.map fun i => (c.desc.dst + c.desc.dstOff i).toNat / 16 % 8).eraseDups).length

/-- Whether the elements of a copy cover a scratchpad line of a tile whole. -/
def Copy.coversPad (c : Copy) (t key : Nat) : Bool := 8 ≤ c.sectorsOf ((List.range c.bound).filter fun i => c.padLine t i == key)

/-- A line that a copy has written whole takes the poison of the copied data (09 R187, R205). -/
def State.wholeLine (s : State) (id key : Nat) : State :=
  match s.copy? id with
  | none => s
  | some c => s.modLine key fun m => { m with pois := c.poisLines.contains key }

/-- Element i of a copy lands in the scratchpad of a tile; c is the copy without the entry that lands. -/
def State.landElem (s : State) (c : Copy) (t i : Nat) (data : BitVec 128) (pois : Bool) : State :=
  let mark := c.desc.kind != .prefetch
  let off := (c.desc.dst + c.desc.dstOff i).toNat % 2 ^ 20
  let key := c.padLine t i
  let s := s.landBytes c.ctx (padLoc t off) (toBytes data.toNat 16) pois mark
  let s := if pois then s.countPoison c.id t key else s
  if c.lineOver t key then (if c.coversPad t key then s.wholeLine c.id key else s).landFull key mark else s

/-- The location of a device line that element i of a copy is written in, as far as its destination stays in one page run:
the lines of one copy are told apart by their virtual addresses. -/
def Copy.devLine (c : Copy) (i : Nat) : Nat := (c.desc.dst + c.desc.dstOff i).toNat / 128

/-- An element of a copy is written in device memory. -/
def State.storeElem (s : State) (c : Copy) (e : Elem) : State :=
  let key := lineKey e.loc
  let s := s.storeFor c.ctx e.loc (toBytes e.data.toNat 16) e.pois
  let s := if e.pois then s.modCopy c.id fun y => { y with poisLines := key :: y.poisLines } else s
  let l := (List.range c.bound).filter fun i => c.devLine i == c.devLine e.n
  if decide (8 ≤ c.sectorsOf l) && l.all (c.has c.tile) then s.wholeLine c.id key else s

end Sys2Proof.Machine
end

