-- ==== Sys2Proof/Machine/Graph.lean ====
section
/-! DEFINITION. Decrements, creations and messages: DECREMENT_APPLY, STRAY_DECREMENT_ANSWER, INSTANCE_CREATE,
MESSAGE_ACCEPT, HANDLER_DELIVERY, MAILBOX_OVERFLOW (13 R275, R276, R282-R289; 15 R318-R325). -/

namespace Sys2Proof.Machine

/-! ## Strays (15 R324) -/

/-- A decrement counts as received (14 R311). [DEDUCED, log 58] -/
def State.received (s : State) (ctx : BitVec 32) (die : Nat) : State :=
  s.tally ctx die fun c => { c with received := c.received + 1 }

/-- A stray of a number: counted, and reported to the context. -/
def State.stray (s : State) (ctx : BitVec 32) (die n : Nat) (addr : BitVec 64) (tag : BitVec 32) : State :=
  (s.count die fun d => { d with stray := d.stray + 1 }).record ctx { code := fcStray, cause := n, addr := addr, tag := tag }

/-- The live instance of a template and tag. -/
def State.liveInst (s : State) (ctx : BitVec 32) (templ : BitVec 64) (tag : BitVec 32) : Option Inst :=
  s.insts.find? fun i => i.ctx == ctx && i.templ == templ && i.tag == tag && !i.lost

/-! ## Applying a decrement to a record -/

/-- The counter falls; at zero the record becomes PENDING; an amount above the counter is also a stray. -/
def State.lower (s : State) (i : Inst) (idx amt : Nat) : State :=
  match i.recs[idx]? with
  | none => s.stray i.ctx i.die 4 i.templ i.tag
  | some x =>
    if x.st ≠ .waiting || x.counter = 0 then s.stray i.ctx i.die 2 i.templ i.tag
    else if amt < x.counter.toNat then s.modRec i.id idx fun x => { x with counter := x.counter - BitVec.ofNat 32 amt }
    else
      let s := if x.counter.toNat < amt then s.stray i.ctx i.die 2 i.templ i.tag else s
      (s.modRec i.id idx fun x => { x with counter := 0 }).toPending i.id idx

/-- A scope-00 decrement carries its slot and generation. -/
def State.lowerSlot (s : State) (d : Decrement) (inst idx gen : Nat) (templ : BitVec 64) (tag : BitVec 32) : State :=
  match s.inst? inst with
  | none => (s.stray d.ctx d.die 1 templ tag).received d.ctx d.die
  | some i =>
    let s := s.received i.ctx i.die
    match i.recs[idx]? with
    | none => s.stray i.ctx i.die 4 templ tag
    | some x => if x.gen ≠ gen then s.stray i.ctx i.die 1 templ tag else s.lower i idx d.amt

/-- The home die of a template's instance (15 R318). -/
def homeDie (t : TemplInfo) (tag : BitVec 32) : Nat := (tag.toNat + locPa t.loc / 256 % 4) % 4

/-- The kept verdict of a template. -/
def State.templInfo? (s : State) (ctx : BitVec 32) (templ : BitVec 64) : Option TemplInfo :=
  (s.ctx? ctx).bind fun c => c.templates.find? fun t => t.templ == templ && t.bad.isNone

/-- Die of the instance a decrement waits for. [DEDUCED, log 61] -/
def State.parkDie (s : State) (d : Decrement) (templ : BitVec 64) (tag : BitVec 32) : Nat :=
  match s.templInfo? d.ctx templ with
  | some t => homeDie t tag
  | none => d.die

/-- A decrement whose context does not exist: the peer that sent it is answered, or it is a stray 5 here (15 R324; 19 R391). -/
def State.decNowhere (s : State) (d : Decrement) (addr : BitVec 64) (tag : BitVec 32) : State :=
  match d.port with
  | some p => s.faultPeer p fcStray
  | none => s.stray d.ctx d.die 5 addr tag

/-- A tag-addressed decrement: applied to the live instance, or parked until one is created; a stray where its context has been
destroyed (19 R391). -/
def State.lowerTagged (s : State) (d : Decrement) (templ : BitVec 64) (tag : BitVec 32) (idx : Nat) : State :=
  match s.liveInst d.ctx templ tag with
  | some i => (s.received i.ctx i.die).lower i idx d.amt
  | none =>
    if (s.ctx? d.ctx).isNone then s.decNowhere d templ tag else
    let die := s.parkDie d templ tag
    let s := (s.received d.ctx die).count die fun c => { c with park := c.park + 1 }
    { s with fab := { s.fab with parked := s.fab.parked ++ [{ d with target := .tagged templ tag idx, pub := none }] } }

/-- The offset of a location in the image of a template that has passed its check, its header and records or its successor area, as
the image is mapped now. -/
def State.imageOffset (s : State) (ctx : BitVec 32) (t : TemplInfo) (loc : Nat) : Option Nat :=
  if t.bad.isSome then none
  else
    let l := s.imageParts ctx t.templ.toNat 0 (256 * (t.nrec + 1)) ++ s.imageParts ctx t.templ.toNat t.succoff t.succlen
    (l.find? fun p => p.loc ≤ loc && decide (loc < p.loc + p.len)).map fun p => p.off + (loc - p.loc)

/-- The checked template of a context whose image holds a location, and the offset there (15 R323). -/
def State.templAt (s : State) (ctx : BitVec 32) (loc : Nat) : Option (TemplInfo × Nat) :=
  (s.ctx? ctx).bind fun c => c.templates.findSome? fun t => (s.imageOffset ctx t loc).map fun o => (t, o)

/-- The record index a remote address names, from its offset; a header gives an index that no template has. -/
def remoteIndex (off : Nat) : Nat := if off < 256 then 2 ^ 24 else off / 256 - 1

/-- The address of a location as a peer knows it: its memory's code in [51:49] (16 R336). -/
def peerAddr (loc : Nat) : Nat := locSpace loc * 2 ^ 49 + locPa loc

/-- A remote decrement at its destination package, this one. -/
def State.lowerRemote (s : State) (d : Decrement) (loc : Nat) (va : BitVec 64) (tag : BitVec 32) : State :=
  match s.templAt d.ctx loc with
  | none => if (s.ctx? d.ctx).isNone then s.decNowhere d va tag else (s.stray d.ctx d.die 6 va tag).received d.ctx d.die
  | some x => s.lowerTagged d x.1.templ tag (remoteIndex x.2)

def State.addDec (s : State) (d : Decrement) : State := { s with fab := { s.fab with decs := s.fab.decs ++ [d] } }

/-- A decrement for a peer package leaves over UALink; one whose peer takes none is stray 5. -/
def State.sendDec (s : State) (d : Decrement) (pkg loc : Nat) (va : BitVec 64) (tag : BitVec 32) : State :=
  match s.peer? pkg with
  | some p =>
    if p.rdec then
      (s.sendTo (locOf spHbm (pkg + 1) 0 0) 1 (.peerDecrement pkg d.ctx (peerAddr loc) tag d.amt)).addDec { d with answered := true, pub := none }
    else (s.stray d.ctx d.die 5 va tag).received d.ctx d.die
  | none => (s.stray d.ctx d.die 5 va tag).received d.ctx d.die

/-- A decrement reaches its destination. -/
def State.applyDec (s : State) (d : Decrement) : State :=
  match d.target with
  | .slot inst idx gen templ tag => s.lowerSlot d inst idx gen templ tag
  | .tagged templ tag idx => s.lowerTagged d templ tag idx
  | .noCont templ tag => (s.stray d.ctx d.die 3 templ tag).received d.ctx d.die
  | .remote pkg loc va tag => if pkg = s.pkg.id.toNat then s.lowerRemote d loc va tag else s.sendDec d pkg loc va tag

/-- Where a decrement's way leads: a location of a peer, or of this package. -/
def Decrement.way (d : Decrement) : Nat :=
  match d.target with
  | .remote pkg _ _ _ => locOf spHbm (pkg + 1) 0 0
  | .slot _ _ _ _ _ => 0
  | .tagged _ _ _ => 0
  | .noCont _ _ => 0

/-- DECREMENT_APPLY (15 R324). -/
def execDecrementApply (k : Nat) (s : State) : Host.Outcome State Fault Refusal :=
  match s.fab.decs[k]? with
  | none => .next s
  | some d =>
    if d.answered || s.linkDown d.way then .next s
    else .next (({ s with fab := { s.fab with decs := s.fab.decs.eraseIdx k } } : State).applyDec d)

/-- The answer of a peer that does not hold the context. -/
def State.decAnswer (s : State) (d : Decrement) : State :=
  match d.target with
  | .remote _ _ va tag => (s.stray d.ctx d.die 5 va tag).received d.ctx d.die
  | .slot _ _ _ _ _ => s
  | .tagged _ _ _ => s
  | .noCont _ _ => s

/-- STRAY_DECREMENT_ANSWER (15 R324): the sending die counts the stray and reports it to the sender's context. -/
def execStrayDecrementAnswer (k : Nat) (s : State) : Host.Outcome State Fault Refusal :=
  match s.fab.decs[k]? with
  | none => .next s
  | some d =>
    if d.answered then .next (({ s with fab := { s.fab with decs := s.fab.decs.eraseIdx k } } : State).decAnswer d) else .next s

/-! ## Creation (15 R318) -/

/-- Parked decrements for a new instance, in arrival order. -/
def State.parkedFor (s : State) (ctx : BitVec 32) (templ : BitVec 64) (tag : BitVec 32) : List (Nat × Nat) :=
  s.fab.parked.filterMap fun d =>
    match d.target with
    | .tagged t g idx => if d.ctx == ctx && t == templ && g == tag then some (idx, d.amt) else none
    | .slot _ _ _ _ _ => none
    | .noCont _ _ => none
    | .remote _ _ _ _ => none

/-- Parked decrements that stay parked. -/
def Decrement.isFor (d : Decrement) (ctx : BitVec 32) (templ : BitVec 64) (tag : BitVec 32) : Bool :=
  match d.target with
  | .tagged t g _ => d.ctx == ctx && t == templ && g == tag
  | .slot _ _ _ _ _ => false
  | .noCont _ _ => false
  | .remote _ _ _ _ => false

/-- Counters after the parked decrements, and the numbers of the strays among them. -/
def applyParked : List (Nat × Nat) → List Nat → List Nat × List Nat
  | [], cs => (cs, [])
  | (idx, amt) :: rest, cs =>
    match cs[idx]? with
    | none => let r := applyParked rest cs; (r.1, 4 :: r.2)
    | some n =>
      if n = 0 then let r := applyParked rest cs; (r.1, 2 :: r.2)
      else if n < amt then let r := applyParked rest (cs.set idx 0); (r.1, 2 :: r.2)
      else applyParked rest (cs.set idx (n - amt))

def State.strays (s : State) (ctx : BitVec 32) (die : Nat) (templ : BitVec 64) (tag : BitVec 32) : List Nat → State
  | [] => s
  | n :: rest => State.strays (s.stray ctx die n templ tag) ctx die templ tag rest

/-- The rename table of a creation (15 R318, R325). -/
def State.renameTable (s : State) (c : Creation) (t : TemplInfo) : Except FaultInfo (List (BitVec 64)) :=
  if c.rename = 0 then .ok (List.replicate t.nbuf 0)
  else if c.rename = 1 then .ok ((List.range t.nbuf).map fun k => wordOf c.table k)
  else s.devWords c.ctx c.rename.toNat t.nbuf

/-- The records of a new instance as the image holds them. -/
def State.newRecs (s : State) (c : Creation) (t : TemplInfo) : Except FaultInfo (List (List (BitVec 64))) :=
  match s.devWords c.ctx c.templ.toNat (32 * (t.nrec + 1)) with
  | .error f => .error f
  | .ok img => .ok ((List.range t.nrec).map fun i => imageRecord img i)

/-- The lines read for a new instance: its records, and a rename table in memory. -/
def State.verifyTables (s : State) (c : Creation) (t : TemplInfo) : State :=
  let s := s.verifyWords c.ctx c.templ.toNat (32 * (t.nrec + 1))
  if c.rename = 0 ∨ c.rename = 1 then s else s.verifyWords c.ctx c.rename.toNat t.nbuf

/-- The new instance. -/
def State.newInst (s : State) (c : Creation) (t : TemplInfo) (ren : List (BitVec 64)) (ws : List (List (BitVec 64)))
    (counters : List Nat) : Inst :=
  { id := s.fab.nextId, ctx := c.ctx, templ := c.templ, tag := c.tag, die := homeDie t c.tag, prio := c.prio, k := t.k
    nrec := t.nrec, succoff := t.succoff, rename := ren, cont := c.cont
    mbox := match c.origin with | .mailbox m _ _ => some m | .launch _ => none | .spawn => none
    msg := match c.origin with | .mailbox _ w h => some (h, w) | .launch _ => none | .spawn => none
    recs := (ws.zip counters).map fun x => { words := x.1, counter := BitVec.ofNat 32 x.2 } }

/-- Records with counter zero become PENDING. -/
def State.startZero (s : State) (inst : Nat) : List (Nat × Nat) → State
  | [] => s
  | (c, idx) :: rest => State.startZero (if c = 0 then s.toPending inst idx else s) inst rest

/-! ## Launch queues (13 R275, R276) -/

/-- Set the error of a ring, if it can be written, and keep it. -/
def State.launchError (s : State) (ctx : BitVec 32) (queue : Nat) (q : Option Qcb) (va : BitVec 64) (f : FaultInfo) : State :=
  let s := match q with
    | some q => s.qcbErr ctx q
    | none => s.modCtx ctx fun c => { c with launch := c.launch.map fun (x : Nat × QcbReg) => if x.1 = queue then (x.1, { x.2 with err := true }) else x }
  s.ringError ctx va f

/-- What a launch entry fails with when it is examined: zero fields, RENAME, or TEMPL or RENAME that cannot be read (13 R276). A TEMPL
that is no multiple of 256 is taken as an image (15 R313). [DESIGN CHOICE, log 124] -/
def State.entryFault (s : State) (ctx : BitVec 32) (x : BitVec 256) : Option FaultInfo :=
  if !leZeros x || !renameOk (leRename x) then some { code := fcIllegalEncoding }
  else
    match s.devLoc ctx (leTempl x).toNat 256 false with
    | .error f => some f
    | .ok _ =>
      if leRename x = 0 then none
      else
        match s.devLoc ctx (leRename x).toNat 8 false with
        | .error f => some f
        | .ok _ => none

/-- HEAD of a launch queue advances past its first entry. -/
def State.advanceHead (s : State) (ctx : BitVec 32) (q : Qcb) : State := s.qcbWord ctx q.loc 32 ((bitsAt q.head 0 32 + 1) % 2 ^ 32)

/-- A creation is asked for; creations are served in the order they are asked for. -/
def State.askCreation (s : State) (c : Creation) : State := { s with fab := { s.fab with creations := s.fab.creations ++ [c] } }

/-- A launch queue has an entry whose creation is under way. -/
def State.launching (s : State) (ctx : BitVec 32) (queue : Nat) : Bool :=
  s.fab.creations.any fun c => c.ctx == ctx && c.origin == .launch queue

/-- A ring is examined: entries in index order, a faulty one consumed with a record, the first good one taken (13 R276). -/
def State.takeLaunch (s : State) (ctx : BitVec 32) (queue : Nat) : Nat → State
  | 0 => s
  | n + 1 =>
    match s.ctx? ctx with
    | none => s
    | some c =>
      match c.launch.find? fun x => x.1 == queue with
      | none => s
      | some reg =>
        if s.launching ctx queue then s
        else
          let s := s.noteRing ctx (some reg.2)
          match s.viewRing ctx qLaunch (some reg.2) with
          | .unused => s
          | .lost f => s.launchError ctx queue none reg.2.va f
          | .broken q => s.launchError ctx queue (some q) reg.2.va { code := fcIllegalEncoding }
          | .ready q =>
            if q.used = 0 then s
            else
              match s.entryLoc ctx q 32 q.head with
              | .error f => s.launchError ctx queue (some q) reg.2.va f
              | .ok l =>
                let x := BitVec.ofNat 256 (s.mem.value l 32)
                let at_ := BitVec.ofNat 64 (q.base + 32 * (bitsAt q.head 0 32 % 2 ^ q.log2n))
                let s := (s.verifyLine ctx (lineKey l)).tally ctx 0 fun c => { c with sent := c.sent + 1 }
                match s.entryFault ctx x with
                | some f =>
                  State.takeLaunch (((s.record ctx { code := f.code, cause := f.cause, addr := at_ }).received ctx 0).advanceHead ctx q)
                    ctx queue n
                | none =>
                  s.askCreation
                    { ctx := ctx, templ := leTempl x, rename := leRename x, tag := leTag x, prio := lePrio x
                      cont := if leCv x then some (leTempl x, leCont x) else none, origin := .launch queue, entryAddr := at_ }

/-- Entries of a launch queue that can be consumed at one examination. -/
def State.launchFuel (s : State) (ctx : BitVec 32) (queue : Nat) : Nat :=
  match (s.ctx? ctx).bind fun c => c.launch.find? fun x => x.1 == queue with
  | none => 1
  | some reg =>
    match s.readQcb ctx reg.2.va with
    | .ok q => q.used + 1
    | .error _ => 1

/-- The entry of a launch queue whose creation ended is passed, and the ring examined again, unless the microcode is being changed
(20 R407). -/
def State.passLaunch (s : State) (ctx : BitVec 32) (queue : Nat) : State :=
  match (s.ctx? ctx).bind fun c => c.launch.find? fun x => x.1 == queue with
  | none => s
  | some reg =>
    match s.readQcb ctx reg.2.va with
    | .ok q =>
      let s := s.advanceHead ctx q
      if s.pkg.change.isSome then s else s.takeLaunch ctx queue (s.launchFuel ctx queue)
    | .error f => s.launchError ctx queue none reg.2.va f

/-! ## The end of a creation -/

/-- A creation is over, made or refused: a launch entry is consumed; launches and spawns count as received (14 R311). -/
def State.creationOver (s : State) (c : Creation) (die : Nat) : State :=
  match c.origin with
  | .launch q => (s.received c.ctx die).passLaunch c.ctx q
  | .spawn => s.received c.ctx die
  | .mailbox _ _ _ => s

/-- A refused creation: reported; a mailbox keeps its message and suspends delivery until the next BIND (13 R289). [DEDUCED, log 57] -/
def State.refuseCreation (s : State) (c : Creation) (f : FaultInfo) (addr : BitVec 64) : State :=
  match c.origin with
  | .mailbox m _ _ =>
    (s.record c.ctx { code := f.code, cause := f.cause, addr := c.templ }).modCtx c.ctx fun x =>
      x.modMbox m fun b => { b with broken := true }
  | .launch _ => (s.record c.ctx { code := f.code, cause := f.cause, addr := addr }).creationOver c c.die
  | .spawn => (s.record c.ctx { code := f.code, cause := f.cause, addr := addr }).creationOver c c.die

/-- ADDR of an unreadable template or table: the entry's address for a launch (13 R276; 15 R318). -/
def Creation.unreadAddr (c : Creation) (a : BitVec 64) : BitVec 64 :=
  match c.origin with
  | .launch _ => c.entryAddr
  | .spawn => a
  | .mailbox _ _ _ => c.templ

/-- A mailbox delivers with its creation: the message leaves, LIVE grows (13 R283). -/
def State.delivered (s : State) (c : Creation) : State :=
  match c.origin with
  | .mailbox m _ _ => s.modCtx c.ctx fun x => x.modMbox m fun b => { b with held := b.held.drop 1, live := b.live + 1 }
  | .launch _ => s
  | .spawn => s

/-- The instance comes into being; none when its records find no room (15 R318, R321). -/
def State.buildInst (s : State) (c : Creation) (t : TemplInfo) (ren : List (BitVec 64)) (ws : List (List (BitVec 64))) :
    Option State :=
  let p := applyParked (s.parkedFor c.ctx c.templ c.tag) (ws.map recCount)
  let i := s.newInst c t ren ws p.1
  let s1 : State := { s with
    insts := s.insts ++ [i]
    fab := { s.fab with
      nextId := s.fab.nextId + 1
      parked := s.fab.parked.filter fun d => !d.isFor c.ctx c.templ c.tag } }
  (s1.room c.ctx i.die).map fun s2 =>
    ((s2.strays c.ctx i.die c.templ c.tag p.2).startZero i.id p.1.zipIdx).delivered c

/-- A creation whose turn has come: made, refused, or waiting for K, its tag, or room. -/
def State.tryCreate (s : State) (k : Nat) (c : Creation) : State :=
  let v := s.verdictOf c.ctx c.templ
  let s := v.1
  let gone : State := { s with fab := { s.fab with creations := s.fab.creations.eraseIdx k } }
  match v.2 with
  | .error f => gone.refuseCreation c f (c.unreadAddr f.addr)
  | .ok t =>
    match t.bad with
    | some a => gone.refuseCreation c { code := fcIllegalEncoding } a
    | none =>
      if t.k ≤ (s.insts.filter fun i => i.ctx == c.ctx && i.templ == c.templ && !i.lost).length then s
      else if (s.liveInst c.ctx c.templ c.tag).isSome then s
      else
        match s.renameTable c t with
        | .error f => (gone.verifyWalk none c.ctx f).refuseCreation c f (c.unreadAddr c.rename)
        | .ok ren =>
          match s.newRecs c t with
          | .error f => (gone.verifyWalk none c.ctx f).refuseCreation c f (c.unreadAddr f.addr)
          | .ok ws =>
            match (gone.verifyTables c t).buildInst c t ren ws with
            | none => s
            | some s => s.creationOver c (homeDie t c.tag)

/-- INSTANCE_CREATE (15 R318): creations of one template in their order of arrival. -/
def execInstanceCreate (k : Nat) (s : State) : Host.Outcome State Fault Refusal :=
  match s.fab.creations[k]? with
  | none => .next s
  | some c =>
    if (s.fab.creations.take k).any fun d => d.ctx == c.ctx && d.templ == c.templ then .next s
    else .next (s.tryCreate k c)

/-! ## Mailboxes (13 R283-R289) -/

/-- Whether the oldest message of a mailbox may be delivered now, and none is being delivered. -/
def State.deliverable (s : State) (c : Ctx) (m : Nat) : Bool :=
  let b := c.mbox m
  b.bound && !b.broken && decide (b.live < b.h) && !b.held.isEmpty &&
    !s.fab.creations.any fun d => d.ctx == c.id && (match d.origin with
      | .mailbox n _ _ => n == m
      | .launch _ => false
      | .spawn => false)

/-- Delivery of the oldest message of a mailbox: its handler's creation is asked for; a handler that cannot be read, or
has no such record, suspends delivery (13 R289). -/
def State.deliverMessage (s : State) (c : Ctx) (m : Nat) : State :=
  let b := c.mbox m
  match b.held with
  | [] => s
  | (num, words) :: _ =>
    let ask : Creation :=
      { ctx := c.id, templ := b.htempl, rename := 0, tag := num, prio := b.hprio, origin := .mailbox m words b.hrec }
    let v := s.verdictOf c.id b.htempl
    match v.2 with
    | .error f => v.1.refuseCreation ask f b.htempl
    | .ok t =>
      if t.bad.isSome || t.nrec ≤ b.hrec then v.1.refuseCreation ask { code := fcIllegalEncoding } b.htempl
      else v.1.askCreation ask

/-- HANDLER_DELIVERY (13 R283). -/
def execHandlerDelivery (ctx : BitVec 32) (mbox : Nat) (s : State) : Host.Outcome State Fault Refusal :=
  match s.ctx? ctx with
  | none => .next s
  | some c => if s.deliverable c mbox then .next (s.deliverMessage c mbox) else .next s

/-- A delivery under way is withdrawn when the binding changes: its message stays held (13 R289). -/
def State.dropDelivery (s : State) (ctx : BitVec 32) (m : Nat) : State :=
  { s with fab := { s.fab with creations := s.fab.creations.filter fun d =>
      !(d.ctx == ctx && (match d.origin with
        | .mailbox n _ _ => n == m
        | .launch _ => false
        | .spawn => false)) } }

/-- BIND (13 R289): a failed verdict of the template is not kept for a new binding; K of a template that cannot be read, or fails its
check, is taken as 256, the most it can be. [DESIGN CHOICE, log 116] -/
def State.bindMbox (s : State) (ctx : BitVec 32) (templ ctl : BitVec 64) : State :=
  let m := bcMbox ctl
  let s := (s.dropDelivery ctx m).modCtx ctx fun c =>
    { c with templates := c.templates.filter fun t => !(t.templ == templ && t.bad.isSome) }
  let v := s.verdictOf ctx templ
  let k := match v.2 with
    | .ok t => if t.bad.isSome then 256 else t.k
    | .error _ => 256
  v.1.modCtx ctx fun c => c.modMbox m fun b =>
    { b with bound := true, htempl := templ, hrec := bcHrec ctl, hprio := bcPrio ctl, h := min (bcHm1 ctl + 1) k, broken := false }

/-- UNBIND (13 R289). -/
def State.unbindMbox (s : State) (ctx : BitVec 32) (m : Nat) : State :=
  (s.dropDelivery ctx m).modCtx ctx fun c => c.modMbox m fun b => { b with bound := false }

/-- The die that holds a mailbox (13). -/
def mboxDie (m : Nat) : Nat := m % 4

/-- A message finds no destination: a stray of the sender's context (13 R288). -/
def State.strayMessage (s : State) (m : Message) : State :=
  ((s.count (mboxDie m.mbox) fun d => { d with stray := d.stray + 1 }).record m.sender
    { code := fcStray, cause := 0, record := m.recVa, tag := m.tag, addr := m.ctl }).received m.sender (mboxDie m.mbox)

/-- A message leaves the list of those in flight. -/
def State.dropMessage (s : State) (k : Nat) : State := { s with fab := { s.fab with msgs := s.fab.msgs.eraseIdx k } }

/-- The package a message goes to; none for this one. -/
def Message.pkg (m : Message) : Option Nat := if scRemote m.ctl then some (scPkg m.ctl) else none

/-- A message changes where it stands in the list of those in flight. -/
def State.setMessage (s : State) (k : Nat) (m : Message) : State := { s with fab := { s.fab with msgs := s.fab.msgs.set k m } }

/-- A message that has reached its mailbox waits for room, behind those that wait already (13 R284). -/
def State.waitMessage (s : State) (k : Nat) (m : Message) : State :=
  if m.waiting then s
  else s.takeId.setMessage k { m with waiting := true, waitsFrom := s.cycle, order := s.fab.nextId }

/-- A message is accepted; its receipt counts in the sender's context, where its sending counted. -/
def State.messageDone (s : State) (k : Nat) (m : Message) : State := (s.dropMessage k).received m.sender (mboxDie m.mbox)

/-- The answer of the peer to a SEND for it, which is the peer's own: accepted, a stray there, or back-pressured
(13 R284, R288). [DESIGN CHOICE, log 108] -/
def State.peerAnswer (s : State) (k : Nat) (m : Message) : State :=
  let a := (Config.freeByte s.free).toNat % 4
  let s : State := { s with free := s.free + 1 }
  if a = 0 then (s.dropMessage k).strayMessage m
  else if a = 1 then s.waitMessage k m
  else s.dropMessage k

/-- A message whose context does not exist, or has been destroyed while it waited: the peer that sent it is answered, else it is a
stray here (13 R288; 19 R391). -/
def State.messageNowhere (s : State) (k : Nat) (m : Message) : State :=
  match m.port with
  | some p => (s.dropMessage k).faultPeer p fcStray
  | none => (s.dropMessage k).strayMessage m

/-- Where a message's way leads. -/
def Message.way (m : Message) : Nat :=
  match m.pkg with
  | some p => locOf spHbm (p + 1) 0 0
  | none => 0

/-- A message reaches its mailbox: accepted, or back-pressured for want of room (13 R283, R284); one for another package
leaves over UALink, and stays outstanding until the peer has answered. -/
def State.arriveMessage (s : State) (k : Nat) (m : Message) : State :=
  match m.pkg with
  | some p =>
    if m.sent then s.peerAnswer k m
    else if (s.peer? p).map Peer.mbox = some true then
      (s.setMessage k { m with sent := true }).sendTo m.way 1 (.peerMessage p m.ctx m.mbox m.words)
    else (s.dropMessage k).strayMessage m
  | none =>
    if (s.ctx? m.ctx).isNone then s.messageNowhere k m
    else
      match s.acceptMessage m.ctx m.mbox m.words with
      | some t => t.messageDone k m
      | none => s.waitMessage k m

/-- Two messages for one mailbox. -/
def Message.sameBox (a b : Message) : Bool := a.ctx == b.ctx && a.mbox == b.mbox && a.pkg == b.pkg

/-- Two messages whose order is kept: those of one commit, and those a port brought for one sender (13 R283). -/
def Message.inOrder (a b : Message) : Bool :=
  a.sameBox b && ((a.pub.isSome && a.pub == b.pub) || (a.port.isSome && a.port == b.port && a.sender == b.sender))

/-- A message that came to a mailbox before another and waits there (13 R284). -/
def Message.waitsBefore (a b : Message) : Bool := a.sameBox b && a.waiting && (!b.waiting || a.order < b.order)

/-- BIND or UNBIND k reaches its mailbox; those of one commit to one mailbox in belay order (13 R289). -/
def State.arriveBind (s : State) (k : Nat) : State :=
  match s.fab.binds[k]? with
  | none => s
  | some b =>
    if (s.fab.binds.take k).any fun x => x.ctx == b.ctx && x.mbox == b.mbox && x.pub == b.pub then s
    else
      let s : State := { s with fab := { s.fab with binds := s.fab.binds.eraseIdx k } }
      match b.bind with
      | some x => s.bindMbox b.ctx x.1 x.2
      | none => s.unbindMbox b.ctx b.mbox

/-- MESSAGE_ACCEPT (13 R283, R284, R289): a number beyond the messages names a BIND or UNBIND on its way; messages of one commit to one mailbox in belay order, and none past one that came before it
and waits for room. -/
def execMessageAccept (k : Nat) (s : State) : Host.Outcome State Fault Refusal :=
  match s.fab.msgs[k]? with
  | none => .next (s.arriveBind (k - s.fab.msgs.length))
  | some m =>
    if ((s.fab.msgs.take k).any fun x => x.inOrder m && (!x.waiting || m.pkg.isSome)) || s.linkDown m.way then .next s
    else if m.pkg.isNone && s.fab.msgs.any fun x => x.waitsBefore m then .next (s.waitMessage k m)
    else .next (s.arriveMessage k m)

/-- MAILBOX_OVERFLOW (13 R284): a SEND that has waited 2^20 cycles is reported once, and waits on. -/
def execMailboxOverflow (k : Nat) (s : State) : Host.Outcome State Fault Refusal :=
  match s.fab.msgs[k]? with
  | none => .next s
  | some m =>
    if m.waiting && !m.reported && decide (m.waitsFrom + 2 ^ 20 ≤ s.cycle) then
      let s := s.setMessage k { m with reported := true }
      .next (match m.port with
        | some p => s.faultPeer p fcMailboxOverflow
        | none => s.record m.sender
          { code := fcMailboxOverflow, record := m.recVa, tag := m.tag, addr := BitVec.ofNat 64 (m.mbox + 2 ^ 32 * m.ctx.toNat) })
    else .next s

end Sys2Proof.Machine
end

