-- ==== Sys2Proof/Machine/Commit.lean ====
section
/-! DEFINITION. The end of a task: commit checks and claims, the twins' digests, the handover, and publication
(03 R79; 10 R225-R228; 12 R262, R263; 15 R322, R323; 18 R375, R378-R381). -/

namespace Sys2Proof.Machine

/-! ## The successor list (15 R322, R323) -/

/-- The words of a run's record. -/
def State.runWords (s : State) (r : Run) : List (BitVec 64) := ((s.rec? r.inst r.idx).map Rec.words).getD []

/-- A 4-byte word of a context's memory, as the device reads it. -/
def State.devHalf (s : State) (ctx : BitVec 32) (va : Nat) : Except FaultInfo (BitVec 32) :=
  match s.devLoc ctx va 4 false with
  | .error f => .error f
  | .ok l => .ok (BitVec.ofNat 32 (s.mem.value l 4))

/-- Successor entries of a record from entry k on, with the remote address of scope 11. -/
def State.successors (s : State) (ctx : BitVec 32) (templ : BitVec 64) (off : Nat) : Nat → Nat →
    Except FaultInfo (List (BitVec 32 × BitVec 64))
  | 0, _ => .ok []
  | n + 1, k =>
    match s.devHalf ctx (templ.toNat + off + 4 * k) with
    | .error f => .error f
    | .ok w =>
      match (if sucScope w = 3 then s.devWord ctx (templ.toNat + 8 * sucTarget w) else .ok 0), State.successors s ctx templ off n (k + 1) with
      | .error f, _ => .error f
      | .ok _, .error f => .error f
      | .ok a, .ok rest => .ok ((w, a) :: rest)

/-- The successor list of a run's record. [DEDUCED, log 51] -/
def State.successorsOf (s : State) (r : Run) : Except FaultInfo (List (BitVec 32 × BitVec 64)) :=
  s.successors r.ctx r.templ (recSuccoff (s.runWords r)) (recSuccn (s.runWords r)) 0

/-- The template words that hold the remote addresses of a successor list are read with their check values. -/
def State.verifyRemotes (s : State) (r : Run) : List (BitVec 32 × BitVec 64) → State
  | [] => s
  | x :: rest =>
    State.verifyRemotes (if sucScope x.1 = 3 then s.verifyWords r.ctx (r.templ.toNat + 8 * sucTarget x.1) 1 else s) r rest

/-- The address of the successor list of a record. -/
def Run.listStart (r : Run) (ws : List (BitVec 64)) : Nat := r.templ.toNat + recSuccoff ws

/-! ## Refusal of poison (18 R375) -/

/-- The lowest poisoned sector of a shadow line. -/
def ShadowLine.firstPoison (l : ShadowLine) : Option (BitVec 64) :=
  ((List.range 8).find? fun i => l.pois.getLsbD i).map fun i => l.va + BitVec.ofNat 64 (16 * i)

/-- The lowest address of a list. -/
def lowestAddr (l : List (BitVec 64)) : Option (BitVec 64) :=
  l.foldl (fun b a => match b with
    | none => some a
    | some x => if a.ult x then some a else some x) none

/-- The record of a failed commit check: the instruction's pitch, slot, LSID and exit. -/
def Run.checkSpec (r : Run) (f : FaultInfo) (pitch : BitVec 64) (slot lsid exit : Nat) : RecSpec :=
  { r.recSpec f with pitch := pitch, slot := slot, lsid := lsid, exit := exit, commit := true }

/-- The record of a commit check that names no instruction: the DONE pitch. -/
def Run.doneSpec (r : Run) (f : FaultInfo) : RecSpec := r.checkSpec f r.donePitch 128 0xFF r.doneExit

/-- ADDR of a refusal for a poisoned entry. -/
def CommitEntry.refusalAddr (e : CommitEntry) : BitVec 64 :=
  match e.op with
  | .dec w _ => if sucScope w = 3 then e.addr else 0
  | .spawn _ => 0
  | .send _ _ => 0
  | _ => e.addr

/-- The record of a refused commit; none for a commit that is not refused. -/
def Run.refusal (r : Run) : Option RecSpec :=
  match lowestAddr (r.shadow.filterMap ShadowLine.firstPoison) with
  | some a => some (r.doneSpec { code := fcPoisonCommit, addr := a })
  | none =>
    match r.commit.find? fun e => e.pois with
    | some e => some (r.checkSpec { code := fcPoisonCommit, addr := e.refusalAddr } e.pitch e.slot e.lsid e.exit)
    | none => if r.ctlPois then some (r.doneSpec { code := fcPoisonCommit }) else none

/-- A refused commit (18 R375, R438): a revocable task is abandoned, and killed at its third refusal in a row; an
irrevocable one stalls. -/
def State.refuse (s : State) (t : Nat) (r : Run) (spec : RecSpec) : State :=
  if r.irrevocable then s.takeFault t spec .never true
  else
    let s := s.record r.ctx spec
    match s.rec? r.inst r.idx with
    | none => s
    | some c => if 2 ≤ c.refusals then s.killTask r.inst r.idx else s.abandonTask r.inst r.idx .refusal

/-! ## The checks of one entry (10 R226) -/

/-- Bytes an entry touches and what it needs; none for an entry with no check. -/
def CommitEntry.need (e : CommitEntry) : Option (Nat × Need) :=
  match e.op with
  | .redInt _ _ n _ => some (n, { redNeed n with rap := true })
  | .redF _ _ => some (4, { redNeed 4 with rap := true })
  | .redB _ _ _ => some (128, { redNeed 128 with rap := true })
  | .redo _ _ => some (16, { redNeed 16 with rap := true })
  | .drawm _ _ _ => some (16, { redNeed 16 with rap := true })
  | .release p vec _ =>
    let n := if vec then 128 else 8
    some (n, { sstNeed (if p then 3 else 2) n with rap := true })
  | .flush => none
  | .dec _ _ => none
  | .spawn _ => none
  | .send _ _ => none
  | .bind _ _ => none
  | .unbind _ => none

/-- The element type an entry asks of a peer. -/
def CommitEntry.redTy (e : CommitEntry) : Option ElemType :=
  match e.op with
  | .redB _ ty _ => some ty
  | _ => none

/-- Where an entry's bytes stand, or the fault of its checks. -/
def State.checkEntry (s : State) (t : Nat) (r : Run) (e : CommitEntry) (n : Nat) (nd : Need) : Except FaultInfo Nat :=
  match s.checkAccess t r.ctx nd [(e.addr.toNat, n)] with
  | .error f => .error f
  | .ok [] => .ok 0
  | .ok (b :: _) =>
    if locPkg b.loc ≠ 0 && !s.peerDoes (locPkg b.loc - 1) e.opcode e.redTy then
      .error { code := fcOpUnsupported, addr := e.addr }
    else .ok b.loc

/-- A remote address: R permission, and RAP on a page of a peer; HBM4, DDR-5 or a peer; the package and the location there (10 R226;
15 R323). [DEDUCED, log 68] -/
def State.checkRemote (s : State) (t : Nat) (ctx : BitVec 32) (a : BitVec 64) : Except FaultInfo (Nat × Nat) :=
  match s.checkAccess t ctx { align := 256, r := true, rap := true, noLocal := true, noHost := true } [(a.toNat, 1)] with
  | .error f => .error f
  | .ok [] => .error { code := fcAperture, addr := a }
  | .ok (b :: _) =>
    if locPkg b.loc ≠ 0 then .ok (locPkg b.loc - 1, b.loc)
    else if locSpace b.loc ≤ spDdr then .ok (s.pkg.id.toNat, b.loc)
    else .error { code := fcAperture, cause := 8 + locSpace b.loc, addr := a }

/-- What the commit checks find: a location, a claim on it, a remote decrement's place, or nothing. -/
def State.checkOne (s : State) (t : Nat) (r : Run) (k : Nat) (e : CommitEntry) : Except FaultInfo State :=
  match e.op with
  | .dec w a =>
    if sucScope w = 3 then
      match s.checkRemote t r.ctx a with
      | .error f => .error f
      | .ok x => .ok (s.modRun t fun r => { r with remotes := r.remotes ++ [(k, x.1, x.2)] })
    else .ok s
  | .release produce _ _ =>
    match e.need with
    | none => .ok s
    | some x =>
      match s.checkEntry t r e x.1 x.2 with
      | .error f => .error f
      | .ok l =>
        if !produce && (s.line (lineKey l)).fullFor .fill then .error { code := fcFutureFull, addr := e.addr }
        else
          let n := match s.run? t with | some q => q.claims.length | none => 0
          let c : Claim := { loc := l, produce := produce, granted := false, entry := k }
          .ok ((s.modRun t fun r => { r with bound := r.bound ++ [(k, l)], claims := r.claims ++ [c] }).claimArrive t n c)
  | _ =>
    match e.need with
    | none => .ok s
    | some x =>
      match s.checkEntry t r e x.1 x.2 with
      | .error f => .error f
      | .ok l => .ok (s.modRun t fun r => { r with bound := r.bound ++ [(k, l)] })

/-- The checks of the commit set, in belay order and slot order. -/
def State.checkSet (s : State) (t : Nat) (r : Run) : Nat → List CommitEntry → Except (FaultInfo × CommitEntry) State
  | _, [] => .ok s
  | k, e :: rest =>
    match s.checkOne t r k e with
    | .error f => .error (f, e)
    | .ok s => State.checkSet s t r (k + 1) rest

/-- The checks of the scope-11 entries of the successor list, in list order; their numbers follow the commit set. -/
def State.checkList (s : State) (t : Nat) (r : Run) : Nat → List (BitVec 32 × BitVec 64) → Except FaultInfo State
  | _, [] => .ok s
  | k, x :: rest =>
    if sucScope x.1 = 3 then
      match s.checkRemote t r.ctx x.2 with
      | .error f => .error { f with addr := x.2 }
      | .ok y => State.checkList (s.modRun t fun r => { r with remotes := r.remotes ++ [(k, y.1, y.2)] }) t r (k + 1) rest
    else State.checkList s t r (k + 1) rest

/-- What the checks have gathered so far is given up: claims released, waits withdrawn (10 R228). -/
def State.dropChecks (s : State) (t : Nat) : State :=
  match s.run? t with
  | none => s
  | some r =>
    (((s.setRun t { r with claims := [], remotes := [], bound := [], checked := false, via := [] }).unclaim r.claims).dropRetry t).serve

/-- A failed check stalls the task in COMMITTING (10 R228). -/
def State.failCheck (s : State) (t : Nat) (spec : RecSpec) : State := (s.dropChecks t).takeFault t spec .checks true

/-- The addresses the commit checks translate: those of the commit set and of the successor list. -/
def Run.checkedVas (r : Run) (l : List (BitVec 32 × BitVec 64)) : List (BitVec 64) :=
  (r.commit.filterMap fun e =>
    match e.op with
    | .dec w a => if sucScope w = 3 then some a else none
    | _ => e.need.map fun _ => e.addr) ++ l.filterMap fun x => if sucScope x.1 = 3 then some x.2 else none

/-- The commit checks of a task whose waits are over (10 R226). -/
def State.commitChecks (s : State) (t : Nat) (r : Run) : State :=
  match r.refusal with
  | some x => s.refuse t r x
  | none =>
    match s.checkSet t r 0 r.commit with
    | .error (f, e) => if f.code = fcWait then s else (s.verifyWalk none r.ctx f).failCheck t (r.checkSpec f e.pitch e.slot e.lsid e.exit)
    | .ok s1 =>
      match s1.successorsOf r with
      | .error f => (s.verifyWalk none r.ctx f).failCheck t (r.doneSpec f)
      | .ok l =>
        let s1 := (s1.verifyWords r.ctx (r.listStart (s.runWords r)) ((recSuccn (s.runWords r) + 1) / 2)).verifyRemotes r l
        match s1.checkList t r r.commit.length l with
        | .error f => if f.code = fcWait then s else (s.verifyWalk none r.ctx f).failCheck t (r.doneSpec f)
        | .ok s2 =>
          let via := (r.checkedVas l).flatMap fun a => s.usesAt r.ctx a.toNat
          s2.modRun t fun r => { r with checked := true, via := via }

/-- COMMIT_CHECKS (10 R226): once the waits of R79 are over; of twins only the one chosen to publish. -/
def execCommitChecks (tile : Nat) (s : State) : Host.Outcome State Fault Refusal :=
  match s.run? tile with
  | none => .next s
  | some r =>
    if r.phase = .committing && !r.checked && (r.twin.isNone || r.voted) && !r.dogBefore s.cycle then
      if r.matFault.isSome then .next (s.takeMatFault tile true)
      else if s.waitsDone tile r then .next (s.commitChecks tile r)
      else .next s
    else .next s

/-! ## The handover (03 R79) -/

/-- The sectors of a shadow line that hold marked bytes. -/
def ShadowLine.sectors (l : ShadowLine) : List Nat := (List.range 8).filter fun i => l.mask.toNat / 2 ^ (16 * i) % 2 ^ 16 != 0

/-- The lines handed over for publication. -/
def Run.linesOut (r : Run) : List LineOut :=
  (r.shadow.filter fun l => !l.sectors.isEmpty).map fun l => { line := l, left := l.sectors }

/-- The marked bytes of one sector of a shadow line are written in one step; the last sector of a line written whole leaves its
poison for the line's (12 R259, R262; 09 R187, R205). -/
def State.publishSector (s : State) (x : LineOut) (i : Nat) : State :=
  let l := x.line
  let marked := ((List.range 16).map fun k => 16 * i + k).filter fun b => l.mask.getLsbD b
  let put := fun (s : State) (b : Nat) =>
    { s with mem := s.mem.write (l.loc + b) (BitVec.ofNat 8 (l.data.toNat / 2 ^ (8 * b))) }
  let whole := l.mask == BitVec.allOnes 128 && x.left == [i]
  if absentLoc l.loc then s else (marked.foldl put s).modLine (lineKey l.loc) fun m => m.written whole (if whole then l.pois != 0 else l.pois.getLsbD i) false

/-- Entries applied at step 1 by their banks: reductions. -/
def Run.reductions (r : Run) : List (Nat × CommitOp) :=
  r.commit.zipIdx.filterMap fun x =>
    match x.1.op with
    | .redInt _ _ _ _ | .redF _ _ | .redB _ _ _ => (r.bound.find? fun b => b.1 == x.2).map fun b => (b.2, x.1.op)
    | _ => none

/-- Ordered contributions of step 1. -/
def Run.contributions (r : Run) (pub : Nat) : List Contribution :=
  r.commit.zipIdx.filterMap fun x =>
    let l := ((r.bound.find? fun b => b.1 == x.2).map fun b => b.2).getD 0
    match x.1.op with
    | .redo v q => some { ctx := r.ctx, loc := l, q := q, op := .redo v, pois := x.1.pois, pub := some pub, com := some pub }
    | .drawm p u q => some { ctx := r.ctx, loc := l, q := q, op := .drawm p u, pois := x.1.pois, pub := some pub, com := some pub }
    | _ => none

/-- Release writes of step 2. -/
def Run.releases (r : Run) : List (Nat × Nat × Bool × BitVec 1024) :=
  r.commit.zipIdx.filterMap fun x =>
    match x.1.op with
    | .release _ vec d =>
      (r.bound.find? fun b => b.1 == x.2).map fun b => (lineKey b.2, b.2 % 128, vec, d)
    | _ => none

/-- Graph operations of step 3. -/
def CommitEntry.isGraph (e : CommitEntry) : Bool :=
  match e.op with
  | .dec _ _ => true
  | .spawn _ => true
  | .send _ _ => true
  | .bind _ _ => true
  | .unbind _ => true
  | _ => false

/-- A successor entry as a DEC of step 3. -/
def Run.asDec (r : Run) (x : BitVec 32 × BitVec 64) : CommitEntry :=
  { op := .dec x.1 x.2, addr := x.2, pitch := r.donePitch, exit := r.doneExit, slot := 128, lsid := 255, opcode := 0xE0, sub := 0 }

/-- Remote places renumbered over the graph operations of a publication. -/
def Run.graphOps (r : Run) (l : List (BitVec 32 × BitVec 64)) : List (CommitEntry × Option (Nat × Nat)) :=
  (r.commit ++ l.map r.asDec).zipIdx.filterMap fun x =>
    if x.1.isGraph then some (x.1, (r.remotes.find? fun y => y.1 == x.2).map fun y => y.2) else none

/-- The tiles of other twins of a run. [DEDUCED, log 54] -/
def State.otherTwins (s : State) (t : Nat) (r : Run) : List (Nat × Run) :=
  (s.runsOf r.inst r.idx).filter fun x => x.1 != t

/-- Entries of a commit history (18 R384). -/
def historyLimit : Nat := 65536

/-- A cluster enters a commit in its history; the oldest entry of a full one is dropped. -/
def Cluster.log (c : Cluster) (h : History) : Cluster :=
  let l := c.history ++ [h]
  if historyLimit < l.length then { c with history := l.drop 1, truncated := true } else { c with history := l }

/-- A commit number is given to the task at its handover; its cluster's history takes it, unless twins agreed on it
(18 R384). -/
def State.logHistory (s : State) (t : Nat) (r : Run) : State :=
  let n := s.pkg.commitSeq
  let s : State := { s with pkg := { s.pkg with commitSeq := n + 1 } }
  if r.twin.isSome then s
  else s.modCluster (tileCluster t) fun c => c.log { ctx := r.ctx, recVa := recordVa r.templ r.idx, tag := r.tag, num := n, tile := t }

/-- HANDOVER: step 1 begins and the tile is free (03 R79; 12 R262, R263). [DESIGN CHOICE, log 53] -/
def State.handover (s : State) (t : Nat) (r : Run) (l : List (BitVec 32 × BitVec 64)) : State :=
  let id := s.fab.nextId
  let g := r.graphOps l
  let p : Pub :=
    { id := id, ctx := r.ctx, inst := r.inst, idx := r.idx, tile := t, stores := r.linesOut, reds := r.reductions, rels := r.releases
      graph := g.map fun x => x.1
      remotes := g.zipIdx.filterMap fun x => x.1.2.map fun y => (x.2, y.1, y.2)
      rename := ((s.inst? r.inst).map Inst.rename).getD [], serial := r.serial, via := r.via
      home := { ((s.inst? r.inst).getD { id := r.inst, ctx := r.ctx, templ := r.templ, tag := r.tag, die := 0, nrec := 0, recs := [] }) with
        recs := [] } }
  let s := s.takeId
  let s : State := { s with fab := { s.fab with
    pubs := s.fab.pubs ++ [p], arriving := s.fab.arriving ++ r.contributions id } }
  let s := (s.logHistory t r).modRec r.inst r.idx fun x => x.repeated .other
  ((s.freeTile t r).afterRun t)

/-- HANDOVER (03 R79): every check passed and every claim granted. -/
def execHandover (tile : Nat) (s : State) : Host.Outcome State Fault Refusal :=
  match s.run? tile with
  | none => .next s
  | some r =>
    if r.phase = .committing && r.checked && !r.dogBefore s.cycle && (r.claims.all fun c => c.granted) then
      match s.successorsOf r with
      | .ok l => .next (s.handover tile r l)
      | .error f => .next (s.failCheck tile (r.doneSpec f))
    else .next s

/-! ## Publication (12 R262, R263) -/

def State.pub? (s : State) (id : Nat) : Option Pub := s.fab.pubs.find? fun p => p.id == id

def State.modPub (s : State) (id : Nat) (f : Pub → Pub) : State :=
  { s with fab := { s.fab with pubs := s.fab.pubs.map fun p => if p.id == id then f p else p } }

/-- An effect of the publication of a commit, shown as well to the fetches of the runs that started after it committed
(03 R55). -/
def State.publish (s : State) (id : Nat) (f : State → State) : State :=
  let u := f s
  { u with tiles := u.tiles.map fun x =>
      match x.2.run with
      | some r =>
        if id < r.serial then (x.1, { x.2 with run := some { r with fetchMem := (f { s with mem := r.fetchMem }).mem } }) else x
      | none => x }

/-- The sectors that a publication still has to write: the place of the line, and the sector. -/
def Pub.sectorsLeft (p : Pub) : List (Nat × Nat) := p.stores.zipIdx.flatMap fun x => x.1.left.map fun i => (x.2, i)

/-- A sector of line n is over. -/
def Pub.sectorOver (p : Pub) (n i : Nat) : Pub :=
  match p.stores[n]? with
  | none => p
  | some x =>
    let left := x.left.filter fun j => j != i
    { p with stores := if left.isEmpty then p.stores.eraseIdx n else p.stores.set n { x with left := left } }

/-- A sector of a commit's stores is written at its point of coherence. -/
def State.performSector (s : State) (p : Pub) (x : Nat × Nat) : State :=
  match p.stores[x.1]? with
  | none => s
  | some l =>
    if s.linkDown l.line.loc then s
    else ((if l.line.mask == BitVec.allOnes 128 then s else s.verifyLine p.ctx (lineKey l.line.loc)).publish p.id fun s => s.publishSector l x.2).modPub p.id fun p =>
      p.sectorOver x.1 x.2

/-- REDUCTION_APPLY (10 R221; 12 R262): effect k of step 1, in any order. Effects below the number of reductions are reductions,
each one atomic step at its bank; those above are the sectors of the stores. [DESIGN CHOICE, log 53] -/
def execReductionApply (pub k : Nat) (s : State) : Host.Outcome State Fault Refusal :=
  match s.pub? pub with
  | none => .next s
  | some p =>
    match p.reds[k]? with
    | some x => if s.linkDown x.1 then .next s else
      .next (((s.verifyLine p.ctx (lineKey x.1)).publish pub fun s => s.reduce p.ctx x.1 x.2).modPub pub fun p => { p with reds := p.reds.eraseIdx k })
    | none =>
      match p.sectorsLeft[k - p.reds.length]? with
      | some x => .next (s.performSector p x)
      | none => .next s

/-- A release write: its data, F := 1, and its claim is over. [DEDUCED, log 52] -/
def State.release (s : State) (ctx : BitVec 32) (x : Nat × Nat × Bool × BitVec 1024) : State :=
  let bs := if x.2.2.1 then toBytes x.2.2.2.toNat 128 else toBytes x.2.2.2.toNat 8
  (s.storeFor ctx (x.1 * 128 + x.2.1) bs false).modLine x.1 fun m => { m with full := true, claimed := false }

/-- Every effect of step 1 has been performed. -/
def State.step1Done (s : State) (p : Pub) : Bool :=
  p.reds.isEmpty && p.stores.isEmpty && !s.fab.arriving.any fun c => c.pub == some p.id

/-- One release write of a publication; the last one ends step 2. -/
def State.performRelease (s : State) (p : Pub) (k : Nat) : State :=
  match p.rels[k]? with
  | none => s
  | some x =>
    if s.linkDown (128 * x.1) then s
    else
      (((if x.2.2.1 then s else s.verifyLine p.ctx x.1).publish p.id fun s => s.release p.ctx x).modPub p.id fun p =>
        { p with rels := p.rels.eraseIdx k, step := if (p.rels.eraseIdx k).isEmpty then 2 else p.step }).serve

/-- PUBLICATION_STEP_2: release write k, in any order; a commit without release writes goes on (12 R262; 10 R227). -/
def execPublicationStep2 (pub k : Nat) (s : State) : Host.Outcome State Fault Refusal :=
  match s.pub? pub with
  | none => .next s
  | some p =>
    if p.step = 1 && s.step1Done p then
      .next (if p.rels.isEmpty then s.modPub pub fun p => { p with step := 2 } else s.performRelease p k)
    else .next s

/-- The target of a decrement of a publication (15 R322). -/
def decTarget (i : Inst) (w : BitVec 32) (a : BitVec 64) (remote : Option (Nat × Nat)) : DecTarget :=
  match sucScope w with
  | 0 => .slot i.id (sucTarget w) ((i.recs[sucTarget w]?.map Rec.gen).getD 0) i.templ i.tag
  | 1 => .tagged i.templ (i.tag + 1) (sucTarget w)
  | 2 =>
    match i.cont with
    | some (t, g) => .tagged t g (sucTarget w)
    | none => .noCont i.templ i.tag
  | _ =>
    match remote with
    | some (p, l) => .remote p l a i.tag
    | none => .noCont i.templ i.tag

/-- A BIND or UNBIND is sent to its mailbox. -/
def State.sendBind (s : State) (b : MboxBind) : State := { s with fab := { s.fab with binds := s.fab.binds ++ [b] } }

/-- One graph operation of step 3 (12 R262; 13 R286-R289; 15 R322-R325). -/
def State.sendGraph (s : State) (p : Pub) (i : Inst) (e : CommitEntry) (remote : Option (Nat × Nat)) : State :=
  let sent := fun (s : State) => s.tally p.ctx i.die fun c => { c with sent := c.sent + 1 }
  match e.op with
  | .dec w a => (sent s).addDec
      { ctx := p.ctx, target := decTarget i w a remote, amt := sucAmt w, pub := some p.id, die := i.die }
  | .spawn x =>
    (sent s).askCreation
      { ctx := p.ctx, templ := leTempl x, rename := leRename x, table := p.rename, tag := leTag x, prio := lePrio x
        cont := if leCv x then some (i.templ, leCont x) else none, origin := .spawn, die := i.die }
  | .send m ctl =>
    let s := sent s
    { s with fab := { s.fab with msgs := s.fab.msgs ++
      [{ ctx := if scXctx ctl then scCtx ctl else p.ctx, mbox := scMbox ctl, words := m, pub := some p.id, sender := p.ctx
         ctl := ctl, recVa := recordVa i.templ p.idx, tag := i.tag }] } }
  | .bind templ ctl => s.sendBind { ctx := p.ctx, mbox := bcMbox ctl, bind := some (templ, ctl), pub := p.id }
  | .unbind m => s.sendBind { ctx := p.ctx, mbox := m.toNat, bind := none, pub := p.id }
  | _ => s

def State.sendGraphs (s : State) (p : Pub) (i : Inst) : List (CommitEntry × Nat) → State
  | [] => s
  | x :: rest =>
    State.sendGraphs (s.sendGraph p i x.1 ((p.remotes.find? fun y => y.1 == x.2).map fun y => y.2)) p i rest

/-- A list in an order that free values pick. -/
def shuffled {α : Type} (free : Nat) : Nat → List α → List α
  | 0, l => l
  | n + 1, l =>
    match l[(Config.freeByte free).toNat % l.length]? with
    | none => l
    | some x => x :: shuffled (free + 1) n (l.eraseIdx ((Config.freeByte free).toNat % l.length))

/-- The creations asked for after the first n arrive in no order among themselves (12 R262). [DESIGN CHOICE, log 53] -/
def State.mixCreations (s : State) (n : Nat) : State :=
  let l := s.fab.creations.drop n
  if l.length < 2 then s
  else { s with fab := { s.fab with creations := s.fab.creations.take n ++ shuffled s.free l.length l }, free := s.free + l.length }

/-- PUBLICATION_STEP_3: the graph operations of the commit and the record's successor list are sent; decrements, messages, BINDs and
UNBINDs arrive each at its own time (12 R262). -/
def execPublicationStep3 (pub : Nat) (s : State) : Host.Outcome State Fault Refusal :=
  match s.pub? pub with
  | none => .next s
  | some p =>
    if p.step = 2 then
      let i := (s.inst? p.inst).getD p.home
      .next (((s.sendGraphs p i p.graph.zipIdx).mixCreations s.fab.creations.length).modPub pub fun p => { p with step := 3, graph := [] })
    else .next s

/-- Every effect of step 3 has been performed: decrements applied or parked, messages accepted, mailboxes bound (14 R293). -/
def State.step3Done (s : State) (p : Pub) : Bool :=
  !(s.fab.decs.any fun d => d.pub == some p.id) && !(s.fab.msgs.any fun m => m.pub == some p.id) &&
    !s.fab.binds.any fun b => b.pub == p.id

/-- A publication whose effects have all been performed is over, and its task RETIRED; one with effects left stays. -/
def State.retire (s : State) (pub : Nat) : State :=
  match s.pub? pub with
  | none => s
  | some p =>
    if p.step = 3 && s.step3Done p then
      (({ s with fab := { s.fab with pubs := s.fab.pubs.filter fun q => q.id != pub } } : State).endRecord p.inst p.idx
        .retired true).reloadStuck s.insts.length
    else s

/-- Tasks are RETIRED as the last effect of their step 3 is performed. -/
def State.retireOver (s : State) : List Pub → State
  | [] => s
  | p :: rest => State.retireOver (s.retire p.id) rest

/-- TASK_RETIRED (14 R293): a step takes it together with the last effect (settle, Turns.lean). -/
def execTaskRetired (pub : Nat) (s : State) : Host.Outcome State Fault Refusal := .next (s.retire pub)

/-! ## Ordered contributions (10 R223-R225; 11 R239) -/

/-- The bank of a cell: the package that has it, and the die and bank there. -/
def cellBank (l : Nat) : Nat × Option Nat := (locPkg l, bankOf (locOf (locSpace l) 0 (locCtx l) (locPa l)))

/-- Contributions a bank holds. -/
def State.heldAt (s : State) (bank : Nat × Option Nat) : Nat := (s.fab.held.filter fun c => cellBank c.loc == bank).length

/-- The next sequence number of a cell, or of a line of an ordered CPYR. -/
def State.cellNext (s : State) (c : Contribution) : BitVec 32 :=
  match c.op with
  | .redo _ => BitVec.ofNat 32 (s.mem.value (c.loc + 8) 4)
  | .drawm _ _ => BitVec.ofNat 32 (s.mem.value (c.loc + 8) 4)
  | .line _ _ _ _ _ => (s.line (lineKey c.loc)).lseq

/-- The eight elements of a line of an ordered CPYR are complete once the line has been applied, or discarded (11 R234). -/
def State.lineLanded (s : State) (c : Contribution) : State :=
  match c.op with
  | .line _ _ _ copy elem => s.elementsDone copy ((List.range 8).map fun i => elem + i)
  | .redo _ => s
  | .drawm _ _ => s

/-- One contribution applied, and its sequence number passed (10 R224). -/
def State.applyOnce (s : State) (c : Contribution) : State :=
  let n := s.cellNext c + 1
  let bad := c.pois || s.poisonAt c.loc 16
  match c.op with
  | .redo v =>
    let x := combineLane .add .f32 (s.mem.value c.loc 4) v.toNat
    s.storeFor c.ctx c.loc (toBytes x 4 ++ List.replicate 4 0 ++ toBytes n.toNat 4) bad
  | .drawm p u =>
    let x := (drawMerge (BitVec.ofNat 64 (s.mem.value c.loc 8)) p u.toNat).1
    s.storeFor c.ctx c.loc (toBytes x.toNat 8 ++ toBytes n.toNat 4) bad
  | .line op ty d _ _ =>
    ((s.combine c.ctx c.loc 128 (fun o => combineLine op ty o d.toNat) c.pois).modLine (lineKey c.loc) fun m => { m with lseq := n }).lineLanded c

/-- A contribution applied, as the effect of its commit if it has one. -/
def State.applyContribution (s : State) (c : Contribution) : State :=
  let s := s.verifyLine c.ctx (lineKey c.loc)
  match c.com with
  | some id => s.publish id fun s => s.applyOnce c
  | none => s.applyOnce c

/-- Held contributions whose turn has come are applied, one after another; MWAITs see the cell between two of them (11 R244). -/
def State.drainHeld (s : State) (loc : Nat) : Nat → State
  | 0 => s
  | n + 1 =>
    match s.fab.held.find? fun h => h.loc == loc && h.q == s.cellNext h with
    | none => s
    | some h => State.drainHeld (({ s.examine with fab := { s.fab with held := s.fab.held.erase h } } : State).applyContribution h) loc n

/-- Contributions a bank holds at most. -/
def heldLimit : Nat := 1024

/-- The contributions of a line and of a cell have sequences of their own. -/
def OrdOp.isLine : OrdOp → Bool
  | .line _ _ _ _ _ => true
  | .redo _ => false
  | .drawm _ _ => false

/-- A duplicate counts at the die of the bank; one at a peer's bank counts there (17 R351). -/
def State.dupSeq (s : State) (l : Nat) : State :=
  match bankOf l with
  | some b => s.count (b / 128) fun x => { x with dupseq := x.dupseq + 1 }
  | none => s

/-- A contribution is handled by its bank; none when the bank is full, which answers busy only what it would have to hold (10 R225).
[DESIGN CHOICE, log 120] -/
def State.arriveContribution (s : State) (c : Contribution) : Option State :=
  let d := c.q - s.cellNext c
  if 2 ^ 31 ≤ d.toNat || s.fab.held.any fun h => h.loc == c.loc && h.q == c.q && h.op.isLine == c.op.isLine then
    some ((s.dupSeq c.loc).lineLanded c)
  else if d = 0 then some ((s.applyContribution c).drainHeld c.loc s.fab.held.length)
  else if s.heldAt (cellBank c.loc) < heldLimit then
    some { s with fab := { s.fab with held := s.fab.held ++ [{ c with pub := none }] } }
  else none

/-- ORDERED_CONTRIBUTION_ARRIVE (10 R225). -/
def execOrderedContributionArrive (k : Nat) (s : State) : Host.Outcome State Fault Refusal :=
  match s.fab.arriving[k]? with
  | none => .next s
  | some c =>
    if c.busy || s.linkDown c.loc then .next s
    else
      match s.arriveContribution c with
      | some t => .next { t with fab := { t.fab with arriving := t.fab.arriving.eraseIdx k } }
      | none => .next { s with fab := { s.fab with arriving := s.fab.arriving.set k { c with busy := true } } }

/-- ORDERED_BUSY_RESEND (10 R225): sent again, as a new arrival. -/
def execOrderedBusyResend (k : Nat) (s : State) : Host.Outcome State Fault Refusal :=
  match s.fab.arriving[k]? with
  | none => .next s
  | some c =>
    if c.busy then .next { s with fab := { s.fab with arriving := s.fab.arriving.eraseIdx k ++ [{ c with busy := false }] } }
    else .next s

/-! ## Twins (18 R379, R380) -/

/-- The bytes of one shadow line in a digest. -/
def ShadowLine.digestBytes (l : ShadowLine) : List Byte :=
  toBytes l.va.toNat 8 ++ toBytes l.mask.toNat 16 ++
    ((List.range 128).map fun b => if l.mask.getLsbD b then BitVec.ofNat 8 (l.data.toNat / 2 ^ (8 * b)) else 0) ++
    toBytes l.pois.toNat 1

/-- Shadow lines in ascending virtual address. -/
def insertLine (l : ShadowLine) : List ShadowLine → List ShadowLine
  | [] => [l]
  | x :: rest => if l.va.ult x.va then l :: x :: rest else x :: insertLine l rest

def sortLines : List ShadowLine → List ShadowLine
  | [] => []
  | l :: rest => insertLine l (sortLines rest)

/-- Operand bytes of an entry in a digest. -/
def CommitOp.operandBytes : CommitOp → List Byte
  | .redInt _ _ _ v => toBytes v.toNat 8
  | .redF _ v => toBytes v.toNat 8
  | .redB _ _ v => toBytes v.toNat 128
  | .redo v q => toBytes v.toNat 4 ++ toBytes q.toNat 4
  | .drawm p u q => toBytes p.toNat 8 ++ toBytes u.toNat 4 ++ toBytes q.toNat 4
  | .release _ vec d => toBytes d.toNat (if vec then 128 else 8)
  | .flush => []
  | .dec w a => toBytes w.toNat 8 ++ toBytes a.toNat 8
  | .spawn e => toBytes e.toNat 32
  | .send m c => toBytes m.toNat 64 ++ toBytes c.toNat 8
  | .bind t c => toBytes t.toNat 8 ++ toBytes c.toNat 8
  | .unbind m => toBytes m.toNat 8

/-- The bytes of one commit-set entry in a digest: opcode, mode and x3, address, operands, poison. -/
def CommitEntry.digestBytes (e : CommitEntry) : List Byte :=
  [e.opcode, e.sub] ++ toBytes e.addr.toNat 8 ++ e.op.operandBytes ++ toBytes e.pois.toNat 1

/-- The commit digest of a run (18 R379). -/
def Run.digest (r : Run) : List Byte :=
  shake256 ((sortLines r.shadow).flatMap ShadowLine.digestBytes ++ r.commit.flatMap CommitEntry.digestBytes)

/-- The runs of a record in TWIN-WAIT, with their tiles, by position. -/
def State.twinAt (s : State) (inst idx pos : Nat) : Option (Nat × Run) :=
  (s.runsOf inst idx).find? fun x => x.2.twin == some pos && x.2.phase == .twinWait

/-- The twin that publishes of two: the first in TWIN-WAIT, then the lower die, logical cluster and tile. -/
def State.firstTwin (s : State) (a b : Nat × Run) : Nat :=
  let key := fun (x : Nat × Run) => (tileDie x.1 * 64 + s.logical (tileCluster x.1)) * 16 + tileIndex x.1
  if a.2.twinCycle < b.2.twinCycle || (a.2.twinCycle == b.2.twinCycle && key a < key b) then a.1 else b.1

/-- The runs of a record but the one of tile t are discarded without a record. -/
def State.discardOthers (s : State) (t : Nat) (l : List (Nat × Run)) : State :=
  s.undoRuns (l.filter fun x => x.1 != t)

/-- One run is chosen to publish and enters COMMITTING. -/
def State.choose (s : State) (inst idx t : Nat) : State :=
  let s := s.discardOthers t (s.runsOf inst idx)
  let s := s.dropPlaces (s.placesOf inst idx)
  (s.modRun t fun r => { r with voted := true, phase := .committing }).modRec inst idx fun x =>
    { x with st := .committing, third := false }

/-- ADDR of a TWIN_MISMATCH record (18 R380). -/
def State.twinAddr (s : State) (a b c : Nat) (blamed : Nat) : BitVec 64 :=
  BitVec.ofNat 64 (s.tileId a + 2 ^ 16 * s.tileId b + 2 ^ 32 * s.tileId c + 2 ^ 48 * blamed)

/-- The third digest is there: a majority publishes, or all three are discarded (18 R380). -/
def State.voteThree (s : State) (inst idx : Nat) (a b c : Nat × Run) : State :=
  let spec := fun (blamed : Nat) =>
    { c.2.recSpec { code := fcTwinMismatch, addr := s.twinAddr a.1 b.1 c.1 blamed } with irrev := false }
  if c.2.digest == a.2.digest then ((s.record c.2.ctx (spec 1)).choose inst idx c.1).blame b.1
  else if c.2.digest == b.2.digest then ((s.record c.2.ctx (spec 0)).choose inst idx c.1).blame a.1
  else
    let s := s.record c.2.ctx (spec 0xFFFF)
    match s.rec? inst idx with
    | none => s
    | some x => if 1 ≤ x.votes then s.killTask inst idx else s.abandonTask inst idx .vote

/-- TWIN_DIGEST_COMPARE (18 R380). -/
def execTwinDigestCompare (inst idx : Nat) (s : State) : Host.Outcome State Fault Refusal :=
  match s.twinAt inst idx 0, s.twinAt inst idx 1 with
  | some a, some b =>
    match s.twinAt inst idx 2 with
    | some c => .next (s.voteThree inst idx a b c)
    | none =>
      if a.2.digest == b.2.digest then .next (s.choose inst idx (s.firstTwin a b))
      else .next (s.modRec inst idx fun x => { x with third := true })
  | _, _ => .next s

end Sys2Proof.Machine
end

