-- ==== Sys2Proof/Machine/Watchdog.lean ====
section
/-! DEFINITION. WATCHDOG_EXPIRY, WAIT_WITHDRAWAL, MEMORY_RESPONSE and UNCORRECTABLE_ERROR (03 R73; 09 R206; 14 R303;
18 R376, R382, R438). -/

namespace Sys2Proof.Machine

/-! ## The watchdog (14 R303) -/

/-- The pitch a run stands at. -/
def Run.standing (r : Run) : BitVec 64 :=
  match r.pitch with
  | some p => p.addr
  | none =>
    match r.phase with
    | .committing => r.donePitch
    | .twinWait => r.donePitch
    | .stalled _ _ c => if c then r.donePitch else r.next
    | .fetch => r.next
    | .fire => r.next
    | .services _ => r.next
    | .imm _ => r.next

/-- The WATCHDOG record: one of an event (13 R277). -/
def Run.dogSpec (r : Run) : RecSpec :=
  { r.recSpec { code := fcWatchdog } with pitch := r.standing, commit := r.inCommit }

/-- How an irrevocable task goes on once its WATCHDOG is answered with RETRY: as its earlier stall would have. -/
def Run.dogResume (r : Run) : Resume :=
  match r.phase with
  | .stalled _ .never c => if c then .checks else .fetch
  | .stalled _ x _ => x
  | .committing => .checks
  | .fetch => .watchdog
  | .fire => .watchdog
  | .services _ => .watchdog
  | .imm _ => .watchdog
  | .twinWait => .watchdog

/-- Records of a run that await RESUME are superseded. -/
def State.supersedeRun (s : State) (t : Nat) (r : Run) : State :=
  s.modCtx r.ctx fun c => { c with await := c.await.filter fun w => w.of != .task t }

/-- Whether a watchdog is taken now: not while an immediate-class access or a service is under way, which is withdrawn or
ends first (03 R73; 06 R122). -/
def Run.dogNow (r : Run) : Bool :=
  r.watchdogDue &&
    (match r.phase with
     | .imm _ => false
     | .services _ => false
     | .fetch => true
     | .fire => true
     | .stalled _ _ _ => true
     | .committing => true
     | .twinWait => true)

/-- The watchdog of a task is taken. [DEDUCED, log 55] -/
def State.takeDog (s : State) (t : Nat) (r : Run) : State :=
  let s := s.count (tileDie t) fun d => { d with wdog := d.wdog + 1 }
  if r.irrevocable then
    (((s.dropChecks t).supersedeRun t r).takeFault t r.dogSpec r.dogResume r.inCommit).modRun t fun r => { r with watchdogDue := false }
  else
    let s := s.record r.ctx r.dogSpec
    match s.rec? r.inst r.idx with
    | none => s
    | some x => (if 2 ≤ x.dogs then s.killTask r.inst r.idx else s.abandonTask r.inst r.idx .dog).serve

/-- WATCHDOG_EXPIRY (14 R303): after the cycle of the expiry, in which a fault or the end of the task goes before it (14 R293). -/
def execWatchdogExpiry (tile : Nat) (s : State) : Host.Outcome State Fault Refusal :=
  match s.run? tile with
  | none => .next s
  | some r => if r.dogNow && r.dogBefore s.cycle then .next (s.takeDog tile r) else .next s

/-- An access that has not been performed is withdrawn: its entry is gone, its pitch stands at its start (03 R73). -/
def State.withdrawImm (s : State) (t : Nat) (r : Run) : State :=
  (s.setRun t { r with phase := .fire, pitch := r.pitch.map fun p => p.restart p.snap }).dropRetry t

/-- WAIT_WITHDRAWAL (03 R73; 10 R228): the agent holding the wait of a tile whose watchdog has expired removes it, unless
the access has been performed; the claims of a commit are withdrawn with its checks. A watchdog that expired during a service
of the pitch withdraws nothing of it (06 R122). [DEDUCED, log 94] -/
def execWaitWithdrawal (tile : Nat) (s : State) : Host.Outcome State Fault Refusal :=
  match s.run? tile with
  | none => .next s
  | some r =>
    if r.watchdogDue && !r.dogInService then
      match r.phase with
      | .imm (.done _) => .next s
      | .imm .sent => .next (s.withdrawImm tile r)
      | .imm .waiting => .next (s.withdrawImm tile r)
      | .imm .busy => .next (s.withdrawImm tile r)
      | .committing => .next (s.dropChecks tile)
      | .fetch => .next s
      | .fire => .next s
      | .services _ => .next s
      | .stalled _ _ _ => .next s
      | .twinWait => .next s
    else .next s

/-! ## MEMORY_RESPONSE (10 R212) -/

/-- Examine again an instruction that awaits data: a load, MWAIT, or a replay-table read. -/
def respond (s : State) : Instr → State
  | .ldb p l i t => outcomeOr s (execLdb p l i t s)
  | .ldbu p l i t => outcomeOr s (execLdbu p l i t s)
  | .ldh p l i t => outcomeOr s (execLdh p l i t s)
  | .ldhu p l i t => outcomeOr s (execLdhu p l i t s)
  | .ldw p l i t => outcomeOr s (execLdw p l i t s)
  | .ldwu p l i t => outcomeOr s (execLdwu p l i t s)
  | .ldd p l i t => outcomeOr s (execLdd p l i t s)
  | .ldv p l i t => outcomeOr s (execLdv p l i t s)
  | .ldvx p l t => outcomeOr s (execLdvx p l t s)
  | .mwait p l t => outcomeOr s (execMwait p l t s)
  | .rand p u t => outcomeOr s (execRand p u t s)
  | .vrand p x u t => outcomeOr s (execVrand p x u t s)
  | .vdraw p x u t => outcomeOr s (execVdraw p x u t s)
  | .vdrawm p u t => outcomeOr s (execVdrawm p u t s)
  | _ => s

/-- The slot of a tile's window that awaits data. -/
def Pitch.awaiting (p : Pitch) (k : Nat) : Bool := ((p.slots[k]?).map fun sl => sl.status == .pending).getD false

/-- A slot of a tile's window still awaits its result. -/
def State.awaits (s : State) (tile slot : Nat) : Bool :=
  (((s.run? tile).bind Run.pitch).map fun p => p.awaiting slot).getD false

/-- A load, or a draw from a replay table, that has its operands and has not fired reads one of its sectors. -/
def State.readAhead (s : State) (i : Instr) : State :=
  match s.env? with
  | none => s
  | some e =>
    if e.slot.status = .waiting && (sigOf i).ready e.slot && (sigOf i).matches e.slot && !(sigOf i).hasNull e.slot then e.readSector i
    else s

/-- MEMORY_RESPONSE: the data an instruction of a slot waits for returns; data that is not to be had yet returns nothing. For a load
or a replay-table read that has not fired, one sector of its data returns before the others (07 R149; 12 R259). -/
def execMemoryResponse (tile slot : Nat) (s : State) : Host.Outcome State Fault Refusal :=
  match s.run? tile with
  | none => .next s
  | some r =>
    match r.pitch with
    | none => .next s
    | some p =>
      if r.phase = .fire then
        match decode (p.words[slot]?.getD 0) with
        | .error _ => .next s
        | .ok i =>
          let s1 := ({ s with focus := tile } : State).setPitch tile { p with cursor := slot }
          if p.awaiting slot then
            let t := respond s1 i
            .next (if t.awaits tile slot then s else { t with focus := s.focus })
          else
            .next (if (loadAlign i).isSome || uniformCount (p.words[slot]?.getD 0) != 0 then { s1.readAhead i with focus := s.focus }
              else s)
      else .next s

/-! ## Lost graph state (18 R382) -/

/-- Whether a record of a lost instance runs to its end: irrevocable, or past its handover. -/
def State.survives (s : State) (inst idx : Nat) : Bool :=
  ((s.runsOf inst idx).any fun x => x.2.irrevocable) || s.fab.pubs.any fun p => p.inst == inst && p.idx == idx

/-- A record of a lost instance is discarded and freed. -/
def State.discardRecord (s : State) (i : Inst) (idx : Nat) : State :=
  match s.rec? i.id idx with
  | none => s
  | some x =>
    if x.st.final || s.survives i.id idx then s
    else
      let s := (s.rollback i.id idx).modCtx i.ctx fun c => { c with await := c.await.filter fun w => w.of != .unplaceable i.id idx }
      let s := s.modRec i.id idx fun x => { x with st := .killed, gen := x.gen + 1, spilled := false, third := false }
      let s := if x.st = .waiting then s else s.tally i.ctx i.die fun c => { c with retired := c.retired + 1 }
      s.leaveRopes i.id idx

def State.discardRecords (s : State) (i : Inst) : List Nat → State
  | [] => s
  | k :: rest => State.discardRecords (s.discardRecord i k) i rest

/-- GRAPH_STATE_LOST: RECORD names the record whose counter failed, or none for a rename entry. -/
def State.loseGraph (s : State) (inst : Nat) (idx : Option Nat) : State :=
  match s.inst? inst with
  | none => s
  | some i =>
    if i.lost then s
    else
      let rec_ := match idx with
        | some k => recordVa i.templ k
        | none => 0
      let s := (s.record i.ctx { code := fcGraphLost, record := rec_, tag := i.tag, addr := i.templ }).modInst inst fun x =>
        { x with lost := true }
      (((s.discardRecords i (List.range i.recs.length)).reapInst inst).reloadStuck s.insts.length).serve

/-- A record in graph memory, a word of which has failed, is read again from the template image (15 R314, R320). -/
def State.rereadRecord (s : State) (inst idx : Nat) : State :=
  match s.inst? inst, s.rec? inst idx with
  | some i, some x =>
    if x.spilled || x.st.final then s
    else
      match s.recWords i.ctx i.templ idx with
      | .ok ws => (s.verifyWords i.ctx (recordVa i.templ idx).toNat 32).modRec inst idx fun x => { x with words := ws }
      | .error f => s.verifyWalk none i.ctx f
  | _, _ => s

/-! ## UNCORRECTABLE_ERROR (09 R206; 15 R320; 18 R375) -/

/-- A token marked poisoned. -/
def Token.poison (t : Token) : Token := { t with pois := true }

def Slot.poison (x : Slot) : Slot :=
  { x with left := x.left.map Token.poison, right := x.right.map Token.poison, pred := x.pred.map Token.poison }

/-- An error that ECC cannot correct poisons what holds it. [DESIGN CHOICE, log 11] -/
def execUncorrectableError (site : ErrorSite) (s : State) : Host.Outcome State Fault Refusal :=
  match site with
  | .line loc => .next (s.modLine (lineKey loc) fun m => { m with pois := true })
  | .checkValue loc flip => .next (s.modLine (lineKey loc) fun m => { m with chk := m.chk ^^^ flip })
  | .reg tile r => .next (s.modRun tile fun x => { x with g := x.g.modify r fun v => { v with pois := true } })
  | .vreg tile r => .next (s.modRun tile fun x => { x with vr := x.vr.modify r fun v => { v with pois := true } })
  | .accRow tile acc row => .next (s.modTile tile fun v => v.setAccRow acc row { v.accRow acc row with pois := true })
  | .array tile arr => .next (s.modTile tile fun v => v.setArray arr { v.array arr with pois := true })
  | .operand tile slot =>
    .next (s.modRun tile fun x => { x with pitch := x.pitch.map fun p => { p with slots := p.slots.modify slot Slot.poison } })
  | .counterBoth inst idx => .next (s.loseGraph inst (some idx))
  | .renameBoth inst _ => .next (s.loseGraph inst none)
  | .counterOne _ _ => .next s
  | .recordWord inst idx => .next (s.rereadRecord inst idx)
  | .shared cluster => .next (s.failShared cluster)

end Sys2Proof.Machine
end

