-- ==== Sys2Proof/Machine/Dispatcher.lean ====
section
/-! DEFINITION. The dispatcher: PLACEMENT, CROSS_DIE_PLACEMENT, TASK_RUNNABLE, TASK_START, QUIESCENCE_WAVE, with unplaceable
reports, pins, scoring, claims and the placement trace (03 R52; 11 R249; 13 R290; 14 R292-R312; 15 R317, R332;
17 R351-R353, R361; 18 R378, R380). -/

namespace Sys2Proof.Machine

/-! ## Priorities (14 R305; 17 R361) -/

/-- Base priority: 0 for a context over its wear quota. -/
def Ctx.basePrio (c : Ctx) (i : Inst) (x : Rec) : Nat := if c.overQuota then 0 else max (recPrio x.words) i.prio

/-- Effective priority of a PENDING task. -/
def State.effPrio (s : State) (c : Ctx) (i : Inst) (x : Rec) : Nat :=
  min 7 (c.basePrio i x + (s.cycle - x.since) / (if c.overQuota then 2 ^ 20 else 2 ^ 16))

/-- A record belongs to a rope (14 R307). -/
def State.inRope (s : State) (ctx : BitVec 32) (inst idx : Nat) : Bool :=
  s.ropes.any fun x => x.ctx == ctx && x.members.any fun m => m.inst == inst && m.idx == idx

/-! ## The tasks a die has to place -/

/-- A task to place: its record, the twin position it takes, its level, rope membership and the time it entered PENDING. -/
structure Cand where
  ctx : BitVec 32
  inst : Nat
  idx : Nat
  twin : Option Nat
  level : Nat
  member : Bool
  since : Nat
  weight : Nat
  deriving DecidableEq, Repr

/-- Tiles that run or hold a record, with the twin position. -/
def State.seats (s : State) (inst idx : Nat) : List (Nat × Option Nat) :=
  ((s.runsOf inst idx).map fun x => (x.1, x.2.twin)) ++ (s.placesOf inst idx).map fun x => (x.1, x.2.twin)

/-- The position a record still has to be placed for: none when it has none (18 R378, R380). -/
def State.position (s : State) (inst idx : Nat) (x : Rec) : Option (Option Nat) :=
  let seats := s.seats inst idx
  if recRedundant x.words then
    ((List.range 3).find? fun k => !(seats.any fun y => y.2 == some k) && (k < 2 || x.third)).map some
  else if seats.isEmpty then some none
  else none

/-- States from which a record, or a missing twin of it, is placed. -/
def Rec.toPlace (x : Rec) : Bool :=
  match x.st with
  | .pending => !x.held
  | .placed => recRedundant x.words
  | .runnable => recRedundant x.words
  | .running => recRedundant x.words
  | .twinWait => recRedundant x.words
  | .waiting => false
  | .stalled => false
  | .committing => false
  | .abandoned => false
  | .killed => false
  | .retired => false

/-- A record as a candidate. -/
def State.cand (s : State) (c : Ctx) (i : Inst) (idx : Nat) (x : Rec) : Option Cand :=
  if x.toPlace then
    (s.position i.id idx x).map fun p =>
      { ctx := c.id, inst := i.id, idx := idx, twin := p
        level := if x.st = .pending then s.effPrio c i x else x.frozen
        member := s.inRope c.id i.id idx, since := x.since, weight := c.weight }
  else none

/-- The candidates of a die, in creation order. -/
def State.cands (s : State) (die : Nat) : List Cand :=
  s.insts.flatMap fun i =>
    if i.die = die && !i.lost then
      match s.ctx? i.ctx with
      | some c => i.recs.zipIdx.filterMap fun x => s.cand c i x.2 x.1
      | none => []
    else []

/-! ## The order of service (14 R306, R307) -/

/-- Whether one task is served before another of its context and level: rope members, then the oldest. -/
def Cand.before (a b : Cand) : Bool := if a.member = b.member then decide (a.since < b.since) else a.member

/-- Stable insertion. -/
def Cand.insert (a : Cand) : List Cand → List Cand
  | [] => [a]
  | b :: rest => if b.before a || !(a.before b) then b :: Cand.insert a rest else a :: b :: rest

def Cand.sort : List Cand → List Cand
  | [] => []
  | a :: rest => Cand.insert a (Cand.sort rest)

/-- Context ids in ascending order without repeats. -/
def insertId (a : BitVec 32) : List (BitVec 32) → List (BitVec 32)
  | [] => [a]
  | b :: rest => if a = b then b :: rest else if a.ult b then a :: b :: rest else b :: insertId a rest

def ctxIds (l : List Cand) : List (BitVec 32) := (l.map fun c => c.ctx).foldr insertId []

/-- The last context served at a level, and the placements left of its visit. -/
def Die.lastServed (d : Die) (level : Nat) : Option (BitVec 32 × Nat) :=
  (d.rr.find? fun x => x.1 == level).map fun x => (x.2, kvGet 0 d.visit level)

/-- Contexts in the order they are visited at a level. -/
def Die.visitOrder (d : Die) (level : Nat) (ids : List (BitVec 32)) : List (BitVec 32) :=
  match d.lastServed level with
  | none => ids
  | some (c, left) =>
    let later := ids.filter fun i => c.ult i
    let earlier := ids.filter fun i => i.ult c
    if left = 0 then later ++ earlier ++ ids.filter fun i => i == c else (ids.filter fun i => i == c) ++ later ++ earlier

/-- The candidates of one level in the order of service. -/
def Die.order (d : Die) (level : Nat) (l : List Cand) : List Cand :=
  (d.visitOrder level (ctxIds l)).flatMap fun i => Cand.sort (l.filter fun c => c.ctx == i)

def State.die (s : State) (d : Nat) : Die := s.dies[d]?.getD {}

/-- The candidates of a die in the order of service. -/
def State.service (s : State) (die : Nat) : List Cand :=
  let l := s.cands die
  [7, 6, 5, 4, 3, 2, 1, 0].flatMap fun k => (s.die die).order k (l.filter fun c => c.level == k)

/-- A placement counts in the visit of its context. -/
def Die.served (d : Die) (c : Cand) : Die :=
  let left := match d.lastServed c.level with
    | some (i, n) => if i = c.ctx ∧ n ≠ 0 then n - 1 else c.weight - 1
    | none => c.weight - 1
  { d with rr := kvPut d.rr c.level c.ctx, visit := kvPut d.visit c.level left }

/-! ## Eligibility (14 R295, R308, R309; 15 R332; 17 R366; 18 R383) -/

/-- Whether a tile holds tasks of a context, running or placed. -/
def Tile.holds (v : Tile) (ctx : BitVec 32) : Bool :=
  (match v.run with
   | some r => r.ctx == ctx
   | none => false) || v.queue.any fun p => p.ctx == ctx

/-- Placing a task on a tile keeps the number of tiles that hold the context's tasks within the tile quota (14 R295). -/
def State.quotaKept (s : State) (c : Ctx) (t : Nat) : Bool :=
  decide ((s.tiles.filter fun x => x.2.holds c.id).length + (if (s.tile t).holds c.id then 0 else 1) ≤ c.tquota)

/-- A drain for another context is under way on a tile, or excluded it and its STALLED task is not serviced yet. -/
def State.drained (s : State) (ctx : BitVec 32) (t : Nat) : Bool :=
  s.pkg.drains.any fun d =>
    d.ctx != ctx && if d.ended then d.excluded.contains t else d.mask.getLsbD (s.logical (tileCluster t))

/-- The tile state admits the record. -/
def stateAdmits (st : TileState) (ws : List (BitVec 64)) : Bool :=
  match st with
  | .normal => true
  | .derated => recWeartol ws
  | .drained => false
  | .quarantined => recRedundant ws
  | .retired => false

/-- The pin a record is placed by: none when it has none or has lost it. -/
def Rec.pin (x : Rec) : Option Nat := if x.unpinned || recPin x.words = 0 then none else some (recPin x.words - 1)

/-- Eligibility of a tile for a candidate. -/
def State.eligible (s : State) (c : Ctx) (x : Rec) (k : Cand) (t : Nat) : Bool :=
  let v := s.tile t
  let cl := tileCluster t
  stateAdmits v.state x.words && s.inService cl && (s.cluster cl).retire == .no && !(s.cluster cl).inTest &&
    !(s.cluster cl).testDue && decide (v.queue.length < 4) && s.quotaKept c t &&
    (match v.claim with
     | some i => i == k.ctx
     | none => true) &&
    !s.drained k.ctx t &&
    (match x.pin with
     | some n => s.logical cl == n
     | none => true) &&
    (k.twin.isNone || (s.seats k.inst k.idx).all fun y => tileCluster y.1 != cl)

/-- The tiles of a die. -/
def dieTiles (d : Nat) : List Nat := (List.range 272).map fun i => 272 * d + i

/-- The tiles of the other dies. -/
def otherTiles (d : Nat) : List Nat := ((List.range 4).filter fun e => e != d).flatMap dieTiles

/-- The eligible tiles among some. -/
def State.eligibles (s : State) (k : Cand) (tiles : List Nat) : List Nat :=
  match s.ctx? k.ctx, s.rec? k.inst k.idx with
  | some c, some x => if s.pkg.lifeOk && s.pkg.ucodeOk then tiles.filter (s.eligible c x k) else []
  | _, _ => []

/-! ## The score (14 R297-R299; 17 R352) -/

/-- Valid arrays of a tile, held for the context, that carry an affinity tag. -/
def Tile.resident (v : Tile) (ctx : BitVec 32) (tag : Nat) : Nat :=
  if tag ≠ 0 && v.lastCtx == some ctx && v.queue.all (fun p => p.ctx == ctx) then
    (v.arrays.filter fun w => w.valid && w.rtag.toNat == tag).length
  else 0

/-- Prefetch descriptors of a record sourced on a die. -/
def State.nearness (s : State) (ctx : BitVec 32) (ren : List (BitVec 64)) (ws : List (BitVec 64)) (die : Nat) : Nat :=
  ((recPrefs ws).filter fun p =>
    match (s.srcLoc ctx (resolveMark ren p.src).toNat).bind bankOf with
    | some b => b / 128 == die
    | none => false).length

/-- The terms of a score: residency, nearness, idle, and the whole. -/
structure Score where
  res : Int
  near : Int
  idle : Int
  total : Int
  deriving DecidableEq, Repr

def State.score (s : State) (k : Cand) (t : Nat) : Score :=
  let v := s.tile t
  let w := (s.die (tileDie t)).score
  let ws := ((s.rec? k.inst k.idx).map Rec.words).getD []
  let ren := ((s.inst? k.inst).map Inst.rename).getD []
  let res := w.wres.toInt * (v.resident k.ctx (recAffinity ws) : Nat)
  let near := w.wnear.toInt * (s.nearness k.ctx ren ws (tileDie t) : Nat)
  let idle := if v.run.isNone then w.widle.toInt else 0
  let der := if v.state = .derated || v.state = .quarantined then w.wder.toInt else 0
  { res := res, near := near, idle := idle
    total := res + near + w.wload.toInt * (v.queue.length : Nat) + idle + der + w.wwear.toInt * (v.wearU : Nat) }

/-- The rank of a tile among equal scores: lifetime wear, die, logical cluster, tile index. -/
def State.tieKey (s : State) (t : Nat) : Nat :=
  (s.tile t).life * 2 ^ 16 + (tileDie t * 64 + s.logical (tileCluster t)) * 16 + tileIndex t

/-- Whether tile a stands before tile b. -/
def State.betterTile (s : State) (k : Cand) (a b : Nat) : Bool :=
  let x := (s.score k a).total
  let y := (s.score k b).total
  decide (y < x) || (decide (x = y) && decide (s.tieKey a < s.tieKey b))

/-- The best of some tiles. -/
def State.bestTile (s : State) (k : Cand) : List Nat → Option Nat
  | [] => none
  | t :: rest =>
    match State.bestTile s k rest with
    | none => some t
    | some u => if s.betterTile k u t then some u else some t

/-- Why a tile won (17 R352): 0-5 for PL_RES, PL_NEAR, PL_IDLE, PL_WEAR, PL_SOLE, PL_OTHER. -/
def State.reason (s : State) (k : Cand) (t : Nat) (tiles : List Nat) : Nat :=
  let x := s.score k t
  if tiles.length = 1 then 4
  else if tiles.any fun u => u != t && (s.score k u).total == x.total then 3
  else
    let top := max x.res (max x.near x.idle)
    if top ≤ 0 then 5 else if x.res = top then 0 else if x.near = top then 1 else 2

/-- The decision counter of a reason. -/
def Decisions.bump (d : Decisions) (k : Nat) : Decisions :=
  match k with
  | 0 => { d with plRes := d.plRes + 1 }
  | 1 => { d with plNear := d.plNear + 1 }
  | 2 => { d with plIdle := d.plIdle + 1 }
  | 3 => { d with plWear := d.plWear + 1 }
  | 4 => { d with plSole := d.plSole + 1 }
  | _ => { d with plOther := d.plOther + 1 }

/-! ## The placement trace (17 R353) -/

/-- A trace control block as the device reads it. -/
structure TraceBlock where
  loc : Nat
  base : Nat
  log2n : Nat
  en : Bool
  wrap : Bool
  tail : Nat
  head : Nat
  deriving DecidableEq, Repr

/-- The block of a die; none where it is not registered or not used. -/
def State.traceBlock (s : State) (die : Nat) : Option TraceBlock :=
  match (s.die die).trace with
  | none => none
  | some a =>
    let l := locOf spHbm 0 0 a
    let base := s.mem.value l 8
    let w := s.mem.value (l + 8) 8
    let tail := s.mem.value (l + 16) 8
    let head := s.mem.value (l + 24) 8
    let n := w % 32
    if w / 2 ^ 7 ≠ 0 || tail / 2 ^ 32 ≠ 0 || head / 2 ^ 32 ≠ 0 || n < 4 || 24 < n || base % 64 ≠ 0 || 2 ^ 39 < base + 32 * 2 ^ n then none
    else some { loc := l, base := base, log2n := n, en := w / 32 % 2 == 1, wrap := w / 64 % 2 == 1, tail := tail, head := head }

/-- The 32 bytes of a trace entry. -/
def State.traceEntry (s : State) (ctx : BitVec 32) (tag : BitVec 32) (rec_ : BitVec 64) (t kind : Nat) (xdie : Bool)
    (score : Int) : List Byte :=
  toBytes s.time.toNat 8 ++ toBytes (ctx.toNat + 2 ^ 32 * tag.toNat) 8 ++ toBytes rec_.toNat 8 ++
    toBytes (tileIndex t + 2 ^ 4 * s.logical (tileCluster t) + 2 ^ 10 * tileDie t + 2 ^ 12 * kind + 2 ^ 16 * xdie.toNat +
      2 ^ 32 * (BitVec.ofInt 32 score).toNat) 8

/-- A decision of a die is entered in its trace ring, or dropped. -/
def State.trace (s : State) (die : Nat) (bs : List Byte) : State :=
  match s.traceBlock die with
  | none => s
  | some b =>
    let s := s.noteLine 0 (lineKey b.loc)
    if !b.en then s
    else if !b.wrap && decide (2 ^ b.log2n ≤ (b.tail + 2 ^ 32 - b.head) % 2 ^ 32) then
      s.count die fun d => { d with tdrop := d.tdrop + 1 }
    else
      let l := locOf spHbm 0 0 (b.base + 32 * (b.tail % 2 ^ b.log2n))
      (((s.noteLine 0 (lineKey l)).store l bs false).noteLine 0 (lineKey b.loc)).store (b.loc + 16) (toBytes ((b.tail + 1) % 2 ^ 32) 8) false

/-! ## Stream bindings (11 R249) -/

/-- Record indices of an instance with an output bound to an input port of record idx, ascending. -/
def Inst.producersOf (i : Inst) (idx port : Nat) : List Nat :=
  (List.range i.recs.length).flatMap fun k =>
    match i.recs[k]? with
    | none => []
    | some x => (recBindings x.words).filterMap fun b =>
        if b.2.out && b.2.peer == idx && b.2.fanin % 4 == port then some k else none

/-- The input ports of a record come into being with its first placement. -/
def State.bindPorts (s : State) (i : Inst) (idx : Nat) : List (Nat × Binding) → State
  | [] => s
  | (_, b) :: rest =>
    let s1 :=
      if b.out || (s.inPort? i.id idx b.port).isSome then s
      else { s with fab := { s.fab with inPorts := s.fab.inPorts ++
        [{ inst := i.id, idx := idx, port := b.port, fanin := b.fanin, producers := i.producersOf idx b.port
           srcs := List.replicate (b.fanin + 1) (0, 0) }] } }
    State.bindPorts s1 i idx rest

/-! ## Placing -/

/-- A gated cluster wakes (20 R410). -/
def State.wake (s : State) (t : Nat) : State :=
  if (s.cluster (tileCluster t)).gated then s.modCluster (tileCluster t) fun c => { c with gated := false } else s

/-- A line of bank memory comes back from the spill region as it is there, verified; one that the host or a peer has written since
stays. [DESIGN CHOICE, log 29] -/
def State.reloadLine (s : State) (c : Ctx) (x : (Nat × List Byte) × Nat) : State :=
  let l := 128 * x.1.1
  let o := locOf spHbm 0 0 (c.spillBase + 128 * x.2)
  if s.mem.bytes l 128 == x.1.2 then
    (s.verifyLine c.id (lineKey o)).store l (s.mem.bytes o 128) (s.poisonAt o 128 || (s.line x.1.1).pois)
  else s

/-- The lines of bank memory that SLICE_ASSIGN wrote to the spill region are reloaded before the next task of their context is
placed (09 R194). -/
def State.reloadBank (s : State) (ctx : BitVec 32) : State :=
  match s.ctx? ctx with
  | none => s
  | some c => if c.bankOut.isEmpty then s else
      (c.bankOut.zipIdx.foldl (fun s x => s.reloadLine c x) s).modCtx ctx fun c => { c with bankOut := [] }

/-- A task is placed on a tile (14 R293, R296, R299, R300). -/
def State.place (s : State) (die : Nat) (k : Cand) (t : Nat) (tiles : List Nat) (xdie : Bool) : State :=
  let s := s.reloadBank k.ctx
  match s.inst? k.inst, s.rec? k.inst k.idx with
  | some i, some x =>
    let n := s.reason k t tiles
    let bs := s.traceEntry k.ctx i.tag (recordVa i.templ k.idx) t n xdie (s.score k t).total
    let s := s.count (tileDie t) fun d =>
      let d := d.bump n
      { d with plXdie := d.plXdie + if xdie then 1 else 0 }
    let s := (s.modDie die fun d => d.served k).trace (tileDie t) bs
    let s := s.modTile t fun v => { v with queue := v.queue ++ [{ ctx := k.ctx, inst := k.inst, idx := k.idx, twin := k.twin }] }
    let s := s.modRec k.inst k.idx fun y =>
      { y with st := if y.st = .pending then .placed else y.st, frozen := k.level, blocked := none }
    ((s.bindPorts i k.idx (recBindings x.words)).wake t).kick t
  | _, _ => s

/-! ## Reports before placement (14 R304; 15 R332) -/

/-- The record of an unplaceable task, and of one whose image cannot be read. -/
def State.reportUnplaceable (s : State) (i : Inst) (idx : Nat) (f : FaultInfo) : State :=
  (s.modRec i.id idx fun x => { x with held := true }).recordAwait i.ctx
    { code := f.code, cause := f.cause, record := recordVa i.templ idx, tag := i.tag, addr := f.addr } (.unplaceable i.id idx)

/-- The placement checks of one PENDING record. -/
def State.checkPlace (s : State) (i : Inst) (idx : Nat) (x : Rec) : State :=
  match i.unplaceable x.words with
  | some o => s.reportUnplaceable i idx { code := fcIllegalEncoding, addr := recordVa i.templ idx + BitVec.ofNat 64 o }
  | none => s

/-- The pin of a record whose logical cluster is absent is dropped. -/
def State.checkPin (s : State) (i : Inst) (idx : Nat) (x : Rec) : State :=
  match x.pin with
  | some n =>
    if (s.physical n).isSome then s
    else
      (s.modRec i.id idx fun x => { x with unpinned := true }).record i.ctx
        { code := fcClusterAbsent, record := recordVa i.templ idx, tag := i.tag, addr := BitVec.ofNat 64 n }
  | none => s

/-- The checks of a record that is PENDING. -/
def State.checkPending (s : State) (i : Inst) (idx : Nat) : State :=
  match s.rec? i.id idx with
  | none => s
  | some x => if x.st = .pending && !x.held then (s.checkPlace i idx x).checkPin i idx x else s

def State.checkRecs (s : State) (i : Inst) : List Nat → State
  | [] => s
  | k :: rest => State.checkRecs (s.checkPending i k) i rest

/-- Every PENDING record of a die is checked. -/
def State.checkDie (s : State) (die : Nat) : List Inst → State
  | [] => s
  | i :: rest => State.checkDie (if i.die = die then s.checkRecs i (List.range i.recs.length) else s) die rest

/-! ## Claims (14 R308) -/

/-- The effective priority a running task was placed with. [DEDUCED, log 65] -/
def State.runPrio (s : State) (r : Run) : Nat := ((s.rec? r.inst r.idx).map Rec.frozen).getD 0

/-- A tile that a candidate may claim. -/
def State.claimable (s : State) (k : Cand) (t : Nat) : Bool :=
  let v := s.tile t
  v.claim.isNone &&
    (match v.run with
     | some r => r.ctx != k.ctx && decide (s.runPrio r < k.level)
     | none => false) &&
    (match s.ctx? k.ctx, s.rec? k.inst k.idx with
     | some c, some x =>
       let cleared : State := s.modTile t fun w => { w with queue := [] }
       cleared.eligible c x k t
     | _, _ => false)

/-- A tile is claimed: its placed queue is emptied. -/
def State.claimTile (s : State) (k : Cand) (t : Nat) : State :=
  match s.inst? k.inst with
  | none => s
  | some i =>
    let s := (s.count (tileDie t) fun d => { d with claim := d.claim + 1 }).trace (tileDie t)
      (s.traceEntry k.ctx i.tag (recordVa i.templ k.idx) t 6 false 0)
    (s.emptyQueue t).modTile t fun v => { v with claim := some k.ctx }

/-- The first candidate with a tile to claim claims it; claims wait while the microcode is changed (20 R407). -/
def State.claimFor (s : State) (die : Nat) : List Cand → State
  | [] => s
  | k :: rest =>
    match (dieTiles die).find? fun t => s.pkg.change.isNone && s.claimable k t with
    | some t => if (s.eligibles k (otherTiles die)).isEmpty then s.claimTile k t else State.claimFor s die rest
    | none => State.claimFor s die rest

/-! ## PLACEMENT (14 R296, R306) -/

/-- Each candidate notes since when no tile of its die has been eligible. -/
def State.noteBlocked (s : State) (die : Nat) : List Cand → State
  | [] => s
  | k :: rest =>
    let free := !(s.eligibles k (dieTiles die)).isEmpty
    State.noteBlocked
      (s.modRec k.inst k.idx fun x => { x with blocked := if free then none else some (x.blocked.getD s.cycle) }) die rest

/-- The first candidate with an eligible tile is placed; when none has one, a tile is claimed. -/
def State.placeFirst (s : State) (die : Nat) (all : List Cand) : List Cand → State
  | [] => s.claimFor die all
  | k :: rest =>
    let tiles := s.eligibles k (dieTiles die)
    match s.bestTile k tiles with
    | some t => s.place die k t tiles false
    | none => State.placeFirst s die all rest

/-- PLACEMENT (14 R296, R304): unplaceable records are reported, and unless that is all, the first candidate with an eligible tile
of the die is placed. -/
def execPlacement (die : Nat) (reports : Bool) (s : State) : Host.Outcome State Fault Refusal :=
  let s := s.checkDie die s.insts
  let l := s.service die
  .next (if reports then s else (s.noteBlocked die l).placeFirst die l l)

/-- A candidate for which no tile of its die has been eligible for 256 cycles. -/
def State.crosses (s : State) (die : Nat) (k : Cand) : Bool :=
  match (s.rec? k.inst k.idx).bind Rec.blocked with
  | some b => decide (b + 256 ≤ s.cycle) && (s.eligibles k (dieTiles die)).isEmpty
  | none => false

/-- The first candidate that may cross to another die is placed there. -/
def State.placeAcross (s : State) (die : Nat) : List Cand → State
  | [] => s
  | k :: rest =>
    let tiles := s.eligibles k (otherTiles die)
    match s.bestTile k tiles with
    | some t => if s.crosses die k then s.place die k t tiles true else State.placeAcross s die rest
    | none => State.placeAcross s die rest

/-- CROSS_DIE_PLACEMENT (14 R296). -/
def execCrossDiePlacement (die : Nat) (s : State) : Host.Outcome State Fault Refusal :=
  let s := s.checkDie die s.insts
  .next (s.placeAcross die (s.service die))

/-! ## What the dispatchers keep between placements (14 R296, R306, R308) -/

/-- A visit is over where its context has no pending work left at the level. -/
def Die.endVisits (d : Die) (l : List Cand) : Die :=
  { d with visit := d.visit.filter fun x => l.any fun k => k.level == x.1 && (d.lastServed x.1).any fun y => y.1 == k.ctx }

/-- Every die notes since when its candidates have been blocked, and the visits that are over. -/
def State.noteDies (s : State) : List Nat → State
  | [] => s
  | d :: rest =>
    let l := s.cands d
    State.noteDies (if l.isEmpty && (s.die d).visit.isEmpty then s else (s.noteBlocked d l).modDie d fun x => x.endVisits l) rest

/-- A claim of an idle tile holds while its context has a task there, or one to place there. -/
def State.claimHolds (s : State) (t : Nat) (v : Tile) (ctx : BitVec 32) : Bool :=
  v.run.isSome || !v.queue.isEmpty ||
    [0, 1, 2, 3].any fun d => (s.cands d).any fun k => k.ctx == ctx && !(s.eligibles k [t]).isEmpty

/-- Claims with nothing left to serve end. [DEDUCED, log 105] -/
def State.endClaims (s : State) : List (Nat × Tile) → State
  | [] => s
  | (t, v) :: rest =>
    State.endClaims
      (match v.claim with
       | some c => if s.claimHolds t v c then s else s.modTile t fun v => { v with claim := none }
       | none => s) rest

/-! ## TASK_RUNNABLE (14 R300) -/

/-- An entry whose prefetches are over becomes RUNNABLE; one whose prefetches were deferred issues them. -/
def State.runnable (s : State) (t : Nat) (p : Placed) : State :=
  if p.runnable then s
  else if !p.issued then s.kick t
  else if (s.prefetchesOf t p).all fun c => c.done then s.markRunnable t p
  else s

/-- TASK_RUNNABLE: the task of a placed queue, or both its twins one after the other. -/
def execTaskRunnable (tile inst idx : Nat) (s : State) : Host.Outcome State Fault Refusal :=
  match (s.tile tile).queue.find? fun p => p.inst == inst && p.idx == idx && !p.runnable with
  | some p => .next (s.runnable tile p)
  | none => .next s

/-! ## TASK_START (03 R52; 05 R116; 14 R307) -/

/-- Whether a prefetch of a twin of a task is stalled: it stops both twins (18 R381). -/
def State.twinHeld (s : State) (p : Placed) : Bool :=
  s.fab.copies.any fun c => c.desc.kind == .prefetch && c.twin.isSome && c.inst == p.inst && c.idx == p.idx && c.stall != .no

/-- Whether an entry can be taken: RUNNABLE, its task not stalled by the fault of a twin (18 R381). -/
def State.startable (s : State) (p : Placed) : Bool :=
  p.runnable && ((s.rec? p.inst p.idx).any fun x => x.st != .stalled) && !s.twinHeld p

/-- Entries before another in a queue. -/
def aheadOf (q : List Placed) (p : Placed) : List Placed := q.takeWhile fun x => !x.same p

/-- The entry that stands first for a tile by rope membership, passings and age (14 R307). -/
def State.firstEntry (s : State) (q : List Placed) : Option Placed :=
  let member := q.find? fun p => s.startable p && s.inRope p.ctx p.inst p.idx
  let pick := member.or (q.find? s.startable)
  match pick with
  | none => none
  | some p =>
    match (aheadOf q p).find? fun x => s.startable x && decide (3 ≤ x.passed) with
    | some x => some x
    | none => some p

/-- Whether an entry keeps one of another context behind it waiting: its prefetches have been issued, and the lines they land in
may not be reset before its task starts (09 R189, R191). -/
def State.keepsBehind (s : State) (x p : Placed) : Bool := x.issued && s.hasPrefetch x && x.ctx != p.ctx

/-- The entry taken from a queue: the first by R307, unless one ahead of it keeps it waiting; then the choice is among those ahead.
Fuel bounds the choices. -/
def State.entryOf (s : State) : Nat → List Placed → Option Placed
  | 0, _ => none
  | n + 1, q =>
    match s.firstEntry q with
    | none => none
    | some p => if (aheadOf q p).any fun x => s.keepsBehind x p then State.entryOf s n (aheadOf q p) else some p

/-- The entry a tile takes (09 R189; 14 R307). [DEDUCED, log 66] -/
def State.nextEntry (s : State) (q : List Placed) : Option Placed := s.entryOf q.length q

/-- Entries a rope member passes over count it. -/
def State.countPassed (s : State) (q : List Placed) (p : Placed) : List Placed :=
  let ahead := aheadOf q p
  q.map fun x =>
    if s.inRope p.ctx p.inst p.idx && ahead.any (fun y => y.same x) && !s.inRope x.ctx x.inst x.idx then { x with passed := x.passed + 1 }
    else x

/-- The arguments of a task: those of its record with marks resolved, or the words of its message (03 R52; 13 R283). -/
def Inst.args (i : Inst) (idx : Nat) (ws : List (BitVec 64)) : List (BitVec 64) :=
  (List.range 16).map fun k =>
    match i.msg with
    | some (h, m) => if h = idx ∧ 8 ≤ k then m.extractLsb' (64 * (k - 8)) 64 else resolveMark i.rename (recArg ws k)
    | none => resolveMark i.rename (recArg ws k)

/-- The output ports of a run. -/
def outPorts (ws : List (BitVec 64)) : List OutPort :=
  (List.range 4).map fun k =>
    match (recBindings ws).find? fun b => b.2.out && b.2.port == k with
    | some b => { bound := true, peer := b.2.peer, peerPort := b.2.fanin % 4 }
    | none => {}

/-- A run at the start of its task (03 R52; 05 R113-R116). -/
def State.newRun (s : State) (t : Nat) (i : Inst) (x : Rec) (p : Placed) : Run :=
  { ctx := i.ctx, inst := i.id, idx := p.idx, templ := i.templ, tag := i.tag, twin := p.twin
    tileid := s.tileIdOf t, clusterid := s.clusterOf t, revocableOnly := recRevocableOnly x.words, cyclim := recCyclim x.words
    g := (i.args p.idx x.words).map (fun v => { v := v }) ++ List.replicate 48 {}
    vr := List.replicate 32 {}
    rngkey := ((s.ctx? i.ctx).map Ctx.rngkey).getD 0
    cycleft := 2 ^ recCyclim x.words
    next := recEntry x.words
    serial := s.fab.nextId
    out := outPorts x.words
    fetchMem := s.mem }

/-- A tile takes an entry of its placed queue as its running task. -/
def State.startTask (s : State) (t : Nat) (p : Placed) : State :=
  match s.inst? p.inst, s.rec? p.inst p.idx with
  | some i, some x =>
    let ids := (s.prefetchesOf t p).map Copy.id
    let s := s.turnTile t p.ctx
    let s : State := { s with fab := { s.fab with copies := s.fab.copies.filter fun c => !ids.contains c.id } }
    let q := (s.countPassed (s.tile t).queue p).filter fun y => !y.same p
    let r := s.newRun t i x p
    let s := s.takeId.modTile t fun v =>
      { v with queue := q, run := some r, acc := [], jobs := [], claim := if v.claim = some p.ctx then none else v.claim }
    (s.modRec p.inst p.idx fun y =>
      { y with st := if y.st = .placed ∨ y.st = .runnable then .running else y.st }).kick t
  | _, _ => s

/-- TASK_START (14 R293, R307). -/
def execTaskStart (tile : Nat) (s : State) : Host.Outcome State Fault Refusal :=
  match s.run? tile with
  | some _ => .next s
  | none =>
    match s.nextEntry (s.tile tile).queue with
    | some p => .next (s.startTask tile p)
    | none => .next s

/-! ## QUIESCENCE_WAVE (14 R311, R312) -/

/-- Entries of a launch queue that the device has not taken. -/
def State.untaken (s : State) (ctx : BitVec 32) (q : Nat × QcbReg) : Nat :=
  match s.viewRing ctx qLaunch (some q.2) with
  | .ready v => if s.launching ctx q.1 then v.used - 1 else v.used
  | .unused => 0
  | .broken _ => 0
  | .lost _ => 0

def Counts.add (a b : Counts) : Counts :=
  { created := a.created + b.created, retired := a.retired + b.retired, sent := a.sent + b.sent, received := a.received + b.received }

/-- The totals of a wave. -/
def State.totals (s : State) (c : Ctx) : Counts :=
  let t := c.counts.foldl Counts.add {}
  { t with sent := t.sent + BitVec.ofNat 64 (c.launch.map (s.untaken c.id)).sum }

/-- Totals that say nothing is under way. -/
def Counts.balanced (t : Counts) : Bool := t.created == t.retired && t.sent == t.received && t.sent != 0

/-- A context is at rest (14 R312). -/
def State.atRest (s : State) (c : Ctx) : Bool :=
  let t := s.totals c
  t == {} || c.wave == some (t, true)

/-- QUIESCENCE_WAVE (14 R312). [DEDUCED, log 59] -/
def execQuiescenceWave (ctx : BitVec 32) (s : State) : Host.Outcome State Fault Refusal :=
  match s.ctx? ctx with
  | none => .next s
  | some c =>
    let n := c.waves + 1
    let t := s.totals c
    let s := s.modCtx ctx fun c => { c with waves := n }
    match c.wave with
    | none => .next (s.modCtx ctx fun c => { c with wave := some (t, false) })
    | some (old, told) =>
      if old ≠ t then .next (s.modCtx ctx fun c => { c with wave := some (t, false) })
      else if told || !t.balanced then .next s
      else
        .next ((s.modCtx ctx fun c => { c with wave := some (t, true) }).record ctx
          { code := fcQuiescent, addr := BitVec.ofNat 64 n })

end Sys2Proof.Machine
end

