-- ==== Sys2Proof/Machine/Copies.lean ====
section
/-! DEFINITION. The streamers: COPY_ELEMENT_TRANSLATE, COPY_ELEMENT_COMPLETE, COPY_STAMP_WRITE, COPY_COMPLETE
(09 R186-R189; 11 R233-R254; 14 R300, R301; 15 R316). -/

namespace Sys2Proof.Machine

/-! ## Where an element stands (11 R234, R245) -/

/-- The location of an address a streamer reads or writes: the scratchpad of a tile, or device memory by a walk with the
entries in force. -/
def State.streamLoc (s : State) (t : Nat) (ctx : BitVec 32) (va : BitVec 64) (write : Bool) : Except FaultInfo Nat :=
  let a := va.toNat
  if isLocal a then .ok (padLoc t (a % 2 ^ 20))
  else if !isCanonical a then .error { code := fcNonCanon, addr := va }
  else if s.withheld ctx a then .error { code := fcWait }
  else
    match s.walk none ctx a with
    | .error c => .error { code := fcNotMapped, cause := c, addr := va }
    | .ok x =>
      if (!write && !leafR x.leaf) || (write && !s.leafWrite ctx x) then .error { code := fcPerm, addr := va }
      else
        match s.resolve ctx x a with
        | .error c => .error { code := fcAperture, cause := c, addr := va }
        | .ok l => .ok l

/-- The source location of an element; a prefetch never reads a scratchpad (15 R316). -/
def State.elemSrc (s : State) (c : Copy) (i : Nat) : Except FaultInfo Nat :=
  let va := c.desc.src + c.desc.srcOff i
  if c.desc.kind = .prefetch && isLocal va.toNat then .error { code := fcAperture, addr := va }
  else s.streamLoc c.tile c.ctx va false

/-- The first tile a CPYB names: the issuing one where its bit is set. -/
def Copy.firstTile (c : Copy) : Nat :=
  if c.desc.tmask.getLsbD (tileIndex c.tile) then c.tile
  else 16 * tileCluster c.tile + (((List.range 16).find? fun i => c.desc.tmask.getLsbD i).getD 0)

/-- A location that stands for a port: in the package, in none of its memories. -/
def portLoc : Nat := locOf spPort 0 0 0

/-- The destination location of an element: CPYR needs bank memory (11 R239). -/
def State.elemDst (s : State) (c : Copy) (i : Nat) : Except FaultInfo Nat :=
  let va := c.desc.dst + c.desc.dstOff i
  if c.desc.sout.isSome then .ok portLoc
  else
    match c.desc.kind with
    | .cpyb => .ok (padLoc c.firstTile (va.toNat % 2 ^ 20))
    | .cpyr _ _ =>
      match s.streamLoc c.tile c.ctx va true with
      | .error f => .error f
      | .ok l => if locSpace l = spBank ∧ locPkg l = 0 then .ok l else .error { code := fcAperture, addr := va }
    | .cpy => s.streamLoc c.tile c.ctx va true
    | .cpys => s.streamLoc c.tile c.ctx va true
    | .prefetch => s.streamLoc c.tile c.ctx va true

/-! ## Issue of elements -/

/-- A copy that goes on. -/
def Copy.live (c : Copy) : Bool := !c.done && !c.cut && c.stall == .no

/-- A copy stalls at its next element (11 R245). -/
def State.stallCopy (s : State) (id : Nat) (f : FaultInfo) : State :=
  if f.code = fcWait then s
  else
    let s := match s.copy? id with
      | some c => s.verifyWalk none c.ctx f
      | none => s
    (s.modCopy id fun c => { c with stall := .draining f, merged := none }).settleCopy id

/-- The leaves an element may have been translated by (16 R345). -/
def State.elemVia (s : State) (c : Copy) (i : Nat) : List LeafUse :=
  (if c.desc.sin.isSome then [] else s.usesAt c.ctx (c.desc.src + c.desc.srcOff i).toNat) ++
    if c.desc.sout.isSome then [] else s.usesAt c.ctx (c.desc.dst + c.desc.dstOff i).toNat

/-- An element is issued, its source still to be read. -/
def State.flyElem (s : State) (id i src dst : Nat) : State :=
  s.modCopy id fun c => { c with next := i + 1, fly := c.fly ++ [{ n := i, loc := dst, src := src, via := s.elemVia c i }] }

/-- Where an element is read and written, or why it cannot be. -/
def State.elemLocs (s : State) (c : Copy) (i : Nat) : Except FaultInfo (Nat × Nat) :=
  match s.elemSrc c i, s.elemDst c i with
  | .error f, _ => .error f
  | .ok _, .error f => .error f
  | .ok a, .ok b => .ok (a, b)

/-- The next element of one copy is translated and issued, or stalls it. -/
def State.issueElem (s : State) (c : Copy) : State :=
  match s.elemLocs c c.next with
  | .error f => s.stallCopy c.id f
  | .ok x => s.flyElem c.id c.next x.1 x.2

/-- Whether two copies are prefetches of one placed entry. -/
def Copy.ofEntry (c d : Copy) : Bool := c.tile == d.tile && c.inst == d.inst && c.idx == d.idx && c.twin == d.twin

/-- The prefetches of its entry that read together with a copy which stalls go on with it (11 R248). -/
def State.follow (s : State) (c : Copy) : State :=
  let root := c.merged.getD c.id
  { s with fab := { s.fab with copies := s.fab.copies.map fun x =>
      if x.id != c.id && x.live && x.ofEntry c && (x.id == root || x.merged == some root) then { x with merged := some c.id } else x } }

/-- Whether the copy that a prefetch goes on with is stalled at or before its next element: its record stands for both. -/
def State.leaderStalled (s : State) (c : Copy) : Bool :=
  match c.merged.bind s.copy? with
  | some d => d.stall != .no && d.ofEntry c && decide (d.next ≤ c.next)
  | none => false

/-- The next element of one prefetch: where it fails, its task is told once, whatever other prefetches of it read together (11 R248). -/
def State.issueRead (s : State) (c : Copy) : State :=
  if !c.live || s.leaderStalled c then s
  else
    match s.elemLocs c c.next with
    | .ok x => s.flyElem c.id c.next x.1 x.2
    | .error f => if f.code = fcWait then s else (s.follow c).stallCopy c.id f

/-- The next element of a prefetch and of those merged into its read. [DEDUCED, log 48] -/
def State.issueGroup (s : State) : List Nat → State
  | [] => s
  | id :: rest =>
    match s.copy? id with
    | some c => State.issueGroup (s.issueRead c) rest
    | none => State.issueGroup s rest

/-- The prefetches that read together with a copy and stand at the same element. -/
def State.readers (s : State) (c : Copy) : List Nat :=
  ((s.groupOf (c.merged.getD c.id)).filter fun x => x.live && x.next == c.next && x.id != c.id).map Copy.id

/-! ## Ordered CPYR (11 R239) -/

/-- Sources and destinations of the eight elements of a line; the first failure. -/
def State.lineLocs (s : State) (c : Copy) : List Nat → Except FaultInfo (List (Nat × Nat × Nat))
  | [] => .ok []
  | i :: rest =>
    match s.elemLocs c i, State.lineLocs s c rest with
    | .error f, _ => .error f
    | .ok _, .error f => .error f
    | .ok x, .ok l => .ok ((i, x.1, x.2) :: l)

/-- Data of successive sectors as one value. -/
def joinSectors : List (BitVec 128) → Nat
  | [] => 0
  | d :: rest => d.toNat + 2 ^ 128 * joinSectors rest

/-- The eight elements of a line of an ordered CPYR are issued together. [DEDUCED, log 42] -/
def State.issueLine (s : State) (c : Copy) : State :=
  match s.lineLocs c ((List.range 8).map fun i => c.next + i) with
  | .error f => s.stallCopy c.id f
  | .ok l => s.modCopy c.id fun y =>
      { y with next := c.next + 8, fly := y.fly ++ l.map fun x => ({ n := x.1, loc := x.2.2, src := x.2.1, via := s.elemVia c x.1 } : Elem) }

/-- A line of an ordered CPYR whose eight sectors have been read goes to its bank as one contribution. -/
def State.sendLine (s : State) (c : Copy) (op : RedOp) (ty : ElemType) (n : Nat) : State :=
  let l := c.fly.filter fun e => e.n / 8 == n / 8
  match l with
  | [] => s
  | e :: _ =>
    if l.all fun e => e.got then
      let k : Contribution :=
        { ctx := c.ctx, loc := e.loc, q := c.desc.seq, pois := l.any fun e => e.pois
          op := .line op ty (BitVec.ofNat 1024 (joinSectors (l.map fun e => e.data))) c.id e.n }
      { s with fab := { s.fab with arriving := s.fab.arriving ++ [k] } }
    else s

/-! ## Copies from an input port (11 R253, R254, R256) -/

/-- Whether one more packet can be kept by a port: 16 in the port, the rest in the spill region. -/
def State.keepRoom (s : State) (ctx : BitVec 32) (q : InPort) : Bool :=
  decide (q.kept.length < 16) ||
    (match s.ctx? ctx with
     | some c => decide (c.shadowSpill (s.shadowLines ctx) + s.keptSpill ctx < c.spillLen / 128)
     | none => false)

/-- The sectors of a packet. -/
def Packet.sectors (k : Packet) : List (BitVec 128 × Bool) :=
  (List.range 8).map fun i => (k.payload.extractLsb' (128 * i) 128, k.pois)

/-- The copy ends with the port: what it has issued is all it moves. -/
def State.cutCopy (s : State) (id : Nat) : State := s.modCopy id fun c => { c with cut := true }

/-- A SIN copy takes the packet at the head of its port. -/
def State.takePacket (s : State) (c : Copy) (q : InPort) (k : Packet) : State :=
  let s := s.modInPort q.inst q.idx q.port InPort.take
  if k.abort then s.stallCopy c.id { code := fcStreamAbort, addr := c.desc.dst + c.desc.dstOff c.next }
  else if k.eot then if k.eos then s.cutCopy c.id else s
  else s.modCopy c.id fun y => { y with inPart := k.sectors }

/-- Whether the pitch in the window has a fired SPOP of a port. -/
def Run.popping (r : Run) (port : Nat) : Bool :=
  match r.pitch with
  | some p => p.pops.contains port
  | none => false

/-- The next sector of a SIN copy: from the packet it holds, or the port's next, but none while a fired SPOP on the port has not belayed
(11 R254). [DEDUCED, log 43] -/
def State.issueSin (s : State) (c : Copy) (port : Nat) : State :=
  match c.inPart with
  | x :: rest =>
    match s.elemDst c c.next with
    | .error f => s.stallCopy c.id f
    | .ok b => s.modCopy c.id fun y =>
        { y with inPart := rest, next := c.next + 1
                 fly := y.fly ++ [{ n := c.next, loc := b, src := portLoc, got := true, data := x.1, pois := x.2, via := s.elemVia c c.next }] }
  | [] =>
    match s.inPort? c.inst c.idx port, s.copyRun c with
    | some q, some r =>
      if r.popping port then s
      else
        match q.queue with
        | [] => if q.ended then s.cutCopy c.id else s
        | k :: _ => if s.keepRoom c.ctx q then s.takePacket c q k else s
    | _, _ => s

/-- Whether n bytes of a tile's scratchpad lie in the footprint of an operation issued in an earlier pitch than a copy of its
task: a read waits only for what is written (08 R182). -/
def State.behindMatrix (s : State) (c : Copy) (l n : Nat) (write : Bool) : Bool :=
  let v := s.tile c.tile
  c.desc.kind != .prefetch && isPadLine c.tile (lineKey l) &&
    ({ v with jobs := v.jobs.filter fun j => j.epoch < c.epoch } : Tile).footprint (locPa l) n write

/-- COPY_ELEMENT_TRANSLATE (11 R234). -/
def execCopyElementTranslate (copy : Nat) (s : State) : Host.Outcome State Fault Refusal :=
  match s.copy? copy with
  | none => .next s
  | some c =>
    if c.live && decide (c.next < c.desc.n) then
      match c.desc.sin with
      | some p => .next (s.issueSin c p)
      | none =>
        match c.desc.kind with
        | .cpyr _ _ => .next (if c.desc.ord then s.issueLine c else s.issueElem c)
        | .prefetch => .next (s.issueGroup (c.id :: s.readers c))
        | .cpy => .next (s.issueElem c)
        | .cpys => .next (s.issueElem c)
        | .cpyb => .next (s.issueElem c)
    else .next s

/-! ## COPY_ELEMENT_COMPLETE -/

/-- The tiles a CPYB names. -/
def Copy.named (c : Copy) : List Nat := (clusterTiles (tileCluster c.tile)).filter fun t => c.desc.tmask.getLsbD (tileIndex t)

/-! ### Reads: in any order (12 R265) -/

/-- An element whose source has been read; a broadcast element goes to each named tile by itself (11 R240). -/
def Copy.withData (c : Copy) (e : Elem) (data : BitVec 128) (pois : Bool) : List Elem :=
  let e : Elem := { e with got := true, data := data, pois := pois }
  match c.desc.kind with
  | .cpyb => c.named.map fun t => { e with loc := padLoc t (locPa e.loc) }
  | .cpy | .cpys | .cpyr _ _ | .prefetch => [e]

/-- The read of element n of a copy has returned. -/
def Copy.take (c : Copy) (n : Nat) (data : BitVec 128) (pois : Bool) : Copy :=
  { c with fly := c.fly.flatMap fun e => if e.n == n && !e.got then c.withData e data pois else [e] }

/-- Copies that one read serves: the copy, and those merged with it that await the same element from the same place. -/
def State.served (s : State) (c : Copy) (e : Elem) : List Nat :=
  c.id :: (if c.desc.kind = .prefetch then
    ((s.groupOf (c.merged.getD c.id)).filter fun x => x.id != c.id && x.fly.any fun y => y.n == e.n && y.src == e.src && !y.got).map
      Copy.id
  else [])

def State.takeAll (s : State) (n : Nat) (data : BitVec 128) (pois : Bool) : List Nat → State
  | [] => s
  | id :: rest => State.takeAll (s.modCopy id fun c => c.take n data pois) n data pois rest

/-- A scratchpad line that a copy of the running task reads has been read by it (09 R189). -/
def State.touchRead (s : State) (c : Copy) (e : Elem) : State :=
  if (s.copyRun c).isSome then s.touchPad [lineKey e.src] else s

/-- The source of an element is read with its check value (09 R206; 12 R265). A broadcast that names no tile has nothing to land:
the element is complete with its read (11 R240). -/
def State.readElem (s : State) (c : Copy) (e : Elem) : State :=
  let data := BitVec.ofNat 128 (s.mem.value e.src 16)
  let pois := s.poisonAt e.src 16
  let s := ((s.touchRead c e).readLine c.ctx (lineKey e.src)).takeAll e.n data pois (s.served c e)
  match c.desc.kind with
  | .cpyr op ty => if c.desc.ord then s.sendLine (c.take e.n data pois) op ty e.n else s
  | .cpyb => if c.named.isEmpty then s.elementsDone c.id [e.n] else s
  | .cpy | .cpys | .prefetch => s

/-! ### Writes: in any order -/

/-- Whether the prefetches of a record cover a line of a tile (15 R316). -/
def recCovers (ws : List (BitVec 64)) (t key : Nat) : Bool :=
  (recPrefs ws).any fun x => x.len != 0 && decide (lineKey (padLoc t x.doff) ≤ key) && decide (key ≤ lineKey (padLoc t (x.doff + x.len - 1)))

/-- Whether a prefetch may land in a line now: the running task has neither written nor read it, and has not prefetched it
itself, nor has an entry ahead in the placed queue (09 R188, R189). [DEDUCED, log 103] -/
def State.mayLand (s : State) (c : Copy) (key : Nat) : Bool :=
  let words := fun (inst idx : Nat) => ((s.rec? inst idx).map Rec.words).getD []
  (match s.run? c.tile with
   | none => true
   | some r => !(s.line key).wr && !(s.line key).rd && !recCovers (words r.inst r.idx) c.tile key) &&
  (((s.tile c.tile).queue.takeWhile fun p => !(p.inst == c.inst && p.idx == c.idx && p.twin == c.twin)).all fun p =>
    !recCovers (words p.inst p.idx) c.tile key)

/-- Whether a tile takes a broadcast element: it runs a task of the context, and has not been skipped (11 R240). -/
def State.takesBroadcast (s : State) (c : Copy) (t : Nat) : Bool :=
  !c.skip.getLsbD (tileIndex t) &&
    (match s.run? t with
     | some r => r.ctx == c.ctx
     | none => false)

/-- Bytes the manual leaves open. -/
def freeBytes (k : Nat) (n : Nat) : List Byte := (List.range n).map fun i => Config.freeByte (k + i)

/-- The packet a memory-fed port sends: its format code, and the bytes after the last sector of a copy, are open; fill gives them.
[DESIGN CHOICE, log 44] -/
def packetOf (fill : Nat → Byte) (d : CopyDesc) (l : List Elem) : Packet :=
  { payload := BitVec.ofNat 1024 (joinSectors (l.map fun e => e.data) +
      2 ^ (128 * l.length) * leNat ((List.range (16 * (8 - l.length))).map fun i => fill (i + 1)))
    fmt := (fill 0).setWidth 3
    pois := l.any fun e => e.pois
    reads := l.map fun e => d.src + d.srcOff e.n }

/-- The write of an entry is over; the element is complete once no entry of it is left. -/
def State.entryOver (s : State) (c : Copy) (k : Nat) (e : Elem) : State :=
  let fly := c.fly.eraseIdx k
  let s := s.modCopy c.id fun y => { y with fly := fly }
  if fly.any fun x => x.n == e.n then s else s.elementsDone c.id [e.n]

/-- A sector reaches the output port; eight of them, or the last, make a packet, which waits for a place (11 R252). -/
def State.feedPort (s : State) (c : Copy) (r : Run) (port k : Nat) (e : Elem) : State :=
  let part := c.part ++ [e]
  if part.length < 8 && decide (e.n + 1 < c.desc.n) then
    (s.modCopy c.id fun y => { y with part := part }).entryOver c k e
  else
    let o := r.outPort port
    let held := match r.pitch with | some p => p.reserved port | none => 0
    if o.hasRoom held then
      let x := packetOf (Config.packetByte r.ctx r.templ r.tag r.idx port o.nextSeq) c.desc part
      let s := s.setRun c.tile (r.modOut port fun o => o.enter x)
      (s.modCopy c.id fun y => { y with part := [], lastSent := some o.nextSeq }).entryOver c k e
    else s

/-- Elements that complete in ascending order: those of reducing copies and of copies to a port (11 R239, R252). -/
def Copy.inOrder (c : Copy) (e : Elem) : Bool := c.fly.all fun x => e.n ≤ x.n

/-- The last element so far of a copy from a port, in a scratchpad line that is not over with it: whether it is the last write
of that line is known only when the next packet, or the end of the port, has come (09 R186). [DESIGN CHOICE, log 104] -/
def Copy.undecided (c : Copy) (e : Elem) : Bool :=
  c.desc.sin.isSome && c.live && decide (e.n + 1 = c.next) && decide (c.next < c.desc.n) && locSpace e.loc == spPad &&
    (c.desc.dst + c.desc.dstOff e.n).toNat % 128 != 112

/-- A broadcast element reaches one named tile: landed, or the tile is skipped from here on (11 R240). -/
def State.broadcast (s : State) (c : Copy) (e : Elem) : State :=
  let t := locCtx e.loc
  if s.takesBroadcast c t then s.landElem c t e.n e.data e.pois
  else s.modCopy c.id fun y => { y with skip := y.skip ||| ((1 : BitVec 16) <<< tileIndex t) }

/-- The write of entry k of a copy is performed (11 R234). -/
def State.writeElem (s : State) (c : Copy) (k : Nat) (e : Elem) : State :=
  let left : Copy := { c with fly := c.fly.eraseIdx k }
  match c.desc.sout, s.copyRun c with
  | some port, some r => if c.inOrder e then s.feedPort c r port k e else s
  | some _, none => s
  | none, _ =>
    match c.desc.kind with
    | .cpyb => (s.broadcast left e).entryOver c k e
    | .cpyr op ty =>
      if c.desc.ord || !c.inOrder e then s
      else (s.combine c.ctx e.loc 16 (fun o => combineLine op ty o e.data.toNat % 2 ^ 128) e.pois).entryOver c k e
    | .prefetch => if s.mayLand c (lineKey e.loc) then (s.landElem left c.tile e.n e.data e.pois).entryOver c k e else s
    | .cpy | .cpys =>
      if c.undecided e then s
      else if locSpace e.loc = spPad then (s.landElem left c.tile e.n e.data e.pois).entryOver c k e
      else (s.storeElem left e).entryOver c k e

/-- COPY_ELEMENT_COMPLETE (11 R234): the data of an element returns, or its write is performed; both wait for the matrix unit
(08 R182) and for a link. -/
def execCopyElementComplete (copy entry : Nat) (s : State) : Host.Outcome State Fault Refusal :=
  match s.copy? copy with
  | none => .next s
  | some c =>
    match c.fly[entry]? with
    | none => .next s
    | some e =>
      if e.got then
        if s.behindMatrix c e.loc 16 true || s.linkDown e.loc then .next s else .next (s.writeElem c entry e)
      else if s.behindMatrix c e.src 16 false || s.linkDown e.src then .next s
      else .next (s.readElem c e)

/-! ## The stamp and the end of a copy (11 R234, R244) -/

/-- Every element a copy moves is complete. -/
def Copy.moved (c : Copy) : Bool := c.stall == .no && if c.cut then c.prog = c.next && c.inPart.isEmpty else c.prog = c.desc.n

/-- COPY_STAMP_WRITE (11 R244). -/
def execCopyStampWrite (copy : Nat) (s : State) : Host.Outcome State Fault Refusal :=
  match s.copy? copy with
  | none => .next s
  | some c =>
    match c.desc.stamp with
    | none => .next s
    | some (a, v) =>
      if c.moved && !c.done && !c.stampDone then
        match s.streamLoc c.tile c.ctx a true with
        | .error f => .next (s.stallCopy copy f)
        | .ok l =>
          if s.behindMatrix c l 8 true then .next s else
          let s := (s.storeFor c.ctx l (toBytes v.toNat 8) false).modCopy copy fun c => { c with stampDone := true }
          .next (if locSpace l = spPad && ({ c with stampDone := true } : Copy).lineOver c.tile (lineKey l) then s.landFull (lineKey l) true
            else s)
      else .next s

/-- The last packet of a copy to a port has left the port's queue. -/
def Copy.portClear (c : Copy) (r : Run) : Bool :=
  match c.desc.sout, c.lastSent with
  | some p, some n => !(r.outPort p).queue.any fun k => k.seq == n
  | some _, none => true
  | none, _ => true

/-- The tag bits of a completion (05 R113). -/
def Run.copyDone (r : Run) (d : CopyDesc) : Run :=
  match d.tag with
  | none => r
  | some g =>
    let bit : BitVec 64 := 1 <<< g
    { r with ctags := r.ctags ||| bit, ctagpend := r.ctagpend &&& ~~~bit }

/-- COPY_COMPLETE (11 R234). -/
def execCopyComplete (copy : Nat) (s : State) : Host.Outcome State Fault Refusal :=
  match s.copy? copy with
  | none => .next s
  | some c =>
    if c.moved && !c.done && (c.desc.stamp.isNone || c.stampDone) then
      match s.copyRun c with
      | some r =>
        if c.portClear r then
          let s := s.modCopy copy fun c => { c with done := true }
          .next ((s.modRun c.tile fun r => r.copyDone c.desc).twinEnter c.tile)
        else .next s
      | none => .next (s.modCopy copy fun c => { c with done := true })
    else .next s

end Sys2Proof.Machine
end

