-- ==== Sys2Proof/Machine/MatrixUnit.lean ====
section
/-! DEFINITION. The matrix unit: MATRIX_OP_START, MATRIX_OP_COMPLETE, ARMED_MMA_ROW, and rows that come from a stream
(08 R157, R161-R181; 11 R254, R256). -/

namespace Sys2Proof.Machine

/-! ## MATRIX_OP_START (08 R162, R168) -/

/-- Started operations that hold a compute path. -/
def Tile.pathsHeld (v : Tile) : Nat := ((v.jobs.filter fun j => j.started).map fun j => j.op.paths).sum

/-- Whether the resources of operation k are free of every operation issued before it. -/
def Tile.free (v : Tile) (k : Nat) (op : MatOp) : Bool :=
  (v.jobs.take k).all fun j =>
    j.started && !(j.op.arrays.any fun a => op.arrays.contains a) && !(j.op.accs.any fun a => op.accs.contains a)

/-- The first operation that has not started. -/
def Tile.nextJob (v : Tile) : Option Nat := v.jobs.findIdx? fun j => !j.started

/-- A conditional BLOAD makes its comparison as it starts. -/
def Tile.match_ (v : Tile) : MatOp → Bool
  | .bload a lw sw => (v.array a).holds lw sw
  | _ => false

def State.modJob (s : State) (t k : Nat) (f : MatJob → MatJob) : State :=
  s.modTile t fun v => { v with jobs := v.jobs.modify k f }

/-! ## Rows from a stream (08 R173, R181) -/

/-- The input port of a stream-fed MMA. -/
def MatOp.port : MatOp → Option Nat
  | .mma _ _ a _ => if awStrm a then some (awPort a) else none
  | _ => none

/-- M of an operation. -/
def MatOp.rows : MatOp → Nat
  | .mma _ _ a _ => awRows a
  | .mmat _ _ a _ => awRows a
  | .mmaa _ _ a _ => awRows a
  | _ => 0

/-- Scratchpad lines are read by the running task, with their check values (09 R189, R206). -/
def State.readPad (s : State) (t : Nat) (ls : List Nat) : State :=
  match s.run? t with
  | none => s
  | some r => (s.touchPad ls).verifyLines r.ctx ls

/-- The lines of the scale tables that row i reads. -/
def rowTables (t fmt : Nat) (scl : Bool) (soff boff i : Nat) : List Nat :=
  (if fmt ≤ 1 then padLines t (soff + 16 * i) 16 else []) ++ if bandApplies fmt scl then padLines t (boff + 2 * (i / 64)) 2 else []

/-- A row of a stream passes through its array into its accumulator. -/
def State.streamRow (s : State) (t k : Nat) (fmt : Nat) (bs : List Byte) (pois : Bool) : State :=
  match (s.tile t).jobs[k]? with
  | none => s
  | some j =>
    match j.op with
    | .mma arr acc a c =>
      let row := s.scaledRow t fmt (awScl a) (j.soff c) (j.boff c) j.rows (rowCodes fmt 128 bs) pois
      ((s.readPad t (rowTables t fmt (awScl a) (j.soff c) (j.boff c) j.rows)).passRows t arr acc (cwRow c + j.rows) (awScl a) (awIacc a) false (fun _ => row) 1 0).modJob t k fun j =>
        { j with rows := j.rows + 1, half := none }
    | _ => s

/-- A packet stops a stream-fed MMA: the fault waits for the next belay, later operations are cancelled (08 R181). -/
def State.matrixStop (s : State) (t k : Nat) (code : Nat) : State :=
  match (s.tile t).jobs[k]? with
  | none => s
  | some j =>
    let gone := (s.tile t).jobs.drop k
    (s.modTile t fun v => { v with jobs := v.jobs.take k }).modRun t fun r =>
      { r with
        named := r.named ++ gone.flatMap MatJob.changes
        matFault := some (r.matFault.getD ({ code := code }, j.pitch, j.slot, j.lsid, j.exit, j.rows)) }

/-- Whether a row of a format may be taken by an operation (02 R43; 08 R173). -/
def MatOp.takes : MatOp → Nat → Bool
  | .mma _ _ a _, f => f != 7 && (!awIacc a || f == 6)
  | _, _ => false

/-- The rows of one packet; the second row of an F4 packet that holds row M - 1 in its first half is dropped with the packet.
[DESIGN CHOICE, log 102] -/
def State.packetRows (s : State) (t k : Nat) (j : MatJob) (p : Packet) : State :=
  let f := p.fmt.toNat
  let bs := toBytes p.payload.toNat 128
  if p.abort then s.matrixStop t k fcStreamAbort
  else if p.eot then if p.eos then s.modJob t k fun j => { j with ended := true } else s
  else if !j.op.takes f then s.matrixStop t k fcIllegalFormat
  else
    match j.half with
    | some (d, g, q) =>
      if f ≠ g then s.matrixStop t k fcIllegalFormat
      else s.streamRow t k f (toBytes d.toNat 128 ++ bs) (p.pois || q)
    | none =>
      if f = 4 ∨ f = 5 then s.modJob t k fun j => { j with half := some (p.payload, f, p.pois) }
      else if f = 0 then
        let s := s.streamRow t k f (bs.take 64) p.pois
        if j.rows + 1 < j.op.rows then s.streamRow t k f (bs.drop 64) p.pois else s
      else s.streamRow t k f (bs.take (rowBytes f)) p.pois

/-- The stream-fed MMA of a tile that may take a packet of a port now, and its number. -/
def Tile.feeding (v : Tile) (port : Nat) : Option (Nat × MatJob) :=
  (v.jobs.zipIdx.find? fun x => x.1.op.port == some port && x.1.started && !x.1.ended && decide (x.1.rows < x.1.op.rows)).map
    fun x => (x.2, x.1)

/-- A stream-fed MMA takes the packets at the head of its port, while there is room to keep them. -/
def State.feedMma (s : State) (t port : Nat) : Nat → State
  | 0 => s
  | n + 1 =>
    match s.run? t, (s.tile t).feeding port with
    | some r, some (k, j) =>
      if r.popping port then s
      else
        match s.inPort? r.inst r.idx port with
        | none => s
        | some q =>
          match q.queue with
          | [] => if q.ended then s.modJob t k fun j => { j with ended := true } else s
          | p :: _ =>
            if s.keepRoom r.ctx q then
              State.feedMma ((s.modInPort r.inst r.idx port InPort.take).packetRows t k j p) t port n
            else s
    | _, _ => s

/-- The ports of a tile feed their operations. -/
def State.feedPorts (s : State) (t : Nat) : List Nat → State
  | [] => s
  | p :: rest =>
    let n := (s.fab.inPorts.map fun q => q.queue.length).sum + 1
    State.feedPorts (s.feedMma t p n) t rest

def State.feed (s : State) (t : Nat) : State := s.feedPorts t [0, 1, 2, 3]

/-- Start an operation. -/
def State.startJob (s : State) (t k : Nat) (j : MatJob) : State :=
  (s.modJob t k fun y => { y with started := true, matched := (s.tile t).match_ j.op }).feed t

/-- MATRIX_OP_START: the operation issued next starts when it holds its resources (08 R162). [DEDUCED, log 39] -/
def execMatrixOpStart (tile : Nat) (s : State) : Host.Outcome State Fault Refusal :=
  let v := s.tile tile
  match v.nextJob with
  | none => .next s
  | some k =>
    match v.jobs[k]? with
    | none => .next s
    | some j =>
      if v.free k j.op && decide (v.pathsHeld + j.op.paths ≤ 2) then .next (s.startJob tile k j) else .next s

/-! ## MATRIX_OP_COMPLETE (08 R162-R179) -/

/-- The scratchpad lines a job reads are read by the task, with their check values. -/
def State.readJob (s : State) (t : Nat) (j : MatJob) : State :=
  s.readPad t (j.readSpans.flatMap fun x => padLines t x.1 x.2)

/-- The effect of an operation that is not armed and not fed by a stream. -/
def State.performJob (s : State) (t : Nat) (j : MatJob) : State :=
  let v := s.tile t
  match j.op with
  | .bload a lw sw => if j.matched then s else s.setTile t (v.setArray a (s.loadArray t (v.array a) lw sw))
  | .bswap a b => s.setTile t ((v.setArray a (v.array b)).setArray b (v.array a))
  | .bclr a => s.setTile t (v.setArray a { v.array a with valid := false, pois := false })
  | .mma arr acc a c =>
    let f := j.aFmt a
    s.passRows t arr acc (cwRow c) (awScl a) (awIacc a) false
      (s.aRow t f (awScl a) (awOff a) (awStride a) (j.soff c) (j.boff c)) (awRows a) 0
  | .mmat arr acc a c =>
    s.passRows t arr acc (cwRow c) (awScl a) (awIacc a) false
      (s.aRowT t (j.aFmt a) (awScl a) (awOff a) (awStride a) (awRows a) (j.boff c)) (awRows a) 0
  | .mmaa _ _ _ _ => s
  | .accz acc => s.setTile t (v.clearAcc acc)
  | .accwr acc row d p =>
    s.setTile t (v.setAccRow acc (rwRow row) (writeHalf (v.accRow acc (rwRow row)) (rwHalf row) d p))
  | .accst acc w => s.storeRows t acc w (bitsAt w 47 7 + 1) 0
  | .accstat acc w => s.statRows t acc w
  | .accscl acc exp w => s.scaleRows t acc exp w 128 0

/-- An operation leaves the unit: its resources are free, and the waits for F bits are served. -/
def State.endJob (s : State) (t k : Nat) (j : MatJob) : State :=
  let s := s.modTile t fun v => { v with jobs := v.jobs.eraseIdx k }
  ((s.modRun t fun r => { r with named := r.named ++ j.changes }).serve).twinEnter t

/-- Whether an operation that has started is one whose rows come one by one. -/
def MatOp.stepwise (op : MatOp) : Bool :=
  match op with
  | .mmaa _ _ _ _ => true
  | _ => op.port.isSome

/-- MATRIX_OP_COMPLETE (08 R162). -/
def execMatrixOpComplete (tile k : Nat) (s : State) : Host.Outcome State Fault Refusal :=
  match (s.tile tile).jobs[k]? with
  | none => .next s
  | some j =>
    if !j.started then .next s
    else if j.op.stepwise then
      if j.op.port.isNone then .next s
      else
        let s := s.feed tile
        match (s.tile tile).jobs[k]? with
        | none => .next s
        | some j => if j.ended || decide (j.op.rows ≤ j.rows) then .next (s.endJob tile k j) else .next s
    else .next (((if j.matched then s else s.readJob tile j).performJob tile j).endJob tile k j)

/-! ## ARMED_MMA_ROW (08 R174, R175) -/

/-- The lines of a row all have F as given. -/
def State.allFull (s : State) (f : Bool) (ls : List Nat) : Bool := ls.all fun k => (s.line k).full == f

/-- A row of an armed MMA is computed and written: one step (08 R175). -/
def State.armedRow (s : State) (t k : Nat) (j : MatJob) (arr acc : Nat) (a w : BitVec 64) : State :=
  let i := j.rows
  let f := j.aFmt a
  let ain := padLines t (awOff a + i * awStride a) (rowBytes f)
  let ty := bitsAt w 40 3
  let out := padLines t (bitsAt w 0 20 + i * bitsAt w 20 20) (outBytes ty)
  if s.allFull true ain && s.allFull false out then
    let c := (bitsAt w 45 7 + i) % 128
    let s := s.readPad t (ain ++ rowTables t f (awScl a) j.scalep.toNat j.bandp.toNat i)
    let row := s.aRow t f (awScl a) (awOff a) (awStride a) j.scalep.toNat j.bandp.toNat i
    let s := s.passRows t arr acc c (awScl a) (awIacc a) (w.getLsbD 43) (fun _ => row) 1 0
    let x := (s.tile t).accRow acc c
    let s := (s.padWrite t (bitsAt w 0 20 + i * bitsAt w 20 20) (outRow ty x) x.pois).setFull true out
    let s := if w.getLsbD 44 then s.setFull false ain else s
    if i + 1 = awRows a then s.endJob t k j else (s.modJob t k fun j => { j with rows := i + 1 }).serve
  else s

/-- ARMED_MMA_ROW (08 R175): a compute path is used while the row passes. -/
def execArmedMmaRow (tile k : Nat) (s : State) : Host.Outcome State Fault Refusal :=
  match (s.tile tile).jobs[k]? with
  | none => .next s
  | some j =>
    match j.op with
    | .mmaa arr acc a w =>
      if j.started && decide ((s.tile tile).pathsHeld < 2) then .next (s.armedRow tile k j arr acc a w) else .next s
    | _ => .next s

end Sys2Proof.Machine
end

