-- ==== Sys2Proof/Machine/Streams.lean ====
section
/-! DEFINITION. The stream network: STREAM_PACKET_ARRIVE, STREAM_ACKNOWLEDGE, STREAM_RESEND_REQUEST (11 R249-R255). -/

namespace Sys2Proof.Machine

/-! ## Source indices (11 R249) -/

/-- The producers of an input port as record index and output port, ascending: the place of one is its source index. [DEDUCED, log 46] -/
def Inst.sourcesOf (i : Inst) (idx port : Nat) : List (Nat × Nat) :=
  i.recs.zipIdx.flatMap fun x =>
    (List.range 4).flatMap fun q =>
      (recBindings x.1.words).filterMap fun b =>
        if b.2.out && b.2.port == q && b.2.peer == idx && b.2.fanin % 4 == port then some (x.2, q) else none

/-- The source index of an output port of a run. -/
def State.sourceIndex (s : State) (r : Run) (port : Nat) (o : OutPort) : Nat :=
  match s.inst? r.inst with
  | some i => ((i.sourcesOf o.peer o.peerPort).findIdx? fun x => x.1 == r.idx && x.2 == port).getD 0
  | none => 0

/-! ## The receiving end (11 R253-R255) -/

/-- Places of an input queue (11 R253). -/
def inPlaces : Nat := 16

/-- The next expected number of a source, and how often that packet has failed. -/
def InPort.expect (q : InPort) (src : Nat) : BitVec 32 × Nat := q.srcs[src]?.getD (0, 0)

/-- What a port expects of a source; a port whose record names fewer producers than it has keeps one for each all the same.
[DESIGN CHOICE, log 100] -/
def InPort.setSrc (q : InPort) (src : Nat) (v : BitVec 32 × Nat) : List (BitVec 32 × Nat) :=
  (q.srcs ++ List.replicate (src + 1 - q.srcs.length) (0, 0)).set src v

/-- A packet enters the port: EOT packets are counted, and the packet that ends the port says so (11 R254). -/
def InPort.accept (q : InPort) (src : Nat) (k : Packet) : InPort :=
  let eots := if k.eot then q.eots + 1 else q.eots
  let ends := !q.ended && (k.abort || decide (k.eot = true ∧ eots = q.fanin + 1))
  { q with
    queue := q.queue ++ [{ k with src := BitVec.ofNat 4 src, eos := ends, reads := [] }]
    eots := eots
    ended := q.ended || ends
    srcs := q.setSrc src (k.seq + 1, 0) }

/-- A packet whose check value failed is discarded and counted. -/
def InPort.fail (q : InPort) (src : Nat) : InPort := { q with srcs := q.setSrc src ((q.expect src).1, (q.expect src).2 + 1) }

/-- What a port does with a packet. -/
inductive Arrived where
  | accepted | duplicate | failed
  deriving DecidableEq, Repr

/-- A packet arrives at a port: after two failed re-sends it is delivered with POIS (11 R255). -/
def InPort.arrive (q : InPort) (src : Nat) (k : Packet) (good : Bool) : InPort × Arrived :=
  let e := q.expect src
  if k.seq.ult e.1 then (q, .duplicate)
  else if good then (q.accept src k, .accepted)
  else if e.2 < 2 then (q.fail src, .failed)
  else (q.accept src { k with pois := true }, .accepted)

/-! ## The sending end (11 R252, R255) -/

/-- The packet at the head of an output queue is sent. -/
def OutPort.sent (o : OutPort) (k : Packet) (a : Arrived) : OutPort :=
  { o with
    queue := o.queue.drop 1
    unacked := o.unacked ++ [k]
    acks := if a = .failed then o.acks else o.acks + 1
    resend := if a = .failed then some k.seq else o.resend }

/-- STREAM_PACKET_ARRIVE: the next packet of an output port crosses its circuit; its check value holds or fails. [DEDUCED, log 45] -/
def execStreamPacketArrive (tile port : Nat) (good : Bool) (s : State) : Host.Outcome State Fault Refusal :=
  match s.run? tile with
  | none => .next s
  | some r =>
    let o := r.outPort port
    match o.queue, s.inPort? r.inst o.peer o.peerPort with
    | k :: _, some q =>
      if s.circuit r o && o.resend.isNone && decide (q.queue.length < inPlaces) then
        let x := q.arrive (s.sourceIndex r port o) k good
        let s := (s.modInPort q.inst q.idx q.port fun _ => x.1).setRun tile (r.modOut port fun o => o.sent k x.2)
        .next (match s.runsOf q.inst q.idx with
          | y :: _ => s.feed y.1
          | [] => s)
      else .next s
    | _, _ => .next s

/-- STREAM_ACKNOWLEDGE: the oldest acknowledgement reaches the output port, which lets its packet go; the waits of a commit may
be over (03 R79; 11 R252). -/
def execStreamAcknowledge (tile port : Nat) (s : State) : Host.Outcome State Fault Refusal :=
  match s.run? tile with
  | none => .next s
  | some r =>
    if (r.outPort port).acks = 0 then .next s
    else
      .next ((s.setRun tile (r.modOut port fun o => { o with unacked := o.unacked.drop 1, acks := o.acks - 1 })).twinEnter tile)

/-- Whether an address can be read again now: its page is under no MIGRATE, and no link to it is down. -/
def State.canReread (s : State) (t : Nat) (ctx : BitVec 32) (va : BitVec 64) : Bool :=
  match s.streamLoc t ctx va false with
  | .ok l => !s.linkDown l
  | .error f => f.code != fcWait

/-- Sector i of a packet read again at its source address, translated anew; one that no longer translates stands as it was sent,
poisoned. [DESIGN CHOICE, log 126] -/
def State.resector (s : State) (t : Nat) (ctx : BitVec 32) (k : Packet) (i : Nat) (va : BitVec 64) : BitVec 128 × Bool :=
  match s.streamLoc t ctx va false with
  | .ok l => (BitVec.ofNat 128 (s.mem.value l 16), s.poisonAt l 16)
  | .error _ => (k.payload.extractLsb' (128 * i) 128, true)

/-- A packet fed from memory is read again at the source addresses kept; its other bytes stand (11 R255). -/
def State.reread (s : State) (t : Nat) (ctx : BitVec 32) (k : Packet) : State × Packet :=
  match k.reads with
  | [] => (s, k)
  | l =>
    let n := 128 * l.length
    let x := l.zipIdx.map fun a => s.resector t ctx k a.2 a.1
    (s.readLines ctx ((l.filterMap fun a => (s.streamLoc t ctx a false).toOption).map lineKey),
      { k with payload := BitVec.ofNat 1024 (joinSectors (x.map fun y => y.1) + 2 ^ n * (k.payload.toNat / 2 ^ n)), pois := x.any fun y => y.2 })

def State.rereadAll (s : State) (t : Nat) (ctx : BitVec 32) : List Packet → State × List Packet
  | [] => (s, [])
  | k :: rest =>
    let x := s.reread t ctx k
    let y := State.rereadAll x.1 t ctx rest
    (y.1, x.2 :: y.2)

/-- STREAM_RESEND_REQUEST: the source sends again from the number asked for (11 R255). -/
def execStreamResendRequest (tile port : Nat) (s : State) : Host.Outcome State Fault Refusal :=
  match s.run? tile with
  | none => .next s
  | some r =>
    let o := r.outPort port
    match o.resend with
    | none => .next s
    | some n =>
      let again := o.unacked.filter fun k => !k.seq.ult n
      if again.all fun k => k.reads.all (s.canReread tile r.ctx) then
        let x := s.rereadAll tile r.ctx again
        .next (x.1.setRun tile (r.modOut port fun o =>
          { o with queue := x.2 ++ o.queue, unacked := o.unacked.filter fun k => k.seq.ult n, resend := none }))
      else .next s

end Sys2Proof.Machine
end

