-- ==== Sys2Proof/Machine/Queues.lean ====
section
/-! DEFINITION. Rings examined by the dispatcher microcode: FAULT_RECORD_HELD_WRITE, RING_POLL, LAUNCH_NOTIFY (13 R271-R280). -/

namespace Sys2Proof.Machine

/-- The first held record leaves; HELD counts what remains (13 R278). -/
def State.unhold (s : State) (ctx : BitVec 32) (q : Option Qcb) (n : Nat) : State :=
  let s := s.modCtx ctx fun c => { c with heldRecs := c.heldRecs.drop 1 }
  match q with
  | some q => s.qcbWord ctx q.loc 40 (bitsAt q.drops 0 32 + 2 ^ 32 * n)
  | none => s

/-- The oldest held record goes to the ring when it has room. -/
def State.writeHeld (s : State) (ctx : BitVec 32) (q : Qcb) (f : FaultRec) (n : Nat) : State :=
  if !q.en || q.full then s
  else
    match s.entryLoc ctx q 64 q.tail with
    | .error e => s.faultRingError ctx (some q) e
    | .ok l => (s.unhold ctx (some q) n).ringAppend ctx q l (toBytes f.bits.toNat 64)

/-- FAULT_RECORD_HELD_WRITE: the oldest held record of a context goes where its fault queue now sends records
(13 R278-R280). -/
def execFaultRecordHeldWrite (ctx : BitVec 32) (s : State) : Host.Outcome State Fault Refusal :=
  match s.ctx? ctx with
  | none => .next s
  | some c =>
    match c.heldRecs with
    | [] => .next s
    | f :: rest =>
      let s := s.noteRing ctx c.faultQ
      match s.viewRing ctx qFault c.faultQ with
      | .unused => .next (((s.mailRecord ctx f.bits).map fun t => t.unhold ctx none rest.length).getD s)
      | .lost e => .next (s.faultRingError ctx none e)
      | .broken q => .next (s.faultRingError ctx (some q) { code := fcIllegalEncoding })
      | .ready q =>
        match s.mailRecord ctx f.bits with
        | some t => .next (t.unhold ctx (some q) rest.length)
        | none => .next (s.writeHeld ctx q f rest.length)

/-- RING_POLL: a launch queue is examined (13 R273, R274, R276). -/
def execRingPoll (ctx : BitVec 32) (queue : Nat) (s : State) : Host.Outcome State Fault Refusal :=
  .next (s.takeLaunch ctx queue (s.launchFuel ctx queue))

/-- Whether a launch queue is in notify mode. -/
def State.notified (s : State) (ctx : BitVec 32) (queue : Nat) : Bool :=
  match (s.ctx? ctx).bind fun c => c.launch.find? fun x => x.1 == queue with
  | none => false
  | some reg =>
    match s.readQcb ctx reg.2.va with
    | .ok q => q.notify
    | .error _ => true

/-- LAUNCH_NOTIFY: the host's notification has a launch queue in notify mode examined (13 R273). -/
def execLaunchNotify (ctx : BitVec 32) (queue : Nat) (s : State) : Host.Outcome State Fault Refusal :=
  if s.notified ctx queue then .next (s.takeLaunch ctx queue (s.launchFuel ctx queue)) else .next s

end Sys2Proof.Machine
end

