-- ==== Sys2Proof/Machine/Services.lean ====
section
/-! DEFINITION. The services LOG and RESUME (06 R121-R123; 13 R281; 18 R371-R374). -/

namespace Sys2Proof.Machine

/-! ## LOG (13 R281) -/

/-- A log ring enters error: reported once. -/
def State.logError (s : State) (ctx : BitVec 32) (q : Option Qcb) (va : BitVec 64) (f : FaultInfo) : State :=
  let s := match q with
    | some q => s.qcbErr ctx q
    | none => s.modCtx ctx fun c => { c with logQ := c.logQ.map fun (r : QcbReg) => { r with err := true } }
  s.ringError ctx va f

/-- The 16 bytes of a log entry. -/
def logEntry (v tag : BitVec 64) (inst : BitVec 32) : List Byte :=
  toBytes v.toNat 8 ++ toBytes (bitsAt tag 0 16) 2 ++ toBytes 0 2 ++ toBytes inst.toNat 4

/-- An entry is appended to the log ring of a context: the state, and whether it was written. -/
def State.appendLog (s : State) (ctx : BitVec 32) (bs : List Byte) : State × Bool :=
  match s.ctx? ctx with
  | none => (s, false)
  | some c =>
    let va := (c.logQ.map QcbReg.va).getD 0
    let s := s.noteRing ctx c.logQ
    match s.viewRing ctx qLog c.logQ with
    | .unused => (s, false)
    | .lost f => (s.logError ctx none va f, false)
    | .broken q => (s.logError ctx (some q) va { code := fcIllegalEncoding }, false)
    | .ready q =>
      if q.full then (s, false)
      else
        match s.entryLoc ctx q 16 q.tail with
        | .error f => (s.logError ctx (some q) va f, false)
        | .ok l => (s.ringAppend ctx q l bs, true)

/-- SVC_LOG (13 R281). -/
def execSvcLog (tile : Nat) (s : State) : Host.Outcome State Fault Refusal :=
  match s.service? tile 0x001 with
  | none => .next s
  | some (r, c) =>
    let x := s.appendLog r.ctx (logEntry c.l c.r r.tag)
    .next (x.1.serviceDone tile (if x.2 then 0 else 1))

/-! ## RESUME (18 R372-R374) -/

/-- The actions. -/
inductive Action where
  | retry | abandon | kill | continue_
  deriving DecidableEq, Repr

def actionOf (r : BitVec 64) : Action :=
  match bitsAt r 0 2 with
  | 0 => .retry
  | 1 => .abandon
  | 2 => .kill
  | _ => .continue_

/-- What a stalled run allows: a WATCHDOG or POISON_COMMIT of an irrevocable task, a fault with no return, any other
(03 R77; 08 R181; 18 R374, R375, R381). -/
def Run.allows (r : Run) (code : Nat) (a : Action) : Bool :=
  match r.phase with
  | .stalled _ resume _ =>
    match a with
    | .retry => resume != .never && code != fcPoisonCommit
    | .abandon => !r.irrevocable
    | .kill => true
    | .continue_ => false
  | _ => false

/-- What a stalled copy or prefetch allows (11 R245, R254; 14 R301; 18 R381). [DEDUCED, log 50] -/
def State.copyAllows (s : State) (c : Copy) (a : Action) : Bool :=
  match a with
  | .retry => false
  | .continue_ =>
    match c.stall with
    | .stalled _ f => f.code != fcStreamAbort && c.twin.isNone
    | .no => false
    | .draining _ => false
  | .abandon => ((s.copyRun c).map fun r => !r.irrevocable).getD true
  | .kill => ((s.copyRun c).map fun r => !r.irrevocable).getD true

/-- Whether a record allows an action. -/
def State.allows (s : State) (w : Await) (a : Action) : Bool :=
  match w.of with
  | .task t =>
    match s.run? t with
    | some r => r.allows w.code a
    | none => false
  | .copy id =>
    match s.copy? id with
    | some c => s.copyAllows c a
    | none => false
  | .unplaceable _ _ => a != .continue_

/-- A task back in COMMITTING while one of its copies is stalled is STALLED again, by that copy's record (18 R371). -/
def State.restall (s : State) (t : Nat) : State :=
  match s.run? t with
  | none => s
  | some r =>
    if r.phase = .committing then
      match s.stalledCopy t r with
      | some n =>
        (s.setRun t { r with phase := .stalled n .waits true }).modRec r.inst r.idx fun x => { x with st := .stalled }
      | none => s.twinEnter t
    else s

/-- RETRY of a stalled task; an irrevocable WATCHDOG refills CYCLEFT (14 R303). -/
def State.retryTask (s : State) (t code : Nat) : State :=
  let s := if code = fcWatchdog then s.modRun t fun r => { r with cycleft := 2 ^ r.cyclim, watchdogDue := false } else s
  (s.retryFault t).restall t

/-- CONTINUE of a copy: it goes on at P, and a task that was held for it goes on waiting (03 R79; 11 R245). -/
def State.continueCopy (s : State) (c : Copy) (seq : Nat) : State :=
  let s := s.modCopy c.id fun c => { c with stall := .no }
  match s.copyRun c with
  | none => s
  | some r =>
    if r.phase = .stalled seq .waits true then
      ((s.setRun c.tile { r with phase := .committing }).modRec r.inst r.idx fun x => { x with st := .committing }).restall c.tile
    else s

/-- ABANDON of a stalled prefetch: its task, with every place it holds, goes back to PENDING, its prefetches cancelled and their
landings undone (14 R301). -/
def State.abandonPrefetch (s : State) (c : Copy) : State := (s.rollback c.inst c.idx).pendAgain c.inst c.idx

/-- An unplaceable record is read again from its image, and its placement checks made again (14 R304). -/
def State.recheck (s : State) (inst idx : Nat) : State :=
  match s.inst? inst with
  | none => s
  | some i =>
    match s.recWords i.ctx i.templ idx with
    | .error f => (s.verifyWalk none i.ctx f).reportUnplaceable i idx f
    | .ok ws =>
      let s := (s.verifyWords i.ctx (recordVa i.templ idx).toNat 32).modRec inst idx fun x => { x with words := ws, held := false }
      match s.inst? inst, s.rec? inst idx with
      | some i, some x => s.checkPlace i idx x
      | _, _ => s

/-- An allowed action is performed (18 R373). -/
def State.act (s : State) (w : Await) (a : Action) : State :=
  match w.of with
  | .task t =>
    match s.run? t with
    | none => s
    | some r =>
      match a with
      | .retry => s.retryTask t w.code
      | .abandon => (s.abandonTask r.inst r.idx .other).serve
      | .kill => (s.killTask r.inst r.idx).serve
      | .continue_ => s
  | .copy id =>
    match s.copy? id with
    | none => s
    | some c =>
      match a with
      | .retry => s
      | .continue_ => s.continueCopy c w.seq
      | .abandon => if (s.copyRun c).isSome then (s.abandonTask c.inst c.idx .other).serve else s.abandonPrefetch c
      | .kill => (s.killTask c.inst c.idx).serve
  | .unplaceable inst idx =>
    match a with
    | .retry => s.recheck inst idx
    | .abandon => s.recheck inst idx
    | .kill => s.killTask inst idx
    | .continue_ => s

/-- RESUME: the state and the status. -/
def State.resume (s : State) (seq : BitVec 64) (ctl : BitVec 64) : State × Nat :=
  let ctx := BitVec.ofNat 32 (bitsAt ctl 32 32)
  if bitsAt ctl 2 30 ≠ 0 then (s, 2)
  else
    match (s.ctx? ctx).bind fun c => c.await.find? fun w => w.seq % 2 ^ 64 == seq.toNat with
    | none => (s, 2)
    | some w =>
      if s.allows w (actionOf ctl) then
        ((s.modCtx ctx fun c => { c with await := c.await.filter fun x => x != w }).act w (actionOf ctl), 0)
      else (s, 2)

/-- SVC_RESUME (18 R372). -/
def execSvcResume (tile : Nat) (s : State) : Host.Outcome State Fault Refusal :=
  match s.service? tile 0x101 with
  | none => .next s
  | some (_, c) =>
    let x := s.resume c.l c.r
    .next (x.1.serviceDone tile x.2)

end Sys2Proof.Machine
end

