-- ==== Sys2Proof/Machine/Invalidate.lean ====
section
/-! DEFINITION. Invalidation of translations, walks that fill the translation caches, and MIGRATE: SVC_TLBINV, SVC_MIGRATE,
INVALIDATION_COMPLETE, TRANSLATION_WALK (16 R339-R349). -/

namespace Sys2Proof.Machine

/-! ## What an invalidation drops (16 R344, R345) -/

/-- Whether a page meets the range of an invalidation. -/
def Invalidation.meets (v : Invalidation) (base size : Nat) : Bool :=
  decide (base < v.start.toNat + 2 ^ 14 * v.units) && decide (v.start.toNat < base + size)

/-- Whether a leaf of a context, its page and its G bit, falls within an invalidation. -/
def Invalidation.drops (v : Invalidation) (ctx : BitVec 32) (base size : Nat) (g : Bool) : Bool :=
  match v.kind with
  | 0 => ctx == v.ctx && v.meets base size
  | 1 => ctx == v.ctx && !g
  | 2 => ctx == v.ctx
  | _ => true

/-- The caches without what an invalidation drops: leaves by page, and every table entry of the contexts it names. -/
def State.dropCached (s : State) (v : Invalidation) : State :=
  { s with pkg := { s.pkg with
      tlb := s.pkg.tlb.filter fun e => !v.drops e.ctx e.va.toNat (pageBytes (leafSize e.leaf)) (leafG e.leaf)
      nodes := s.pkg.nodes.filter fun n => !(v.kind == 3 || n.ctx == v.ctx) } }

/-- Whether one of the leaves that an access used falls within an invalidation, as it stood then. -/
def Invalidation.dropsAny (v : Invalidation) (ctx : BitVec 32) (l : List LeafUse) : Bool :=
  l.any fun x => v.drops ctx x.base x.size x.glob

/-! ## What an invalidation waits for (16 R345) -/

def State.elemHolders (s : State) (v : Invalidation) : List Holder :=
  s.fab.copies.flatMap fun c => c.fly.filterMap fun e =>
    if v.dropsAny c.ctx e.via then some (.elem c.id e.n) else none

/-- An access of the immediate class that has fired and has not been performed. -/
def Run.immOut (r : Run) : Option ImmAccess :=
  match r.phase, r.pitch with
  | .imm (.done _), _ => none
  | .imm _, some p => p.imm
  | .fire, some p => p.imm
  | .services _, some p => p.imm
  | _, _ => none

/-- An MWAIT of the pitch waits. -/
def Run.mwaits (r : Run) : List MemWait :=
  match r.phase, r.pitch with
  | .fire, some p => p.waits.filter fun m => p.slots[m.slot]?.any fun x => x.status == .pending
  | _, _ => []

/-- An invalidation that is step 2 of a MIGRATE. -/
def Invalidation.moves (v : Invalidation) : Bool :=
  match v.owner with
  | .migrate _ _ _ _ => true
  | .svc _ => false
  | .host _ _ => false

/-- An access that waits at its line, or has still to be sent to it: a MIGRATE takes it to the new frame and does not wait for it
(16 R349 step 3). -/
def Run.waitsAtLine (r : Run) : Bool :=
  match r.phase with
  | .imm .waiting => true
  | .imm .sent => false
  | .imm .busy => false
  | .imm (.done _) => false
  | .fetch => false
  | .fire => true
  | .services _ => true
  | .stalled _ _ _ => false
  | .committing => false
  | .twinWait => false

/-- Accesses of the immediate class, and MWAITs, of other tiles than the one whose service asks. -/
def State.immHolders (s : State) (v : Invalidation) : List Holder :=
  (s.running.filter fun x => !v.isFor x.1).flatMap fun x =>
    (match x.2.immOut with
     | some a =>
       if !(v.moves && x.2.waitsAtLine) && v.dropsAny x.2.ctx a.via then
         [.imm x.1 x.2.serial (s.tile x.1).belays (s.tile x.1).discards]
       else []
     | none => []) ++
      if !v.moves && x.2.mwaits.any fun m => v.dropsAny x.2.ctx m.via then
        [.mwait x.1 x.2.serial (s.tile x.1).belays (s.tile x.1).discards]
      else []

/-- Commit checks that have translated, and whose publication is still to come. -/
def Run.checking (r : Run) : Bool := r.phase = .committing && (r.checked || !r.bound.isEmpty || !r.remotes.isEmpty)

def State.commitHolders (s : State) (v : Invalidation) : List Holder :=
  (s.running.filterMap fun x =>
    if x.2.checking && v.dropsAny x.2.ctx x.2.via then some (.commit x.1 x.2.serial) else none) ++
  s.fab.pubs.filterMap fun p =>
    if v.dropsAny p.ctx p.via then some (.commit p.tile p.serial) else none

/-- Whether a run holds a shadow line bound through a dropped entry, or a store of its pitch is to make one. -/
def Run.holdsShadow (r : Run) (v : Invalidation) : Bool :=
  (r.shadow.any fun l => v.drops r.ctx l.leafVa.toNat l.leafSize l.leafGlobal) ||
    (match r.pitch with
     | some p => (p.storesBelow 128).any fun x => x.1.any fun q => !q.local_ && v.drops r.ctx q.leafVa.toNat q.leafSize q.leafGlobal
     | none => false)

/-- Whether a publication has still to write a line bound through a dropped entry. -/
def Pub.holdsShadow (p : Pub) (v : Invalidation) : Bool :=
  p.stores.any fun x => v.drops p.ctx x.line.leafVa.toNat x.line.leafSize x.line.leafGlobal

def State.shadowHolders (s : State) (v : Invalidation) : List Holder :=
  if v.shadow then
    (s.running.filterMap fun x => if x.2.holdsShadow v then some (.shadow x.1 x.2.serial) else none) ++
      s.fab.pubs.filterMap fun p => if p.holdsShadow v then some (.shadow p.tile p.serial) else none
  else []

/-- A publication of a run goes on. -/
def State.publishing (s : State) (t serial : Nat) : Bool := s.fab.pubs.any fun p => p.tile == t && p.serial == serial

/-- A run of a given number is on a tile. -/
def State.runs (s : State) (t serial : Nat) (f : Run → Bool) : Bool :=
  match s.run? t with
  | some r => r.serial == serial && f r
  | none => false

/-- Whether what an invalidation waits for is over. -/
def State.released (s : State) : Holder → Bool
  | .elem c n => !((s.copy? c).map fun c => c.fly.any fun e => e.n == n).getD false
  | .imm t k b d => !(s.runs t k (fun r => r.immOut.isSome) && (s.tile t).belays == b && (s.tile t).discards == d)
  | .mwait t k b d => !(s.runs t k (fun r => !r.mwaits.isEmpty) && (s.tile t).belays == b && (s.tile t).discards == d)
  | .commit t k => !(s.runs t k Run.checking) && !s.publishing t k
  | .shadow t k => !(s.runs t k fun _ => true) && !s.publishing t k

/-- The first byte of the frame of a leaf, where its whole page can be reached. [DEDUCED, log 71] -/
def State.frameLoc (s : State) (ctx : BitVec 32) (leaf : BitVec 64) : Option Nat :=
  let x : Xlat := { leaf := leaf, level := 0 }
  match s.resolve ctx x 0, s.resolve ctx x (pageBytes (leafSize leaf) - 1) with
  | .ok l, .ok _ => some l
  | _, _ => none

/-- The old frame of a MIGRATE: where it begins, and its bytes. -/
def State.oldFrame (s : State) (v : Invalidation) : Option (Nat × Nat) :=
  match v.owner with
  | .migrate _ old _ _ => (s.frameLoc v.ctx old).map fun l => (l, pageBytes (leafSize old))
  | .svc _ => none
  | .host _ _ => none

/-- A commit whose claim waits in the retry list of a line among some bytes. -/
def Run.claimWaits (r : Run) (l n : Nat) : Bool :=
  r.phase == .committing && r.claims.any fun c => !c.granted && decide (l ≤ c.loc) && decide (c.loc < l + n)

/-- Whether an invalidation waits for a holder no more; a MIGRATE does not wait for an access that has come to wait at its line, nor
for a claim that waits there: it takes them to the new frame. -/
def State.freed (s : State) (v : Invalidation) (h : Holder) : Bool :=
  s.released h ||
    match h with
    | .imm t k _ _ => v.moves && s.runs t k Run.waitsAtLine
    | .elem _ _ => false
    | .mwait _ _ _ _ => false
    | .commit t k => (s.oldFrame v).any fun x => s.runs t k fun r => r.claimWaits x.1 x.2
    | .shadow _ _ => false

/-- An invalidation begins: what it drops is dropped, and what it waits for noted. [DEDUCED, log 70] -/
def State.invalidate (s : State) (v : Invalidation) : State :=
  let v := { v with holders := s.elemHolders v ++ s.immHolders v ++ s.commitHolders v ++ s.shadowHolders v }
  let s := s.dropCached v
  { s with pkg := { s.pkg with invs := s.pkg.invs ++ [v] } }

/-! ## TLBINV (16 R344) -/

/-- The invalidation that a start address and control word ask for; none where they are refused. [DEDUCED, log 69] -/
def State.invalidation (s : State) (l w : BitVec 64) (owner : InvFor) : Option Invalidation :=
  let ctx := BitVec.ofNat 32 (bitsAt w 0 32)
  let kind := bitsAt w 32 2
  let units := bitsAt w 36 24 + 1
  if w.getLsbD 35 || bitsAt w 60 4 ≠ 0 || (s.ctx? ctx).isNone || (kind = 3 && ctx ≠ 0) || (kind ≠ 0 && units ≠ 1) then none
  else if kind = 0 then
    if !isCanonical l.toNat || l.toNat % 2 ^ 14 ≠ 0 || 2 ^ 56 < l.toNat + 2 ^ 14 * units then none
    else some { ctx := ctx, kind := kind, start := l, units := units, shadow := w.getLsbD 34, owner := owner }
  else if l ≠ 0 then none
  else some { ctx := ctx, kind := kind, start := l, units := 0, shadow := w.getLsbD 34, owner := owner }

/-- A service of a tile has its invalidation under way. -/
def State.invalidating (s : State) (t : Nat) : Bool := s.pkg.invs.any fun v => v.isFor t

/-- SVC_TLBINV (16 R344): it completes with INVALIDATION_COMPLETE. -/
def execSvcTlbinv (tile : Nat) (s : State) : Host.Outcome State Fault Refusal :=
  match s.service? tile 0x100 with
  | none => .next s
  | some (_, c) =>
    if s.invalidating tile then .next s
    else
      match s.invalidation c.l c.r (.svc tile) with
      | none => .next (s.serviceDone tile 2)
      | some v => .next (s.invalidate v)

/-! ## MIGRATE (16 R348, R349) -/

/-- The walk from a node to its leaf, with the location of the entry that holds it. -/
def State.siteFrom (s : State) (va : Nat) : Nat → Nat → Nat → Nat → Option (Xlat × Nat)
  | 0, _, _, _ => none
  | fuel + 1, level, aper, frame =>
    let pa := frame * 2 ^ 14 + 8 * vaIndex va level
    let e := s.nodeEntry aper pa
    if e.2 || !leafV e.1 then none
    else if entryIsLeaf level e.1 then
      if leafMalformed s.pkg.id.toNat level e.1 then none else some ({ leaf := e.1, level := level }, locOf aper 0 0 pa)
    else if tableMalformed e.1 then none
    else State.siteFrom s va fuel (level + 1) (leafAper e.1) (leafFrame e.1)

/-- Entries in the group of a leaf (16 R336). -/
def groupSize (size : Nat) : Nat :=
  match size with
  | 0 => 1
  | 1 => 4
  | 2 => 16
  | 3 => 128
  | 4 => 1
  | 5 => 8
  | 6 => 128
  | _ => 1

/-- The leaf of a page and the location of the first entry of its group. -/
def State.groupAt (s : State) (ctx : BitVec 32) (va : Nat) : Option (Xlat × Nat) :=
  match (s.ctx? ctx).bind Ctx.root with
  | none => none
  | some r =>
    (s.siteFrom va 4 0 r.aper.toNat r.frame.toNat).map fun x =>
      (x.1, x.2 - 8 * (vaIndex va x.1.level % groupSize (leafSize x.1.leaf)))

/-- The descriptor at an address, as the issuing task reads it: device memory or its scratchpad. -/
def State.migDesc (s : State) (t : Nat) (r : Run) (l : BitVec 64) : Except FaultInfo (BitVec 256) :=
  if l.toNat % 32 ≠ 0 then .error { code := fcMisaligned }
  else
    match s.checkAccess t r.ctx { align := 32, r := true } [(l.toNat, 32)] with
    | .error f => .error f
    | .ok bs => .ok (BitVec.ofNat 256 (leNat (s.readBounds t bs).1))

/-- Word i of a descriptor. -/
def migWord (d : BitVec 256) (i : Nat) : BitVec 64 := d.extractLsb' (64 * i) 64

/-- Apertures MIGRATE moves between. -/
def movable (a : Nat) : Bool := a == 0 || a == 1 || a == 3

/-- The location an address of the system context names, no permission asked. -/
def State.systemLoc (s : State) (va : Nat) : Option Nat :=
  if isCanonical va then
    match s.walk none 0 va with
    | .error _ => none
    | .ok x => (s.resolve 0 x va).toOption
  else none

/-- The migration a descriptor asks for; none where it is refused. -/
def State.migration (s : State) (t : Nat) (d : BitVec 256) : Option Invalidation :=
  let ctx := BitVec.ofNat 32 (bitsAt (migWord d 0) 0 32)
  let va := migWord d 1
  let new := migWord d 3
  if bitsAt (migWord d 0) 32 32 ≠ 0 || !isCanonical va.toNat then none
  else
    match s.groupAt ctx va.toNat with
    | none => none
    | some (x, l) =>
      let size := pageBytes (leafSize x.leaf)
      if va.toNat % size ≠ 0 || (migWord d 2).toNat % 8 ≠ 0 || s.systemLoc (migWord d 2).toNat ≠ some l || !leafV new ||
          leafSize new ≠ leafSize x.leaf || !entryIsLeaf x.level new || leafMalformed s.pkg.id.toNat x.level new ||
          !movable (leafAper x.leaf) || !movable (leafAper new) then none
      else
        some { ctx := ctx, kind := 0, start := va, units := size / 2 ^ 14, shadow := true, owner := .migrate t x.leaf new l }

/-- The page that a descriptor names, or that of its entry, is under MIGRATE: its translations wait (16 R349). -/
def State.migWaits (s : State) (d : BitVec 256) : Bool :=
  s.migrating (BitVec.ofNat 32 (bitsAt (migWord d 0) 0 32)) (migWord d 1).toNat || s.migrating 0 (migWord d 2).toNat

/-- SVC_MIGRATE (16 R348, R349): steps 1 and 2; the rest follows INVALIDATION_COMPLETE. A descriptor in a page that is itself
withheld is waited for, and so is another MIGRATE of the page. -/
def execSvcMigrate (tile : Nat) (s : State) : Host.Outcome State Fault Refusal :=
  match s.service? tile 0x102 with
  | none => .next s
  | some (r, c) =>
    if s.invalidating tile then .next s
    else
      match s.migDesc tile r c.l with
      | .error f => if f.code = fcWait ∧ c.r = 0 then .next s else .next (s.serviceDone tile 2)
      | .ok d =>
        if c.r = 0 && s.migWaits d then .next s else
        match (if c.r = 0 then s.migration tile d else none) with
        | none => .next (s.serviceDone tile 2)
        | some v => .next (s.invalidate v)

/-- Cells of a range moved to another base: those that stood there are gone, and memory keeps its canonical form. -/
def Memory.move (m : Memory) (src dst n : Nat) : Memory :=
  let from_ := (m.cells.filter fun c => src ≤ c.1 && c.1 < src + n).map fun c => (dst + (c.1 - src), c.2)
  { cells := (m.cells.filter fun c => c.1 < dst) ++ from_ ++ m.cells.filter fun c => dst + n ≤ c.1 }

/-- Where a location stands once a frame has moved. -/
def movedTo (src dst n l : Nat) : Nat := if src ≤ l ∧ l < src + n then dst + (l - src) else l

/-- The accesses of a pitch that wait move with their lines: one of the immediate class, and MWAITs (16 R349 step 3). -/
def Pitch.move (p : Pitch) (f : Nat → Nat) (imm : Bool) : Pitch :=
  { p with
    imm := p.imm.map fun a => if imm then { a with loc := f a.loc } else a
    waits := p.waits.map fun m => { m with loc := f m.loc } }

/-- A run with what it waits for moved: its accesses, its claims that are still to be granted with the places of their release
writes, and what its fetches see (03 R55). -/
def Run.move (r : Run) (f : Nat → Nat) (fetch : Memory → Memory) : Run :=
  let open_ := (r.claims.filter fun c => !c.granted).map fun c => c.entry
  { r with
    pitch := r.pitch.map fun p => p.move f r.immOut.isSome
    claims := r.claims.map fun c => if c.granted then c else { c with loc := f c.loc }
    bound := r.bound.map fun b => if open_.contains b.1 then (b.1, f b.2) else b
    fetchMem := fetch r.fetchMem }

/-- The lines of a frame of n bytes whose place another frame takes, as they stand there: an absent frame reads as zero, poisoned
(16 R336). -/
def State.movedLines (s : State) (src dst n : Nat) : List (Nat × LineMeta) :=
  if absentLoc src then (List.range (n / 128)).map fun k => (lineKey dst + k, { pois := true })
  else
    (s.lines.filter fun x => src ≤ 128 * x.1 && 128 * x.1 < src + n).map fun x =>
      (lineKey (movedTo src dst n (128 * x.1)), { x.2 with claimed := false, wr := false, rd := false, lseq := 0 })

/-- Data, poison, check value and F bit of every line of a frame copied to another, or dropped where the other is absent;
retry-list entries, waiting accesses and held contributions move with the lines (16 R336, R349 step 3). -/
def State.moveFrame (s : State) (src dst n : Nat) : State :=
  let at_ := movedTo src dst n
  let key := fun (k : Nat) => lineKey (at_ (128 * k))
  let kept := s.lines.filter fun x => !(dst ≤ 128 * x.1 && 128 * x.1 < dst + n)
  let move := fun (m : Memory) => if absentLoc dst then m else m.move src dst n
  { s with
    mem := move s.mem
    lines := if absentLoc dst then s.lines else (s.movedLines src dst n).foldl (fun (l : List (Nat × LineMeta)) x => kvSet {} l x.1 x.2) kept
    tiles := s.tiles.map fun x => (x.1, { x.2 with run := x.2.run.map fun r => r.move at_ move })
    fab := { s.fab with
      retry := s.fab.retry.map fun e =>
        match e.remote, e.claim with
        | some (.sync p c l m v d q), _ => { e with line := key e.line, remote := some (.sync p c (at_ l) m v d q) }
        | some (.claim _), _ => { e with line := key e.line }
        | none, some _ => { e with line := key e.line }
        | none, none => { e with line := key e.line }
      held := s.fab.held.map fun c => { c with loc := at_ c.loc } } }

/-- A granted claim moves from the line of one location to that of another. -/
def State.moveClaim (s : State) (a b : Nat) : State :=
  if a = b then s
  else (s.modLine (lineKey a) fun m => { m with claimed := false }).modLine (lineKey b) fun m => { m with claimed := true }

/-- A commit of the moved page that waits for a claim there has all that its checks bound in the old frame moved with it. -/
def State.moveCommits (s : State) (ctx : BitVec 32) (src dst n : Nat) : List (Nat × Run) → State
  | [] => s
  | (t, r) :: rest =>
    let at_ := movedTo src dst n
    State.moveCommits
      (if r.ctx == ctx && r.claimWaits dst n then
        ((r.claims.filter fun c => c.granted).foldl (fun s c => s.moveClaim c.loc (at_ c.loc)) s).setRun t
          { r with claims := r.claims.map (fun c => { c with loc := at_ c.loc }), bound := r.bound.map fun b => (b.1, at_ b.2) }
      else s) ctx src dst n rest

/-- The lines of a frame of n bytes whose check values fail. -/
def State.badLines (s : State) (l n : Nat) : List Nat :=
  (s.lines.filter fun x => x.2.chkBad && decide (l ≤ 128 * x.1) && decide (128 * x.1 < l + n)).map Prod.fst

/-- Step 3 of MIGRATE: every line is read for the context, with its check value, and stands in the new frame (09 R206; 16 R349). -/
def State.carryFrame (s : State) (ctx : BitVec 32) (a b n : Nat) : State :=
  if a = b then s
  else
    let s := (s.verifyLines ctx (s.badLines a n)).moveFrame a b n
    s.moveCommits ctx a b n s.running

/-- The new leaf is written in every entry of the group (16 R349 step 4). -/
def State.writeGroup (s : State) (l : Nat) (e : BitVec 64) : Nat → State
  | 0 => s
  | n + 1 => State.writeGroup (s.store (l + 8 * n) (toBytes e.toNat 8) false) l e n

/-- Steps 3 to 5 of MIGRATE; a frame that cannot be reached stops it with status 2, the old entries in force. -/
def State.migrate (s : State) (ctx : BitVec 32) (t : Nat) (old new : BitVec 64) (entry : Nat) : State :=
  match s.frameLoc ctx old, s.frameLoc ctx new with
  | some a, some b =>
    let s := s.carryFrame ctx a b (pageBytes (leafSize old))
    (s.writeGroup entry new (groupSize (leafSize new))).serviceDone t 0
  | _, _ => s.serviceDone t 2

/-! ## INVALIDATION_COMPLETE (16 R345) -/

/-- What waited for an invalidation goes on; a host command has its completion written by its port. -/
def State.invalidated (s : State) (v : Invalidation) (report : Nat → BitVec 32 → State → State) : State :=
  match v.owner with
  | .svc t => s.serviceDone t 0
  | .migrate t old new l => s.migrate v.ctx t old new l
  | .host port index => report port index s

/-- A frame of a MIGRATE whose way is down: its lines wait for the link (19 R394). -/
def State.frameDown (s : State) (v : Invalidation) : Bool :=
  match v.owner with
  | .migrate _ old new _ => (s.frameLoc v.ctx old).any s.linkDown || (s.frameLoc v.ctx new).any s.linkDown
  | .svc _ => false
  | .host _ _ => false

/-- The k-th invalidation completes when nothing it waits for remains. -/
def State.completeInv (s : State) (k : Nat) (report : Nat → BitVec 32 → State → State) : State :=
  match s.pkg.invs[k]? with
  | none => s
  | some v =>
    if v.holders.all (s.freed v) && !s.frameDown v then
      ({ s with pkg := { s.pkg with invs := s.pkg.invs.eraseIdx k } } : State).invalidated v report
    else s

/-! ## TRANSLATION_WALK (16 R339-R342) -/

/-- Entries a TLB of each kind and a die's table-entry cache hold. -/
def l1Size : Nat := 64
def l2Size : Nat := 4096
def nodeSize : Nat := 512

/-- A leaf enters a TLB; the oldest entry of a full one leaves. [DESIGN CHOICE, log 8] -/
def State.fillTlb (s : State) (unit size : Nat) (ctx : BitVec 32) (va : Nat) (x : Xlat) : State :=
  let e : TlbEntry := { unit := unit, ctx := ctx, va := BitVec.ofNat 64 (x.base va), leaf := x.leaf, level := x.level }
  let mine := (s.pkg.tlb.filter fun y => y.unit == unit) ++ [e]
  { s with pkg := { s.pkg with tlb := (s.pkg.tlb.filter fun y => y.unit != unit) ++ mine.drop (mine.length - size) } }

/-- The table entries a walk reads, as the walkers of a die keep them. -/
def State.nodesFrom (s : State) (die : Nat) (ctx : BitVec 32) (va : Nat) : Nat → Nat → Nat → Nat → List NodeEntry
  | 0, _, _, _ => []
  | fuel + 1, level, aper, frame =>
    let e := s.walkEntry (some die) ctx level va aper (frame * 2 ^ 14 + 8 * vaIndex va level)
    if e.2 || !leafV e.1 || entryIsLeaf level e.1 || tableMalformed e.1 then []
    else
      { die := die, ctx := ctx, level := level, vaTop := va / 2 ^ (47 - 11 * level), entry := e.1 } ::
        State.nodesFrom s die ctx va fuel (level + 1) (leafAper e.1) (leafFrame e.1)

/-- The table entries of a walk enter the cache of a die. -/
def State.fillNodes (s : State) (die : Nat) (l : List NodeEntry) : State :=
  let fresh := l.filter fun n => !s.pkg.nodes.contains n
  let mine := (s.pkg.nodes.filter fun n => n.die == die) ++ fresh
  { s with pkg := { s.pkg with nodes := (s.pkg.nodes.filter fun n => n.die != die) ++ mine.drop (mine.length - nodeSize) } }

/-- A miss of a tile is translated, and the caches on the way filled. -/
def State.fill (s : State) (t : Nat) (ctx : BitVec 32) (va : Nat) : State :=
  match s.tlbHit t ctx va, s.tlbHit (l2Unit (tileCluster t)) ctx va with
  | some _, _ => s
  | none, some x => s.fillTlb t l1Size ctx va x
  | none, none =>
    let d := tileDie t
    let nodes := match (s.ctx? ctx).bind Ctx.root with
      | some r => s.nodesFrom d ctx va 4 0 r.aper.toNat r.frame.toNat
      | none => []
    match s.walk (some d) ctx va with
    | .error _ => s.fillNodes d nodes
    | .ok x => ((s.fillNodes d nodes).fillTlb (l2Unit (tileCluster t)) l2Size ctx va x).fillTlb t l1Size ctx va x

/-- TRANSLATION_WALK (16 R339-R342). -/
def execTranslationWalk (tile : Nat) (ctx : BitVec 32) (va : BitVec 64) (s : State) : Host.Outcome State Fault Refusal :=
  if isCanonical va.toNat && !s.migrating ctx va.toNat then .next (s.fill tile ctx va.toNat) else .next s

end Sys2Proof.Machine
end

