-- ==== Sys2Proof/Machine/Wear.lean ====
section
/-! DEFINITION. Wear, ageing, in-field tests, retirement of clusters, clocks of clusters: WEAR_INTERVAL_END, MONITOR_SAMPLE,
DRAINED_TIMEOUT, INFIELD_TEST_START, INFIELD_TEST_RESULT, CLUSTER_RETIRE, LIFETIME_RECORD_WRITE, THERMAL_THRESHOLD,
POWER_CAP_WINDOW, CLUSTER_CLOCK_GATE (01 R22; 17 R357-R369; 18 R383-R385; 20 R410). -/

namespace Sys2Proof.Machine

/-! ## Wear intervals (17 R358-R361) -/

/-- The busy cycles of each context in wear interval n. -/
def Tile.busyIn (v : Tile) (n : Nat) : List (BitVec 32 × Nat) :=
  (v.busy.filter fun x => x.1 == n).map fun x => x.2

/-- Wear of n cycles of full activity at an acceleration factor, in 2^-32 WU, rounded toward zero. -/
def wearOf (n af : Nat) : Nat := n * af * 2 ^ 32 / (256 * 1700000000)

/-- Wear of the idle cycles of an interval: a sixteenth. -/
def idleWear (n af : Nat) : Nat := n * af * 2 ^ 32 / (16 * 256 * 1700000000)

/-- A context that has reached its quota is reported once; one below it is no longer over (17 R361). -/
def State.checkQuota (s : State) (ctx : BitVec 32) : State :=
  match s.ctx? ctx with
  | none => s
  | some c =>
    if c.wquota ≠ 0 && c.wquota ≤ c.charge then
      if c.overQuota then s
      else (s.modCtx ctx fun c => { c with overQuota := true }).record ctx { code := fcWearQuota, addr := BitVec.ofNat 64 c.charge }
    else s.modCtx ctx fun c => { c with overQuota := false }

/-- Each context is charged its share of the busy part (17 R359). -/
def State.chargeAll (s : State) (part b : Nat) : List (BitVec 32 × Nat) → State
  | [] => s
  | (c, k) :: rest =>
    State.chargeAll ((s.modCtx c fun x => { x with charge := min max3232 (x.charge + part * k / b) }).checkQuota c) part b rest

/-- Wear intervals of a tile that have been accounted for. -/
def State.intervals (s : State) (t : Nat) : Nat := kvGet 0 s.pkg.wearMarks t

/-- One wear interval of a tile ends (17 R358). -/
def State.wearInterval (s : State) (t : Nat) : State :=
  let v := s.tile t
  let n := s.intervals t
  let x := v.busyIn n
  let b := (x.map fun y => y.2).sum
  let part := wearOf b v.af
  let s := s.modTile t fun v =>
    { v with busy := v.busy.filter fun y => y.1 != n, life := min max3232 (v.life + part + idleWear (interval - b) v.af) }
  let s : State := { s with pkg := { s.pkg with wearMarks := kvPut s.pkg.wearMarks t (n + 1) } }
  (s.chargeAll part b x).age t

/-- WEAR_INTERVAL_END (17 R358): gated cycles count as idle ones (20 R410). -/
def execWearIntervalEnd (tile : Nat) (s : State) : Host.Outcome State Fault Refusal :=
  if (s.tile tile).state ≠ .retired && decide ((s.intervals tile + 1) * interval ≤ s.tileTime tile) then
    .next (s.wearInterval tile)
  else .next s

/-- A number of finished wear intervals of a tile. -/
def State.wearIntervals (s : State) (t : Nat) : Nat → State
  | 0 => s
  | n + 1 => State.wearIntervals (s.wearInterval t) t n

/-- Every wear interval of some tiles that is over ends; a RETIRED tile has none (17 R358, R362). -/
def State.wearTiles (s : State) : List Nat → State
  | [] => s
  | t :: rest =>
    State.wearTiles
      (if (s.tile t).state = .retired then s else s.wearIntervals t (s.tileTime t / interval - s.intervals t)) rest

/-- The physical clusters of the package. -/
def allClusters : List Nat := List.range 68

/-- The clusters whose tiles have come to the end of a wear interval since an earlier state. -/
def State.endedSince (s old : State) : List Nat :=
  allClusters.filter fun c => old.tileTime (16 * c) / interval != s.tileTime (16 * c) / interval

/-- The wear intervals that have ended since an earlier state end as soon as their time is over (17 R358, R360). -/
def State.wearSince (s old : State) : State := s.wearTiles ((s.endedSince old).flatMap clusterTiles)

/-! ## Samples (17 R357) -/

/-- The least of some readings. -/
def minOf : List Nat → Nat
  | [] => 0
  | [x] => x
  | x :: rest => min x (minOf rest)

/-- Cycles between two samples. -/
def samplePeriod : Nat := 2 ^ 26

/-- MONITOR_SAMPLE (17 R357), once in each 2^26 cycles of the tile: four margins in 1/256 % and six rates in 8.8 form; the two current integrals read what they read. [DESIGN CHOICE, log 74] -/
def execMonitorSample (tile : Nat) (bti : List Nat) (rates : List Nat) (s : State) : Host.Outcome State Fault Refusal :=
  if (s.tile tile).state ≠ .retired && bti.length = 4 && rates.length = 6 &&
      decide ((s.tile tile).sampledAt + samplePeriod ≤ s.tileTime tile) then
    let s1 := s.modTile tile fun v =>
      { v with
        sampledAt := s.tileTime tile / samplePeriod * samplePeriod
        prevMargin := v.margin, margin := minOf bti, af := min 65535 (rates.foldl max 0)
        em0 := BitVec.ofNat 64 (leNat (freeBytes s.free 8)), em1 := BitVec.ofNat 64 (leNat (freeBytes (s.free + 8) 8)) }
    let s2 : State := { s1 with free := s.free + 16 }
    .next (s2.age tile)
  else .next s

/-- DRAINED_TIMEOUT (17 R363). -/
def execDrainedTimeout (tile : Nat) (s : State) : Host.Outcome State Fault Refusal := .next (s.drainedOver tile)

/-- LIFETIME_RECORD_WRITE (17 R369). -/
def execLifetimeRecordWrite (s : State) : Host.Outcome State Fault Refusal := .next s.writeLife

/-! ## In-field tests (18 R383-R385) -/

/-- No task runs on a cluster. -/
def State.noRuns (s : State) (c : Nat) : Bool := (clusterTiles c).all fun t => (s.run? t).isNone

/-- No task runs on a cluster and its placed queues are empty. -/
def State.idleCluster (s : State) (c : Nat) : Bool := s.noRuns c && (clusterTiles c).all fun t => (s.tile t).queue.isEmpty

/-- The scan test of a tile leaves its window, accumulators and arrays cleared. -/
def State.scanTile (s : State) (t : Nat) : State :=
  (s.resetPad t).modTile t fun v =>
    { v with acc := [], arrays := v.arrays.map fun w => { w with valid := false } }

def State.scanTiles (s : State) : List Nat → State
  | [] => s
  | t :: rest => State.scanTiles (s.scanTile t) rest

/-- INFIELD_TEST_START: in an idle window; after 2^32 cycles without one, placement stops and queues are emptied (18 R383). -/
def execInfieldTestStart (cluster : Nat) (s : State) : Host.Outcome State Fault Refusal :=
  let c := s.cluster cluster
  if !s.inService cluster || c.inTest || c.retire != .no then .next s
  else if s.idleCluster cluster then
    .next ((s.modCluster cluster fun c => { c with inTest := true, testDue := false, gated := false }).scanTiles (clusterTiles cluster))
  else if !c.testDue && decide (c.lastPass + 2 ^ 32 ≤ s.cycle) then
    .next ((s.modCluster cluster fun c => { c with testDue := true }).emptyQueues (clusterTiles cluster))
  else .next s

/-- Contexts in ascending order that have entries in a list. -/
def historyCtxs (l : List History) : List (BitVec 32) := (l.map fun h => h.ctx).foldr insertId []

/-- One record per suspect entry, in commit order. [DEDUCED, log 77] -/
def State.suspectEntries (s : State) : List History → State
  | [] => s
  | h :: rest =>
    State.suspectEntries
      (s.record h.ctx
        { code := fcSuspect, cause := 64, record := h.recVa, tag := h.tag, addr := BitVec.ofNat 64 h.num, slot := tileIndex h.tile }) rest

/-- A summary record and the entries of each context (18 R385). -/
def State.suspectAll (s : State) (c : Nat) (l : List History) : List (BitVec 32) → State
  | [] => s
  | i :: rest =>
    let mine := l.filter fun h => h.ctx == i
    let x := s.cluster c
    let s := s.record i
      { code := fcSuspect, cause := s.logical c + if x.truncated then 128 else 0, addr := BitVec.ofNat 64 x.passCommit
        prog := s.pkg.commitSeq, tag := BitVec.ofNat 32 mine.length }
    State.suspectAll (s.suspectEntries mine) c l rest

/-- The suspect interval of a failed test. -/
def State.suspect (s : State) (c : Nat) (failed : BitVec 16) (shared : Bool) : State :=
  let l := (s.cluster c).history.filter fun h => shared || failed.getLsbD (tileIndex h.tile)
  s.suspectAll c l (historyCtxs l)

/-- A failed test of a tile (17 R363). -/
def State.tileFailed (s : State) (t : Nat) : State :=
  match s.origin t with
  | .normal => s.changeTile t .quarantined
  | .derated => s.changeTile t .quarantined
  | .quarantined => s.changeTile t .retired
  | .drained => s
  | .retired => s

/-- A passed test of a tile: the fourth in a row brings a QUARANTINED tile back (17 R363). -/
def State.tilePassed (s : State) (t : Nat) : State :=
  let v := s.tile t
  if s.origin t = .quarantined then
    let s := s.modTile t fun v => { v with passes := v.passes + 1 }
    if 3 ≤ v.passes && decide (marginT2 ≤ v.margin) && decide (v.life < wearBudget) then s.changeTile t .derated else s
  else s

/-- A test of some tiles ends: each has failed or passed. -/
def State.testTiles (s : State) (failed : BitVec 16) : List Nat → State
  | [] => s
  | t :: rest =>
    State.testTiles (if failed.getLsbD (tileIndex t) then s.tileFailed t else s.tilePassed t) failed rest

/-- The tiles of a cluster a test finds failing: a RETIRED tile is not tested. -/
def State.testMask (s : State) (c : Nat) (failed : BitVec 16) : BitVec 16 :=
  BitVec.ofNat 16 ((clusterTiles c).map fun t =>
    if failed.getLsbD (tileIndex t) && (s.tile t).state != .retired then 2 ^ tileIndex t else 0).sum

/-- INFIELD_TEST_RESULT (18 R383, R385; 17 R363, R365). -/
def execInfieldTestResult (cluster : Nat) (failed : BitVec 16) (shared : Bool) (s : State) : Host.Outcome State Fault Refusal :=
  if !(s.cluster cluster).inTest then .next s
  else
    let m := s.testMask cluster failed
    let s := s.modCluster cluster fun c => { c with inTest := false }
    if m = 0 && !shared then
      .next ((s.modCluster cluster fun c =>
        { c with lastPass := s.cycle, passCommit := s.pkg.commitSeq, history := [], truncated := false }).testTiles m (clusterTiles cluster))
    else
      let s := (s.suspect cluster m shared).testTiles m (clusterTiles cluster)
      .next (if shared then s.failShared cluster else s)

/-! ## Retirement of clusters (17 R366) -/

/-- A task on a cluster whose shared part failed: rolled back, or killed when irrevocable. -/
def State.evict (s : State) (c t : Nat) : State :=
  match s.run? t with
  | none => s
  | some r =>
    if r.irrevocable then
      (s.record r.ctx { r.recSpec { code := fcClusterAbsent, addr := BitVec.ofNat 64 (s.logical c) } with irrev := true }).killTask
        r.inst r.idx
    else s.abandonTask r.inst r.idx .other

def State.evictAll (s : State) (c : Nat) : List Nat → State
  | [] => s
  | t :: rest => State.evictAll (s.evict c t) c rest

def State.changeTiles (s : State) (st : TileState) : List Nat → State
  | [] => s
  | t :: rest => State.changeTiles (s.changeTile t st) st rest

/-- The spare of a die. -/
def spareOf (die : Nat) : Nat := 17 * die + 16

/-- The package shrinks by one logical id, and every context is told (17 R366). -/
def State.tellShrink (s : State) (id : Nat) : List Ctx → State
  | [] => s
  | c :: rest =>
    State.tellShrink (s.record c.id { code := fcTopology, addr := BitVec.ofNat 64 (id + 2 ^ 32 * s.pkg.topogen.toNat) }) id rest

def State.shrink (s : State) (id : Nat) : State :=
  let s : State := { s with pkg := { s.pkg with
    map := s.pkg.map.modify id fun m => { m with pres := false }, topogen := s.pkg.topogen + 1 } }
  s.tellShrink id s.ctxs

/-- The spare takes the logical id of a retired cluster, or the package shrinks (17 R366). -/
def State.replace (s : State) (c id : Nat) (spareFailed : BitVec 16) : State :=
  let d := c / 17
  let die := s.die d
  if die.spareUsed || die.spareFailed then s.shrink id
  else
    let s := (s.scanTiles (clusterTiles (spareOf d))).testTiles spareFailed (clusterTiles (spareOf d))
    if 12 ≤ s.usableTiles (spareOf d) then
      let s : State := { s with pkg := { s.pkg with map := s.pkg.map.modify id fun m => { m with phys := 16, was := some m.phys } } }
      s.modDie d fun x => { x with spareUsed := true }
    else (s.modDie d fun x => { x with spareFailed := true }).shrink id

/-- The last steps of a retirement, no task being left. -/
def State.retireCluster (s : State) (c : Nat) (spareFailed : BitVec 16) : State :=
  let id := s.logical c
  let s := s.changeTiles .retired (clusterTiles c)
  let s := s.modCluster c fun x => { x with retire := .retired }
  (s.replace c id spareFailed).writeLife

/-- CLUSTER_RETIRE (17 R366). -/
def execClusterRetire (cluster : Nat) (spareFailed : BitVec 16) (s : State) : Host.Outcome State Fault Refusal :=
  match (s.cluster cluster).retire with
  | .no => .next s
  | .retired => .next s
  | .byCount => if s.noRuns cluster then .next (s.retireCluster cluster spareFailed) else .next s
  | .shared => .next (((s.evictAll cluster (clusterTiles cluster)).serve).retireCluster cluster spareFailed)

/-! ## Clocks of clusters (01 R22; 20 R410) -/

/-- The clock that a temperature asks for: lowered from 100 °C until it falls below 95, stopped at 105. [DEDUCED, log 75] -/
def Heat.at (h : Heat) (celsius : Nat) : Heat :=
  if 105 ≤ celsius then .stopped
  else if 100 ≤ celsius then .lowered
  else if celsius < 95 then .cool
  else if h = .cool then .cool else .lowered

/-- THERMAL_THRESHOLD (01 R22). -/
def execThermalThreshold (cluster celsius : Nat) (s : State) : Host.Outcome State Fault Refusal :=
  .next (s.modCluster cluster fun c => { c with heat := c.heat.at celsius })

def State.setCapped (s : State) (l : List Nat) : List Nat → State
  | [] => s
  | c :: rest => State.setCapped (s.modCluster c fun x => { x with capped := l.contains c }) l rest

/-- The clusters whose clocks are lowered: above the cap some are, all where none is named; which is the device's choice (20 R410).
[DESIGN CHOICE, log 114] -/
def State.toLower (s : State) (watts : Nat) (lowered : List Nat) : List Nat :=
  if s.pkg.powerCap < watts && !allClusters.any lowered.contains then allClusters else lowered

/-- POWER_CAP_WINDOW: the power that a window of 1 ms would take on average, and the clusters whose clocks the device lowers to stay
within the cap (20 R410). -/
def execPowerCapWindow (watts : Nat) (lowered : List Nat) (s : State) : Host.Outcome State Fault Refusal :=
  let lowered := s.toLower watts lowered
  let s : State := { s with pkg := { s.pkg with watts := watts } }
  .next (s.setCapped lowered (allClusters.filter fun c => lowered.contains c || (s.cluster c).capped))

/-- CLUSTER_CLOCK_GATE: a cluster idle for 2^16 cycles (20 R410). -/
def execClusterClockGate (cluster : Nat) (s : State) : Host.Outcome State Fault Refusal :=
  let c := s.cluster cluster
  if s.idleCluster cluster && !c.inTest && decide (c.idleSince + 2 ^ 16 ≤ s.cycle) then
    .next (s.modCluster cluster fun c => { c with gated := true })
  else .next s

end Sys2Proof.Machine
end

