-- ==== Sys2Proof/Machine/HostAccess.lean ====
section
/-! DEFINITION. Host addresses, host reads and writes, and the access of the host to protected contexts: HOST_READ, HOST_WRITE
(09 R196, R205; 12 R269; 19 R388, R392, R400, R402). -/

namespace Sys2Proof.Machine

/-! ## Ports -/

/-- A refusal is counted at a port (17 R356). -/
def State.refuse1 (s : State) (p : PortSel) : State := s.modPort p fun x => { x with refused := x.refused + 1 }

/-! ## Host addresses (19 R388) -/

/-- Bytes of a command area, and where that of a Chrolu port begins. -/
def areaSize : Nat := 0x10000
def areaBase (p : Nat) : Nat := 0xF_F000_0000 + areaSize * p

/-- An address of a command area. -/
def inArea (pa : Nat) : Bool := areaBase 0 ≤ pa && pa < areaBase 2

/-- The context a Chrolu port's bank-memory selector names. -/
def State.selected (s : State) (p : Nat) : Option Ctx :=
  let w := BitVec.ofNat 64 (s.mem.value (locOf spHbm 0 0 (areaBase p + 0x80)) 8)
  if w.getLsbD 32 && bitsAt w 33 31 = 0 then s.ctx? (BitVec.ofNat 32 (bitsAt w 0 32)) else none

/-- The location of a host address, none where it reaches no memory. -/
def State.hostLoc (s : State) (p : Nat) (a : BitVec 64) : Option Nat :=
  let pa := bitsAt a 0 61
  match bitsAt a 61 3 with
  | 0 => if 2 ^ 39 ≤ pa || (reserved pa && !inArea pa) then none else some (locOf spHbm 0 0 pa)
  | 1 => if s.ddrAbsent pa then none else some (locOf spDdr 0 0 pa)
  | 2 =>
    match s.selected p with
    | some c => if pa < 2 ^ 52 && c.hasBank pa then some (locOf spBank 0 c.id.toNat pa) else none
    | none => none
  | _ => none

/-! ## Memory of protected contexts (19 R400) -/

/-- The frames that the page tables below a node map: aperture, first byte and length. -/
def State.nodeFrames (s : State) : Nat → Nat → Nat → Nat → List (Nat × Nat × Nat)
  | 0, _, _, _ => []
  | fuel + 1, level, na, frame =>
    (List.range (if level = 0 then 512 else 2048)).flatMap fun i =>
      let e := (s.nodeEntry na (frame * 2 ^ 14 + 8 * i)).1
      if !leafV e then []
      else if entryIsLeaf level e then [(leafAper e, leafFrame e * 2 ^ 14, pageBytes (leafSize e))]
      else if tableMalformed e then []
      else State.nodeFrames s fuel (level + 1) (leafAper e) (leafFrame e)

/-- The ranges of this package's memory that are a context's own, outside bank memory: its larder, its spill region, and the frames it
maps. [DEDUCED, log 84] -/
def State.ranges (s : State) (c : Ctx) : List (Nat × Nat × Nat) :=
  [(spHbm, c.larder, c.lardlen), (spHbm, c.spillBase, c.spillLen)] ++
    match c.root with
    | some r => s.nodeFrames 4 0 r.aper.toNat r.frame.toNat
    | none => []

/-- Whether a location of this package lies in one of some ranges. -/
def inRanges (l : Nat) (rs : List (Nat × Nat × Nat)) : Bool :=
  locPkg l == 0 && rs.any fun r => r.1 == locSpace l && decide (r.2.1 ≤ locPa l) && decide (locPa l < r.2.1 + r.2.2)

/-- Whether a location is memory of a context: its bank memory, or in one of its ranges. -/
def State.belongs (s : State) (c : Ctx) (l : Nat) : Bool :=
  if locSpace l = spBank then locCtx l == c.id.toNat else inRanges l (s.ranges c)

/-- Whether memory is encrypted at rest under a context's keys: that of the HBM4 and DDR-5 of this package (19 R399). -/
def sealedAt (l : Nat) : Bool := locPkg l == 0 && (locSpace l == spHbm || locSpace l == spDdr)

/-- Lines of a context that are encrypted at rest under its keys and were written since package reset, but those that another context
has too. -/
def State.linesHeld (s : State) (c : Ctx) : List Nat :=
  let mine := s.ranges c
  let other := (s.ctxs.filter fun x => x.id != c.id).flatMap s.ranges
  ((s.lines.filter fun x => x.2.used).map fun x => x.1).filter fun k =>
    sealedAt (128 * k) && inRanges (128 * k) mine && !inRanges (128 * k) other

/-- Lines whose key is gone: what they hold is open, and fails its check value (19 R390, R399). [DEDUCED, log 91] -/
def State.scramble (s : State) : List Nat → State
  | [] => s
  | k :: rest =>
    State.scramble ((({ s with free := s.free + 128 } : State).store (128 * k) (freeBytes s.free 128) (s.line k).pois).modLine k fun m =>
      { m with chk := 1 }) rest

/-- An established session of a port. -/
def State.established (s : State) (p : PortSel) (session : Nat) : Bool :=
  s.pkg.sessions.any fun x => x.id == session && x.finished && x.side == .answers p

/-- Whether a port's session may see a context's memory and command it: any session an unprotected one. -/
def State.mayAct (s : State) (c : Ctx) (p session : Nat) : Bool :=
  !c.prot || (s.established (.chrolu p) session && c.session.toNat == session)

/-- The stored bytes of n bytes that lie in one line of a context (19 R399). -/
def State.cipherBytes (s : State) (c : Ctx) (l n : Nat) : List Byte :=
  (List.range n).map fun i => Config.cipherByte c.keys (lineKey l) (s.lineData (lineKey l)) (l % 128 + i)

/-- The protected context, not the session's, that a location belongs to. -/
def State.foreignOwner (s : State) (p session l : Nat) : Option Ctx :=
  s.ctxs.find? fun c => c.prot && !s.mayAct c p session && s.belongs c l

/-- A location of a protected context that the session does not own. -/
def State.foreign (s : State) (p session l : Nat) : Bool :=
  (s.foreignOwner p session l).isSome

/-! ## Reads and writes -/

/-- What a read is answered with: bytes, whether they are poisoned, and the check values of the lines they come from (19 R402). -/
structure SentData where
  bytes : List Byte := []
  pois : Bool := false
  checks : List (BitVec 32) := []
  deriving DecidableEq, Repr

def SentData.and (a b : SentData) : SentData :=
  { bytes := a.bytes ++ b.bytes, pois := a.pois || b.pois, checks := a.checks ++ b.checks }

/-- n bytes that lie in one line, as they leave the package. -/
def State.sentData (s : State) (l n : Nat) : SentData :=
  { bytes := s.mem.bytes l n, pois := s.poisonAt l n, checks := [s.chk (lineKey l)] }

/-- The parts of a read, in order. -/
def State.hostReadParts (s : State) (p session : Nat) : List (Nat × Nat) → State × SentData
  | [] => (s, {})
  | (a, n) :: rest =>
    let x : State × SentData :=
      match s.hostLoc p (BitVec.ofNat 64 a) with
      | none => (s, { bytes := List.replicate n 0 })
      | some l =>
        match s.foreignOwner p session l with
        | some c => (s, { bytes := s.cipherBytes c l n, checks := [s.chk (lineKey l)] })
        | none => (s.verifyLine 0 (lineKey l), s.sentData l n)
    let y := State.hostReadParts x.1 p session rest
    (y.1, x.2.and y.2)

/-- n bytes at a host address as a session reads them (19 R400, R402). -/
def State.hostBytes (s : State) (p session : Nat) (a : BitVec 64) (n : Nat) : State × SentData :=
  s.hostReadParts p session (cutLines a.toNat n (n + 1))

/-- The parts of a write: dropped and counted where they reach no memory, or a protected context's. -/
def State.hostWriteParts (s : State) (p session a : Nat) (bs : List Byte) : List (Nat × Nat) → State
  | [] => s
  | (b, n) :: rest =>
    let s1 :=
      match s.hostLoc p (BitVec.ofNat 64 b) with
      | none => s.refuse1 (.chrolu p)
      | some l => if s.foreign p session l then s.refuse1 (.chrolu p) else s.storeFor 0 l ((bs.drop (b - a)).take n) false
    State.hostWriteParts s1 p session a bs rest

def State.hostStore (s : State) (p session : Nat) (a : BitVec 64) (bs : List Byte) : State :=
  s.hostWriteParts p session a.toNat bs (cutLines a.toNat bs.length (bs.length + 1))

/-- HOST_READ (19 R388, R392, R402). -/
def execHostRead (port session : Nat) (addr : BitVec 64) (len : Nat) (s : State) : Host.Outcome State Fault Refusal :=
  if s.carries (.chrolu port) then
    let x := s.hostBytes port session addr len
    .next (x.1.sendPort (.chrolu port) 0 (.hostData port x.2.bytes x.2.pois x.2.checks))
  else .next s

/-- HOST_WRITE (19 R388, R392). -/
def execHostWrite (port session : Nat) (addr : BitVec 64) (bytes : List Byte) (s : State) : Host.Outcome State Fault Refusal :=
  if s.carries (.chrolu port) then .next (s.hostStore port session addr bytes) else .next s

end Sys2Proof.Machine
end

