-- ==== Sys2Proof/Machine/HostRings.lean ====
section
/-! DEFINITION. The host command rings: the command at the head of a port's ring, its validation, and its completion
(19 R387, R388, R400; 20 R404). -/

namespace Sys2Proof.Machine

/-! ## The two rings of a command area (19 R388) -/

/-- A QCB of a command area as the device reads it. -/
def State.areaQcb (s : State) (p o : Nat) : Qcb :=
  let l := locOf spHbm 0 0 (areaBase p + o)
  let w := fun o => BitVec.ofNat 64 (s.mem.value (l + o) 8)
  { loc := l, base := s.mem.value l 8, ctl := w 8, tail := w 16, vec := w 24, head := w 32, drops := w 40
    rest := s.mem.value (l + 48) 16 }

/-- A ring of a command area in error: R274's grounds, or entries that do not lie in the area from 0x1000 up. [DEDUCED, log 79] -/
def Qcb.badArea (q : Qcb) (p role size : Nat) : Bool :=
  q.bad role 0 || decide (q.base < areaBase p + 0x1000) || decide (areaBase p + areaSize < q.base + size * 2 ^ q.log2n)

/-- A ring of a command area as the device may use it. -/
def State.viewArea (s : State) (p o role size : Nat) : RingView :=
  let q := s.areaQcb p o
  if q.err || !q.en then .unused else if q.badArea p role size then .broken q else .ready q

def State.commandRing (s : State) (p : Nat) : RingView := s.viewArea p 0 qLaunch 64
def State.completionRing (s : State) (p : Nat) : RingView := s.viewArea p 0x40 qLog 16

/-- A ring found in error has ERR set. -/
def State.errRing (s : State) : RingView → State
  | .broken q => s.qcbErr 0 q
  | .ready _ => s
  | .unused => s
  | .lost _ => s

/-- The completion ring of a port when an entry can be written to it. -/
def State.completionRoom (s : State) (p : Nat) : Option Qcb :=
  match s.completionRing p with
  | .ready q => if q.full then none else some q
  | .broken _ => none
  | .unused => none
  | .lost _ => none

/-- Entry i of a ring of a command area. -/
def Qcb.entryAt (q : Qcb) (size : Nat) (i : BitVec 64) : Nat :=
  locOf spHbm 0 0 (q.base + size * (bitsAt i 0 32 % 2 ^ q.log2n))

/-- A completion is appended (19 R388). -/
def State.putCompletion (s : State) (q : Qcb) (index : BitVec 32) (status result : Nat) : State :=
  s.ringAppend 0 q (q.entryAt 16 q.tail) (toBytes (index.toNat + 2 ^ 32 * status) 8 ++ toBytes result 8)

/-- The reset status word goes to the completion ring of a port, once: the index it carries is open (20 R404). -/
def State.tellStatus (s : State) (p : Nat) : State :=
  if s.pkg.statusDue.contains p then
    match s.completionRoom p with
    | none => s
    | some q =>
      let i := BitVec.ofNat 32 (leNat (freeBytes s.free 4))
      let s1 := s.putCompletion q i 0 s.pkg.statusWord.toNat
      { s1 with free := s1.free + 4, pkg := { s1.pkg with statusDue := s1.pkg.statusDue.filter fun x => x != p } }
  else s

/-- What the device does with the rings of a port before it takes a command; the lines it reads are verified, for context 0 as no
context owns a command area. [DESIGN CHOICE, log 127] -/
def State.tendRings (s : State) (p : Nat) : State :=
  let s := s.noteLine 0 (lineKey (locOf spHbm 0 0 (areaBase p)))
  let s := s.errRing (s.completionRing p)
  let s := s.tellStatus p
  s.errRing (s.commandRing p)

/-! ## Commands -/

/-- A command as the device reads it: its index and its eight words. -/
structure Cmd where
  index : BitVec 32
  words : List (BitVec 64)
  deriving DecidableEq, Repr

def Cmd.head (c : Cmd) : BitVec 64 := c.words.getD 0 0
def Cmd.code (c : Cmd) : Nat := bitsAt c.head 0 8
def Cmd.ctx (c : Cmd) : BitVec 32 := BitVec.ofNat 32 (bitsAt c.head 32 32)
/-- Operand word OPi. -/
def Cmd.op (c : Cmd) (i : Nat) : BitVec 64 := c.words.getD (i + 1) 0

/-- What a command names and the bits its operands may have set: every other bit is zero (19 R388). -/
structure CmdShape where
  code : Nat
  named : Bool
  ops : List (BitVec 64)
  deriving DecidableEq, Repr

def allBits : BitVec 64 := BitVec.allOnes 64

/-- A zero field of a command is non-zero. [DEDUCED, log 78] -/
def CmdShape.malformed (h : CmdShape) (c : Cmd) : Bool :=
  bitsAt c.head 8 24 != 0 || (!h.named && c.ctx != 0) ||
    (List.range 7).any fun i => c.op i &&& ~~~(h.ops.getD i 0) != 0

/-- How a command ends: its completion at once, or one that a later event writes. -/
inductive CmdEnd where
  | done (s : State) (status result : Nat)
  | waits (s : State)

/-- A command refused: it does nothing. -/
def State.decline (s : State) : CmdEnd := .done s 2 0
def State.wrong (s : State) : CmdEnd := .done s 1 0
def State.ok (s : State) : CmdEnd := .done s 0 0

/-- A command of a port waits for its completion (19 R387). -/
def State.portBusy (s : State) (p : Nat) : Bool :=
  s.pkg.drains.any (fun d => d.port == p && !d.ended) || s.pkg.invs.any fun v =>
    match v.owner with
    | .host q _ => q == p
    | .svc _ => false
    | .migrate _ _ _ _ => false

/-- The command at the head of a port's ring, where the device may perform it. -/
def State.headCmd (s : State) (p : Nat) : Option Cmd :=
  if 2 ≤ p || s.portBusy p || (s.completionRoom p).isNone then none
  else
    match s.commandRing p with
    | .ready q =>
      if q.used = 0 then none
      else
        let l := q.entryAt 64 q.head
        some { index := BitVec.ofNat 32 (bitsAt q.head 0 32)
               words := (List.range 8).map fun i => BitVec.ofNat 64 (s.mem.value (l + 8 * i) 8) }
    | .broken _ => none
    | .unused => none
    | .lost _ => none

/-- The line of the command at the head of a ring has been read. -/
def State.noteHead (s : State) (p : Nat) : State :=
  match s.commandRing p with
  | .ready q => s.noteLine 0 (lineKey (q.entryAt 64 q.head))
  | .broken _ => s
  | .unused => s
  | .lost _ => s

/-- A command is over: its completion is written where the ring still takes one, and HEAD passes it. [DESIGN CHOICE, log 80] -/
def State.complete (s : State) (p : Nat) (index : BitVec 32) (status result : Nat) : State :=
  let s := match s.completionRoom p with
    | some q => s.putCompletion q index status result
    | none => s
  s.qcbWord 0 (locOf spHbm 0 0 (areaBase p)) 32 (index + 1).toNat

def State.concluded (p : Nat) (index : BitVec 32) : CmdEnd → State
  | .done s status result => s.complete p index status result
  | .waits s => s

/-- A command of a context: it exists, and its session commands it where it is protected (19 R387, R400). [DEDUCED, log 81] -/
def State.commands (s : State) (p session : Nat) (h : CmdShape) (c : Cmd) : Bool :=
  !h.named ||
    match s.ctx? c.ctx with
    | some x => s.mayAct x p session
    | none => false

/-- The device performs the command at the head of a port's ring, where it has the code of the event; one with an undefined
code is malformed, whichever event finds it (19 R387). The ring is traffic of its port, which in ERROR has none (19 R394). -/
def State.command (s : State) (p session : Nat) (h : CmdShape) (act : State → Cmd → CmdEnd) : State :=
  if !s.carries (.chrolu p) then s else
  let s := if p < 2 then s.tendRings p else s
  match s.headCmd p with
  | none => s
  | some c =>
    let s := s.noteHead p
    if c.code = 0 || 0x0D < c.code then s.complete p c.index 1 0
    else if c.code ≠ h.code then s
    else if h.malformed c then s.complete p c.index 1 0
    else if s.commands p session h c then State.concluded p c.index (act s c)
    else s.complete p c.index 2 0

/-- n bytes of a command's operand: what a read through its session gives; poison is not examined. -/
def State.operand (s : State) (p session : Nat) (a : BitVec 64) (n : Nat) : State × List Byte :=
  let x := s.hostBytes p session a n
  (x.1, x.2.bytes)

/-! ## Ranges of physical memory (09 R196, R197; 19 R389) -/

/-- A range of HBM4 is within it and meets no device-reserved memory. -/
def hbmRange (b n : Nat) : Bool :=
  decide (b + n ≤ 2 ^ 39) &&
    (List.range 4).all fun d => decide (b + n ≤ d * 2 ^ 37 + 0xF_F000_0000) || decide (d * 2 ^ 37 + 2 ^ 36 ≤ b)

end Sys2Proof.Machine
end

