-- ==== Sys2Proof/Machine/HostCommands.lean ====
section
/-! DEFINITION. The host commands on contexts, invalidation, drains and tables: CTX_CREATE, CTX_DESTROY, CTX_SET, SLICE_ASSIGN,
QCB_SET, HOST_TLBINV, INVALIDATION_COMPLETE, DRAIN_FOR, DRAIN_COMPLETE, RESTORE, TRACE_SET, TABLE_REGION
(09 R194, R197; 14 R309; 16 R343-R345; 17 R353, R361, R363; 19 R387-R391). -/

namespace Sys2Proof.Machine

/-! ## CTX_CREATE (19 R389, R390) -/

def mib2 : Nat := 2 ^ 21

/-- Word i of some bytes. -/
def wordAt (bs : List Byte) (i : Nat) : BitVec 64 := BitVec.ofNat 64 (leNat ((bs.drop (8 * i)).take 8))

/-- A zero field of a context descriptor is non-zero. -/
def descMalformed (d : List Byte) : Bool :=
  let w := wordAt d
  bitsAt (w 0) 33 31 != 0 || bitsAt (w 1) 0 11 != 0 || bitsAt (w 1) 14 10 != 0 || bitsAt (w 1) 62 2 != 0 ||
    bitsAt (w 2) 47 17 != 0 || bitsAt (w 7) 32 32 != 0 || (!(w 0).getLsbD 32 && bitsAt (w 7) 0 32 != 0)

/-- A page table's root node lies in present memory no device reserves. [DESIGN CHOICE, log 72] -/
def State.rootOk (s : State) (aper frame : Nat) : Bool :=
  match aper with
  | 0 => hbmRange (frame * 2 ^ 14) (2 ^ 14)
  | 1 => !s.ddrAbsent (frame * 2 ^ 14)
  | _ => false

/-- An aligned range of HBM4, empty or within it. -/
def alignedRange (b n : Nat) : Bool := b % mib2 == 0 && n % mib2 == 0 && (n == 0 || hbmRange b n)

/-- The ranges of a descriptor's fields. -/
def State.descRanges (s : State) (d : List Byte) : Bool :=
  let w := wordAt d
  let quota := bitsAt (w 2) 24 16
  let weight := bitsAt (w 2) 40 7
  decide (1 ≤ quota) && decide (quota ≤ 1024) && decide (1 ≤ weight) && decide (weight ≤ 64) &&
    s.rootOk (bitsAt (w 1) 11 3) (bitsAt (w 1) 24 38) && alignedRange (w 4).toNat (w 5).toNat

/-- What a descriptor sets of a context. -/
def Ctx.described (c : Ctx) (d : List Byte) : Ctx :=
  let w := wordAt d
  { c with
    prot := (w 0).getLsbD 32, session := BitVec.ofNat 32 (bitsAt (w 7) 0 32)
    root := some { frame := BitVec.ofNat 38 (bitsAt (w 1) 24 38), aper := BitVec.ofNat 3 (bitsAt (w 1) 11 3) }
    gquota := bitsAt (w 2) 0 24, tquota := bitsAt (w 2) 24 16, weight := bitsAt (w 2) 40 7
    wquota := (w 3).toNat, larder := (w 4).toNat, lardlen := (w 5).toNat, rngkey := w 6 }

/-- Four fresh keys. -/
def freshKeys (free : Nat) : List (BitVec 256) := (List.range 4).map fun i => Config.freeKey (free + i)

/-- Whether a descriptor is refused: the context exists, no session, a range out of bounds (19 R389; 20 R404, R405). -/
def State.refusesDesc (s : State) (d : List Byte) : Bool :=
  let w := wordAt d
  let id := BitVec.ofNat 32 (bitsAt (w 0) 0 32)
  let prot := (w 0).getLsbD 32
  (if id = 0 then s.pkg.ctx0Set || prot else (s.ctx? id).isSome || s.pkg.lcs == 0) || !s.descRanges d ||
    (prot && !s.pkg.sessions.any fun x => x.finished && x.id == bitsAt (w 7) 0 32)

/-- A context comes into being, or context 0 has its configuration completed. -/
def State.createCtx (s : State) (d : List Byte) : State :=
  let id := BitVec.ofNat 32 (bitsAt (wordAt d 0) 0 32)
  if id = 0 then
    let s1 : State := { s with pkg := { s.pkg with ctx0Set := true } }
    (s1.modCtx 0 fun c => c.described d).checkQuota 0
  else
    { s with free := s.free + 4, ctxs := s.ctxs ++ [({ id := id, keys := freshKeys s.free } : Ctx).described d] }

def State.actCtxCreate (p session : Nat) (s : State) (c : Cmd) : CmdEnd :=
  if !s.pkg.lifeOk || !s.pkg.ucodeOk || (c.op 0).toNat % 64 ≠ 0 then s.decline
  else
    let x := s.operand p session (c.op 0) 64
    if descMalformed x.2 then s.wrong else if x.1.refusesDesc x.2 then s.decline else (x.1.createCtx x.2).ok

/-- CTX_CREATE (19 R389). -/
def execCtxCreate (port session : Nat) (s : State) : Host.Outcome State Fault Refusal :=
  .next (s.command port session { code := 1, named := false, ops := [allBits] } (State.actCtxCreate port session))

/-! ## CTX_DESTROY (19 R391) -/

/-- A location of a context's bank memory. -/
def ofBank (ctx : BitVec 32) (l : Nat) : Bool := locSpace l == spBank && locPkg l == 0 && locCtx l == ctx.toNat

/-- Stores, reductions and releases under way to a context's bank memory leave a publication. -/
def Pub.leaveBank (p : Pub) (ctx : BitVec 32) : Pub :=
  { p with
    stores := p.stores.filter fun x => !ofBank ctx x.line.loc
    reds := p.reds.filter fun x => !ofBank ctx x.1
    rels := p.rels.filter fun x => !ofBank ctx (128 * x.1) }

/-- Every live task of a context is killed: its runs are undone and its places emptied. -/
def State.killCtx (s : State) (ctx : BitVec 32) : State :=
  let s := s.undoRuns (s.running.filter fun x => x.2.ctx == ctx)
  s.dropPlaces (s.tiles.flatMap fun x => (x.2.queue.filter fun p => p.ctx == ctx).map fun p => (x.1, p))

/-- The lines of a context's bank memory that handed-over releases have still to fill. -/
def State.releasesTo (s : State) (ctx : BitVec 32) : List Nat :=
  s.fab.pubs.flatMap fun p => (p.rels.filter fun x => ofBank ctx (128 * x.1)).map fun x => x.1

/-- The context's bank memory is zero, its F bits as they were (09 R198); what was under way to it landed before, a release with its
F := 1 (12 R263). -/
def State.zeroBank (s : State) (ctx : BitVec 32) : State :=
  let s := (s.releasesTo ctx).foldl (fun s k => s.modLine k fun m => { m with full := true }) s
  { s with
    mem := { cells := s.mem.cells.filter fun c => !ofBank ctx c.1 }
    lines := s.lines.filterMap fun x =>
      if !ofBank ctx (128 * x.1) then some x else if x.2.full then some (x.1, { full := true }) else none
    fab := { s.fab with
      pubs := s.fab.pubs.map fun p => p.leaveBank ctx
      arriving := s.fab.arriving.filter fun c => !ofBank ctx c.loc
      held := s.fab.held.filter fun c => !ofBank ctx c.loc } }

/-- Everything of a context in graph memory and at the dispatchers is discarded, and its keys with it. -/
def State.discardCtx (s : State) (ctx : BitVec 32) : State :=
  let gone := (s.insts.filter fun i => i.ctx == ctx).map fun i => i.id
  { s with
    ctxs := s.ctxs.filter fun c => c.id != ctx
    insts := s.insts.filter fun i => i.ctx != ctx
    ropes := s.ropes.filter fun r => r.ctx != ctx
    tiles := s.tiles.map fun x => (x.1, if x.2.claim = some ctx then { x.2 with claim := none } else x.2)
    fab := { s.fab with
      copies := s.fab.copies.filter fun c => c.ctx != ctx
      parked := s.fab.parked.filter fun d => d.ctx != ctx
      creations := s.fab.creations.filter fun c => c.ctx != ctx
      ropeArr := s.fab.ropeArr.filter fun a => a.ctx != ctx
      inPorts := s.fab.inPorts.filter fun p => !gone.contains p.inst } }

/-- A context is destroyed; with its keys goes what its lines held under them (19 R391, R399). [DEDUCED, logs 82, 91] -/
def State.destroyCtx (s : State) (ctx : BitVec 32) : State :=
  let lost := match s.ctx? ctx with
    | some c => s.linesHeld c
    | none => []
  ((((s.killCtx ctx).zeroBank ctx).discardCtx ctx).serve).scramble lost

def State.actCtxDestroy (s : State) (c : Cmd) : CmdEnd := if c.ctx = 0 then s.decline else (s.destroyCtx c.ctx).ok

/-- CTX_DESTROY (19 R391). -/
def execCtxDestroy (port session : Nat) (s : State) : Host.Outcome State Fault Refusal :=
  .next (s.command port session { code := 2, named := true, ops := [] } State.actCtxDestroy)

/-! ## CTX_SET (17 R361; 19 R388) -/

def State.actCtxSet (s : State) (c : Cmd) : CmdEnd :=
  let quota := bitsAt (c.op 0) 0 16
  let weight := bitsAt (c.op 0) 16 7
  if quota = 0 || 1024 < quota || weight = 0 || 64 < weight then s.decline
  else ((s.modCtx c.ctx fun x => { x with tquota := quota, weight := weight, wquota := (c.op 1).toNat }).checkQuota c.ctx).ok

/-- CTX_SET (17 R361). -/
def execCtxSet (port session : Nat) (s : State) : Host.Outcome State Fault Refusal :=
  .next (s.command port session { code := 3, named := true, ops := [0x7FFFFF, allBits] } State.actCtxSet)

/-! ## SLICE_ASSIGN (09 R194, R197; 19 R388) -/

/-- Entry b of a slice table. -/
def sliceEntry (t : List Byte) (b : Nat) : Nat := leNat ((t.drop (2 * b)).take 2)

def allBanks : List Nat := List.range 512

/-- The slices a table gives, listed where a bank has some. -/
def slicesOf (f : Nat → Nat) : List (Nat × Nat) :=
  (allBanks.filter fun b => f b != 0).map fun b => (b, f b)

def cacheSlices (t : List Byte) (b : Nat) : Nat := sliceEntry t b % 32
def bankSlices (t : List Byte) (b : Nat) : Nat := sliceEntry t b / 256 % 32

/-- Slices of the other contexts at a bank. -/
def State.otherSlices (s : State) (ctx : BitVec 32) (b : Nat) : Nat :=
  ((s.ctxs.filter fun c => c.id != ctx).map fun c => kvGet 0 c.cache b + kvGet 0 c.bank b).sum

/-- Bytes of a bank-memory slice. -/
def sliceBytes : Nat := 1024 * 128

/-- Whether an assignment is refused: more than 24 slices at a bank; bank-memory slices that change without rest, or without
room in the spill region for the lines held. [DESIGN CHOICE, log 83] -/
def State.refusesSlices (s : State) (x : Ctx) (t : List Byte) (len : Nat) : Bool :=
  (allBanks.any fun b => decide (24 < s.otherSlices x.id b + cacheSlices t b + bankSlices t b)) ||
    ((allBanks.any fun b => kvGet 0 x.bank b != bankSlices t b) &&
      (!s.atRest x || decide (len < sliceBytes * (x.bank.map fun y => y.2).sum)))

/-- The lines of a context's bank memory, bank by bank: 1,024 a slice (09 R194, R195). -/
def Ctx.bankLines (c : Ctx) : List Nat :=
  c.bank.flatMap fun x => (List.range (1024 * x.2)).map fun i => lineKey (locOf spBank 0 c.id.toNat (2 ^ 16 * i + 2 ^ 7 * x.1))

/-- The lines of a context's bank memory are written to its spill region, in order; each keeps its address for the reload, and its
poison goes with it (09 R194, R197). [DESIGN CHOICE, log 29] -/
def State.spillBank (s : State) (x : Ctx) (base : Nat) : State :=
  let l := x.bankLines
  (l.zipIdx.foldl (fun s y =>
    s.store (locOf spHbm 0 0 (base + 128 * y.2)) (s.mem.bytes (128 * y.1) 128) (s.poisonAt (128 * y.1) 128)) s).modCtx x.id fun c =>
      { c with bankOut := l.map fun k => (k, s.mem.bytes (128 * k) 128) }

def State.actSliceAssign (p session : Nat) (s : State) (c : Cmd) : CmdEnd :=
  let base := (c.op 1).toNat
  let len := (c.op 2).toNat
  match s.ctx? c.ctx with
  | none => s.decline
  | some x =>
    let y := s.operand p session (c.op 0) 1024
    if allBanks.any fun b => sliceEntry y.2 b / 32 % 8 != 0 || sliceEntry y.2 b / 2 ^ 13 != 0 then s.wrong
    else if !alignedRange base len || y.1.refusesSlices x y.2 len then s.decline
    else
      let s := (y.1.reloadBank c.ctx).modCtx c.ctx fun x =>
        { x with cache := slicesOf (cacheSlices y.2), bank := slicesOf (bankSlices y.2), spillBase := base, spillLen := len }
      (if x.bank = slicesOf (bankSlices y.2) then s else s.spillBank x base).ok

/-- SLICE_ASSIGN (09 R194): lines of bank memory keep their contents. -/
def execSliceAssign (port session : Nat) (s : State) : Host.Outcome State Fault Refusal :=
  .next (s.command port session { code := 4, named := true, ops := [allBits, allBits, allBits] } (State.actSliceAssign port session))

/-! ## QCB_SET (13 R274; 19 R388) -/

/-- A launch queue is registered or removed. -/
def setLaunch (l : List (Nat × QcbReg)) (i : Nat) (r : Option QcbReg) : List (Nat × QcbReg) :=
  match r with
  | none => kvErase l i
  | some r => kvPut l i r

/-- The creations that wait for the entry at the head of a launch queue. -/
def State.launchesOf (s : State) (ctx : BitVec 32) (queue : Nat) : List Creation :=
  s.fab.creations.filter fun c => c.ctx == ctx && c.origin == .launch queue

/-- A launch queue registered anew or removed: an entry that waits at its head has not been taken, and is examined again from the
new QCB (13 R276). [DEDUCED, log 129] -/
def State.dropLaunch (s : State) (ctx : BitVec 32) (queue : Nat) : State :=
  let n := (s.launchesOf ctx queue).length
  ({ s with fab := { s.fab with creations := s.fab.creations.filter fun c => !(c.ctx == ctx && c.origin == .launch queue) } } : State).tally
    ctx 0 fun c => { c with sent := c.sent - BitVec.ofNat 64 n }

def State.actQcbSet (s : State) (c : Cmd) : CmdEnd :=
  let kind := bitsAt (c.op 0) 0 2
  let va := c.op 1
  let reg : Option QcbReg := if va = 0 then none else some { va := va }
  if va.toNat % 64 ≠ 0 then s.decline
  else
    match kind with
    | 0 => ((s.dropLaunch c.ctx (bitsAt (c.op 0) 4 4)).modCtx c.ctx fun x =>
        { x with launch := setLaunch x.launch (bitsAt (c.op 0) 4 4) reg }).ok
    | 1 => (s.modCtx c.ctx fun x => { x with faultQ := reg }).ok
    | 2 => (s.modCtx c.ctx fun x => { x with logQ := reg }).ok
    | _ => s.decline

/-- QCB_SET (19 R388). -/
def execQcbSet (port session : Nat) (s : State) : Host.Outcome State Fault Refusal :=
  .next (s.command port session { code := 5, named := true, ops := [0xF3, allBits] } State.actQcbSet)

/-! ## TLBINV of the host (16 R344, R345) -/

def State.actTlbinv (p : Nat) (s : State) (c : Cmd) : CmdEnd :=
  match s.invalidation (c.op 0) (c.op 1) (.host p c.index) with
  | none => s.decline
  | some v => .waits (s.invalidate v)

/-- TLBINV of the host: it completes with INVALIDATION_COMPLETE (16 R345). -/
def execHostTlbinv (port session : Nat) (s : State) : Host.Outcome State Fault Refusal :=
  .next (s.command port session { code := 6, named := false, ops := [allBits, 0x0FFFFFF7FFFFFFFF] } (State.actTlbinv port))

/-- A completion that a port awaits can be written. -/
def State.canReport (s : State) (o : InvFor) : Bool :=
  match o with
  | .host p _ => (s.completionRoom p).isSome
  | .svc _ => true
  | .migrate _ _ _ _ => true

/-- INVALIDATION_COMPLETE (16 R345). -/
def execInvalidationComplete (k : Nat) (s : State) : Host.Outcome State Fault Refusal :=
  match s.pkg.invs[k]? with
  | none => .next s
  | some v =>
    if s.canReport v.owner then .next (s.completeInv k fun p index s => s.complete p index 0 0) else .next s

/-! ## Drains (14 R309) -/

/-- The tiles in service of a set of logical clusters. -/
def State.tilesIn (s : State) (mask : BitVec 64) : List Nat :=
  s.pkg.map.zipIdx.flatMap fun m => if m.1.pres && mask.getLsbD m.2 then clusterTiles (17 * m.1.die + m.1.phys) else []

/-- Placed queues lose the tasks of other contexts. -/
def State.expel (s : State) (ctx : BitVec 32) : List Nat → State
  | [] => s
  | t :: rest => State.expel (s.unplaceAll t ((s.tile t).queue.filter fun p => p.ctx != ctx)) ctx rest

def State.actDrainFor (p : Nat) (s : State) (c : Cmd) : CmdEnd :=
  let d : Drain := { ctx := c.ctx, mask := c.op 0, port := p, index := c.index }
  let s1 : State := { s with pkg := { s.pkg with drains := s.pkg.drains ++ [d] } }
  .waits (s1.expel c.ctx (s1.tilesIn d.mask))

/-- DRAIN_FOR (14 R309): it completes with DRAIN_COMPLETE. -/
def execDrainFor (port session : Nat) (s : State) : Host.Outcome State Fault Refusal :=
  .next (s.command port session { code := 7, named := true, ops := [allBits] } (State.actDrainFor port))

/-- A tile whose task is STALLED and irrevocable. -/
def Run.stuck (r : Run) : Bool :=
  r.irrevocable &&
    match r.phase with
    | .stalled _ _ _ => true
    | .fetch => false
    | .fire => false
    | .services _ => false
    | .imm _ => false
    | .committing => false
    | .twinWait => false

/-- Tiles of a drain on which another context's task runs. -/
def State.foreignTiles (s : State) (d : Drain) : List (Nat × Run) :=
  (s.tilesIn d.mask).filterMap fun t =>
    match s.run? t with
    | some r => if r.ctx = d.ctx then none else some (t, r)
    | none => none

/-- The logical clusters of some tiles, as a mask. -/
def State.clusterMask (s : State) (ts : List Nat) : Nat :=
  ((List.range 64).map fun i => if ts.any fun t => s.logical (tileCluster t) == i then 2 ^ i else 0).sum

/-- Dies with a tile of a drain count its completion. [DEDUCED, log 76] -/
def State.countDrain (s : State) (ts : List Nat) : List Nat → State
  | [] => s
  | d :: rest =>
    State.countDrain (if ts.any fun t => tileDie t == d then s.count d fun x => { x with drain := x.drain + 1 } else s) ts rest

/-- A tile whose task is STALLED and irrevocable. -/
def State.stuckTile (s : State) (t : Nat) : Bool := ((s.run? t).map Run.stuck).getD false

/-- Excluded tiles whose tasks have been serviced are released (14 R309). -/
def State.releaseDrains (s : State) : State :=
  let l := s.pkg.drains.map fun d => { d with excluded := d.excluded.filter s.stuckTile }
  { s with pkg := { s.pkg with drains := l.filter fun d => !d.ended || !d.excluded.isEmpty } }

/-- DRAIN_COMPLETE (14 R309): tiles held by a STALLED irrevocable task are excluded, and named in the result; they stay kept
until their tasks are serviced. -/
def execDrainComplete (k : Nat) (s : State) : Host.Outcome State Fault Refusal :=
  match s.pkg.drains[k]? with
  | none => .next s
  | some d =>
    let l := s.foreignTiles d
    if !d.ended && l.all (fun x => x.2.stuck) && (s.completionRoom d.port).isSome then
      let s1 := ({ s with pkg := { s.pkg with
        drains := s.pkg.drains.set k { d with ended := true, excluded := l.map fun x => x.1 } } } : State).releaseDrains
      .next ((s1.countDrain (s1.tilesIn d.mask) [0, 1, 2, 3]).complete d.port d.index 0 (s1.clusterMask (l.map fun x => x.1)))
    else .next s

/-! ## RESTORE (17 R363) -/

/-- The margin RESTORE asks for: T2 + 1 %. -/
def marginRestore : Nat := 768

def State.actRestore (margin : Nat) (s : State) (c : Cmd) : CmdEnd :=
  let cl := bitsAt (c.op 0) 2 5
  let t := 272 * bitsAt (c.op 0) 0 2 + 16 * cl + bitsAt (c.op 0) 7 4
  if 16 < cl || (s.tile t).state ≠ .drained || decide ((s.tile t).drainedAt + 2 ^ 30 ≤ s.cycle) then s.decline
  else if marginRestore ≤ margin && decide ((s.tile t).life < wearBudget) then
      ((s.modTile t fun v => { v with prevMargin := v.margin, margin := margin }).changeTile t .derated).ok
    else s.decline

/-- RESTORE, with the fresh sample of the tile's margin (17 R363). -/
def execRestore (port session : Nat) (margin : Nat) (s : State) : Host.Outcome State Fault Refusal :=
  .next (s.command port session { code := 8, named := false, ops := [0x7FF] } (State.actRestore margin))

/-! ## TRACE_SET and TABLE_REGION (16 R343; 17 R353) -/

def State.actTraceSet (s : State) (c : Cmd) : CmdEnd :=
  let d := bitsAt (c.op 0) 0 2
  let a := (c.op 1).toNat
  if a = 0 then (s.modDie d fun x => { x with trace := none }).ok
  else if hbmRange a 32 then (s.modDie d fun x => { x with trace := some a }).ok
  else s.decline

/-- TRACE_SET (17 R353). -/
def execTraceSet (port session : Nat) (s : State) : Host.Outcome State Fault Refusal :=
  .next (s.command port session { code := 9, named := false, ops := [3, allBits] } State.actTraceSet)

/-- A table region lies in HBM4 or in present DDR-5. -/
def State.regionOk (s : State) (aper b n : Nat) : Bool :=
  b % 2 ^ 14 == 0 && n % 2 ^ 14 == 0 &&
    match aper with
    | 0 => hbmRange b n
    | 1 => n == 0 || (!s.ddrAbsent b && !s.ddrAbsent (b + n - 1))
    | _ => false

def State.actTableRegion (s : State) (c : Cmd) : CmdEnd :=
  let i := bitsAt (c.op 0) 0 4
  let n := (c.op 2).toNat
  let aper := bitsAt (c.op 1) 61 3
  let b := bitsAt (c.op 1) 0 61
  let rest := s.pkg.regions.filter fun r => r.1 != i
  if n = 0 then { s with pkg := { s.pkg with regions := rest } }.ok
  else if s.regionOk aper b n then { s with pkg := { s.pkg with regions := rest ++ [(i, aper, b, n)] } }.ok
  else s.decline

/-- TABLE_REGION (16 R343). -/
def execTableRegion (port session : Nat) (s : State) : Host.Outcome State Fault Refusal :=
  .next (s.command port session { code := 10, named := false, ops := [0xF, allBits, allBits] } State.actTableRegion)

end Sys2Proof.Machine
end

