-- ==== Sys2Proof/Machine/HostReports.lean ====
section
/-! DEFINITION. The host commands that report or attach: COUNTER_READ, POD_ATTACH, ATTEST
(17 R351, R354-R356; 19 R395, R401). -/

namespace Sys2Proof.Machine

/-! ## Counter windows (17 R351, R354-R356) -/

/-- The decision counters of a die, in the order of their offsets. -/
def Decisions.words (d : Decisions) : List (BitVec 64) :=
  [d.plRes, d.plNear, d.plIdle, d.plWear, d.plSole, d.plOther, d.plXdie, d.claim, d.drain, d.pfmerge, d.wdog, d.spill,
   d.reload, d.stray, d.park, d.dupseq, d.tdrop]

/-- The performance counters of a tile, in the order of their offsets (17 R354). -/
def State.perfWords (s : State) (t : Nat) : List (BitVec 64) :=
  let v := s.tile t
  [v.cycbusy, BitVec.ofNat 64 (s.cycIdle t), v.belays, v.discards, v.fired, v.waitcyc, v.macrows,
   v.deflect, v.markn]

/-- Half h of entry k of the mark buffer of a tile. -/
def Tile.markWord (v : Tile) (k h : Nat) : Nat := (kvGet 0 v.marks k).toNat / 2 ^ (64 * h) % 2 ^ 64

/-- Word i (offset 8 i) of the window of a compute die. -/
def State.dieWord (s : State) (d i : Nat) : Nat :=
  let o := 8 * i
  if o < 0x100 then ((s.die d).dec.words.getD i 0).toNat
  else if o < 0x1000 then 0
  else if o < 0x1000 + 0x80 * 272 then ((s.perfWords (272 * d + (o - 0x1000) / 0x80)).getD ((o - 0x1000) % 0x80 / 8) 0).toNat
  else if o < 0x10000 then 0
  else if o < 0x10000 + 0x100 * 272 then
    (s.tile (272 * d + (o - 0x10000) / 0x100)).markWord ((o - 0x10000) % 0x100 / 16) ((o - 0x10000) % 16 / 8)
  else 0

/-- Word i of the window of an I/O die. -/
def State.ioWord (s : State) (d i : Nat) : Nat :=
  if i = 0 then (s.port (.chrolu d)).refused.toNat
  else if i ≤ 8 then (s.port (.ualink (8 * d + (i - 1)))).refused.toNat
  else 0

/-- Word i of a window: 0 to 3 the compute dies, 4 and 5 the I/O dies. -/
def State.windowWord (s : State) (w i : Nat) : Nat := if w < 4 then s.dieWord w i else s.ioWord (w - 4) i

/-- The first n bytes of a window. -/
def State.windowBytes (s : State) (w n : Nat) : List Byte :=
  ((List.range ((n + 7) / 8)).flatMap fun i => toBytes (s.windowWord w i) 8).take n

def State.actCounterRead (s : State) (c : Cmd) : CmdEnd :=
  let w := bitsAt (c.op 0) 0 3
  let n := (c.op 2).toNat
  if 5 < w || 2 ^ 18 < n || 2 ^ 52 < (c.op 1).toNat + n then s.decline
  else (s.store (locOf spHost 0 0 (c.op 1).toNat) (s.windowBytes w n) false).ok

/-- COUNTER_READ (17 R351, R356). -/
def execCounterRead (port session : Nat) (s : State) : Host.Outcome State Fault Refusal :=
  .next (s.command port session { code := 11, named := false, ops := [7, allBits, allBits] } State.actCounterRead)

/-! ## POD_ATTACH (19 R395) -/

/-- Peer i of a peer table: 128 bytes. -/
def peerEntry (bs : List Byte) (i : Nat) : List Byte := (bs.drop (128 * i)).take 128

/-- A zero field of a peer's entry is non-zero. -/
def peerMalformed (e : List Byte) : Bool :=
  bitsAt (wordAt e 0) 58 6 != 0 || bitsAt (wordAt e 2) 18 46 != 0 || bitsAt (wordAt e 8) 16 48 != 0 ||
    (e.drop 72).any fun b => b != 0

/-- A peer as its entry gives it. -/
def peerOf (e : List Byte) : Peer :=
  let w := wordAt e
  { pkg := BitVec.ofNat 10 (bitsAt (w 0) 16 10), ports := BitVec.ofNat 16 (bitsAt (w 8) 0 16)
    rev := BitVec.ofNat 16 (bitsAt (w 0) 0 16), encl := BitVec.ofNat 32 (bitsAt (w 0) 26 32), ops := w 1
    redt := BitVec.ofNat 16 (bitsAt (w 2) 0 16), mbox := (w 2).getLsbD 16, rdec := (w 2).getLsbD 17 }

/-- The record of an entry verifies. -/
def peerVerified (e : List Byte) : Bool := Config.recordVerifies (BitVec.ofNat 512 (leNat (e.take 64)))

def State.actPodAttach (p session : Nat) (s : State) (c : Cmd) : CmdEnd :=
  let n := (c.op 2).toNat
  if !s.pkg.lifeOk || !s.pkg.ucodeOk || 1023 < n then s.decline
  else
    let x := s.operand p session (c.op 1) (128 * n)
    let es := (List.range n).map (peerEntry x.2)
    if es.any peerMalformed then s.wrong
    else
      let good := es.filter peerVerified
      let s := x.1
      .done { s with pkg := { s.pkg with
        id := BitVec.ofNat 10 (bitsAt (c.op 0) 0 10), encl := BitVec.ofNat 32 (bitsAt (c.op 0) 10 32)
        peers := good.map peerOf } } 0 good.length

/-- POD_ATTACH (19 R395). -/
def execPodAttach (port session : Nat) (s : State) : Host.Outcome State Fault Refusal :=
  .next (s.command port session { code := 12, named := false, ops := [0x3FFFFFFFFFF, allBits, allBits] }
    (State.actPodAttach port session))

/-! ## ATTEST (19 R401) -/

/-- A list of numbers with its length. -/
def counted (l : List Nat) : List Nat := l.length :: l

def TileLife.numbers (x : TileLife) : List Nat :=
  [match x.state with
   | .normal => 0
   | .derated => 1
   | .drained => 2
   | .quarantined => 3
   | .retired => 4,
   x.life, x.blame, x.margin, x.made, x.af, x.em0.toNat, x.em1.toNat]

/-- A lifetime record as numbers. -/
def LifeRecord.numbers (r : LifeRecord) : List Nat :=
  [r.valid.toNat, r.count, r.lcs.toNat] ++ counted (r.tiles.flatMap fun x => x.1 :: x.2.numbers) ++ counted r.retired ++ counted r.spareFor ++
    counted r.sparesUsed

/-- The lifetime record in force. -/
def Pkg.lifeRecord (p : Pkg) : LifeRecord := if p.lastIsA then p.lifeA else p.lifeB

/-- What the digest of a context covers: its descriptor with RNGKEY zeroed, its QCB addresses, its slices. -/
def Ctx.numbers (c : Ctx) : List Nat :=
  [c.id.toNat, c.prot.toNat, c.session.toNat,
   match c.root with
   | some r => 1 + 2 * (r.aper.toNat + 8 * r.frame.toNat)
   | none => 0,
   c.gquota, c.tquota, c.weight, c.wquota, c.larder, c.lardlen, 0] ++
    counted (c.launch.flatMap fun q => [q.1, q.2.va.toNat]) ++
    counted (c.faultQ.toList.map fun q => q.va.toNat) ++ counted (c.logQ.toList.map fun q => q.va.toNat) ++
    counted (c.cache.flatMap fun x => [x.1, x.2]) ++ counted (c.bank.flatMap fun x => [x.1, x.2]) ++ [c.spillBase, c.spillLen]

/-- Bytes 0x00 to 0xFF of a report. -/
def State.reportBody (s : State) (nonce : List Byte) (ctx : BitVec 32) : List Byte :=
  let cfg := if ctx = 0 then 0 else
    match s.ctx? ctx with
    | some c => (Config.ctxDigest c.numbers).toNat
    | none => 0
  nonce ++ toBytes s.pkg.ucode.toNat 32 ++ toBytes s.pkg.firmware.toNat 32 ++
    toBytes (Config.lifeDigest s.pkg.lifeRecord.numbers).toNat 32 ++ toBytes cfg 32 ++ toBytes s.pkg.lcs.toNat 8 ++
    toBytes s.pkg.topogen.toNat 8 ++ List.replicate 80 0

/-- Bytes of a signature. -/
def sigBytes : Nat := 1280

/-- A signed report: the signature covers the digest of the body; each takes a fresh number. -/
def State.attestation (s : State) (nonce : List Byte) (ctx : BitVec 32) : State × List Byte :=
  let b := s.reportBody nonce ctx
  (s.nextFree, b ++ (Config.signature (BitVec.ofNat 256 (leNat (shake256 b))) s.free).take sigBytes)

def State.actAttest (p session : Nat) (s : State) (c : Cmd) : CmdEnd :=
  let x := s.operand p session (c.op 0) 32
  let y := x.1.attestation x.2 c.ctx
  (y.1.hostStore p session (c.op 1) y.2).ok

/-- ATTEST (19 R401): CTX 0 names none. -/
def execAttest (port session : Nat) (s : State) : Host.Outcome State Fault Refusal :=
  .next (s.command port session { code := 13, named := true, ops := [allBits, allBits] } (State.actAttest port session))

end Sys2Proof.Machine
end

