-- ==== Sys2Proof/Machine/PeerAccess.lean ====
section
/-! DEFINITION. A peer's request performed at this package: PEER_ACCESS (10 R216-R227, R232; 12 R269; 13 R288; 15 R323, R324;
16 R336; 17 R356; 19 R402). -/

namespace Sys2Proof.Machine

/-! ## Where a request goes (16 R336) -/

/-- The location of an address of this package's memory, none where it is absent. -/
def State.peerLoc (s : State) (ctx : BitVec 32) (a : BitVec 64) : Option Nat :=
  let pa := bitsAt a 0 49
  if bitsAt a 52 12 ≠ 0 then none
  else
    match bitsAt a 49 3 with
    | 0 => if 2 ^ 39 ≤ pa || reserved pa then none else some (locOf spHbm 0 0 pa)
    | 1 => if s.ddrAbsent pa then none else some (locOf spDdr 0 0 pa)
    | 2 =>
      match s.ctx? ctx with
      | some c => if c.hasBank pa then some (locOf spBank 0 ctx.toNat pa) else none
      | none => none
    | _ => none

/-- What an absent address answers: zero, poisoned; what would be written is dropped and counted. [DEDUCED, log 87] -/
def State.absentPeer (s : State) (port n : Nat) (reads writes : Bool) : State :=
  let s := if writes then s.refuse1 (.ualink port) else s
  if reads then s.answerPeer port (List.replicate n 0) true [] else s

/-! ## Reads and writes -/

/-- The parts of a read. -/
def State.peerReadParts (s : State) (ctx : BitVec 32) : List (Nat × Nat) → State × SentData
  | [] => (s, {})
  | (a, n) :: rest =>
    let x : State × SentData :=
      match s.peerLoc ctx (BitVec.ofNat 64 a) with
      | none => (s, { bytes := List.replicate n 0, pois := true })
      | some l => (s.verifyLine ctx (lineKey l), s.sentData l n)
    let y := State.peerReadParts x.1 ctx rest
    (y.1, x.2.and y.2)

/-- The parts of a write. -/
def State.peerWriteParts (s : State) (port : Nat) (ctx : BitVec 32) (a : Nat) (bs : List Byte) (pois : Bool) :
    List (Nat × Nat) → State
  | [] => s
  | (b, n) :: rest =>
    let s1 :=
      match s.peerLoc ctx (BitVec.ofNat 64 b) with
      | none => s.refuse1 (.ualink port)
      | some l => (s.gotPoison ctx l pois).storeFor ctx l ((bs.drop (b - a)).take n) pois
    State.peerWriteParts s1 port ctx a bs pois rest

/-! ## Synchronised accesses, claims and atomics -/

/-- A synchronised mode of a request. -/
def syncModeOf : Nat → Option SyncMode
  | 0 => some .readfull
  | 1 => some .consume
  | 2 => some .peek
  | 3 => some .produce
  | 4 => some .fill
  | 5 => some .clear
  | _ => none

/-- A peer's wait enters the retry list, or is answered busy (09 R199, R200). -/
def State.enlistPeer (s : State) (port key : Nat) (w : PeerWait) : State :=
  if s.retryRoom key then s.enlist { line := key, remote := some w } else s.sendPort (.ualink port) 0 (.peerBusy port)

/-- A peer's synchronised access arrives (10 R216-R218). -/
def State.peerSyncArrive (s : State) (port : Nat) (ctx : BitVec 32) (l : Nat) (m : SyncMode) (vec : Bool) (data : BitVec 1024) (pois : Bool) : State :=
  let key := lineKey l
  if m = .fill && (s.line key).fullFor .fill then s.faultPeer port fcFutureFull
  else if (s.line key).allows m then (s.peerSync port ctx l m vec data pois).serve
  else s.enlistPeer port key (.sync port ctx l m vec data pois)

/-- A claim of a peer's task arrives (10 R226). -/
def State.peerClaimArrive (s : State) (port key : Nat) : State :=
  if (s.line key).fullFor .produce then s.enlistPeer port key (.claim port) else s.peerClaim port key

/-- A peer's atomic or CAS of n bytes, in one atomic step; its answer is the old value (10 R219, R220). -/
def State.peerAtomic (s : State) (port : Nat) (ctx : BitVec 32) (l n : Nat) (f : Nat → Option Nat) (pois : Bool) : State :=
  let old := s.mem.value l n
  let bad := s.poisonAt l n
  let chk := s.chk (lineKey l)
  let s := s.verifyLine ctx (lineKey l)
  let s := match f old with
    | some v => s.storeFor ctx l (toBytes v n) (bad || pois)
    | none => s
  s.answerPeer port (toBytes old n) bad [chk]

/-- A contribution of a peer is on its way to its bank (10 R225). -/
def State.peerContribution (s : State) (ctx : BitVec 32) (l : Nat) (q : BitVec 32) (op : OrdOp) (pois : Bool) : State :=
  { s with fab := { s.fab with arriving := s.fab.arriving ++ [{ ctx := ctx, loc := l, q := q, op := op, pois := pois }] } }

/-- Bytes a request reads and whether it answers, and whether it writes: what an absent address needs. -/
def peerEffect : PeerReq → Nat × Bool × Bool
  | .read _ n => (n, true, false)
  | .write _ _ _ => (0, false, true)
  | .sync _ m vec _ _ => (if vec then 128 else 8, true, m ≠ 0 && m ≠ 2)
  | .claim _ => (0, true, false)
  | .unclaim _ => (0, false, false)
  | .release _ _ _ => (0, false, true)
  | .amo _ _ _ n _ _ => (n, true, true)
  | .amof _ _ _ _ => (4, true, true)
  | .cas _ n _ _ _ => (n, true, true)
  | .reduceInt _ _ _ _ _ => (0, false, true)
  | .reduceF _ _ _ => (0, false, true)
  | .reduceLine _ _ _ _ _ => (0, false, true)
  | .redo _ _ _ => (0, false, true)
  | .drawm _ _ _ _ => (0, false, true)
  | .line _ _ _ _ _ _ => (0, false, true)
  | .decrement _ _ _ => (0, false, false)
  | .message _ _ _ _ => (0, false, false)

/-- The context a request is made for. -/
def peerCtx : PeerReq → BitVec 32
  | .read c _ => c
  | .write c _ _ => c
  | .sync c _ _ _ _ => c
  | .claim c => c
  | .unclaim c => c
  | .release c _ _ => c
  | .amo c _ _ _ _ _ => c
  | .amof c _ _ _ => c
  | .cas c _ _ _ _ => c
  | .reduceInt c _ _ _ _ => c
  | .reduceF c _ _ => c
  | .reduceLine c _ _ _ _ => c
  | .redo c _ _ => c
  | .drawm c _ _ _ => c
  | .line c _ _ _ _ _ => c
  | .decrement c _ _ => c
  | .message c _ _ _ => c

/-- A width a request may have. -/
def wordSize (n : Nat) : Bool := n == 4 || n == 8

/-- A decrement from a peer: it reaches its template here, or is stray 5 at the sender (15 R323, R324). -/
def State.peerDecrement (s : State) (port : Nat) (ctx : BitVec 32) (a : BitVec 64) (tag : BitVec 32) (amt l : Nat) : State :=
  if (s.ctx? ctx).isNone then s.faultPeer port fcStray
  else s.addDec { ctx := ctx, target := .remote s.pkg.id.toNat l a tag, amt := amt, die := (bankOf l).getD 0 / 128, port := some port }

/-- A message from a peer: it goes to its mailbox, or is a stray at the sender (13 R288). -/
def State.peerMessage (s : State) (port : Nat) (ctx sender : BitVec 32) (mbox : BitVec 8) (words : BitVec 512) : State :=
  if (s.ctx? ctx).isNone then s.faultPeer port fcStray
  else { s with fab := { s.fab with msgs := s.fab.msgs ++
    [{ ctx := ctx, mbox := mbox.toNat, words := words, sender := sender, port := some port }] } }

/-- The poison bit of a request's data. -/
def peerPois : PeerReq → Bool
  | .read _ _ => false
  | .write _ _ p => p
  | .sync _ _ _ _ p => p
  | .claim _ => false
  | .unclaim _ => false
  | .release _ _ _ => false
  | .amo _ _ _ _ _ p => p
  | .amof _ _ _ p => p
  | .cas _ _ _ _ p => p
  | .reduceInt _ _ _ _ _ => false
  | .reduceF _ _ _ => false
  | .reduceLine _ _ _ _ p => p
  | .redo _ _ _ => false
  | .drawm _ _ _ _ => false
  | .line _ _ _ _ _ p => p
  | .decrement _ _ _ => false
  | .message _ _ _ _ => false

/-- A request at a location of this package. -/
def State.peerAt (s : State) (port l : Nat) : PeerReq → State
  | .read _ _ => s
  | .write _ _ _ => s
  | .sync c m vec d p =>
    match syncModeOf m with
    | some m => if l % (if vec then 128 else 8) = 0 then s.peerSyncArrive port c l m vec d p else s
    | none => s
  | .claim _ => s.peerClaimArrive port (lineKey l)
  | .unclaim _ => (s.modLine (lineKey l) fun m => { m with claimed := false }).serve
  | .release c vec d => if l % (if vec then 128 else 8) = 0 then (s.release c (lineKey l, l % 128, vec, d)).serve else s
  | .amo c op uns n v p =>
    if wordSize n && l % n = 0 then
      s.peerAtomic port c l n (fun o => some (combineInt (redOpOf op) uns (8 * n) o (v.toNat % 2 ^ (8 * n)))) p
    else s
  | .amof c op v p => if l % 4 = 0 then s.peerAtomic port c l 4 (fun o => some (combineLane (redOpOf op) .f32 o v.toNat)) p else s
  | .cas c n e v p =>
    if wordSize n && l % n = 0 then
      s.peerAtomic port c l n (fun o => if o = e.toNat % 2 ^ (8 * n) then some (v.toNat % 2 ^ (8 * n)) else none) p
    else s
  | .reduceInt c op uns n v => if wordSize n && l % n = 0 then s.reduce c l (.redInt (redOpOf op) uns n v) else s
  | .reduceF c op v => if l % 4 = 0 then s.reduce c l (.redF (redOpOf op) (v.setWidth 64)) else s
  | .reduceLine c op ty d p =>
    if l % 128 = 0 then s.combine c l 128 (fun o => combineLine (redOpOf op) (redType ty) o d.toNat) p else s
  | .redo c v q => if l % 16 = 0 then s.peerContribution c l q (.redo v) false else s
  | .drawm c p u q => if l % 16 = 0 then s.peerContribution c l q (.drawm p u) false else s
  | .line c op ty d q p =>
    if l % 128 = 0 then (s.takeId).peerContribution c l q (.line (redOpOf op) (redType ty) d s.fab.nextId 0) p else s
  | .decrement _ _ _ => s
  | .message _ _ _ _ => s

/-- A location that no memory has: what the address of a decrement is taken for when it is absent. -/
def nowhere : Nat := locOf 7 0 0 0

/-- A request of a peer. -/
def State.peerRequest (s : State) (port : Nat) (a : BitVec 64) (q : PeerReq) : State :=
  match q with
  | .read c n =>
    let x := s.peerReadParts c (cutLines a.toNat n (n + 1))
    x.1.answerPeer port x.2.bytes x.2.pois x.2.checks
  | .write c bs p => s.peerWriteParts port c a.toNat bs p (cutLines a.toNat bs.length (bs.length + 1))
  | .message c from_ m w => s.peerMessage port c from_ m w
  | .decrement c tag amt => s.peerDecrement port c a tag amt ((s.peerLoc c a).getD nowhere)
  | q =>
    match s.peerLoc (peerCtx q) a with
    | some l => (s.gotPoison (peerCtx q) l (peerPois q)).peerAt port l q
    | none => s.absentPeer port (peerEffect q).1 (peerEffect q).2.1 (peerEffect q).2.2

/-- The virtual channel of a request (19 R396). -/
def peerChan : PeerReq → Nat
  | .read _ _ => 0
  | .write _ _ _ => 0
  | .sync _ _ _ _ _ => 0
  | .claim _ => 0
  | .unclaim _ => 0
  | .release _ _ _ => 0
  | .amo _ _ _ _ _ _ => 0
  | .amof _ _ _ _ => 0
  | .cas _ _ _ _ _ => 0
  | .reduceInt _ _ _ _ _ => 0
  | .reduceF _ _ _ => 0
  | .reduceLine _ _ _ _ _ => 0
  | .redo _ _ _ => 2
  | .drawm _ _ _ _ => 2
  | .line _ _ _ _ _ _ => 2
  | .decrement _ _ _ => 1
  | .message _ _ _ _ => 1

/-- The next link sequence number a virtual channel of a port expects. -/
def Port.expects (x : Port) (chan : Nat) : Nat := x.expected.getD chan 0

/-- A packet of a virtual channel has been taken. -/
def State.passLink (s : State) (port chan : Nat) : State :=
  s.modPort (.ualink port) fun x => { x with expected := x.expected.set chan (x.expects chan + 1) }

/-- PEER_ACCESS: a request of a peer arrives over a UALink port, in link sequence order: one below the next expected number is
discarded, one beyond it is, and a replay is asked for (18 R386; 19 R397). A port that carries none takes none (19 R394). -/
def execPeerAccess (port : Nat) (addr : BitVec 64) (k : PeerPacket) (s : State) : Host.Outcome State Fault Refusal :=
  let chan := peerChan k.req
  let n := (s.port (.ualink port)).expects chan
  if port < 16 && s.carries (.ualink port) then
    if k.seq < n then .next s
    else if n < k.seq then .next { s with out := .askReplay (.ualink port) chan n :: s.out }
    else .next ((s.passLink port chan).peerRequest port addr k.req)
  else .next s

end Sys2Proof.Machine
end

