-- ==== Sys2Proof/Machine/Links.lean ====
section
/-! DEFINITION. SPDM, the port lock and the links: GET_VERSION, GET_CAPABILITIES, NEGOTIATE_ALGORITHMS, GET_DIGESTS,
GET_CERTIFICATE, CHALLENGE, GET_MEASUREMENTS, KEY_EXCHANGE, FINISH, KEY_UPDATE, END_SESSION, LOCK_PORT, START_PORT, STOP_PORT,
PORT_CONFIG_CHANGE, LINK_REPLAY, LINK_RESET (18 R386; 19 R393-R397, R401). -/

namespace Sys2Proof.Machine

/-- The port exists. -/
def realPort : PortSel → Bool
  | .chrolu p => decide (p < 2)
  | .ualink p => decide (p < 16)

/-! ## SPDM (19 R393) -/

/-- The end exists: the device answers on every port, and asks over the UALink ports. -/
def realEnd : SpdmEnd → Bool
  | .answers p => realPort p
  | .asks p => realPort (.ualink p)

/-- The exchange at an end before a session. -/
def State.conn (s : State) (x : SpdmEnd) : SpdmConn := (s.pkg.conns.find? fun c => c.side == x).getD { side := x }

def State.setConn (s : State) (c : SpdmConn) : State :=
  { s with pkg := { s.pkg with conns := (s.pkg.conns.filter fun x => x.side != c.side) ++ [c] } }

/-- What a message makes leave the package: the responder's answer, by which an unexpected request is told so, or the requester's
own request, which it makes only where it is expected. -/
def State.respond (s : State) (x : SpdmEnd) (m : SpdmMsg) (ok : Bool) (body : List Byte) : State :=
  match x, ok with
  | .asks _, false => s
  | x, ok => { s with out := .spdm x m ok body :: s.out }

/-- A request of the first exchange: performed when what it builds on has taken place. [DESIGN CHOICE, log 12] -/
def State.negotiate (s : State) (x : SpdmEnd) (m : SpdmMsg) (ready : Bool) (f : SpdmConn → SpdmConn) : State :=
  if realEnd x then (if ready then s.setConn (f (s.conn x)) else s).respond x m ready [] else s

/-- GET_VERSION begins the exchange anew. -/
def execGetVersion (side : SpdmEnd) (s : State) : Host.Outcome State Fault Refusal :=
  .next (s.negotiate side .version true fun c => { side := c.side, version := true })

def execGetCapabilities (side : SpdmEnd) (s : State) : Host.Outcome State Fault Refusal :=
  .next (s.negotiate side .capabilities (s.conn side).version fun c => { c with caps := true })

/-- The suite that answers an offer: the device's own algorithms, where the offer holds them all. -/
def chooseSuite (o : SpdmOffer) : Option Suite := if o.hash && o.sign && o.exchange && o.aead then some {} else none

/-- NEGOTIATE_ALGORITHMS: the responder chooses from the offer, and its answer names the choice; the requester keeps what the peer has
chosen. -/
def execNegotiateAlgorithms (offer : SpdmOffer) (s : State) : Host.Outcome State Fault Refusal :=
  let side := offer.side
  match (if (s.conn side).caps then chooseSuite offer else none) with
  | none => .next (s.negotiate side .algorithms false id)
  | some x =>
    let t := s.negotiate side .algorithms true fun c => { c with algs := some x }
    .next (match side with
      | .answers _ => if realEnd side then { t with out := .chosen side x :: t.out } else t
      | .asks _ => t)

def execGetDigests (side : SpdmEnd) (s : State) : Host.Outcome State Fault Refusal :=
  .next (s.negotiate side .digests (s.conn side).algs.isSome id)

def execGetCertificate (side : SpdmEnd) (s : State) : Host.Outcome State Fault Refusal :=
  .next (s.negotiate side .certificate (s.conn side).algs.isSome id)

/-- CHALLENGE: its signed answer repeats the nonce; the rest of it is SPDM's. The requester sends the nonce. -/
def execChallenge (side : SpdmEnd) (nonce : BitVec 256) (s : State) : Host.Outcome State Fault Refusal :=
  if realEnd side then
    .next (if (s.conn side).algs.isSome then s.respond side .challenge true (toBytes nonce.toNat 32) else s.respond side .challenge false [])
  else .next s

/-- GET_MEASUREMENTS: a signed report that names no context (19 R401). The requester sends the nonce. -/
def execGetMeasurements (side : SpdmEnd) (nonce : BitVec 256) (s : State) : Host.Outcome State Fault Refusal :=
  if realEnd side then
    if (s.conn side).algs.isSome then
      match side with
      | .answers _ =>
        let x := s.attestation (toBytes nonce.toNat 32) 0
        .next (x.1.respond side .measurements true x.2)
      | .asks _ => .next (s.respond side .measurements true (toBytes nonce.toNat 32))
    else .next (s.respond side .measurements false [])
  else .next s

/-- Sessions a package holds at most. -/
def sessionLimit : Nat := 64

/-- The least number from 1 on that no session has. -/
def State.freshSession (s : State) : Nat :=
  ((List.range (s.pkg.sessions.length + 1)).find? fun i => !s.pkg.sessions.any fun x => x.id == i + 1).getD 0 + 1

/-- KEY_EXCHANGE opens a session that FINISH completes. -/
def execKeyExchange (side : SpdmEnd) (s : State) : Host.Outcome State Fault Refusal :=
  if realEnd side then
    let ok := (s.conn side).algs.isSome && decide (s.pkg.sessions.length < sessionLimit)
    let n := s.freshSession
    let t : State := if ok then { s with pkg := { s.pkg with sessions := s.pkg.sessions ++
      [{ id := n, side := side, suite := (s.conn side).algs.getD {} }] } } else s
    .next (t.respond side .keyExchange ok (if ok then toBytes n 4 else []))
  else .next s

/-- The session of an end with a number. -/
def State.session? (s : State) (x : SpdmEnd) (n : Nat) : Option Session :=
  s.pkg.sessions.find? fun y => y.id == n && y.side == x

def State.modSession (s : State) (n : Nat) (f : Session → Session) : State :=
  { s with pkg := { s.pkg with sessions := s.pkg.sessions.map fun x => if x.id = n then f x else x } }

def State.dropSession (s : State) (n : Nat) : State :=
  { s with pkg := { s.pkg with sessions := s.pkg.sessions.filter fun x => x.id != n } }

/-- FINISH: a session is established, or fails. -/
def execFinish (side : SpdmEnd) (session : Nat) (good : Bool) (s : State) : Host.Outcome State Fault Refusal :=
  match s.session? side session with
  | none => .next (if realEnd side then s.respond side .finish false [] else s)
  | some x =>
    if x.finished then .next (s.respond side .finish false [])
    else
      .next ((if good then s.modSession session fun x => { x with finished := true } else s.dropSession session).respond
        side .finish good [])

/-! ## The port lock (19 R394, R396) -/

/-- A port enters ERROR: its keys are destroyed. -/
def Port.fail (x : Port) : Port := { x with lock := .error, session := none, keys := false, waiting := true }

/-- A port that is locked or runs. -/
def Port.locked (x : Port) : Bool := x.lock == .locked || x.lock == .run

/-- Every port locked by a session enters ERROR. -/
def State.failLocked (s : State) (session : Nat) : State :=
  { s with pkg := { s.pkg with ports := s.pkg.ports.map fun x =>
      (x.1, if x.2.locked && x.2.session == some session then x.2.fail else x.2) } }

/-- KEY_UPDATE: fresh keys; a failure puts the ports the session locked in ERROR. -/
def execKeyUpdate (side : SpdmEnd) (session : Nat) (good : Bool) (s : State) : Host.Outcome State Fault Refusal :=
  match s.session? side session with
  | none => .next (if realEnd side then s.respond side .keyUpdate false [] else s)
  | some x =>
    if !x.finished then .next (s.respond side .keyUpdate false [])
    else
      .next ((if good then s.modSession session fun x => { x with keyGen := x.keyGen + 1 } else s.failLocked session).respond
        side .keyUpdate good [])

/-- END_SESSION: the ports the session locked enter ERROR. -/
def execEndSession (side : SpdmEnd) (session : Nat) (s : State) : Host.Outcome State Fault Refusal :=
  match s.session? side session with
  | none => .next (if realEnd side then s.respond side .endSession false [] else s)
  | some _ => .next (((s.failLocked session).dropSession session).respond side .endSession true [])

/-- LOCK_PORT within a session. -/
def execLockPort (port : PortSel) (session : Nat) (s : State) : Host.Outcome State Fault Refusal :=
  if realPort port && (s.port port).lock == .unlocked && s.pkg.sessions.any fun x => x.id == session && x.finished then
    .next (s.modPort port fun x => { x with lock := .locked, session := some session })
  else .next s

/-- Whether a channel's mode is legal: plaintext on channel 3 only, integrity alone on channels 0 to 2 within the enclosure. -/
def State.chanLegal (s : State) (x : Port) (chan : Nat) (m : ChanMode) : Bool :=
  match m with
  | .encrypt => true
  | .integrity => chan == 3 || ((s.peer? x.peerId).map fun p => p.encl == s.pkg.encl).getD false
  | .plain => chan == 3

/-- Whether every channel of a port keeps the limits; a Chrolu port has no such channels. -/
def State.modesLegal (s : State) (p : PortSel) : Bool :=
  match p with
  | .chrolu _ => true
  | .ualink _ => (s.port p).modes.zipIdx.all fun m => s.chanLegal (s.port p) m.2 m.1

/-- The notifications that have waited for a Chrolu port leave, oldest first. -/
def State.tellNotes (s : State) : State :=
  { s with
    out := ((s.ctxs.flatMap fun c => c.notes).map Out.notify).reverse ++ s.out
    ctxs := s.ctxs.map fun c => { c with notes := [] } }

/-- START_PORT within the same session; what was outstanding goes on under the new keys: what the retry buffer holds is sent again, and
the notifications that waited leave where the port is the host's. -/
def execStartPort (port : PortSel) (session : Nat) (s : State) : Host.Outcome State Fault Refusal :=
  if realPort port && (s.port port).lock == .locked && (s.port port).session == some session && s.modesLegal port then
    let t := s.modPort port fun x => { x with lock := .run, keys := true, waiting := false }
    let u := t.resend port fun _ => true
    .next (match port with
      | .chrolu _ => u.tellNotes
      | .ualink _ => u)
  else .next s

/-- STOP_PORT from any session. -/
def execStopPort (port : PortSel) (s : State) : Host.Outcome State Fault Refusal :=
  if realPort port && (s.port port).lock == .error && s.pkg.sessions.any fun x => x.finished then .next (s.modPort port fun x => { x with lock := .unlocked }) else .next s

/-- The protection mode of a number. -/
def chanModeOf : Nat → Option ChanMode
  | 0 => some .encrypt
  | 1 => some .integrity
  | 2 => some .plain
  | _ => none

/-- A port's configuration after a change. -/
def Port.changed (x : Port) : PortChange → Port
  | .laneMap v => { x with laneMap := v }
  | .peerId v => { x with peerId := v }
  | .chanMode c m =>
    match chanModeOf m with
    | some m => { x with modes := x.modes.set c m }
    | none => x

/-- PORT_CONFIG_CHANGE: made while CONFIG_UNLOCKED; of a locked or running port it brings ERROR. -/
def execPortConfigChange (port : PortSel) (change : PortChange) (s : State) : Host.Outcome State Fault Refusal :=
  let x := s.port port
  if !realPort port || x.changed change = x || x.lock == .error then .next s
  else .next (s.modPort port fun x => if x.locked then (x.changed change).fail else x.changed change)

/-! ## Replay and reset of links (18 R386; 19 R397) -/

/-- The packets of a channel below a number that the other side has asked for leave the retry buffer: they have arrived. -/
def State.arrivedTo (s : State) (p : PortSel) (chan seq : Nat) : State :=
  { s with fab := { s.fab with sent := s.fab.sent.filter fun x => !(x.port == p && x.chan == chan && decide (x.seq < seq)) } }

/-- LINK_REPLAY: a packet that arrives stomped or unauthenticated (19 R396) is discarded whole, counted when it failed authentication
(17 R356), and a replay is asked for from the number its channel expects; asked for one, the port sends again from its retry buffer,
from that number on. After three replays that failed, the link is to be reset first. -/
def execLinkReplay (port : PortSel) (what : ReplayOf) (failed : Bool) (s : State) : Host.Outcome State Fault Refusal :=
  if realPort port && s.carries port && decide ((s.port port).replays < 3) then
    let t := s.modPort port fun x => { x with replays := if failed then x.replays + 1 else 0 }
    match what with
    | .arrived chan unauth =>
      let t := if unauth then t.refuse1 port else t
      .next { t with out := .askReplay port chan ((s.port port).expects chan) :: t.out }
    | .asked chan n => .next ((t.arrivedTo port chan n).resend port fun c => c == chan)
  else .next s

/-- LINK_RESET: after three failed replays; lock state, keys and retry buffer stay, and what that holds is sent again at once where the
port carries it, else once it is in RUN again (18 R386; 19 R394, R397). -/
def execLinkReset (port : PortSel) (s : State) : Host.Outcome State Fault Refusal :=
  if realPort port && decide (3 ≤ (s.port port).replays) then
    let t := s.modPort port fun x => { x with replays := 0 }
    .next (if s.carries port then t.resend port fun _ => true else t)
  else .next s

end Sys2Proof.Machine
end

