-- ==== Sys2Proof/Machine/Package.lean ====
section
/-! DEFINITION. Reset, microcode, freeze and power of the package: SUPPLY_GOOD, MANAGEMENT_RESET, MICROCODE_LOAD, DEBUG_TOKEN,
FREEZE, FRZ_N_ASSERT, POWER_CAP_SET, POWER_FAILURE (17 R369, R370; 19 R390; 20 R403-R410). -/

namespace Sys2Proof.Machine

/-! ## Package reset (20 R403-R406; 17 R370) -/

/-- The lifetime record that reset loads: the valid copy with the higher write count, or an empty one. -/
def Pkg.loaded (p : Pkg) : LifeRecord := if p.lifeA.valid || p.lifeB.valid then p.lifeRecord else {}

/-- A tile as its lifetime data restores it (17 R370); the cycles of a DRAINED tile and the passed tests of a QUARANTINED one (R363) count
from 0 again. [DESIGN CHOICE, log 125] -/
def TileLife.tile (x : TileLife) : Tile :=
  { state := x.state, idleEnd := if x.state = .retired then some 0 else none
    life := x.life, margin := x.margin, made := x.made, af := x.af, blame := x.blame, em0 := x.em0, em1 := x.em1 }

/-- Whether a physical cluster is in service after reset: not retired, and a spare only where one has entered service. -/
def LifeRecord.serves (r : LifeRecord) (die phys : Nat) : Bool :=
  !r.retired.contains (17 * die + phys) && (phys != 16 || r.sparesUsed.contains die)

/-- Logical ids over the clusters in service, die by die in physical order (01 R15; 17 R370). -/
def LifeRecord.map (r : LifeRecord) : List MapEntry :=
  [0, 1, 2, 3].flatMap fun d =>
    ((List.range 17).filter fun p => r.serves d p).map fun p =>
      { die := d, phys := p
        was := if p = 16 then (r.spareFor.find? fun c => c / 17 == d).map fun c => c % 17 else none }

/-- The first image of management flash that verifies and is not older than the rollback counter. -/
def Pkg.image (p : Pkg) : Option UcodeImage := p.flash.find? fun i => i.good && decide (p.rollback ≤ i.version)

/-- The life-cycle state after reset: DEBUG_UNLOCKED lasts until it (20 R408). -/
def Pkg.lcsAfter (p : Pkg) : BitVec 2 := if p.lcs = 2 then 1 else p.lcs

/-- The reset status word (20 R404). -/
def statusOf (ddr : BitVec 12) (lcs : BitVec 2) (lifeOk ucodeOk : Bool) (n : Nat) : BitVec 64 :=
  BitVec.ofNat 64 (ddr.toNat + 2 ^ 12 * lcs.toNat + 2 ^ 14 * lifeOk.toNat + 2 ^ 15 * ucodeOk.toNat + 2 ^ 16 * n)

/-- Channels with an RDIMM. -/
def Pkg.fitted (p : Pkg) : BitVec 12 := BitVec.ofNat 12 ((p.rdimm.take 12).zipIdx.map fun x => if x.1 = 0 then 0 else 2 ^ x.2).sum

/-- The DDR-5 channels whose training succeeds: open. [DESIGN CHOICE, log 89] -/
def trained (free : Nat) : BitVec 12 := BitVec.ofNat 12 (leNat (freeBytes free 2))

/-- The package after reset: flash, fuses, what is fitted, and the lifetime record remain. [DESIGN CHOICE, log 89] -/
def Pkg.afterReset (p : Pkg) (trained : BitVec 12) : Pkg :=
  let r := p.loaded
  let ddr := p.fitted &&& trained
  let lifeOk := p.lifeA.valid || p.lifeB.valid
  let ucodeOk := p.image.isSome
  { map := r.map
    clusters := r.retired.foldl (fun (l : List (Nat × Cluster)) c => kvPut l c { retire := .retired }) []
    ddrPres := ddr, rdimm := p.rdimm, lifeOk := lifeOk, ucodeOk := ucodeOk, lcs := p.lcsAfter
    lifeA := p.lifeA, lifeB := p.lifeB, flash := p.flash
    rollback := (p.image.map fun i => i.version).getD p.rollback
    ucode := (p.image.map fun i => i.digest).getD 0, firmware := p.firmware
    statusWord := statusOf ddr p.lcsAfter lifeOk ucodeOk r.map.length
    power := .on }

/-- A decommissioned package: its reset stops after step 2, the lifetime record loaded (20 R405). -/
def Pkg.afterHalt (p : Pkg) : Pkg :=
  let lifeOk := p.lifeA.valid || p.lifeB.valid
  { map := [], ddrPres := 0, rdimm := p.rdimm, lifeOk := lifeOk, ucodeOk := false, lcs := p.lcs
    lifeA := p.lifeA, lifeB := p.lifeB, flash := p.flash, rollback := p.rollback, ucode := 0, firmware := p.firmware
    statusWord := p.statusWord, statusDue := [], power := .halted }

/-- Dies after reset: which spares have been used. -/
def LifeRecord.dies (r : LifeRecord) : List Die := [0, 1, 2, 3].map fun d => { spareUsed := r.sparesUsed.contains d }

/-- A location outside the package: host memory or a peer's. -/
def outside (l : Nat) : Bool := locSpace l == spHost || locPkg l != 0

/-- Package reset of a package in service: every memory line and its metadata is zero, context 0 exists with fresh keys, TIME
starts; a cluster that comes back with too few usable tiles begins to retire (20 R403; 17 R365, R370). -/
def State.fullReset (s : State) : State :=
  let p := s.pkg.afterReset (trained (s.free + 4))
  let r := s.pkg.loaded
  ({ State.reset with
    mem := { cells := s.mem.cells.filter fun c => outside c.1 }
    lines := s.lines.filter fun x => outside (128 * x.1)
    tiles := r.tiles.map fun x => (x.1, x.2.tile)
    ctxs := [{ id := 0, keys := freshKeys s.free }]
    dies := r.dies
    pkg := p
    fab := { nextId := s.fab.nextId }
    focus := s.focus
    free := s.free + 6
    agenda := s.agenda
    out := .status p.statusWord :: s.out } : State).checkClusters (List.range 68)

/-- Reset of a decommissioned package: no memory is trained, no id assigned, no context made, no status word sent (20 R405). -/
def State.haltReset (s : State) : State :=
  { State.reset with
    mem := s.mem, lines := s.lines, tiles := s.pkg.loaded.tiles.map fun x => (x.1, x.2.tile), ctxs := [], pkg := s.pkg.afterHalt
    fab := { nextId := s.fab.nextId }, focus := s.focus, free := s.free, agenda := s.agenda, out := s.out }

/-- Package reset. -/
def State.packageReset (s : State) : State := if s.pkg.lcs = 3 then s.haltReset else s.fullReset

/-- SUPPLY_GOOD (20 R403). -/
def execSupplyGood (s : State) : Host.Outcome State Fault Refusal := .next s.packageReset

/-- MANAGEMENT_RESET (20 R403): a package without supply takes no command. -/
def execManagementReset (s : State) : Host.Outcome State Fault Refusal :=
  if s.pkg.power = .off then .next s else .next s.packageReset

/-- POWER_FAILURE (17 R369): the package stops; what its lifetime record does not hold is lost at the next reset, and a write of
this very cycle may be cut short. [DESIGN CHOICE, log 106] -/
def execPowerFailure (s : State) : Host.Outcome State Fault Refusal :=
  let p := if s.pkg.lifeAt = some s.cycle ∧ (Config.freeByte s.free).getLsbD 0 then s.pkg.cutWrite else s.pkg
  .next { s with free := s.free + 1, pkg := { p with power := .off } }

/-! ## Microcode (20 R406, R407) -/

/-- The weights of a scoring table in their field order. -/
def scoringOf (w : BitVec 128) : Scoring :=
  { wres := w.extractLsb' 0 16, wnear := w.extractLsb' 16 16, wload := w.extractLsb' 32 16, widle := w.extractLsb' 48 16
    wder := w.extractLsb' 64 16, wwear := w.extractLsb' 80 16 }

/-- A wave in progress is abandoned; a declaration that stands is no wave. -/
def Ctx.dropWave (c : Ctx) : Ctx :=
  { c with wave := match c.wave with
    | some (t, true) => some (t, true)
    | some (_, false) => none
    | none => none }

/-- Cycles a change of image takes: at most 2^20 (20 R407). [DESIGN CHOICE, log 113] -/
def changeTime (free : Nat) : Nat := leNat (freeBytes free 3) % (2 ^ 20 + 1)

/-- MICROCODE_LOAD (20 R407): what the harts serve waits while the image is changed; one that fails its checks leaves the running
one in place. [DEDUCED, log 90] -/
def execMicrocodeLoad (version : Nat) (digest : BitVec 256) (weights : Option (BitVec 128)) (good : Bool) (s : State) :
    Host.Outcome State Fault Refusal :=
  if good && decide (s.pkg.rollback ≤ version) then
    .next { s with
      free := s.free + 3
      dies := s.dies.map fun d => { d with score := (weights.map scoringOf).getD {} }
      ctxs := s.ctxs.map Ctx.dropWave
      pkg := { s.pkg with
        change := some (s.cycle + changeTime s.free)
        ucode := digest, rollback := version, ucodeOk := true, flash := { version := version, digest := digest } :: s.pkg.flash.take 1 } }
  else .next s

/-! ## Debug unlock and freeze (20 R408, R409) -/

def State.destroyAll (s : State) : List (BitVec 32) → State
  | [] => s
  | c :: rest => State.destroyAll (s.destroyCtx c) rest

/-- 64 bytes that are open. -/
def freeWords (k : Nat) : BitVec 512 := BitVec.ofNat 512 (leNat (freeBytes k 64))

/-- The messages of a mailbox that are held in the larder, beyond the 32 of graph memory, are open (13 R284; 19 R399). -/
def Mbox.loseHeld (free : Nat) (m : Mbox) : Mbox :=
  { m with held := m.held.zipIdx.map fun x => if x.2 < 32 then x.1 else (x.1.1, freeWords (free + 64 * x.2)) }

/-- What a context keeps in its larder under its keys is open: held fault records and held messages. [DEDUCED, log 91] -/
def Ctx.loseHeld (free : Nat) (c : Ctx) : Ctx :=
  { c with
    heldRecs := c.heldRecs.zipIdx.map fun x => if x.1.larder then { x.1 with bits := freeWords (free + 64 * x.2) } else x.1
    mboxes := c.mboxes.map fun m => (m.1, m.2.loseHeld (free + 2 ^ 32 * (m.1 + 1))) }

/-- The spilled records of a context cannot be read: their instances are lost (15 R320, R321). -/
def State.loseSpilled (s : State) : List Inst → State
  | [] => s
  | i :: rest =>
    State.loseSpilled (match i.recs.findIdx? fun x => x.spilled with
      | some k => s.loseGraph i.id (some k)
      | none => s) rest

/-- What context 0 held encrypted under its old keys can no longer be read (19 R390). -/
def State.loseOldKeys (s : State) : State :=
  match s.ctx? 0 with
  | none => s
  | some c =>
    let lost := s.linesHeld c
    let s : State := { s with
      ctxs := s.ctxs.map fun c => { c.loseHeld s.free with keys := freshKeys (s.free + 2 ^ 41) }, free := s.free + 2 ^ 41 + 4 }
    (s.loseSpilled (s.insts.filter fun i => i.ctx == 0)).scramble lost

/-- DEBUG_TOKEN (20 R408; 19 R390): every context but 0 is destroyed, and every context key and session key. [DEDUCED, log 91] -/
def execDebugToken (good : Bool) (s : State) : Host.Outcome State Fault Refusal :=
  if good && s.pkg.lcs = 1 then
    let s := (s.destroyAll ((s.ctxs.filter fun c => c.id != 0).map fun c => c.id)).loseOldKeys
    .next { s with
      pkg := { s.pkg with
        lcs := 2, sessions := []
        ports := s.pkg.ports.map fun x => (x.1, if x.2.locked then x.2.fail else { x.2 with keys := false }) } }
  else .next s

/-- The clocks stop at the gating points: each step of the model is one. [DESIGN CHOICE, log 92] -/
def State.freezeNow (s : State) : State :=
  if s.pkg.lcs = 2 && s.pkg.power = .on then { s with pkg := { s.pkg with power := .frozen } } else s

/-- FREEZE (20 R409): refused outside DEBUG_UNLOCKED. -/
def execFreeze (s : State) : Host.Outcome State Fault Refusal := .next s.freezeNow

/-- FRZ_N_ASSERT (20 R409): a low level of at least four reference cycles. -/
def execFrzNAssert (cycles : Nat) (s : State) : Host.Outcome State Fault Refusal :=
  if 4 ≤ cycles then .next s.freezeNow else .next s

/-! ## Power (20 R410) -/

/-- POWER_CAP_SET: between 1,200 W and 2,300 W. -/
def execPowerCapSet (watts : Nat) (s : State) : Host.Outcome State Fault Refusal :=
  if 1200 ≤ watts && watts ≤ 2300 then .next { s with pkg := { s.pkg with powerCap := watts } } else .next s

end Sys2Proof.Machine
end

