-- ==== Sys2Proof/Machine/Vector.lean ====
section
/-! DEFINITION. Vector instructions, opcodes 0x60-0x95 and 0x99-0x9B (07 R138-R146). -/

namespace Sys2Proof.Machine

/-- Lane-wise instructions of one, two and three vectors, with flags; and of two vectors on codes without flags. -/
def fireL1 (i : Instr) (x : ElemType) (f : Rnd → Nat → Nat × Flags) (s : State) : Host.Outcome State Fault Refusal :=
  fire i (fun e => e.vectorF (gather x ((lanesOf x e.va).map (f e.rnd)))) s
def fireL2 (i : Instr) (x : ElemType) (f : Rnd → Nat → Nat → Nat × Flags) (s : State) : Host.Outcome State Fault Refusal :=
  fire i (fun e => e.vectorF (gather x (List.zipWith (f e.rnd) (lanesOf x e.va) (lanesOf x e.vb)))) s
def fireL3 (i : Instr) (x : ElemType) (f : Rnd → Nat → Nat → Nat → Nat × Flags) (s : State) :
    Host.Outcome State Fault Refusal :=
  fire i (fun e => e.vectorF (gather x
    (List.zipWith (fun ab c => f e.rnd ab.1 ab.2 c) (List.zip (lanesOf x e.va) (lanesOf x e.vb)) (lanesOf x e.vc)))) s
def fireB2 (i : Instr) (x : ElemType) (f : Nat → Nat → Nat) (s : State) : Host.Outcome State Fault Refusal :=
  fire i (fun e => e.vector (ofLanes x (List.zipWith f (lanesOf x e.va) (lanesOf x e.vb)))) s
def fireB1 (i : Instr) (x : ElemType) (f : Nat → Nat) (s : State) : Host.Outcome State Fault Refusal :=
  fire i (fun e => e.vector (ofLanes x ((lanesOf x e.va).map f))) s

/-- 07 R138. -/
def execVadd (p : Pr) (x : ElemType) (u t : Target) (s : State) : Host.Outcome State Fault Refusal :=
  fireL2 (.vadd p x u t) x (fun m => arith2 x m Val.add (· + ·)) s

/-- 07 R138. -/
def execVsub (p : Pr) (x : ElemType) (u t : Target) (s : State) : Host.Outcome State Fault Refusal :=
  fireL2 (.vsub p x u t) x (fun m => arith2 x m Val.sub (· - ·)) s

/-- 07 R138. -/
def execVmul (p : Pr) (x : ElemType) (u t : Target) (s : State) : Host.Outcome State Fault Refusal :=
  fireL2 (.vmul p x u t) x (fun m => arith2 x m (fun _ => Val.mul) (· * ·)) s

/-- 07 R138: ternary, rounded once. -/
def execVfma (x : ElemType) (u t : Target) (s : State) : Host.Outcome State Fault Refusal :=
  fireL3 (.vfma x u t) x (fun m => arith3 x m Val.fma) s

/-- 07 R138: ternary, rounded once. -/
def execVfms (x : ElemType) (u t : Target) (s : State) : Host.Outcome State Fault Refusal :=
  fireL3 (.vfms x u t) x (fun m => arith3 x m fun m a b c => Val.fma m a b c.neg) s

/-- 07 R138. -/
def execVdiv (p : Pr) (x : ElemType) (u t : Target) (s : State) : Host.Outcome State Fault Refusal :=
  fireL2 (.vdiv p x u t) x (fun m => arith2 x m (fun _ => Val.div) fun _ _ => 0) s

/-- 07 R138. -/
def execVsqrt (p : Pr) (u t : Target) (s : State) : Host.Outcome State Fault Refusal :=
  fireL1 (.vsqrt p u t) .f32 (fun m => laneF32 m Val.sqrt) s

/-- 07 R139. -/
def execVmin (p : Pr) (x : ElemType) (u t : Target) (s : State) : Host.Outcome State Fault Refusal :=
  fireB2 (.vmin p x u t) x (laneMinMax false x) s

/-- 07 R139. -/
def execVmax (p : Pr) (x : ElemType) (u t : Target) (s : State) : Host.Outcome State Fault Refusal :=
  fireB2 (.vmax p x u t) x (laneMinMax true x) s

/-- 07 R138. -/
def execVabs (p : Pr) (x : ElemType) (u t : Target) (s : State) : Host.Outcome State Fault Refusal :=
  fireL1 (.vabs p x u t) x (fun m => arith1 x m (fun _ a => (a.abs, 0)) fun i => if i < 0 then -i else i) s

/-- 07 R138. -/
def execVneg (p : Pr) (x : ElemType) (u t : Target) (s : State) : Host.Outcome State Fault Refusal :=
  fireL1 (.vneg p x u t) x (fun m => arith1 x m (fun _ a => (a.neg, 0)) fun i => -i) s

/-- 07 R138. -/
def execVadds (p : Pr) (x : ElemType) (u t : Target) (s : State) : Host.Outcome State Fault Refusal :=
  fireB2 (.vadds p x u t) x (fun a b => tyWrap x (saturate x (tyInt x a + tyInt x b))) s

/-- 07 R138. -/
def execVsubs (p : Pr) (x : ElemType) (u t : Target) (s : State) : Host.Outcome State Fault Refusal :=
  fireB2 (.vsubs p x u t) x (fun a b => tyWrap x (saturate x (tyInt x a - tyInt x b))) s

/-- 07 R138. -/
def execVmulh (p : Pr) (x : ElemType) (u t : Target) (s : State) : Host.Outcome State Fault Refusal :=
  fireB2 (.vmulh p x u t) x (fun a b => tyWrap x (tyInt x a * tyInt x b / (2 ^ tyWidth x : Nat))) s

/-- 07 R138. -/
def execVand (p : Pr) (x : ElemType) (u t : Target) (s : State) : Host.Outcome State Fault Refusal :=
  fireB2 (.vand p x u t) x (· &&& ·) s

/-- 07 R138. -/
def execVor (p : Pr) (x : ElemType) (u t : Target) (s : State) : Host.Outcome State Fault Refusal :=
  fireB2 (.vor p x u t) x (· ||| ·) s

/-- 07 R138. -/
def execVxor (p : Pr) (x : ElemType) (u t : Target) (s : State) : Host.Outcome State Fault Refusal :=
  fireB2 (.vxor p x u t) x (· ^^^ ·) s

/-- 07 R138. -/
def execVshl (p : Pr) (x : ElemType) (u t : Target) (s : State) : Host.Outcome State Fault Refusal :=
  fireB2 (.vshl p x u t) x (fun a b => a * 2 ^ (b % tyWidth x) % 2 ^ tyWidth x) s

/-- 07 R138. -/
def execVshr (p : Pr) (x : ElemType) (u t : Target) (s : State) : Host.Outcome State Fault Refusal :=
  fireB2 (.vshr p x u t) x (fun a b => a / 2 ^ (b % tyWidth x)) s

/-- 07 R138. -/
def execVsar (p : Pr) (x : ElemType) (u t : Target) (s : State) : Host.Outcome State Fault Refusal :=
  fireB2 (.vsar p x u t) x (laneSar x) s

/-- 07 R138. -/
def execVpopc (p : Pr) (x : ElemType) (u t : Target) (s : State) : Host.Outcome State Fault Refusal :=
  fireB1 (.vpopc p x u t) x (fun a => popNat (tyWidth x) a) s

/-- 07 R138. -/
def execVclz (p : Pr) (x : ElemType) (u t : Target) (s : State) : Host.Outcome State Fault Refusal :=
  fireB1 (.vclz p x u t) x (fun a => clzNat (tyWidth x) a) s

/-- 07 R138: ternary. -/
def execVsel (x : ElemType) (u t : Target) (s : State) : Host.Outcome State Fault Refusal :=
  fireL3 (.vsel x u t) x (fun _ a b c => (if c = 0 then b else a, 0)) s

/-- 07 R139: ternary. -/
def execVclamp (x : ElemType) (u t : Target) (s : State) : Host.Outcome State Fault Refusal :=
  fireL3 (.vclamp x u t) x (fun _ a b c => (laneClamp x a b c, 0)) s

/-- 07 R138. -/
def execVceq (p : Pr) (x : ElemType) (u t : Target) (s : State) : Host.Outcome State Fault Refusal :=
  fireL2 (.vceq p x u t) x (fun _ => laneEq x) s

/-- 07 R138. -/
def execVclt (p : Pr) (x : ElemType) (u t : Target) (s : State) : Host.Outcome State Fault Refusal :=
  fireL2 (.vclt p x u t) x (fun _ => laneCmp false x) s

/-- 07 R138. -/
def execVcle (p : Pr) (x : ElemType) (u t : Target) (s : State) : Host.Outcome State Fault Refusal :=
  fireL2 (.vcle p x u t) x (fun _ => laneCmp true x) s

/-- 07 R140; 02 R48. [DEDUCED, log 17] -/
def execVexp2 (p : Pr) (u t : Target) (s : State) : Host.Outcome State Fault Refusal :=
  fireL1 (.vexp2 p u t) .f32 (fun m => laneF32 m Val.exp2) s

/-- 07 R140; 02 R48. -/
def execVlog2 (p : Pr) (u t : Target) (s : State) : Host.Outcome State Fault Refusal :=
  fireL1 (.vlog2 p u t) .f32 (fun m => laneF32 m Val.log2) s

/-- 07 R140; 02 R48. -/
def execVrcp (p : Pr) (u t : Target) (s : State) : Host.Outcome State Fault Refusal :=
  fireL1 (.vrcp p u t) .f32 (fun m => laneF32 m Val.rcp) s

/-- 07 R140; 02 R48. -/
def execVrsq (p : Pr) (u t : Target) (s : State) : Host.Outcome State Fault Refusal :=
  fireL1 (.vrsq p u t) .f32 (fun m => laneF32 m Val.rsq) s

/-- 07 R140; 02 R48. -/
def execVtanh (p : Pr) (u t : Target) (s : State) : Host.Outcome State Fault Refusal :=
  fireL1 (.vtanh p u t) .f32 (fun m => laneF32 m Val.tanh) s

/-- 07 R138. -/
def execVrnd (p : Pr) (x : ElemType) (u t : Target) (s : State) : Host.Outcome State Fault Refusal :=
  fireL1 (.vrnd p x u t) x (fun m => arith1 x m Val.integral fun i => i) s

/-- 07 R141. -/
def execVcvtf (p : Pr) (d src : ElemType) (t : Target) (s : State) : Host.Outcome State Fault Refusal :=
  fire (.vcvtf p d src t) (fun e => e.vectorF (convertVec d src e.rnd e.rnd e.va)) s

/-- 07 R141: to integers with RZ. -/
def execVcvtt (p : Pr) (d src : ElemType) (t : Target) (s : State) : Host.Outcome State Fault Refusal :=
  fire (.vcvtt p d src t) (fun e => e.vectorF (convertVec d src e.rnd .rz e.va)) s

/-- 07 R142. -/
def execVpack4 (p : Pr) (u t : Target) (s : State) : Host.Outcome State Fault Refusal :=
  fire (.vpack4 p u t) (fun e => e.vectorF (packVec fmtF4 4 e.va (bf16Of e.b))) s

/-- 07 R142. -/
def execVunpk4 (p : Pr) (u t : Target) (s : State) : Host.Outcome State Fault Refusal :=
  fire (.vunpk4 p u t) (fun e => e.vectorF (unpackVec fmtF4 4 e.va (bf16Of e.b))) s

/-- 07 R142. -/
def execVpack6 (p : Pr) (u t : Target) (s : State) : Host.Outcome State Fault Refusal :=
  fire (.vpack6 p u t) (fun e => e.vectorF (packVec fmtF6 6 e.va (bf16Of e.b))) s

/-- 07 R142. -/
def execVunpk6 (p : Pr) (u t : Target) (s : State) : Host.Outcome State Fault Refusal :=
  fire (.vunpk6 p u t) (fun e => e.vectorF (unpackVec fmtF6 6 e.va (bf16Of e.b))) s

/-- 07 R143. -/
def execVbcast (p : Pr) (x : ElemType) (u t : Target) (s : State) : Host.Outcome State Fault Refusal :=
  fire (.vbcast p x u t) (fun e => e.vector (ofLanes x (List.replicate (tyLanes x) e.a.toNat))) s

/-- 07 R143. -/
def execVins (p : Pr) (x : ElemType) (u t : Target) (s : State) : Host.Outcome State Fault Refusal :=
  fire (.vins p x u t) (fun e => e.vector (ofLanes x (e.b.toNat :: (lanesOf x e.va).dropLast))) s

/-- 07 R143. -/
def execVext (p : Pr) (x : ElemType) (u t : Target) (s : State) : Host.Outcome State Fault Refusal :=
  fire (.vext p x u t) (fun e => e.scalar (tyPlace x (laneAt (lanesOf x e.va) (e.b.toNat % tyLanes x)))) s

/-- 07 R143. -/
def execVshuf (p : Pr) (x : ElemType) (u t : Target) (s : State) : Host.Outcome State Fault Refusal :=
  fire (.vshuf p x u t) (fun e =>
    let b := lanesOf x e.vb
    e.vector (permute x e.va fun i => laneAt b i % tyLanes x)) s

/-- 07 R143. -/
def execVrot (p : Pr) (x : ElemType) (u t : Target) (s : State) : Host.Outcome State Fault Refusal :=
  fire (.vrot p x u t) (fun e => e.vector (permute x e.va fun i => (i + e.b.toNat) % tyLanes x)) s

/-- 07 R143. -/
def execViota (p : Pr) (x : ElemType) (u t : Target) (s : State) : Host.Outcome State Fault Refusal :=
  fire (.viota p x u t) (fun e => e.vector (ofLanes x ((List.range (tyLanes x)).map fun i => e.a.toNat + i))) s

/-- 07 R144. -/
def execVredsum (p : Pr) (x : ElemType) (u t : Target) (s : State) : Host.Outcome State Fault Refusal :=
  fire (.vredsum p x u t) (fun e => e.scalarF (redSum x e.rnd e.va)) s

/-- 07 R144. -/
def execVredmax (p : Pr) (x : ElemType) (u t : Target) (s : State) : Host.Outcome State Fault Refusal :=
  fire (.vredmax p x u t) (fun e => e.scalar (redMinMax true x e.va)) s

/-- 07 R144. -/
def execVredmin (p : Pr) (x : ElemType) (u t : Target) (s : State) : Host.Outcome State Fault Refusal :=
  fire (.vredmin p x u t) (fun e => e.scalar (redMinMax false x e.va)) s

/-- 07 R144. -/
def execVredand (p : Pr) (x : ElemType) (u t : Target) (s : State) : Host.Outcome State Fault Refusal :=
  fire (.vredand p x u t) (fun e => e.scalar (tyPlace x ((lanesOf x e.va).foldl (· &&& ·) (2 ^ tyWidth x - 1)))) s

/-- 07 R144. -/
def execVredor (p : Pr) (x : ElemType) (u t : Target) (s : State) : Host.Outcome State Fault Refusal :=
  fire (.vredor p x u t) (fun e => e.scalar (tyPlace x ((lanesOf x e.va).foldl (· ||| ·) 0))) s

/-- 07 R145. -/
def execVargmax (p : Pr) (x : ElemType) (u t : Target) (s : State) : Host.Outcome State Fault Refusal :=
  fire (.vargmax p x u t) (fun e => e.scalar (argMax x e.va)) s

/-- 07 R144; 02 R46. -/
def execVscan (p : Pr) (x : ElemType) (u t : Target) (s : State) : Host.Outcome State Fault Refusal :=
  fire (.vscan p x u t) (fun e => e.vectorF (scanVec x e.rnd e.va)) s

/-- 07 R146. -/
def execVdotf (p : Pr) (x : ElemType) (u t : Target) (s : State) : Host.Outcome State Fault Refusal :=
  fire (.vdotf p x u t) (fun e => e.scalarF (dotVec x e.rnd e.va e.vb)) s

/-- 07 R144. -/
def execVmaskpop (p : Pr) (x : ElemType) (u t : Target) (s : State) : Host.Outcome State Fault Refusal :=
  fire (.vmaskpop p x u t) (fun e => e.scalar (BitVec.ofNat 64 ((lanesOf x e.va).filter (· != 0)).length)) s

/-- 07 R138. -/
def execVldexp (p : Pr) (x : ElemType) (u t : Target) (s : State) : Host.Outcome State Fault Refusal :=
  fireL2 (.vldexp p x u t) x (fun m => laneLdexp x m) s

/-- 07 R143. -/
def execVzip (p : Pr) (x : ElemType) (u t : Target) (s : State) : Host.Outcome State Fault Refusal :=
  fire (.vzip p x u t) (fun e =>
    let a := lanesOf x e.va
    let b := lanesOf x e.vb
    let h := tyLanes x / 2
    .done { out0 := some (.vector (ofLanes x (interleave (a.take h) (b.take h)))),
            out1 := some (.vector (ofLanes x (interleave (a.drop h) (b.drop h)))), pois := e.pois }) s

/-- 07 R143. -/
def execVunzip (p : Pr) (x : ElemType) (u t : Target) (s : State) : Host.Outcome State Fault Refusal :=
  fire (.vunzip p x u t) (fun e =>
    let c := lanesOf x e.va ++ lanesOf x e.vb
    .done { out0 := some (.vector (ofLanes x (evens c))), out1 := some (.vector (ofLanes x (odds c))), pois := e.pois }) s

end Sys2Proof.Machine
end

