-- ==== Sys2Proof/Machine/Dispatch.lean ====
section
/-! DEFINITION. The dispatch: one arm per constructor of Instr. -/

namespace Sys2Proof.Machine

/-- The meaning of every instruction and event. -/
def exec (i : Instr) (s : State) : Host.Outcome State Fault Refusal :=
  match i with
  | .illegal p => Sys2Proof.Machine.execIllegal p s
  | .readg r u t => Sys2Proof.Machine.execReadg r u t s
  | .readv r u t => Sys2Proof.Machine.execReadv r u t s
  | .writeg r => Sys2Proof.Machine.execWriteg r s
  | .writev r => Sys2Proof.Machine.execWritev r s
  | .mov p u t => Sys2Proof.Machine.execMov p u t s
  | .null p u t => Sys2Proof.Machine.execNull p u t s
  | .const_ p imm t => Sys2Proof.Machine.execConst p imm t s
  | .consth p imm t => Sys2Proof.Machine.execConsth p imm t s
  | .pcrel p imm t => Sys2Proof.Machine.execPcrel p imm t s
  | .sel p u t => Sys2Proof.Machine.execSel p u t s
  | .gate p u t => Sys2Proof.Machine.execGate p u t s
  | .nop p => Sys2Proof.Machine.execNop p s
  | .br p exit off => Sys2Proof.Machine.execBr p exit off s
  | .bri p exit => Sys2Proof.Machine.execBri p exit s
  | .call_ p exit off => Sys2Proof.Machine.execCall p exit off s
  | .calli p exit => Sys2Proof.Machine.execCalli p exit s
  | .done_ p exit => Sys2Proof.Machine.execDone p exit s
  | .abort p exit => Sys2Proof.Machine.execAbort p exit s
  | .trap p imm => Sys2Proof.Machine.execTrap p imm s
  | .break_ p imm => Sys2Proof.Machine.execBreak p imm s
  | .svc p imm t => Sys2Proof.Machine.execSvc p imm t s
  | .add p u t => Sys2Proof.Machine.execAdd p u t s
  | .sub p u t => Sys2Proof.Machine.execSub p u t s
  | .mul p u t => Sys2Proof.Machine.execMul p u t s
  | .mulh p u t => Sys2Proof.Machine.execMulh p u t s
  | .mulhu p u t => Sys2Proof.Machine.execMulhu p u t s
  | .div p u t => Sys2Proof.Machine.execDiv p u t s
  | .divu p u t => Sys2Proof.Machine.execDivu p u t s
  | .rem_ p u t => Sys2Proof.Machine.execRem p u t s
  | .remu p u t => Sys2Proof.Machine.execRemu p u t s
  | .and_ p u t => Sys2Proof.Machine.execAnd p u t s
  | .or_ p u t => Sys2Proof.Machine.execOr p u t s
  | .xor_ p u t => Sys2Proof.Machine.execXor p u t s
  | .andn p u t => Sys2Proof.Machine.execAndn p u t s
  | .shl p u t => Sys2Proof.Machine.execShl p u t s
  | .shr p u t => Sys2Proof.Machine.execShr p u t s
  | .sar p u t => Sys2Proof.Machine.execSar p u t s
  | .ror p u t => Sys2Proof.Machine.execRor p u t s
  | .min_ p u t => Sys2Proof.Machine.execMin p u t s
  | .max_ p u t => Sys2Proof.Machine.execMax p u t s
  | .minu p u t => Sys2Proof.Machine.execMinu p u t s
  | .maxu p u t => Sys2Proof.Machine.execMaxu p u t s
  | .abs_ p u t => Sys2Proof.Machine.execAbs p u t s
  | .clz p u t => Sys2Proof.Machine.execClz p u t s
  | .ctz p u t => Sys2Proof.Machine.execCtz p u t s
  | .popc p u t => Sys2Proof.Machine.execPopc p u t s
  | .sext p x u t => Sys2Proof.Machine.execSext p x u t s
  | .zext p x u t => Sys2Proof.Machine.execZext p x u t s
  | .bfx p u t => Sys2Proof.Machine.execBfx p u t s
  | .bfi u t => Sys2Proof.Machine.execBfi u t s
  | .lea p u t => Sys2Proof.Machine.execLea p u t s
  | .addi p imm t => Sys2Proof.Machine.execAddi p imm t s
  | .andi p imm t => Sys2Proof.Machine.execAndi p imm t s
  | .ori p imm t => Sys2Proof.Machine.execOri p imm t s
  | .xori p imm t => Sys2Proof.Machine.execXori p imm t s
  | .shli p imm t => Sys2Proof.Machine.execShli p imm t s
  | .shri p imm t => Sys2Proof.Machine.execShri p imm t s
  | .sari p imm t => Sys2Proof.Machine.execSari p imm t s
  | .teq p u t => Sys2Proof.Machine.execTeq p u t s
  | .tne p u t => Sys2Proof.Machine.execTne p u t s
  | .tlt p u t => Sys2Proof.Machine.execTlt p u t s
  | .tle p u t => Sys2Proof.Machine.execTle p u t s
  | .tltu p u t => Sys2Proof.Machine.execTltu p u t s
  | .tleu p u t => Sys2Proof.Machine.execTleu p u t s
  | .teqi p imm t => Sys2Proof.Machine.execTeqi p imm t s
  | .tnei p imm t => Sys2Proof.Machine.execTnei p imm t s
  | .tlti p imm t => Sys2Proof.Machine.execTlti p imm t s
  | .tlei p imm t => Sys2Proof.Machine.execTlei p imm t s
  | .fadd p u t => Sys2Proof.Machine.execFadd p u t s
  | .fsub p u t => Sys2Proof.Machine.execFsub p u t s
  | .fmul p u t => Sys2Proof.Machine.execFmul p u t s
  | .ffma u t => Sys2Proof.Machine.execFfma u t s
  | .fdiv p u t => Sys2Proof.Machine.execFdiv p u t s
  | .fsqrt p u t => Sys2Proof.Machine.execFsqrt p u t s
  | .fmin p u t => Sys2Proof.Machine.execFmin p u t s
  | .fmax p u t => Sys2Proof.Machine.execFmax p u t s
  | .fabs p u t => Sys2Proof.Machine.execFabs p u t s
  | .fneg p u t => Sys2Proof.Machine.execFneg p u t s
  | .fcvt p d src t => Sys2Proof.Machine.execFcvt p d src t s
  | .fclass p u t => Sys2Proof.Machine.execFclass p u t s
  | .feq p u t => Sys2Proof.Machine.execFeq p u t s
  | .flt p u t => Sys2Proof.Machine.execFlt p u t s
  | .fle p u t => Sys2Proof.Machine.execFle p u t s
  | .frnd p u t => Sys2Proof.Machine.execFrnd p u t s
  | .vadd p x u t => Sys2Proof.Machine.execVadd p x u t s
  | .vsub p x u t => Sys2Proof.Machine.execVsub p x u t s
  | .vmul p x u t => Sys2Proof.Machine.execVmul p x u t s
  | .vfma x u t => Sys2Proof.Machine.execVfma x u t s
  | .vfms x u t => Sys2Proof.Machine.execVfms x u t s
  | .vdiv p x u t => Sys2Proof.Machine.execVdiv p x u t s
  | .vsqrt p u t => Sys2Proof.Machine.execVsqrt p u t s
  | .vmin p x u t => Sys2Proof.Machine.execVmin p x u t s
  | .vmax p x u t => Sys2Proof.Machine.execVmax p x u t s
  | .vabs p x u t => Sys2Proof.Machine.execVabs p x u t s
  | .vneg p x u t => Sys2Proof.Machine.execVneg p x u t s
  | .vadds p x u t => Sys2Proof.Machine.execVadds p x u t s
  | .vsubs p x u t => Sys2Proof.Machine.execVsubs p x u t s
  | .vmulh p x u t => Sys2Proof.Machine.execVmulh p x u t s
  | .vand p x u t => Sys2Proof.Machine.execVand p x u t s
  | .vor p x u t => Sys2Proof.Machine.execVor p x u t s
  | .vxor p x u t => Sys2Proof.Machine.execVxor p x u t s
  | .vshl p x u t => Sys2Proof.Machine.execVshl p x u t s
  | .vshr p x u t => Sys2Proof.Machine.execVshr p x u t s
  | .vsar p x u t => Sys2Proof.Machine.execVsar p x u t s
  | .vpopc p x u t => Sys2Proof.Machine.execVpopc p x u t s
  | .vclz p x u t => Sys2Proof.Machine.execVclz p x u t s
  | .vsel x u t => Sys2Proof.Machine.execVsel x u t s
  | .vclamp x u t => Sys2Proof.Machine.execVclamp x u t s
  | .vceq p x u t => Sys2Proof.Machine.execVceq p x u t s
  | .vclt p x u t => Sys2Proof.Machine.execVclt p x u t s
  | .vcle p x u t => Sys2Proof.Machine.execVcle p x u t s
  | .vexp2 p u t => Sys2Proof.Machine.execVexp2 p u t s
  | .vlog2 p u t => Sys2Proof.Machine.execVlog2 p u t s
  | .vrcp p u t => Sys2Proof.Machine.execVrcp p u t s
  | .vrsq p u t => Sys2Proof.Machine.execVrsq p u t s
  | .vtanh p u t => Sys2Proof.Machine.execVtanh p u t s
  | .vrnd p x u t => Sys2Proof.Machine.execVrnd p x u t s
  | .vcvtf p d src t => Sys2Proof.Machine.execVcvtf p d src t s
  | .vcvtt p d src t => Sys2Proof.Machine.execVcvtt p d src t s
  | .vpack4 p u t => Sys2Proof.Machine.execVpack4 p u t s
  | .vunpk4 p u t => Sys2Proof.Machine.execVunpk4 p u t s
  | .vpack6 p u t => Sys2Proof.Machine.execVpack6 p u t s
  | .vunpk6 p u t => Sys2Proof.Machine.execVunpk6 p u t s
  | .vbcast p x u t => Sys2Proof.Machine.execVbcast p x u t s
  | .vins p x u t => Sys2Proof.Machine.execVins p x u t s
  | .vext p x u t => Sys2Proof.Machine.execVext p x u t s
  | .vshuf p x u t => Sys2Proof.Machine.execVshuf p x u t s
  | .vrot p x u t => Sys2Proof.Machine.execVrot p x u t s
  | .viota p x u t => Sys2Proof.Machine.execViota p x u t s
  | .vredsum p x u t => Sys2Proof.Machine.execVredsum p x u t s
  | .vredmax p x u t => Sys2Proof.Machine.execVredmax p x u t s
  | .vredmin p x u t => Sys2Proof.Machine.execVredmin p x u t s
  | .vredand p x u t => Sys2Proof.Machine.execVredand p x u t s
  | .vredor p x u t => Sys2Proof.Machine.execVredor p x u t s
  | .vargmax p x u t => Sys2Proof.Machine.execVargmax p x u t s
  | .vscan p x u t => Sys2Proof.Machine.execVscan p x u t s
  | .vdotf p x u t => Sys2Proof.Machine.execVdotf p x u t s
  | .vmaskpop p x u t => Sys2Proof.Machine.execVmaskpop p x u t s
  | .vrand p x u t => Sys2Proof.Machine.execVrand p x u t s
  | .vdraw p x u t => Sys2Proof.Machine.execVdraw p x u t s
  | .vdrawm p u t => Sys2Proof.Machine.execVdrawm p u t s
  | .vldexp p x u t => Sys2Proof.Machine.execVldexp p x u t s
  | .vzip p x u t => Sys2Proof.Machine.execVzip p x u t s
  | .vunzip p x u t => Sys2Proof.Machine.execVunzip p x u t s
  | .ldb p lsid imm t => Sys2Proof.Machine.execLdb p lsid imm t s
  | .ldbu p lsid imm t => Sys2Proof.Machine.execLdbu p lsid imm t s
  | .ldh p lsid imm t => Sys2Proof.Machine.execLdh p lsid imm t s
  | .ldhu p lsid imm t => Sys2Proof.Machine.execLdhu p lsid imm t s
  | .ldw p lsid imm t => Sys2Proof.Machine.execLdw p lsid imm t s
  | .ldwu p lsid imm t => Sys2Proof.Machine.execLdwu p lsid imm t s
  | .ldd p lsid imm t => Sys2Proof.Machine.execLdd p lsid imm t s
  | .stb p lsid imm => Sys2Proof.Machine.execStb p lsid imm s
  | .sth p lsid imm => Sys2Proof.Machine.execSth p lsid imm s
  | .stw p lsid imm => Sys2Proof.Machine.execStw p lsid imm s
  | .std p lsid imm => Sys2Proof.Machine.execStd p lsid imm s
  | .ldv p lsid imm t => Sys2Proof.Machine.execLdv p lsid imm t s
  | .stv p lsid imm => Sys2Proof.Machine.execStv p lsid imm s
  | .ldvx p lsid t => Sys2Proof.Machine.execLdvx p lsid t s
  | .stvx lsid imm => Sys2Proof.Machine.execStvx lsid imm s
  | .sld p lsid mode t => Sys2Proof.Machine.execSld p lsid mode t s
  | .sst p lsid mode => Sys2Proof.Machine.execSst p lsid mode s
  | .sldv p lsid mode t => Sys2Proof.Machine.execSldv p lsid mode t s
  | .sstv p lsid mode => Sys2Proof.Machine.execSstv p lsid mode s
  | .amoi p lsid mode un t => Sys2Proof.Machine.execAmoi p lsid mode un t s
  | .amow p lsid mode un t => Sys2Proof.Machine.execAmow p lsid mode un t s
  | .amof p lsid mode t => Sys2Proof.Machine.execAmof p lsid mode t s
  | .cas lsid mode t => Sys2Proof.Machine.execCas lsid mode t s
  | .redi p lsid mode un => Sys2Proof.Machine.execRedi p lsid mode un s
  | .redw p lsid mode un => Sys2Proof.Machine.execRedw p lsid mode un s
  | .redf p lsid mode => Sys2Proof.Machine.execRedf p lsid mode s
  | .redb p lsid mode x3 => Sys2Proof.Machine.execRedb p lsid mode x3 s
  | .redo p lsid => Sys2Proof.Machine.execRedo p lsid s
  | .drawm p lsid => Sys2Proof.Machine.execDrawm p lsid s
  | .fence p lsid x3 => Sys2Proof.Machine.execFence p lsid x3 s
  | .flushl p lsid imm => Sys2Proof.Machine.execFlushl p lsid imm s
  | .pref p lsid imm => Sys2Proof.Machine.execPref p lsid imm s
  | .cpy p lsid => Sys2Proof.Machine.execCpy p lsid s
  | .cpys p lsid => Sys2Proof.Machine.execCpys p lsid s
  | .cpyr p lsid mode x3 => Sys2Proof.Machine.execCpyr p lsid mode x3 s
  | .cpyb p lsid => Sys2Proof.Machine.execCpyb p lsid s
  | .cpyq p lsid t => Sys2Proof.Machine.execCpyq p lsid t s
  | .cwaita p lsid t => Sys2Proof.Machine.execCwaita p lsid t s
  | .cwaitl p lsid t => Sys2Proof.Machine.execCwaitl p lsid t s
  | .cfind p lsid t => Sys2Proof.Machine.execCfind p lsid t s
  | .ctclr p lsid => Sys2Proof.Machine.execCtclr p lsid s
  | .mwait p lsid t => Sys2Proof.Machine.execMwait p lsid t s
  | .spush p lsid port => Sys2Proof.Machine.execSpush p lsid port s
  | .spop p lsid port t => Sys2Proof.Machine.execSpop p lsid port t s
  | .speek p lsid port t => Sys2Proof.Machine.execSpeek p lsid port t s
  | .seos p lsid mode port => Sys2Proof.Machine.execSeos p lsid mode port s
  | .sstat p lsid mode port t => Sys2Proof.Machine.execSstat p lsid mode port t s
  | .bload p lsid arr => Sys2Proof.Machine.execBload p lsid arr s
  | .bswap p lsid arr arr2 => Sys2Proof.Machine.execBswap p lsid arr arr2 s
  | .bclr p lsid arr => Sys2Proof.Machine.execBclr p lsid arr s
  | .mma p lsid arr acc => Sys2Proof.Machine.execMma p lsid arr acc s
  | .mmat p lsid arr acc => Sys2Proof.Machine.execMmat p lsid arr acc s
  | .mmaa p lsid arr acc => Sys2Proof.Machine.execMmaa p lsid arr acc s
  | .accz p lsid acc => Sys2Proof.Machine.execAccz p lsid acc s
  | .accrd p lsid acc t => Sys2Proof.Machine.execAccrd p lsid acc t s
  | .accwr p lsid acc => Sys2Proof.Machine.execAccwr p lsid acc s
  | .accst p lsid acc => Sys2Proof.Machine.execAccst p lsid acc s
  | .accstat p lsid acc => Sys2Proof.Machine.execAccstat p lsid acc s
  | .accscl p lsid mode acc => Sys2Proof.Machine.execAccscl p lsid mode acc s
  | .msync p lsid t => Sys2Proof.Machine.execMsync p lsid t s
  | .dec p lsid => Sys2Proof.Machine.execDec p lsid s
  | .spawn p lsid => Sys2Proof.Machine.execSpawn p lsid s
  | .send p lsid => Sys2Proof.Machine.execSend p lsid s
  | .bind_ p lsid => Sys2Proof.Machine.execBind p lsid s
  | .unbind p lsid => Sys2Proof.Machine.execUnbind p lsid s
  | .ropejoin p lsid t => Sys2Proof.Machine.execRopejoin p lsid t s
  | .ropeleave p lsid => Sys2Proof.Machine.execRopeleave p lsid s
  | .ropearr p lsid => Sys2Proof.Machine.execRopearr p lsid s
  | .ropewait p lsid t => Sys2Proof.Machine.execRopewait p lsid t s
  | .ropesz p lsid t => Sys2Proof.Machine.execRopesz p lsid t s
  | .csrr p num t => Sys2Proof.Machine.execCsrr p num t s
  | .csrw p num t => Sys2Proof.Machine.execCsrw p num t s
  | .csrs p num t => Sys2Proof.Machine.execCsrs p num t s
  | .csrc p num t => Sys2Proof.Machine.execCsrc p num t s
  | .rand p u t => Sys2Proof.Machine.execRand p u t s
  | .time_ p u t => Sys2Proof.Machine.execTime p u t s
  | .ispois p u t => Sys2Proof.Machine.execIspois p u t s
  | .chkl p u t => Sys2Proof.Machine.execChkl p u t s
  | .pmark p u t => Sys2Proof.Machine.execPmark p u t s
  | .pitchFetch tile => Sys2Proof.Machine.execPitchFetch tile s
  | .pitchExhaustion tile => Sys2Proof.Machine.execPitchExhaustion tile s
  | .immediateAccessComplete tile => Sys2Proof.Machine.execImmediateAccessComplete tile s
  | .syncAccessArrive tile => Sys2Proof.Machine.execSyncAccessArrive tile s
  | .retryListBusyResend tile => Sys2Proof.Machine.execRetryListBusyResend tile s
  | .memoryResponse tile slot => Sys2Proof.Machine.execMemoryResponse tile slot s
  | .uncorrectableError site => Sys2Proof.Machine.execUncorrectableError site s
  | .watchdogExpiry tile => Sys2Proof.Machine.execWatchdogExpiry tile s
  | .waitWithdrawal tile => Sys2Proof.Machine.execWaitWithdrawal tile s
  | .commitChecks tile => Sys2Proof.Machine.execCommitChecks tile s
  | .handover tile => Sys2Proof.Machine.execHandover tile s
  | .publicationStep2 pub k => Sys2Proof.Machine.execPublicationStep2 pub k s
  | .publicationStep3 pub => Sys2Proof.Machine.execPublicationStep3 pub s
  | .taskRetired pub => Sys2Proof.Machine.execTaskRetired pub s
  | .twinDigestCompare inst idx => Sys2Proof.Machine.execTwinDigestCompare inst idx s
  | .decrementApply k => Sys2Proof.Machine.execDecrementApply k s
  | .placement die reports => Sys2Proof.Machine.execPlacement die reports s
  | .crossDiePlacement die => Sys2Proof.Machine.execCrossDiePlacement die s
  | .taskRunnable tile inst idx => Sys2Proof.Machine.execTaskRunnable tile inst idx s
  | .taskStart tile => Sys2Proof.Machine.execTaskStart tile s
  | .copyElementTranslate copy => Sys2Proof.Machine.execCopyElementTranslate copy s
  | .copyElementComplete copy entry => Sys2Proof.Machine.execCopyElementComplete copy entry s
  | .copyStampWrite copy => Sys2Proof.Machine.execCopyStampWrite copy s
  | .copyComplete copy => Sys2Proof.Machine.execCopyComplete copy s
  | .reductionApply pub k => Sys2Proof.Machine.execReductionApply pub k s
  | .orderedContributionArrive k => Sys2Proof.Machine.execOrderedContributionArrive k s
  | .orderedBusyResend k => Sys2Proof.Machine.execOrderedBusyResend k s
  | .streamPacketArrive tile port good => Sys2Proof.Machine.execStreamPacketArrive tile port good s
  | .streamAcknowledge tile port => Sys2Proof.Machine.execStreamAcknowledge tile port s
  | .streamResendRequest tile port => Sys2Proof.Machine.execStreamResendRequest tile port s
  | .matrixOpStart tile => Sys2Proof.Machine.execMatrixOpStart tile s
  | .matrixOpComplete tile k => Sys2Proof.Machine.execMatrixOpComplete tile k s
  | .armedMmaRow tile k => Sys2Proof.Machine.execArmedMmaRow tile k s
  | .faultRecordHeldWrite ctx => Sys2Proof.Machine.execFaultRecordHeldWrite ctx s
  | .ringPoll ctx queue => Sys2Proof.Machine.execRingPoll ctx queue s
  | .launchNotify ctx queue => Sys2Proof.Machine.execLaunchNotify ctx queue s
  | .instanceCreate k => Sys2Proof.Machine.execInstanceCreate k s
  | .messageAccept k => Sys2Proof.Machine.execMessageAccept k s
  | .handlerDelivery ctx mbox => Sys2Proof.Machine.execHandlerDelivery ctx mbox s
  | .mailboxOverflow k => Sys2Proof.Machine.execMailboxOverflow k s
  | .ropeArrival k => Sys2Proof.Machine.execRopeArrival k s
  | .svcLog tile => Sys2Proof.Machine.execSvcLog tile s
  | .svcTlbinv tile => Sys2Proof.Machine.execSvcTlbinv tile s
  | .svcResume tile => Sys2Proof.Machine.execSvcResume tile s
  | .svcMigrate tile => Sys2Proof.Machine.execSvcMigrate tile s
  | .invalidationComplete k => Sys2Proof.Machine.execInvalidationComplete k s
  | .translationWalk tile ctx va => Sys2Proof.Machine.execTranslationWalk tile ctx va s
  | .quiescenceWave ctx => Sys2Proof.Machine.execQuiescenceWave ctx s
  | .wearIntervalEnd tile => Sys2Proof.Machine.execWearIntervalEnd tile s
  | .monitorSample tile bti rates => Sys2Proof.Machine.execMonitorSample tile bti rates s
  | .drainedTimeout tile => Sys2Proof.Machine.execDrainedTimeout tile s
  | .infieldTestStart cluster => Sys2Proof.Machine.execInfieldTestStart cluster s
  | .infieldTestResult cluster failed shared => Sys2Proof.Machine.execInfieldTestResult cluster failed shared s
  | .clusterRetire cluster spareFailed => Sys2Proof.Machine.execClusterRetire cluster spareFailed s
  | .lifetimeRecordWrite => Sys2Proof.Machine.execLifetimeRecordWrite s
  | .drainComplete k => Sys2Proof.Machine.execDrainComplete k s
  | .spillPlaceFreed tile => Sys2Proof.Machine.execSpillPlaceFreed tile s
  | .thermalThreshold cluster celsius => Sys2Proof.Machine.execThermalThreshold cluster celsius s
  | .powerCapWindow watts lowered => Sys2Proof.Machine.execPowerCapWindow watts lowered s
  | .clusterClockGate cluster => Sys2Proof.Machine.execClusterClockGate cluster s
  | .ctxCreate port session => Sys2Proof.Machine.execCtxCreate port session s
  | .ctxDestroy port session => Sys2Proof.Machine.execCtxDestroy port session s
  | .ctxSet port session => Sys2Proof.Machine.execCtxSet port session s
  | .sliceAssign port session => Sys2Proof.Machine.execSliceAssign port session s
  | .qcbSet port session => Sys2Proof.Machine.execQcbSet port session s
  | .hostTlbinv port session => Sys2Proof.Machine.execHostTlbinv port session s
  | .drainFor port session => Sys2Proof.Machine.execDrainFor port session s
  | .restore port session margin => Sys2Proof.Machine.execRestore port session margin s
  | .traceSet port session => Sys2Proof.Machine.execTraceSet port session s
  | .tableRegion port session => Sys2Proof.Machine.execTableRegion port session s
  | .counterRead port session => Sys2Proof.Machine.execCounterRead port session s
  | .podAttach port session => Sys2Proof.Machine.execPodAttach port session s
  | .attest port session => Sys2Proof.Machine.execAttest port session s
  | .hostRead port session addr len => Sys2Proof.Machine.execHostRead port session addr len s
  | .hostWrite port session addr bytes => Sys2Proof.Machine.execHostWrite port session addr bytes s
  | .peerAccess port addr req => Sys2Proof.Machine.execPeerAccess port addr req s
  | .getVersion side => Sys2Proof.Machine.execGetVersion side s
  | .getCapabilities side => Sys2Proof.Machine.execGetCapabilities side s
  | .negotiateAlgorithms offer => Sys2Proof.Machine.execNegotiateAlgorithms offer s
  | .getDigests side => Sys2Proof.Machine.execGetDigests side s
  | .getCertificate side => Sys2Proof.Machine.execGetCertificate side s
  | .challenge side nonce => Sys2Proof.Machine.execChallenge side nonce s
  | .getMeasurements side nonce => Sys2Proof.Machine.execGetMeasurements side nonce s
  | .keyExchange side => Sys2Proof.Machine.execKeyExchange side s
  | .finish side session good => Sys2Proof.Machine.execFinish side session good s
  | .keyUpdate side session good => Sys2Proof.Machine.execKeyUpdate side session good s
  | .endSession side session => Sys2Proof.Machine.execEndSession side session s
  | .lockPort port session => Sys2Proof.Machine.execLockPort port session s
  | .startPort port session => Sys2Proof.Machine.execStartPort port session s
  | .stopPort port => Sys2Proof.Machine.execStopPort port s
  | .portConfigChange port change => Sys2Proof.Machine.execPortConfigChange port change s
  | .linkReplay port what failed => Sys2Proof.Machine.execLinkReplay port what failed s
  | .linkReset port => Sys2Proof.Machine.execLinkReset port s
  | .supplyGood => Sys2Proof.Machine.execSupplyGood s
  | .managementReset => Sys2Proof.Machine.execManagementReset s
  | .microcodeLoad version digest weights good => Sys2Proof.Machine.execMicrocodeLoad version digest weights good s
  | .debugToken good => Sys2Proof.Machine.execDebugToken good s
  | .freeze => Sys2Proof.Machine.execFreeze s
  | .frzNAssert cycles => Sys2Proof.Machine.execFrzNAssert cycles s
  | .powerCapSet watts => Sys2Proof.Machine.execPowerCapSet watts s
  | .powerFailure => Sys2Proof.Machine.execPowerFailure s
  | .strayDecrementAnswer k => Sys2Proof.Machine.execStrayDecrementAnswer k s

end Sys2Proof.Machine
end

