-- ==== Sys2Proof/Machine/Turns.lean ====
section
/-! DEFINITION. What a step does around an instruction or event: cycles pass, clocks and supply decide what may move, and the
events that the default choice considers (03 R59, R73; 05 R116; 14 R303; 17 R354, R359; 20 R409, R410). -/

namespace Sys2Proof.Machine

/-! ## Cycles pass -/

/-- A wait holds the pitch: exhausted with an instruction pending (03 R67), or an immediate-class access (17 R354). -/
def Run.waits (r : Run) : Bool :=
  match r.phase, r.pitch with
  | .fire, some p => decide (p.slots.length ≤ p.idle.length) && p.slots.any fun sl => sl.status == .pending
  | .imm (.done _), _ => false
  | .imm _, _ => true
  | _, _ => false

/-- A service of the pitch is under way. -/
def Run.serving (r : Run) : Bool :=
  match r.phase with
  | .services _ => true
  | .fetch | .fire | .imm _ | .stalled _ _ _ | .committing | .twinWait => false

/-- CYCLEFT counts down; at 0 the watchdog is due (14 R303), and an expiry during a service is noted (06 R122). -/
def Run.tick (r : Run) (cycle dt : Nat) : Run :=
  let now := r.cycleft != 0 && decide (r.cycleft ≤ dt)
  { r with
    cycleft := r.cycleft - dt, dogCycle := if now then cycle + r.cycleft else r.dogCycle
    watchdogDue := r.watchdogDue || now, dogInService := r.dogInService || (now && r.serving) }

/-- dt busy cycles of a context in a wear interval (17 R359). -/
def addBusy (n : Nat) (ctx : BitVec 32) (dt : Nat) : List (Nat × BitVec 32 × Nat) → List (Nat × BitVec 32 × Nat)
  | [] => [(n, ctx, dt)]
  | (m, c, k) :: rest => if m = n ∧ c = ctx then (m, c, k + dt) :: rest else (m, c, k) :: addBusy n ctx dt rest

/-- dt busy cycles from a tile's own time on, cut at the ends of wear intervals (17 R358); fuel bounds the parts. -/
def busyFrom (ctx : BitVec 32) : Nat → Nat → Nat → List (Nat × BitVec 32 × Nat) → List (Nat × BitVec 32 × Nat)
  | 0, _, _, l => l
  | fuel + 1, now, dt, l =>
    let k := min dt (interval - now % interval)
    if dt = 0 then l else busyFrom ctx fuel (now + k) (dt - k) (addBusy (now / interval) ctx k l)

/-- A tile whose clock runs, dt cycles on from its own time and that of the package (17 R354, R359). -/
def Tile.tick (v : Tile) (cycle now dt : Nat) : Tile :=
  match v.run with
  | none => v
  | some r =>
    { v with
      run := some (r.tick cycle dt), cycbusy := v.cycbusy + BitVec.ofNat 64 dt
      waitcyc := v.waitcyc + BitVec.ofNat 64 (if r.waits then dt else 0), busy := busyFrom r.ctx (dt / interval + 2) now dt v.busy }

/-- Whether flits that a tile has injected may be under way: it holds a task or placed entries, or a copy or publication of its tasks is
not over. -/
def State.injects (s : State) (t : Nat) (v : Tile) : Bool :=
  v.run.isSome || !v.queue.isEmpty || s.fab.copies.any (fun c => c.tile == t) || s.fab.pubs.any fun p => p.tile == t

/-- The deflections that a tile's flits suffer in dt cycles are counted; how many they are is open (01 R17; 17 R354).
[DESIGN CHOICE, log 110] -/
def State.deflected (s : State) (t dt : Nat) (v : Tile) : Tile :=
  if s.injects t v then { v with deflect := v.deflect + Config.deflections s.free t s.cycle dt } else v

/-- A cluster's clock runs (01 R22; 20 R410). -/
def Cluster.clocked (c : Cluster) : Bool := c.heat != .stopped && !c.gated

/-- A tile of a powered package whose cluster's clock runs. -/
def State.clocked (s : State) (t : Nat) : Bool := s.pkg.power == .on && (s.cluster (tileCluster t)).clocked

/-- Tiles that hold a task, running or placed: their clusters are not idle. -/
def Tile.occupied (v : Tile) : Bool := v.run.isSome || !v.queue.isEmpty

def State.notIdle (s : State) : List (Nat × Tile) → State
  | [] => s
  | x :: rest =>
    State.notIdle (if x.2.occupied then s.modCluster (tileCluster x.1) fun c => { c with idleSince := s.cycle } else s) rest

/-- dt cycles pass, and with them the wear intervals that are over (17 R358); a package without supply or clock has none.
[DESIGN CHOICE, log 2] -/
def State.tick (s : State) (dt : Nat) : State :=
  if s.pkg.power = .on then
    let s1 : State := { s with
      cycle := s.cycle + dt
      tiles := s.tiles.map fun x =>
        (x.1, s.deflected x.1 dt (if s.clocked x.1 then x.2.tick s.cycle (s.tileTime x.1) dt else x.2))
      pkg := { s.pkg with clusters := s.pkg.clusters.map fun c => (c.1, if c.2.clocked then c.2 else { c.2 with
        unclocked := c.2.unclocked + dt, stopped := c.2.stopped + if c.2.heat = .stopped then dt else 0 }) } }
    (s1.notIdle s1.tiles).wearSince s
  else s

/-! ## What may move -/

/-- Events that need neither supply nor clock of the dies (20 R403, R409). -/
def powerEvent : Instr → Bool
  | .supplyGood => true
  | .managementReset => true
  | .powerFailure => true
  | _ => false

/-- The tile whose clock an event needs. -/
def eventTile : Instr → Option Nat
  | .pitchFetch t => some t
  | .pitchExhaustion t => some t
  | .immediateAccessComplete t => some t
  | .retryListBusyResend t => some t
  | .memoryResponse t _ => some t
  | .watchdogExpiry t => some t
  | .waitWithdrawal t => some t
  | .commitChecks t => some t
  | .handover t => some t
  | .taskStart t => some t
  | .matrixOpStart t => some t
  | .matrixOpComplete t _ => some t
  | .armedMmaRow t _ => some t
  | .streamPacketArrive t _ _ => some t
  | .streamAcknowledge t _ => some t
  | .streamResendRequest t _ => some t
  | .svcLog t => some t
  | .svcTlbinv t => some t
  | .svcResume t => some t
  | .svcMigrate t => some t
  | .spillPlaceFreed t => some t
  | _ => none

/-- Events that the harts serve, or that arrive for them: they wait while the microcode is changed (20 R407). -/
def microEvent : Instr → Bool
  | .decrementApply _ => true
  | .messageAccept _ => true
  | .ringPoll _ _ => true
  | .launchNotify _ _ => true
  | .quiescenceWave _ => true
  | .drainFor _ _ => true
  | .drainComplete _ => true
  | _ => false

/-- Whether an event may take place now; an instruction of a pitch is none. -/
def State.admits (s : State) (i : Instr) : Bool :=
  (encode i).isNone && (powerEvent i || s.pkg.power == .on) && (!microEvent i || s.pkg.change.isNone) &&
    match eventTile i with
    | some t => s.clocked t
    | none => true

/-- The focus and the cursor are set to a slot. -/
def State.aim (s : State) (t k : Nat) : State :=
  { s.modRun t fun r => { r with pitch := r.pitch.map fun p => { p with cursor := k } } with focus := t }

/-- A pitch fires on a tile, and a slot of it is still to be examined. -/
def State.goes (s : State) (t : Nat) : Bool :=
  s.clocked t &&
    match s.run? t with
    | none => false
    | some r =>
      match r.phase, r.pitch with
      | .fire, some p => decide (p.idle.length < p.slots.length)
      | _, _ => false

/-- Tiles with a task. -/
def State.firing (s : State) : List Nat := s.running.map fun x => x.1

/-- A word in the window that is no instruction: validation lets none pass (03 R74); its slot would fault as it names. -/
def Env.badWord (e : Env) (x : DecodeError) : State :=
  let code := match x with
    | .illegalOpcode => fcIllegalOpcode
    | .illegalEncoding => fcIllegalEncoding
  e.store { ((e.p.setStatus e.k .fired).moved e.k) with faults := e.p.faults ++ [(e.k, { code := code })] } false

/-! ## Slots of a window (03 R59) -/

/-- The word in the focused slot is decoded and executed. -/
def State.runHere (s : State) : Host.Outcome State Fault Refusal :=
  match s.env? with
  | none => .next s
  | some e =>
    match decode (e.p.words[e.k]?.getD 0) with
    | .ok i => exec i s
    | .error x => .next (e.badWord x)

/-- A slot of a tile's window is examined. -/
def State.runSlot (s : State) (t k : Nat) : Host.Outcome State Fault Refusal :=
  if s.clocked t then (s.aim t k).runHere else .next s

/-- A slot that awaits its result is examined again; as long as the result is not there, nothing happens (03 R67). -/
def State.reexamine (s : State) (t k : Nat) : Host.Outcome State Fault Refusal :=
  if s.awaits t k then
    match (s.aim t k).runHere with
    | .next u => .next (if u.awaits t k then s else { u with focus := s.focus })
    | .fault f => .fault f
    | .refused f => .refused f
  else .next s

/-! ## Events the default choice considers, in order -/

/-- An event with its operands given: the tile whose clock it needs, and its meaning. -/
structure Deed where
  tile : Option Nat
  run : State → Host.Outcome State Fault Refusal
  /-- one that waits while the microcode is changed (20 R407) -/
  micro : Bool := false

/-- An event of a tile. -/
def deedOf (t : Nat) (f : State → Host.Outcome State Fault Refusal) : Deed := { tile := some t, run := f }

/-- An event of the package. -/
def deed (f : State → Host.Outcome State Fault Refusal) : Deed := { tile := none, run := f }

def Deed.served (e : Deed) : Deed := { e with micro := true }

/-- One event for each place of a list. -/
def eachOf {α : Type} (l : List α) (f : Nat → State → Host.Outcome State Fault Refusal) : List Deed :=
  (List.range l.length).map fun k => deed (f k)

/-- Events of a tile with a task. -/
def tileDeeds (t : Nat) (r : Run) (v : Tile) : List Deed :=
  (match r.pitch with
    | some p => (List.range p.slots.length).map fun k => deedOf t fun s => s.reexamine t k
    | none => []) ++
  [deedOf t (execWatchdogExpiry t), deedOf t (execWaitWithdrawal t), deedOf t (execPitchFetch t), deedOf t (execPitchExhaustion t),
   deedOf t (execSvcLog t), deedOf t (execSvcTlbinv t), deedOf t (execSvcResume t), deedOf t (execSvcMigrate t),
   deed (execSyncAccessArrive t), deedOf t (execImmediateAccessComplete t), deedOf t (execRetryListBusyResend t),
   deedOf t (execCommitChecks t), deedOf t (execHandover t), deedOf t (execMatrixOpStart t)] ++
  ((List.range v.jobs.length).flatMap fun k => [deedOf t (execMatrixOpComplete t k), deedOf t (execArmedMmaRow t k)]) ++
  [0, 1, 2, 3].flatMap fun p =>
    [deedOf t (execStreamPacketArrive t p true), deedOf t (execStreamAcknowledge t p), deedOf t (execStreamResendRequest t p)]

/-- Events of a copy. -/
def copyDeeds (c : Copy) : List Deed :=
  (eachOf c.fly (execCopyElementComplete c.id)) ++
    [deed (execCopyElementTranslate c.id), deed (execCopyStampWrite c.id), deed (execCopyComplete c.id)]

/-- Events of a publication. -/
def pubDeeds (p : Pub) : List Deed :=
  ((List.range (p.reds.length + p.sectorsLeft.length)).map fun k => deed (execReductionApply p.id k)) ++
    ((List.range (p.rels.length + 1)).map fun k => deed (execPublicationStep2 p.id k)) ++ [deed (execPublicationStep3 p.id), deed (execTaskRetired p.id)]

/-- Events of a context. -/
def ctxDeeds (c : Ctx) : List Deed :=
  (deed (execFaultRecordHeldWrite c.id) :: c.launch.map fun q => (deed (execRingPoll c.id q.1)).served) ++
    c.mboxes.map fun m => deed (execHandlerDelivery c.id m.1)

/-- Events of a tile's placed queue. -/
def queueDeeds (t : Nat) (v : Tile) : List Deed :=
  (v.queue.map fun p => deed (execTaskRunnable t p.inst p.idx)) ++ [deedOf t (execTaskStart t)]

/-- The events the default choice considers. -/
def State.deeds (s : State) : List Deed :=
  (s.running.flatMap fun x => tileDeeds x.1 x.2 (s.tile x.1)) ++ s.fab.copies.flatMap copyDeeds ++ s.fab.pubs.flatMap pubDeeds ++
  eachOf s.fab.arriving execOrderedContributionArrive ++ eachOf s.fab.arriving execOrderedBusyResend ++
  (eachOf s.fab.decs execDecrementApply ++ (List.range (s.fab.msgs.length + s.fab.binds.length)).map fun k => deed (execMessageAccept k)).map Deed.served ++ eachOf s.fab.ropeArr execRopeArrival ++
  eachOf s.fab.creations execInstanceCreate ++ eachOf s.pkg.invs execInvalidationComplete ++ (eachOf s.pkg.drains execDrainComplete).map Deed.served ++
  s.ctxs.flatMap ctxDeeds ++
  (s.insts.flatMap fun i => (List.range i.recs.length).map fun k => deed (execTwinDigestCompare i.id k)) ++
  (s.tiles.flatMap fun x => queueDeeds x.1 x.2) ++
  ([0, 1, 2, 3].map fun d => deed (execPlacement d false)) ++ ([0, 1, 2, 3].map fun d => deed (execCrossDiePlacement d)) ++
  eachOf s.fab.msgs execMailboxOverflow

/-- An event takes place where its tile's clock runs. -/
def Deed.occur (e : Deed) (s : State) : Host.Outcome State Fault Refusal :=
  match e.tile with
  | some t => if s.clocked t then e.run s else .next s
  | none => if e.micro && s.pkg.change.isSome then .next s else e.run s

/-- Whether an event would change something now. -/
def Deed.effective (e : Deed) (s : State) : Bool :=
  match e.occur s with
  | .next t => t != s
  | .fault _ => true
  | .refused _ => true

/-! ## What takes place -/

/-- An event of the table takes place, where the package has supply and clock for it. -/
def State.occur (s : State) (i : Instr) : Host.Outcome State Fault Refusal :=
  if s.admits i then exec i s else .next s

/-- The events in the order the default choice tries them: from a place that moves with the cycles, so that none is passed over
for ever. -/
def State.tried (s : State) : List Deed :=
  let l := s.deeds
  l.rotateLeft (s.cycle * 7919 % l.length)

/-- What happens by default: the focused tile goes on with its pitch, else another tile's, else the first event tried that has
an effect. -/
def State.byDefault (s : State) : Host.Outcome State Fault Refusal :=
  if s.goes s.focus then s.runHere
  else
    match s.firing.find? s.goes with
    | some t => ({ s with focus := t } : State).runHere
    | none =>
      if s.pkg.power = .on then
        match s.tried.find? fun e => e.effective s with
        | some e => e.occur s
        | none => .next s
      else .next s

/-- A change of the microcode is over when its time is; what has waited for the larder is brought back (20 R407). -/
def State.endChange (s : State) : State :=
  let u : State := { s with pkg := { s.pkg with change := s.pkg.change.filter fun c => decide (s.cycle < c) } }
  if s.pkg.change.isSome && u.pkg.change.isNone then u.reloadStuck (u.insts.map fun i => i.recs.length).sum else u

/-- What a move brings with it at once: a change of the microcode ends (20 R407), DRAINED tiles retire when their time is over, and the lifetime record is written when that
is due (17 R363, R369), tasks whose publication is over are RETIRED (14 R293), the dispatchers note what has
changed for their candidates (14 R296, R306, R308), tiles a drain excluded are released (14 R309), and the words that MWAITs wait for are examined (11 R244). -/
def State.settled (s : State) : State :=
  let s := (s.endChange.drainsOver s.tiles).lifeDue
  let s := (s.retireOver s.fab.pubs).noteDies [0, 1, 2, 3]
  let s := (s.endClaims s.tiles).releaseDrains.examine
  s.tellMismatches (s.ctxs.filter fun c => !c.mism.isEmpty)

/-- A move and what it brings with it. -/
def settle (x : Host.Outcome State Fault Refusal) : Host.Outcome State Fault Refusal :=
  match x with
  | .next s => .next s.settled
  | .fault f => .fault f
  | .refused f => .refused f

/-! ## A pitch of one instruction, its operands delivered -/

/-- A token of the first kind that a position admits. -/
def tokenFor (k : Option Kinds) : Option Token :=
  match k with
  | none => none
  | some k =>
    some { val := if k.s then .scalar (BitVec.ofNat 64 Config.localBase) else if k.v then .vector 0 else if k.p then .pred true else .null }

/-- The operands of an instruction, its predicate matching. -/
def slotFor (g : Sig) : Slot :=
  { left := tokenFor g.left, right := tokenFor g.right
    pred := match g.pr with
      | .always => tokenFor g.third
      | .onTrue => some { val := .pred true }
      | .onFalse => some { val := .pred false } }

/-- A pitch of one word, its operands delivered. -/
def pitchFor (w : BitVec 32) : Pitch :=
  { addr := 0, hdr := BitVec.ofNat 128 (0xC9 * 2 ^ 120), words := [w]
    slots := [match decode w with
      | .ok i => slotFor (sigOf i)
      | .error _ => {}] }

/-- A task of context 0 on tile 0 whose window holds the pitch. -/
def runFor (m : Memory) (w : BitVec 32) : Run :=
  { ctx := 0, inst := 0, idx := 0, templ := 0, tag := 0, phase := .fire, g := List.replicate 64 {}, vr := List.replicate 32 {}
    cycleft := 2 ^ 24, next := 0, pitch := some (pitchFor w), fetchMem := m }

end Sys2Proof.Machine
end

