-- ==== Sys2Proof/Machine/Step.lean ====
section
/-! DEFINITION. One step of the machine, and the placing of an instruction where the next step runs it. -/

namespace Sys2Proof.Machine

/-! ## The step -/

/-- One move of the package. -/
def State.move (s : State) : Move → Host.Outcome State Fault Refusal
  | .event i => s.occur i
  | .slot t k => s.runSlot t k
  | .auto => s.byDefault

/-- One step: the next turn of the agenda, or one cycle and the default; its cycles pass, its move is made, and what
the move brings with it. [DESIGN CHOICE, log 1] -/
def step (s : State) : Host.Outcome State Fault Refusal :=
  match s.agenda with
  | [] => settle ((s.tick 1).move .auto)
  | x :: rest => settle ((({ s with agenda := rest } : State).tick x.dt).move x.move)

/-! ## Placing an instruction (the model's stand-in for a launch) -/

/-- The word stands in the window of tile 0, and the next step runs it: no turn stands before it, tile 0 has the focus, and the
package and the tile's cluster have their clocks. [DESIGN CHOICE, log 6] -/
def State.withFetchWord (s : State) (_nbits w : Nat) : State :=
  { ((s.setRun 0 (runFor s.mem (BitVec.ofNat 32 w))).modCluster 0 fun c => { c with heat := .cool, gated := false }) with
    focus := 0, agenda := [], pkg := { (s.modCluster 0 fun c => { c with heat := .cool, gated := false }).pkg with power := .on } }

end Sys2Proof.Machine
end

