-- ==== Sys2Proof/Safety.lean ====
section
/-! DEFINITION. What a safe run of the machine is, in the terms the claims use. A machine exception is no stop: it is taken
in a next state (18 R371), so a safe run never ends. -/

namespace Sys2Proof

open Machine

/-- A step goes on. -/
def Goes (s : State) : Prop := ∃ t, step s = .next t

/-- A run of any length from a state goes on. -/
def SafeRun (s : State) : Prop := ∀ k, ∃ t, core.run k s = .next t

/-- Memory bytes and line metadata are in their one canonical form: keys strictly rising, nothing listed that an unlisted
location or line is anyway. -/
abbrev Canonical (s : State) : Prop := s.mem.wf = true ∧ kvWf {} s.lines = true

/-! ## An instruction of a pitch that fires -/

/-- The focused slot holds what the instruction needs to fire: it has not fired, every operand position holds a token, the
predicate matches, and no token is null (03 R59, R61). -/
def Fires (i : Instr) (s : State) (e : Env) : Prop :=
  s.env? = some e ∧ e.slot.status = .waiting ∧ (sigOf i).ready e.slot = true ∧ (sigOf i).matches e.slot = true ∧
    (sigOf i).hasNull e.slot = false

/-- What an instruction answers that sends one value to both targets and does nothing else: the value carries the poison of
every operand (02 R39; 03 R63). -/
def gives (e : Env) (v : TokVal) : Act := { out0 := some v, out1 := some v, pois := e.pois }

/-- The same with flags for FFLAGS (02 R37). -/
def givesF (e : Env) (v : TokVal) (fl : Flags) : Act := { gives e v with flags := fl }

/-- What an instruction answers that has no result and effects at belay only (03 R65). -/
def does (l : List Effect) : Act := { effects := l }

/-- The state after the focused instruction has fired: its slot has fired, its results stand in the named positions of the
pitch, its effects and flags wait for belay (03 R59, R65), and one more instruction has fired on the tile (17 R354). -/
def after (i : Instr) (e : Env) (a : Act) : State :=
  e.store (((e.p.setStatus e.k .fired).perform e.k (sigOf i) a).moved e.k) true

/-- The state after the focused instruction has raised a fault as it fired: the fault is noted at its slot, for R68 to report
at exhaustion, and no token is sent. -/
def raises (e : Env) (f : FaultInfo) : State :=
  e.store { (e.p.setStatus e.k .fired).moved e.k with faults := e.p.faults ++ [(e.k, f)] } true

/-- A property that every step keeps, from every state that has it. -/
def Kept (inv : State → Prop) : Prop := ∀ s t, inv s → step s = .next t → inv t

end Sys2Proof
end

