-- ==== Sys2Proof/Certificates/Slice0/Obligations.lean ====
section
/-! DEFINITION. The statements about the model, for the provers. The functions of namespace Sys2Proof.Spec say a rule in the
terms of the manual, beside the meaning that follows the rule in Machine/. -/

namespace Sys2Proof.Spec

open Machine

/-! ## Integers (02 R27; 06 R124-R128) -/

/-- The low 64 bits of an integer. -/
def wrap64 (i : Int) : BitVec 64 := BitVec.ofInt 64 i

/-- Bits [127:64] of an integer. -/
def high64 (i : Int) : BitVec 64 := BitVec.ofInt 64 (i / 2 ^ 64)

/-- The number of positions below n at which a holds a set bit. -/
def countBits (a : BitVec 64) (n : Nat) : Nat := ((List.range n).filter fun k => a.getLsbD k).length

/-- Two-operand integer instructions (06 R124), division apart. -/
def arith : Instr → Option (BitVec 64 → BitVec 64 → BitVec 64)
  | .add _ _ _ => some fun a b => wrap64 (a.toInt + b.toInt)
  | .sub _ _ _ => some fun a b => wrap64 (a.toInt - b.toInt)
  | .mul _ _ _ => some fun a b => wrap64 (a.toInt * b.toInt)
  | .mulh _ _ _ => some fun a b => high64 (a.toInt * b.toInt)
  | .mulhu _ _ _ => some fun a b => high64 (a.toNat * b.toNat : Nat)
  | .and_ _ _ _ => some fun a b => a &&& b
  | .or_ _ _ _ => some fun a b => a ||| b
  | .xor_ _ _ _ => some fun a b => a ^^^ b
  | .andn _ _ _ => some fun a b => a &&& ~~~b
  | .shl _ _ _ => some fun a b => wrap64 (a.toNat * 2 ^ (b.toNat % 64) : Nat)
  | .shr _ _ _ => some fun a b => BitVec.ofNat 64 (a.toNat / 2 ^ (b.toNat % 64))
  | .sar _ _ _ => some fun a b => wrap64 (a.toInt / 2 ^ (b.toNat % 64))
  | .ror _ _ _ => some fun a b => wrap64 (a.toNat / 2 ^ (b.toNat % 64) + a.toNat * 2 ^ (64 - b.toNat % 64) : Nat)
  | .min_ _ _ _ => some fun a b => if a.toInt ≤ b.toInt then a else b
  | .max_ _ _ _ => some fun a b => if a.toInt ≤ b.toInt then b else a
  | .minu _ _ _ => some fun a b => if a.toNat ≤ b.toNat then a else b
  | .maxu _ _ _ => some fun a b => if a.toNat ≤ b.toNat then b else a
  | .lea _ _ _ => some fun a b => wrap64 (a.toNat + 128 * b.toNat : Nat)
  | _ => none

/-- Division (06 R125): quotients and remainders truncated toward zero, and the results the rule states for a divisor of 0. -/
def division : Instr → Option (BitVec 64 → BitVec 64 → BitVec 64)
  | .div _ _ _ => some fun a b => if b = 0 then 0xFFFF_FFFF_FFFF_FFFF else wrap64 (a.toInt.tdiv b.toInt)
  | .divu _ _ _ => some fun a b => if b = 0 then 0xFFFF_FFFF_FFFF_FFFF else BitVec.ofNat 64 (a.toNat / b.toNat)
  | .rem_ _ _ _ => some fun a b => if b = 0 then a else wrap64 (a.toInt - b.toInt * a.toInt.tdiv b.toInt)
  | .remu _ _ _ => some fun a b => if b = 0 then a else BitVec.ofNat 64 (a.toNat - b.toNat * (a.toNat / b.toNat))
  | _ => none

/-- The number of low bits a type of SEXT or ZEXT keeps. -/
def keptBits : ElemType → Nat
  | .i32 | .n32 => 32
  | .i16 | .n16 => 16
  | .i8 | .n8 => 8
  | _ => 64

/-- The integer the low n bits hold in two's complement. -/
def lowSigned (n : Nat) (a : BitVec 64) : Int :=
  if a.toNat % 2 ^ n < 2 ^ (n - 1) then (a.toNat % 2 ^ n : Nat) else (a.toNat % 2 ^ n : Nat) - (2 ^ n : Nat)

/-- One-operand and bit-field instructions (06 R126), by the property that fixes their result r; a, b and c are the left, right
and third operands. -/
def unary : Instr → Option (BitVec 64 → BitVec 64 → BitVec 64 → BitVec 64 → Prop)
  | .abs_ _ _ _ => some fun a _ _ r => r = wrap64 a.toInt.natAbs
  | .clz _ _ _ => some fun a _ _ r => r.toNat ≤ 64 ∧ (∀ k, k < r.toNat → a.getLsbD (63 - k) = false) ∧
      (r.toNat < 64 → a.getLsbD (63 - r.toNat) = true)
  | .ctz _ _ _ => some fun a _ _ r => r.toNat ≤ 64 ∧ (∀ k, k < r.toNat → a.getLsbD k = false) ∧
      (r.toNat < 64 → a.getLsbD r.toNat = true)
  | .popc _ _ _ => some fun a _ _ r => r.toNat = countBits a 64
  | .sext _ x _ _ => some fun a _ _ r => r = wrap64 (lowSigned (keptBits x) a)
  | .zext _ x _ _ => some fun a _ _ r => r.toNat = a.toNat % 2 ^ keptBits x
  | .bfx _ _ _ => some fun a c _ r =>
      r.toNat = a.toNat / 2 ^ (c.toNat % 64) % 2 ^ min (c.toNat / 256 % 128) 64
  | .bfi _ _ => some fun a b c r => ∀ k, k < 64 →
      r.getLsbD k =
        if c.toNat % 64 ≤ k ∧ k < c.toNat % 64 + min (c.toNat / 256 % 128) 64 then b.getLsbD (k - c.toNat % 64)
        else a.getLsbD k
  | _ => none

/-- Immediate instructions (06 R127). -/
def immediate : Instr → Option (BitVec 64 → BitVec 64)
  | .addi _ i _ => some fun a => wrap64 (a.toInt + i.toInt)
  | .andi _ i _ => some fun a => a &&& wrap64 i.toInt
  | .ori _ i _ => some fun a => a ||| wrap64 i.toInt
  | .xori _ i _ => some fun a => a ^^^ wrap64 i.toInt
  | .shli _ i _ => some fun a => wrap64 (a.toNat * 2 ^ i.toNat : Nat)
  | .shri _ i _ => some fun a => BitVec.ofNat 64 (a.toNat / 2 ^ i.toNat)
  | .sari _ i _ => some fun a => wrap64 (a.toInt / 2 ^ i.toNat)
  | _ => none

/-- Compares (06 R128): the relation of the left operand with the right operand or the sign-extended immediate. -/
def compare : Instr → Option (BitVec 64 → BitVec 64 → Prop)
  | .teq _ _ _ => some fun a b => a = b
  | .tne _ _ _ => some fun a b => a ≠ b
  | .tlt _ _ _ => some fun a b => a.toInt < b.toInt
  | .tle _ _ _ => some fun a b => a.toInt ≤ b.toInt
  | .tltu _ _ _ => some fun a b => a.toNat < b.toNat
  | .tleu _ _ _ => some fun a b => a.toNat ≤ b.toNat
  | .teqi _ i _ => some fun a _ => a.toInt = i.toInt
  | .tnei _ i _ => some fun a _ => a.toInt ≠ i.toInt
  | .tlti _ i _ => some fun a _ => a.toInt < i.toInt
  | .tlei _ i _ => some fun a _ => a.toInt ≤ i.toInt
  | _ => none

/-! ## Structure (06 R119) -/

/-- What a structure instruction without operand fields sends. -/
def structure_ (e : Env) : Instr → Option Act
  | .readg r _ _ => some { out0 := some (.scalar (e.r.g[r.toNat]?.getD {}).v)
                           out1 := some (.scalar (e.r.g[r.toNat]?.getD {}).v), pois := (e.r.g[r.toNat]?.getD {}).pois }
  | .readv r _ _ => some { out0 := some (.vector (e.r.vr[r.toNat]?.getD {}).v)
                           out1 := some (.vector (e.r.vr[r.toNat]?.getD {}).v), pois := (e.r.vr[r.toNat]?.getD {}).pois }
  | .writeg r => some (does [.writeG r { v := e.a, pois := e.pois }])
  | .writev r => some (does [.writeV r { v := e.va, pois := e.pois }])
  | .mov _ _ _ => some (gives e e.left.val)
  | .null _ _ _ => some (gives e .null)
  | .const_ _ i _ => some (gives e (.scalar (wrap64 i.toInt)))
  | .consth _ i _ => some (gives e (.scalar (wrap64 (e.a.toNat * 8192 + i.toNat : Nat))))
  | .pcrel _ i _ => some (gives e (.scalar (wrap64 (e.p.addr.toInt + 16 * i.toInt))))
  | .sel _ _ _ => some { gives e e.right.val with
                         out0 := some (if e.left.val = .pred true then e.right.val else .null)
                         out1 := some (if e.left.val = .pred true then .null else e.right.val) }
  | .gate _ _ _ => some (gives e e.left.val)
  | .nop _ => some {}
  | _ => none

/-! ## Exits, traps (03 R66, R79, R80; 06 R120, R121) -/

/-- Where a fired exit leads, and its exit id. -/
def exitOf (e : Env) : Instr → Option (BitVec 3 × ExitTo)
  | .br _ x o => some (x, .goto (wrap64 (e.p.addr.toInt + 16 * o.toInt)))
  | .bri _ x => some (x, .goto e.a)
  | .call_ _ x o => some (x, .call (wrap64 (e.p.addr.toInt + 16 * o.toInt)))
  | .calli _ x => some (x, .call e.a)
  | .done_ _ x => some (x, .commit)
  | .abort _ x => some (x, .abort)
  | _ => none

/-! ## F32 (06 R129, R130) -/

/-- The F32 value of a scalar operand: bits [31:0]. -/
def f32 (a : BitVec 64) : Val := fmtF32.value (a.toNat % 2 ^ 32)

/-- The exact result of a scalar F32 instruction and the flag its operands raise, before rounding. -/
def floatOp (m : Rnd) : Instr → Option (Val → Val → Val → Res)
  | .fadd _ _ _ => some fun a b _ => Val.add m a b
  | .fsub _ _ _ => some fun a b _ => Val.add m a b.neg
  | .fmul _ _ _ => some fun a b _ => Val.mul a b
  | .ffma _ _ => some fun a b c => Val.fma m a b c
  | .fdiv _ _ _ => some fun a b _ => Val.div a b
  | .fsqrt _ _ _ => some fun a _ _ => Val.sqrt a
  | .fabs _ _ _ => some fun a _ _ => (a.abs, 0)
  | .fneg _ _ _ => some fun a _ _ => (a.neg, 0)
  | .frnd _ _ _ => some fun a _ _ => Val.integral m a
  | _ => none

/-- The bit FCLASS sets (06 R130). -/
def classBit : Val → Nat
  | .nan => 8
  | .inf neg => if neg then 0 else 7
  | .fin neg m _ =>
    if m = 0 then (if neg then 3 else 4)
    else if m < 2 ^ 23 then (if neg then 2 else 5)
    else (if neg then 1 else 6)

/-- Not both NaN, and in the order of R130 (−0 below +0) a is not above b. -/
def notAbove (a b : Val) : Bool := !(b.below a)

end Sys2Proof.Spec

/-! ## Lanes (07 R135-R146) -/

namespace Sys2Proof.Spec

open Machine

/-- Lane k of w bits of a vector. -/
def lane (w : Nat) (v : BitVec 2048) (k : Nat) : Nat := v.toNat / 2 ^ (w * k) % 2 ^ w

/-- An integer wrapped to w bits. -/
def wrapTo (w : Nat) (i : Int) : Nat := (i % (2 ^ w : Nat)).toNat

/-- A lane operation by type: a rounding of an exact result in a floating-point type, an integer wrapped otherwise. -/
def byType (x : ElemType) (m : Rnd) (exact : (Nat → Val) → Res) (int : (Nat → Int) → Int) : Nat × Flags :=
  match fmtOf x with
  | some f => f.finish m (exact f.value)
  | none => (wrapTo (tyWidth x) (int (tyInt x)), 0)

/-- All ones or zero, as a comparison writes a lane. -/
def mask (x : ElemType) (b : Bool) : Nat := if b then 2 ^ tyWidth x - 1 else 0

/-- Lane functions of one vector (07 R138, R140): the type of the lanes, and the result lane with its flags. -/
def lanes1 (m : Rnd) : Instr → Option (ElemType × (Nat → Nat × Flags))
  | .vabs _ x _ _ => some (x, fun a => byType x m (fun v => ((v a).abs, 0)) fun n => (n a).natAbs)
  | .vneg _ x _ _ => some (x, fun a => byType x m (fun v => ((v a).neg, 0)) fun n => -(n a))
  | .vsqrt _ _ _ => some (.f32, fun a => fmtF32.finish m (fmtF32.value a).sqrt)
  | .vexp2 _ _ _ => some (.f32, fun a => fmtF32.finish m (fmtF32.value a).exp2)
  | .vlog2 _ _ _ => some (.f32, fun a => fmtF32.finish m (fmtF32.value a).log2)
  | .vrcp _ _ _ => some (.f32, fun a => fmtF32.finish m (fmtF32.value a).rcp)
  | .vrsq _ _ _ => some (.f32, fun a => fmtF32.finish m (fmtF32.value a).rsq)
  | .vtanh _ _ _ => some (.f32, fun a => fmtF32.finish m (fmtF32.value a).tanh)
  | .vrnd _ x _ _ => some (x, fun a => byType x m (fun v => Val.integral m (v a)) fun n => n a)
  | .vpopc _ x _ _ => some (x, fun a => (popNat (tyWidth x) a, 0))
  | .vclz _ x _ _ => some (x, fun a => (clzNat (tyWidth x) a, 0))
  | _ => none

/-- Lane functions of two vectors (07 R138, R139, R140). -/
def lanes2 (m : Rnd) : Instr → Option (ElemType × (Nat → Nat → Nat × Flags))
  | .vadd _ x _ _ => some (x, fun a b => byType x m (fun v => Val.add m (v a) (v b)) fun n => n a + n b)
  | .vsub _ x _ _ => some (x, fun a b => byType x m (fun v => Val.add m (v a) (v b).neg) fun n => n a - n b)
  | .vmul _ x _ _ => some (x, fun a b => byType x m (fun v => Val.mul (v a) (v b)) fun n => n a * n b)
  | .vdiv _ x _ _ => some (x, fun a b => byType x m (fun v => Val.div (v a) (v b)) fun _ => 0)
  | .vmin _ x _ _ => some (x, fun a b => (laneMinMax false x a b, 0))
  | .vmax _ x _ _ => some (x, fun a b => (laneMinMax true x a b, 0))
  | .vadds _ x _ _ => some (x, fun a b => (wrapTo (tyWidth x) (saturate x (tyInt x a + tyInt x b)), 0))
  | .vsubs _ x _ _ => some (x, fun a b => (wrapTo (tyWidth x) (saturate x (tyInt x a - tyInt x b)), 0))
  | .vmulh _ x _ _ => some (x, fun a b => (wrapTo (tyWidth x) (tyInt x a * tyInt x b / (2 ^ tyWidth x : Nat)), 0))
  | .vand _ x _ _ => some (x, fun a b => (a &&& b, 0))
  | .vor _ x _ _ => some (x, fun a b => (a ||| b, 0))
  | .vxor _ x _ _ => some (x, fun a b => (a ^^^ b, 0))
  | .vshl _ x _ _ => some (x, fun a b => (a * 2 ^ (b % tyWidth x), 0))
  | .vshr _ x _ _ => some (x, fun a b => (a / 2 ^ (b % tyWidth x), 0))
  | .vsar _ x _ _ => some (x, fun a b =>
      (wrapTo (tyWidth x) ((if 2 ^ (tyWidth x - 1) ≤ a then (a : Int) - (2 ^ tyWidth x : Nat) else a) / 2 ^ (b % tyWidth x)), 0))
  | .vceq _ x _ _ => some (x, fun a b => (mask x ((tyValue x a).eq (tyValue x b)), 0))
  | .vclt _ x _ _ => some (x, fun a b =>
      if (tyValue x a).isNan || (tyValue x b).isNan then (0, flagNV) else (mask x ((tyValue x a).lt (tyValue x b)), 0))
  | .vcle _ x _ _ => some (x, fun a b =>
      if (tyValue x a).isNan || (tyValue x b).isNan then (0, flagNV)
      else (mask x ((tyValue x a).lt (tyValue x b) || (tyValue x a).eq (tyValue x b)), 0))
  | .vldexp _ x _ _ => some (x, fun a b => laneLdexp x m a b)
  | _ => none

/-- Lane functions of three vectors (07 R138, R139, R140). -/
def lanes3 (m : Rnd) : Instr → Option (ElemType × (Nat → Nat → Nat → Nat × Flags))
  | .vfma x _ _ => some (x, fun a b c => byType x m (fun v => Val.fma m (v a) (v b) (v c)) fun _ => 0)
  | .vfms x _ _ => some (x, fun a b c => byType x m (fun v => Val.fma m (v a) (v b) (v c).neg) fun _ => 0)
  | .vsel x _ _ => some (x, fun a b c => (if c = 0 then b else a, 0))
  | .vclamp x _ _ => some (x, fun a b c => (laneClamp x a b c, 0))
  | _ => none

/-- The OR of the flags of n lanes. -/
def orOf (n : Nat) (fl : Nat → Flags) : Flags := ((List.range n).map fl).foldl (· ||| ·) 0

/-- Lane k of the results of the permutes and of VBCAST, VIOTA (07 R143, R150), for T0 and for T1. -/
def moved (e : Env) : Instr → Option (ElemType × (Nat → Nat) × (Nat → Nat))
  | .vbcast _ x _ _ => both x fun _ => e.a.toNat % 2 ^ tyWidth x
  | .viota _ x _ _ => both x fun k => (e.a.toNat + k) % 2 ^ tyWidth x
  | .vins _ x _ _ => both x fun k => if k = 0 then e.b.toNat % 2 ^ tyWidth x else lane (tyWidth x) e.va (k - 1)
  | .vshuf _ x _ _ => both x fun k => lane (tyWidth x) e.va (lane (tyWidth x) e.vb k % tyLanes x)
  | .vrot _ x _ _ => both x fun k => lane (tyWidth x) e.va ((k + e.b.toNat) % tyLanes x)
  | .vzip _ x _ _ => some (x,
      fun k => if k % 2 = 0 then lane (tyWidth x) e.va (k / 2) else lane (tyWidth x) e.vb (k / 2),
      fun k => if k % 2 = 0 then lane (tyWidth x) e.va (tyLanes x / 2 + k / 2)
        else lane (tyWidth x) e.vb (tyLanes x / 2 + k / 2))
  | .vunzip _ x _ _ => some (x,
      fun k => if 2 * k < tyLanes x then lane (tyWidth x) e.va (2 * k) else lane (tyWidth x) e.vb (2 * k - tyLanes x),
      fun k => if 2 * k + 1 < tyLanes x then lane (tyWidth x) e.va (2 * k + 1)
        else lane (tyWidth x) e.vb (2 * k + 1 - tyLanes x))
  | _ => none
where
  both (x : ElemType) (f : Nat → Nat) : Option (ElemType × (Nat → Nat) × (Nat → Nat)) := some (x, f, f)

/-- The element types a conversion or packing has for its source lanes and result lanes, and the conversion of a lane. -/
def converts (e : Env) : Instr → Option (ElemType × ElemType × (Nat → Nat × Flags))
  | .vcvtf _ d src _ => some (d, src, convert d src e.rnd e.rnd)
  | .vcvtt _ d src _ => some (d, src, convert d src e.rnd .rz)
  | _ => none

/-- The scalar a reduction gives, with flags (07 R144-R146). -/
def reduction (e : Env) : Instr → Option (BitVec 64 × Flags)
  | .vext _ x _ _ => some (tyPlace x (lane (tyWidth x) e.va (e.b.toNat % tyLanes x)), 0)
  | .vredsum _ x _ _ => some (redSum x e.rnd e.va)
  | .vredmax _ x _ _ => some (redMinMax true x e.va, 0)
  | .vredmin _ x _ _ => some (redMinMax false x e.va, 0)
  | .vredand _ x _ _ => some (tyPlace x ((lanesOf x e.va).foldl (· &&& ·) (2 ^ tyWidth x - 1)), 0)
  | .vredor _ x _ _ => some (tyPlace x ((lanesOf x e.va).foldl (· ||| ·) 0), 0)
  | .vargmax _ x _ _ => some (argMax x e.va, 0)
  | .vdotf _ x _ _ => some (dotVec x e.rnd e.va e.vb)
  | .vmaskpop _ x _ _ =>
    some (BitVec.ofNat 64 ((List.range (tyLanes x)).filter fun k => lane (tyWidth x) e.va k != 0).length, 0)
  | .chkl _ _ _ =>
    some (BitVec.ofNat 64 (crc32c ((toBytes e.va.toNat 256).take 128) + 2 ^ 32 * crc32c ((toBytes e.va.toNat 256).drop 128)), 0)
  | _ => none

/-- The vector a packing or scan gives, with flags (02 R40, R41, R46; 07 R142, R144). -/
def packing (e : Env) : Instr → Option (BitVec 2048 × Flags)
  | .vpack4 _ _ _ => some (packVec fmtF4 4 e.va (fmtBF16.value (e.b.toNat % 2 ^ 16)))
  | .vunpk4 _ _ _ => some (unpackVec fmtF4 4 e.va (fmtBF16.value (e.b.toNat % 2 ^ 16)))
  | .vpack6 _ _ _ => some (packVec fmtF6 6 e.va (fmtBF16.value (e.b.toNat % 2 ^ 16)))
  | .vunpk6 _ _ _ => some (unpackVec fmtF6 6 e.va (fmtBF16.value (e.b.toNat % 2 ^ 16)))
  | .vscan _ x _ _ => some (scanVec x e.rnd e.va)
  | _ => none

/-- The uniforms a sampling instruction consumes and what it makes of them (07 R150-R152; 06 R134). -/
def sampling (e : Env) : Instr → Option (Nat × (List Nat → TokVal × Flags))
  | .vrand _ x _ _ => some (64, fun us => (.vector (BitVec.ofNat 2048 (joinLanes 32 (us.map fun n =>
      if x == .f32 then (fmtF32.round .rne false (n / 2 ^ 8) (-24)).1 else n))), 0))
  | .vdraw _ x _ _ => some (1, fun us => (.scalar (vdrawOf x e.va e.b (us.headD 0)).1, (vdrawOf x e.va e.b (us.headD 0)).2))
  | .vdrawm _ _ _ => some (1, fun us => (.scalar (drawMerge e.a e.b (us.headD 0)).1, (drawMerge e.a e.b (us.headD 0)).2))
  | .rand _ _ _ => some (2, fun us => (.scalar (BitVec.ofNat 64 (us.headD 0 % 2 ^ 32 + 2 ^ 32 * (us.tail.headD 0 % 2 ^ 32))), 0))
  | _ => none

end Sys2Proof.Spec

/-! ## Memory, copies, streams, matrix and graph instructions (08, 10, 11, 13, 15) -/

namespace Sys2Proof.Spec

open Machine

/-- The address l + sext(imm6) × size and the address l + sext(imm15) (10 R209). -/
def addrL (e : Env) (imm : BitVec 6) (size : Nat) : Nat := ((e.a.toInt + imm.toInt * size) % 2 ^ 64).toNat
def addrS (e : Env) (imm : BitVec 15) : Nat := ((e.a.toInt + imm.toInt) % 2 ^ 64).toNat

/-- The address of lane k of a gather or scatter from a base (10 R215). -/
def gatherAddr (base : Int) (idx : BitVec 2048) (k : Nat) : Nat :=
  ((base + 4 * (if lane 32 idx k < 2 ^ 31 then (lane 32 idx k : Int) else lane 32 idx k - 2 ^ 32)) % 2 ^ 64).toNat

/-- Loaded bytes read as a signed integer of n bytes, and as a number (10 R212; 00 R5). -/
def signedBytes (n : Nat) (bs : List Byte) : BitVec 64 :=
  wrap64 (if leNat bs < 2 ^ (8 * n - 1) then (leNat bs : Int) else leNat bs - (2 ^ (8 * n) : Nat))
def plainBytes (bs : List Byte) : BitVec 64 := BitVec.ofNat 64 (leNat bs)

/-- A load: its LSID, alignment, spans, and what it makes of the bytes (10 R207, R209, R212, R214, R215). -/
def loads (e : Env) : Instr → Option (BitVec 7 × Nat × List (Nat × Nat) × (List Byte → TokVal))
  | .ldb _ l i _ => some (l, 1, [(addrL e i 1, 1)], fun bs => .scalar (signedBytes 1 bs))
  | .ldbu _ l i _ => some (l, 1, [(addrL e i 1, 1)], fun bs => .scalar (plainBytes bs))
  | .ldh _ l i _ => some (l, 2, [(addrL e i 2, 2)], fun bs => .scalar (signedBytes 2 bs))
  | .ldhu _ l i _ => some (l, 2, [(addrL e i 2, 2)], fun bs => .scalar (plainBytes bs))
  | .ldw _ l i _ => some (l, 4, [(addrL e i 4, 4)], fun bs => .scalar (signedBytes 4 bs))
  | .ldwu _ l i _ => some (l, 4, [(addrL e i 4, 4)], fun bs => .scalar (plainBytes bs))
  | .ldd _ l i _ => some (l, 8, [(addrL e i 8, 8)], fun bs => .scalar (plainBytes bs))
  | .ldv _ l i _ => some (l, 16, [(addrL e i 256, 256)], fun bs => .vector (BitVec.ofNat 2048 (leNat bs)))
  | .ldvx _ l _ => some (l, 4, (List.range 64).map fun k => (gatherAddr e.a.toInt e.vb k, 4),
      fun bs => .vector (BitVec.ofNat 2048 (leNat bs)))
  | _ => none

/-- A store: its LSID, alignment, spans, the data's bytes, and the poison that goes with them (10 R207, R209, R211, R213-R215). -/
def stores (e : Env) (i : Instr) : Option (BitVec 7 × Nat × List (Nat × Nat) × List Byte × Bool) :=
  match i with
  | .stb _ l o => some (l, 1, [(addrS e o, 1)], toBytes e.b.toNat 1, e.right.pois || e.predPois (sigOf i))
  | .sth _ l o => some (l, 2, [(addrS e o, 2)], toBytes e.b.toNat 2, e.right.pois || e.predPois (sigOf i))
  | .stw _ l o => some (l, 4, [(addrS e o, 4)], toBytes e.b.toNat 4, e.right.pois || e.predPois (sigOf i))
  | .std _ l o => some (l, 8, [(addrS e o, 8)], toBytes e.b.toNat 8, e.right.pois || e.predPois (sigOf i))
  | .stv _ l o => some (l, 16, [(addrS e o, 256)], toBytes e.vb.toNat 256, e.right.pois || e.predPois (sigOf i))
  | .stvx l o => some (l, 4, (List.range 64).map fun k => (gatherAddr (e.a.toInt + o.toInt) e.vb k, 4),
      toBytes e.vc.toNat 256, e.pois)
  | _ => none

/-- An immediate-class access: what it needs of its page, its bytes, whether it writes, what it will do, the poison of its data
(03 R70; 10 R207, R210, R216-R220). -/
def immediateOf (e : Env) (i : Instr) : Option (Need × Nat × Bool × ImmOp × Bool) :=
  match i with
  | .sld _ _ m _ => some ({ align := 8, r := true, w := m == 1, noHost := true, sync := true, rap := true }, 8, false,
      .sync (if m = 0 then .readfull else if m = 1 then .consume else .peek) false 0, false)
  | .sldv _ _ m _ => some ({ align := 128, r := true, w := m == 1, noHost := true, sync := true, rap := true }, 128, false,
      .sync (if m = 0 then .readfull else if m = 1 then .consume else .peek) true 0, false)
  | .sst _ _ m =>
    if m = 2 ∨ m = 3 then none
    else some ({ align := 8, w := true, noHost := true, sync := true, rap := true }, 8, true,
      .sync (if m = 0 then .produce else if m = 1 then .fill else .clear) false (e.b.setWidth 1024),
      e.right.pois || e.predPois (sigOf i))
  | .sstv _ _ m =>
    if m = 2 ∨ m = 3 then none
    else some ({ align := 128, w := true, noHost := true, sync := true, rap := true }, 128, true,
      .sync (if m = 0 then .produce else if m = 1 then .fill else .clear) true (e.vb.setWidth 1024),
      e.right.pois || e.predPois (sigOf i))
  | .amoi _ _ m un _ => some ({ align := 8, r := true, w := true, noHost := true, rap := true }, 8, true,
      .amo (redOpOf m) un 8 e.b, e.right.pois || e.predPois (sigOf i))
  | .amow _ _ m un _ => some ({ align := 4, r := true, w := true, noHost := true, rap := true }, 4, true,
      .amo (redOpOf m) un 4 e.b, e.right.pois || e.predPois (sigOf i))
  | .amof _ _ m _ => some ({ align := 4, r := true, w := true, noHost := true, rap := true }, 4, true,
      .amof (redOpOf m) (e.b.setWidth 32), e.right.pois || e.predPois (sigOf i))
  | .cas _ m _ =>
    if m = 0 then some ({ align := 8, r := true, w := true, noHost := true, rap := true }, 8, true,
      .cas 8 e.b e.c e.third.pois, e.third.pois)
    else some ({ align := 4, r := true, w := true, noHost := true, rap := true }, 4, true,
      .cas 4 e.b e.c e.third.pois, e.third.pois)
  | _ => none

/-- A reduction, ordered contribution or release store: what it needs, its bytes, and the entry it adds to the commit set
(10 R207, R210, R216, R221, R224). -/
def commits (e : Env) : Instr → Option (Need × Nat × CommitOp)
  | .redi _ _ m un => some ({ align := 8, w := true, noLocal := true, noHost := true }, 8, .redInt (redOpOf m) un 8 e.b)
  | .redw _ _ m un => some ({ align := 4, w := true, noLocal := true, noHost := true }, 4, .redInt (redOpOf m) un 4 e.b)
  | .redf _ _ m => some ({ align := 4, w := true, noLocal := true, noHost := true }, 4, .redF (redOpOf m) e.b)
  | .redb _ _ m x => some ({ align := 128, w := true, noLocal := true, noHost := true }, 128,
      .redB (redOpOf m) (redType x) (e.vb.setWidth 1024))
  | .redo _ _ => some ({ align := 16, w := true, noLocal := true, noHost := true }, 16,
      .redo (e.b.setWidth 32) (e.b.extractLsb' 32 32))
  | .drawm _ _ => some ({ align := 16, w := true, noLocal := true, noHost := true }, 16,
      .drawm (e.vb.setWidth 64) (e.vb.extractLsb' 64 32) (e.vb.extractLsb' 96 32))
  | .sst _ _ m =>
    if m = 2 ∨ m = 3 then some ({ align := 8, w := true, noLocal := true, noHost := true, sync := true }, 8,
      .release (m == 3) false (e.b.setWidth 1024)) else none
  | .sstv _ _ m =>
    if m = 2 ∨ m = 3 then some ({ align := 128, w := true, noLocal := true, noHost := true, sync := true }, 128,
      .release (m == 3) true (e.vb.setWidth 1024)) else none
  | _ => none

/-- The form and operation of a copy instruction, and its LSID (11 R237, R239, R240). -/
def copies : Instr → Option (BitVec 7 × CopyKind × CopyForm)
  | .cpy _ l => some (l, .cpy, .cpy)
  | .cpys _ l => some (l, .cpys, .cpys)
  | .cpyr _ l m x => some (l, .cpyr (redOpOf m) (redType x), .cpyr)
  | .cpyb _ l => some (l, .cpyb, .cpyb)
  | _ => none

/-- The operation a matrix instruction issues at belay, its LSID, and whether a control word is poisoned (08 R160-R179). -/
def matrix (e : Env) : Instr → Option (BitVec 7 × MatOp × Bool)
  | .bload _ l a => some (l, .bload a.toNat e.a e.b, e.left.pois || e.right.pois)
  | .bswap _ l a b => some (l, .bswap a.toNat b.toNat, false)
  | .bclr _ l a => some (l, .bclr a.toNat, false)
  | .mma _ l w a => some (l, .mma w.toNat a.toNat e.a e.b, e.left.pois || e.right.pois)
  | .mmat _ l w a => some (l, .mmat w.toNat a.toNat e.a e.b, e.left.pois || e.right.pois)
  | .mmaa _ l w a => some (l, .mmaa w.toNat a.toNat e.a e.b, e.left.pois || e.right.pois)
  | .accz _ l a => some (l, .accz a.toNat, false)
  | .accwr _ l a => some (l, .accwr a.toNat e.a e.vb e.right.pois, e.left.pois)
  | .accst _ l a => some (l, .accst a.toNat e.a, e.left.pois)
  | .accstat _ l a => some (l, .accstat a.toNat e.a, e.left.pois)
  | .accscl _ l m a => some (l, .accscl a.toNat (m == 1) e.a, e.left.pois)
  | _ => none

/-- The state in which the focused instruction has fired and awaits its result (03 R67). -/
def awaits (e : Env) : State := e.store ((e.p.setStatus e.k .pending).skip e.k) true

/-- The access an instruction makes as it fires: what it needs of its pages, and its spans of bytes (07 R149; 10 R210). -/
def accessOf (e : Env) (i : Instr) : Option (Need × List (Nat × Nat)) :=
  match loads e i, stores e i, immediateOf e i, commits e i with
  | some (_, n, spans, _), _, _, _ => some ({ align := n, r := true }, spans)
  | none, some (_, n, spans, _, _), _, _ => some ({ align := n, w := true }, spans)
  | none, none, some (nd, n, _, _, _), _ => some (nd, [(e.a.toNat, n)])
  | none, none, none, some (nd, n, _) => some (nd, [(e.a.toNat, n)])
  | none, none, none, none =>
    match i, sampling e i with
    | .flushl _ _ o, _ => some ({ align := 1 }, [(addrS e o / 128 * 128, 128)])
    | .mwait _ _ _, _ => some ({ align := 8, r := true }, [(e.a.toNat, 8)])
    | _, some (n, _) => if e.r.rngmode then some ({ align := 1, r := true }, e.tableSpans n) else none
    | _, none => none

/-- The lines an instruction has read: those of the bytes of its own access, of an MWAIT that waits those of its word. -/
def readsOf (e : Env) (i : Instr) (l : List Nat) : Prop :=
  l = [] ∨
  (∃ nd spans bs, ((loads e i).isSome = true ∨ (sampling e i).isSome = true ∨ i matches .mwait _ _ _) ∧
    accessOf e i = some (nd, spans) ∧ e.access nd spans = .ok bs ∧ l = bs.map fun x => lineKey x.loc) ∨
  (∃ p id g m, i = .mwait p id g ∧ m ∈ e.p.waits ∧ m.slot = e.k ∧ l = [lineKey m.loc])

/-- What an instruction leaves besides the reports on what it read: the state u, and then the records of those of the lines it read
that failed their check value or came poisoned from a peer, or of the node entry at which the walk of its own access failed (09
R206; 16 R341; 19 R402). -/
def reported (e : Env) (i : Instr) (u t : State) : Prop :=
  (∃ l, readsOf e i l ∧ t = u.readLines e.ctx l) ∨
  ∃ nd spans f, accessOf e i = some (nd, spans) ∧ e.access nd spans = .error f ∧ t = u.verifyWalk (some (tileDie e.t)) e.ctx f

/-- The state after the focused instruction has raised the fault of an access: the node entry its walk failed at is verified (16
R341; 09 R206). -/
def accessFault (e : Env) (f : FaultInfo) : State := (raises e f).verifyWalk (some (tileDie e.t)) e.ctx f

/-- The state after the focused instruction, which had fired before, has got the data it waited for (03 R67). -/
def resumed (i : Instr) (e : Env) (a : Act) : State := e.store (((e.p.setStatus e.k .fired).perform e.k (sigOf i) a).moved e.k) false

/-- What an effect of publication id leaves of the tasks: what the fetches of a task that started after it see may change, and
nothing else of any (03 R55). -/
def refetched (s u : State) (id : Nat) : Prop :=
  ∀ t, (s.run? t = none → u.run? t = none) ∧
    ∀ r, s.run? t = some r → ∃ m, u.run? t = some { r with fetchMem := m } ∧ (r.serial ≤ id → m = r.fetchMem)

/-- The lowest set bit of a mask, all ones where there is none. -/
def lowest (m : BitVec 64) : BitVec 64 :=
  match (List.range 64).find? fun k => m.getLsbD k with
  | some k => BitVec.ofNat 64 k
  | none => 0xFFFF_FFFF_FFFF_FFFF

/-- The entry of the commit set that an instruction of the focused slot adds (03 R69; 10 R228). -/
def entryOf (e : Env) (i : Instr) (op : CommitOp) (addr : BitVec 64) (x : CommitEntry) : Prop :=
  x.op = op ∧ x.addr = addr ∧ x.pois = e.pois ∧ x.pitch = e.p.addr ∧ x.slot = e.k ∧ some x.lsid = (sigOf i).lsid.map BitVec.toNat

end Sys2Proof.Spec

namespace Sys2Proof.Spec

open Machine

/-! ## Data awaited, reductions, and the commands of the host (03, 10, 19) -/

/-- The instructions that fire and may await data: loads, MWAIT and the sampling instructions (03 R67). -/
def awaitsData : Instr → Bool
  | .ldb _ _ _ _ | .ldbu _ _ _ _ | .ldh _ _ _ _ | .ldhu _ _ _ _ | .ldw _ _ _ _ | .ldwu _ _ _ _ | .ldd _ _ _ _ | .ldv _ _ _ _
  | .ldvx _ _ _ | .mwait _ _ _ | .rand _ _ _ | .vrand _ _ _ _ | .vdraw _ _ _ _ | .vdrawm _ _ _ => true
  | _ => false

/-- The bytes a reduction combines and what it makes of the old value (10 R221, R222). -/
def reductionOf : CommitOp → Option (Nat × (Nat → Nat))
  | .redInt op uns n v => some (n, fun o => combineInt op uns (8 * n) o (v.toNat % 2 ^ (8 * n)))
  | .redF op v => some (4, fun o => combineLane op .f32 o (v.toNat % 2 ^ 32))
  | .redB op ty v => some (128, fun o => combineLine op ty o v.toNat)
  | _ => none

/-- An exhausted pitch that passes the checks of R68, as PITCH_EXHAUSTION finds it, or SPILL_PLACE_FREED one that waited for room
(03 R68; 09 R197). -/
def sound (i : Instr) (t : Nat) (s : State) (r : Run) (p : Pitch) : Prop :=
  (i = .pitchExhaustion t ∨ i = .spillPlaceFreed t) ∧ s.run? t = some r ∧ r.pitch = some p ∧ r.phase = .fire ∧
    p.exhausted = true ∧ r.watchdogDue = false ∧ p.verdict (s.tile t) r = .proceed

/-- One that has the room its belay needs as well. -/
def passes (i : Instr) (t : Nat) (s : State) (r : Run) (p : Pitch) : Prop := sound i t s r p ∧ s.belayRoom t r p = true

/-- A control register before the writes of a pitch: RNGCTR has moved on (07 R147). -/
def csrBefore (r : Run) (p : Pitch) (n : Nat) : Option (BitVec 64) :=
  if n = 0x031 then some (r.rngctr + BitVec.ofNat 64 (uniformSum p.words)) else r.csrRead n

/-- What a pitch adds to a control register after its writes: its flags to FFLAGS (05 R110). -/
def csrFlags (p : Pitch) (n : Nat) : BitVec 64 := if n = 0x024 then p.flags.setWidth 64 else 0

/-- The commands of the host: port, session, and what their words may hold (19 R387). -/
def commandOf : Instr → Option (Nat × Nat × CmdShape)
  | .ctxCreate p n => some (p, n, { code := 1, named := false, ops := [allBits] })
  | .ctxDestroy p n => some (p, n, { code := 2, named := true, ops := [] })
  | .ctxSet p n => some (p, n, { code := 3, named := true, ops := [0x7FFFFF, allBits] })
  | .sliceAssign p n => some (p, n, { code := 4, named := true, ops := [allBits, allBits, allBits] })
  | .qcbSet p n => some (p, n, { code := 5, named := true, ops := [0xF3, allBits] })
  | .hostTlbinv p n => some (p, n, { code := 6, named := false, ops := [allBits, 0x0FFFFFF7FFFFFFFF] })
  | .drainFor p n => some (p, n, { code := 7, named := true, ops := [allBits] })
  | .restore p n _ => some (p, n, { code := 8, named := false, ops := [0x7FF] })
  | .traceSet p n => some (p, n, { code := 9, named := false, ops := [3, allBits] })
  | .tableRegion p n => some (p, n, { code := 10, named := false, ops := [0xF, allBits, allBits] })
  | .counterRead p n => some (p, n, { code := 11, named := false, ops := [7, allBits, allBits] })
  | .podAttach p n => some (p, n, { code := 12, named := false, ops := [0x3FFFFFFFFFF, allBits, allBits] })
  | .attest p n => some (p, n, { code := 13, named := true, ops := [allBits, allBits] })
  | _ => none

/-- The state and the result a command leaves that is neither malformed nor refused (09 R194; 13 R274; 16 R343; 17 R353-R363;
19 R389-R401). -/
def commandEffect (u : State) (c : Cmd) : Instr → Option (State × Nat)
  | .ctxCreate p n =>
    let x := u.operand p n (c.op 0) 64
    if u.pkg.lifeOk = true ∧ u.pkg.ucodeOk = true ∧ (c.op 0).toNat % 64 = 0 ∧ descMalformed x.2 = false ∧ x.1.refusesDesc x.2 = false then
      some (x.1.createCtx x.2, 0)
    else none
  | .ctxDestroy _ _ => if c.ctx ≠ 0 then some (u.destroyCtx c.ctx, 0) else none
  | .ctxSet _ _ =>
    if 1 ≤ (c.op 0).toNat % 2 ^ 16 ∧ (c.op 0).toNat % 2 ^ 16 ≤ 1024 ∧ 1 ≤ (c.op 0).toNat / 2 ^ 16 % 2 ^ 7 ∧
        (c.op 0).toNat / 2 ^ 16 % 2 ^ 7 ≤ 64 then
      some ((u.modCtx c.ctx fun x => { x with
        tquota := (c.op 0).toNat % 2 ^ 16, weight := (c.op 0).toNat / 2 ^ 16 % 2 ^ 7, wquota := (c.op 1).toNat }).checkQuota c.ctx, 0)
    else none
  | .qcbSet _ _ =>
    let reg : Option QcbReg := if c.op 1 = 0 then none else some { va := c.op 1 }
    if (c.op 1).toNat % 64 ≠ 0 then none
    else
      match (c.op 0).toNat % 4 with
      | 0 => some ((u.dropLaunch c.ctx ((c.op 0).toNat / 16 % 16)).modCtx c.ctx fun x =>
          { x with launch := setLaunch x.launch ((c.op 0).toNat / 16 % 16) reg }, 0)
      | 1 => some (u.modCtx c.ctx fun x => { x with faultQ := reg }, 0)
      | 2 => some (u.modCtx c.ctx fun x => { x with logQ := reg }, 0)
      | _ => none
  | .sliceAssign p n =>
    match u.ctx? c.ctx with
    | none => none
    | some x =>
      let y := u.operand p n (c.op 0) 1024
      if ((List.range 512).all fun b => sliceEntry y.2 b / 32 % 8 == 0 && sliceEntry y.2 b / 2 ^ 13 == 0) = true ∧
          alignedRange (c.op 1).toNat (c.op 2).toNat = true ∧ y.1.refusesSlices x y.2 (c.op 2).toNat = false then
        let w := (y.1.reloadBank c.ctx).modCtx c.ctx fun x => { x with
          cache := slicesOf fun b => sliceEntry y.2 b % 32, bank := slicesOf fun b => sliceEntry y.2 b / 256 % 32
          spillBase := (c.op 1).toNat, spillLen := (c.op 2).toNat }
        some (if x.bank = slicesOf (fun b => sliceEntry y.2 b / 256 % 32) then w else w.spillBank x (c.op 1).toNat, 0)
      else none
  | .restore _ _ m =>
    let t := 272 * ((c.op 0).toNat % 4) + 16 * ((c.op 0).toNat / 4 % 32) + (c.op 0).toNat / 128 % 16
    if (c.op 0).toNat / 4 % 32 ≤ 16 ∧ (u.tile t).state = .drained ∧ u.cycle < (u.tile t).drainedAt + 2 ^ 30 ∧ 768 ≤ m ∧ (u.tile t).life < wearBudget then
      some ((u.modTile t fun v => { v with prevMargin := v.margin, margin := m }).changeTile t .derated, 0)
    else none
  | .traceSet _ _ =>
    if (c.op 1) = 0 then some (u.modDie ((c.op 0).toNat % 4) fun x => { x with trace := none }, 0)
    else if hbmRange (c.op 1).toNat 32 = true then
      some (u.modDie ((c.op 0).toNat % 4) fun x => { x with trace := some (c.op 1).toNat }, 0)
    else none
  | .tableRegion _ _ =>
    let rest := u.pkg.regions.filter fun r => r.1 != (c.op 0).toNat % 16
    if c.op 2 = 0 then some ({ u with pkg := { u.pkg with regions := rest } }, 0)
    else if u.regionOk ((c.op 1).toNat / 2 ^ 61) ((c.op 1).toNat % 2 ^ 61) (c.op 2).toNat = true then
      some ({ u with pkg := { u.pkg with
        regions := rest ++ [((c.op 0).toNat % 16, (c.op 1).toNat / 2 ^ 61, (c.op 1).toNat % 2 ^ 61, (c.op 2).toNat)] } }, 0)
    else none
  | .counterRead _ _ =>
    if (c.op 0).toNat % 8 ≤ 5 ∧ (c.op 2).toNat ≤ 2 ^ 18 ∧ (c.op 1).toNat + (c.op 2).toNat ≤ 2 ^ 52 then
      some (u.store (locOf spHost 0 0 (c.op 1).toNat) (u.windowBytes ((c.op 0).toNat % 8) (c.op 2).toNat) false, 0)
    else none
  | .podAttach p n =>
    let x := u.operand p n (c.op 1) (128 * (c.op 2).toNat)
    let es := (List.range (c.op 2).toNat).map (peerEntry x.2)
    if u.pkg.lifeOk = true ∧ u.pkg.ucodeOk = true ∧ (c.op 2).toNat ≤ 1023 ∧ (es.any peerMalformed) = false then
      some ({ x.1 with pkg := { x.1.pkg with
        id := (c.op 0).setWidth 10, encl := ((c.op 0) >>> 10).setWidth 32, peers := (es.filter peerVerified).map peerOf } },
        (es.filter peerVerified).length)
    else none
  | .attest p n =>
    let x := u.operand p n (c.op 0) 32
    let y := x.1.attestation x.2 c.ctx
    some (y.1.hostStore p n (c.op 1) y.2, 0)
  | _ => none

/-- The state a command leaves that is completed later: TLBINV (16 R344) and DRAIN_FOR (14 R309). -/
def commandBegins (u : State) (c : Cmd) : Instr → Option State
  | .hostTlbinv p _ => (u.invalidation (c.op 0) (c.op 1) (.host p c.index)).map u.invalidate
  | .drainFor p _ =>
    let d : Drain := { ctx := c.ctx, mask := c.op 0, port := p, index := c.index }
    let v : State := { u with pkg := { u.pkg with drains := u.pkg.drains ++ [d] } }
    some (v.expel c.ctx (v.tilesIn d.mask))
  | _ => none

/-! ### The matrix unit -/

/-- Word k of an accumulator row. -/
def accWord (x : AccRow) (k : Nat) : Nat := x.bits.toNat / 2 ^ (32 * k) % 2 ^ 32

/-- Element k of a row of n bytes in a scratchpad: little-endian, packed (02 R27). -/
def rowCode (s : State) (t fmt o n k : Nat) : Nat := leNat (s.padBytes t o n) / 2 ^ (matWidth fmt * k) % 2 ^ matWidth fmt

/-- The codes of A row i at an offset. -/
def aCodes (s : State) (t fmt o : Nat) : List Nat := (List.range 128).map fun k => rowCode s t fmt o (rowBytes fmt) k

/-- The scaled values of A row i: a block scale for every eight elements, a band scale for every 64 rows (02 R31-R33; 08 R170). -/
def aVals (s : State) (t fmt : Nat) (scl : Bool) (o soff boff i : Nat) : List Val :=
  (List.range 128).map fun k =>
    matValue fmt (rowCode s t fmt o (rowBytes fmt) k) (leNat (s.padBytes t (soff + 16 * i + k / 8) 1))
      (leNat (s.padBytes t (boff + 2 * (i / 64)) 2)) scl

/-- The codes of A row i of an MMAT: element i of each of 128 stored rows of m elements (08 R171). -/
def tCodes (s : State) (t fmt off stride m i : Nat) : List Nat :=
  (List.range 128).map fun k => rowCode s t fmt (off + k * stride) (elemBytes fmt m) i

/-- Their values, with the band of the stored row. -/
def tVals (s : State) (t fmt : Nat) (scl : Bool) (off stride m boff i : Nat) : List Val :=
  (List.range 128).map fun k =>
    matValue fmt (rowCode s t fmt (off + k * stride) (elemBytes fmt m) i) 0
      (if scl then leNat (s.padBytes t (boff + 2 * (k / 64)) 2) else 0) scl

/-- Word k of an accumulator row after rows is of A have passed in order (02 R42, R43; 08 R170). -/
def mmaWord (w : WArray) (scl iacc : Bool) (codes : Nat → List Nat) (vals : Nat → List Val) (k old : Nat) (is : List Nat) : Nat :=
  is.foldl (fun x i => (if iacc then mmaInt x (codes i) (w.codes k) else mmaElement x (vals i) (w.values k scl)) % 2 ^ 32) old

/-- The A rows that pass into accumulator row c: row i goes to row (crow + i) mod 128. -/
def rowsInto (crow m c : Nat) : List Nat := (List.range m).filter fun i => (crow + i) % 128 == c

/-- Lane k of a stored accumulator row: the word, or it rounded to the output type (08 R174, R177). -/
def outLane (ty : Nat) (w : Nat) : Nat :=
  match ty with
  | 1 => (convert .bf16 .f32 .rne .rne w).1
  | 2 => (convert .f16 .f32 .rne .rne w).1
  | 3 => (convert .e4m3 .f32 .rne .rne w).1
  | 4 => (convert .e5m2 .f32 .rne .rne w).1
  | 7 => w
  | _ => (convert .f32 .f32 .rne .rne w).1

/-- Whether a job of a tile may be performed at its completion, nothing else following from it. -/
def completes (s : State) (t k : Nat) (j : MatJob) : Prop :=
  t < 1088 ∧ (s.tile t).jobs[k]? = some j ∧ j.started = true ∧ s.fab.retry = [] ∧ (∀ n, (s.line n).chkBad = false) ∧
    ∀ r, s.run? t = some r → r.twin = none

/-- What the completion of an operation leaves that is no accumulator, array or scratchpad. -/
def leaves (s u : State) (t k : Nat) : Prop :=
  (u.tile t).jobs = (s.tile t).jobs.eraseIdx k ∧ (∀ n, n ≠ t → u.tile n = s.tile n) ∧ u.ctxs = s.ctxs ∧ u.insts = s.insts ∧ u.fab = s.fab

end Sys2Proof.Spec

open Sys2Proof Sys2Proof.Machine

/-! # The statements -/

/-! ## Encoding (04) -/

/-- Decoding an encoded well-formed instruction gives it back, for all 224 instructions and every operand they admit: no bit of an
encoding is dropped (04 R81-R88). -/
def Obligations.DecodeEncode : Prop :=
  ∀ i w, i.wf = true → encode i = some w → decode w = .ok i

/-- A word that decodes is well-formed and is the one word of its instruction: every field the format calls zero is zero (04 R81,
R83-R86, R90). A word whose opcode is reserved is refused as ILLEGAL_OPCODE, whatever its other bits hold; a word with an assigned
opcode is never refused so (04 R87). -/
def Obligations.EncodeDecode : Prop :=
  (∀ w i, decode w = .ok i → i.wf = true ∧ encode i = some w) ∧
  (∀ w : Word, decode w = .error .illegalOpcode ↔
     w.toNat / 2 ^ 24 ∈ [0x0D, 0x0E, 0x0F, 0x19, 0x1A, 0x1B, 0x1C, 0x1D, 0x1E, 0x1F, 0x4F, 0x9C, 0x9D, 0x9E, 0x9F, 0xCF, 0xDD,
       0xDE, 0xDF, 0xEA, 0xEB, 0xEC, 0xED, 0xEE, 0xEF, 0xF9, 0xFA, 0xFB, 0xFC, 0xFD, 0xFE, 0xFF])

/-- The words that 04 encodes bit by bit (the pitch `pick` and the further words) decode to the instructions they stand for. -/
def Obligations.DecodeWords : Prop :=
  decode 0x01010684 = .ok (.readg 0 (.to .left 3) (.to .left 4)) ∧
  decode 0x20000087 = .ok (.add .always .none (.to .left 7)) ∧
  decode 0x0541190B = .ok (.mov .onTrue (.to .left 12) (.to .right 11)) ∧
  decode 0x10880009 = .ok (.br .onFalse 1 9) ∧
  decode 0x3E3FF709 = .ok (.addi .always 0x1FFB (.to .right 9)) ∧
  decode 0xA601FC84 = .ok (.ldd .always 3 0x3E (.to .left 4)) ∧
  decode 0x60462A94 = .ok (.vadd .onTrue .bf16 (.to .right 21) (.to .left 20)) ∧
  decode 0xF0004682 = .ok (.csrr .always 0x023 (.to .left 2)) ∧
  decode 0xC2008200 = .ok (.cpyr .always 1 0 1) ∧
  decode 0xCB010284 = .ok (.spop .always 2 1 (.to .left 4)) ∧
  decode 0x3EFFF709 = .error .illegalEncoding ∧ decode 0xF0204682 = .error .illegalEncoding ∧
  decode 0x607A2A94 = .error .illegalEncoding

/-! ## A step -/

/-- A step runs the instruction decoded from the word of the slot that moves: by default the cursor's slot of the focused tile, else
the slot that the agenda's turn names; an event of the agenda takes place as `exec` says. One cycle, or the turn's cycles, pass
first, and with them counts CYCLEFT (14 R303); what the move brings with it at once follows (`settle`). The agenda is the MODEL's
(log entry 1). -/
def Obligations.StepRunsDecoded : Prop :=
  (∀ s e w i, s.agenda = [] → (s.tick 1).goes (s.tick 1).focus = true → (s.tick 1).env? = some e →
    e.p.words[e.k]? = some w → decode w = .ok i → step s = settle (exec i (s.tick 1))) ∧
  (∀ s dt t k rest u e w i, s.agenda = ⟨dt, .slot t k⟩ :: rest → u = (({ s with agenda := rest } : State).tick dt).aim t k →
    (({ s with agenda := rest } : State).tick dt).clocked t = true → u.env? = some e → e.p.words[e.k]? = some w →
    decode w = .ok i → step s = settle (exec i u)) ∧
  (∀ s dt i rest u, s.agenda = ⟨dt, .event i⟩ :: rest → u = ({ s with agenda := rest } : State).tick dt →
    u.admits i = true → step s = settle (exec i u))

/-- Every step from every state answers a next state: no run of the machine ends, for a machine exception is itself a next state (18
R371). -/
def Obligations.EveryStepGoes : Prop :=
  ∀ s, Goes s

/-- An invariant of every step: memory and the metadata of its lines keep their one canonical form, keys strictly rising and nothing
listed that an unlisted location or line is anyway. -/
def Obligations.StepKeepsMemory : Prop :=
  Kept Canonical

/-- What package reset leaves of a new part (20 R403): every byte of the package's memory 0 and no line poisoned or full, in canonical
form, context 0 alone, no instance, no task on any tile, TIME 0. That the part is new, with every tile NORMAL and 64 clusters in
service, is the MODEL's choice (log entry 5); so is that host and peer memory, of which R403 says nothing, reads as 0 too (log entry
3). -/
def Obligations.ResetState : Prop :=
  Canonical State.reset ∧ (∀ k, State.reset.line k = {} ∧ State.reset.lineData k = 0) ∧
  State.reset.ctxs.map (fun c => c.id) = [0] ∧ State.reset.insts = [] ∧ State.reset.ropes = [] ∧ State.reset.time = 0 ∧
  (∀ t, State.reset.run? t = none ∧ (State.reset.tile t).queue = [] ∧ (State.reset.tile t).jobs = [] ∧
    (State.reset.tile t).state = .normal) ∧
  State.reset.nclust = 64 ∧ State.reset.pkg.topogen = 0 ∧ State.reset.pkg.sessions = []

/-! ## What an instruction of a pitch leaves unchanged -/

/-- The frame of all 224 instructions. An instruction that is executed changes nothing but the pitch in the window of its tile and
the tile's count of instructions fired: every register, control register, accumulator and weight array, every other tile, every byte
of memory, every context, table and queue is as before (03 R65: effects take place at belay). What a scratchpad line keeps beside
its data is unchanged but for the note that the task has read it (09 R189). On top of that come the reports on what it read, and on
nothing else: on the lines of the bytes of its own access, or on the node entry at which the walk of its own access failed; an
instruction without an access makes none. There are none when every line it read is of this package and meets its check value, and
none on a walk whose node entry is sound (09 R206; 19 R402). -/
def Obligations.InstructionFrame : Prop :=
  (∀ i s t e, (encode i).isSome = true → s.env? = some e → exec i s = .next t → ∃ u, Spec.reported e i u t ∧
    u.mem = s.mem ∧ u.ctxs = s.ctxs ∧ u.insts = s.insts ∧ u.ropes = s.ropes ∧ u.fab = s.fab ∧ u.dies = s.dies ∧ u.pkg = s.pkg ∧
    u.cycle = s.cycle ∧ u.focus = s.focus ∧ u.free = s.free ∧ u.agenda = s.agenda ∧ u.out = s.out ∧
    (∀ k, { u.line k with rd := (s.line k).rd } = s.line k) ∧ (∀ n, n ≠ s.focus → u.tile n = s.tile n) ∧
    ∃ p n, n ≤ 1 ∧ p.addr = e.p.addr ∧ p.hdr = e.p.hdr ∧ p.words = e.p.words ∧ p.snap = e.p.snap ∧
      p.slots.length = e.p.slots.length ∧
      u.tile s.focus =
        { s.tile s.focus with run := some { e.r with pitch := some p }, fired := (s.tile s.focus).fired + BitVec.ofNat 64 n }) ∧
  (∀ (s : State) ctx l, (∀ k ∈ l, (s.line k).chkBad = false ∧ locPkg (k * 128) = 0) → s.readLines ctx l = s) ∧
  (∀ (s : State) die ctx f, (∀ k, (s.line k).chkBad = false) → s.verifyWalk die ctx f = s) ∧
  (∀ e i l, Spec.accessOf e i = none → Spec.readsOf e i l → l = [])

/-- When an instruction does not fire (03 R59-R61). With an operand position empty nothing happens. With every position filled and a
predicate that does not match, its tokens are consumed, it is not fired, and it sends nothing and does nothing. With a null token in
a position, a register write, an instruction with an LSID, an exit or a service call is nullified, any other has fired, and each
target of an instruction with a result gets a null token. An instruction fires at most once in one execution of a pitch: examined
again, it does nothing (03 R59). Delivery (03 R57, R62): a token sent to an empty position of a slot that has not fired stands there
and nothing else changes; one that finds its position taken, or its consumer fired or consumed, is dropped and its slot is named a
double delivery; a target without a position sends nothing. -/
def Obligations.FiringRule : Prop :=
  (∀ i s e, (encode i).isSome = true → s.env? = some e → e.slot.status = .waiting →
     ((sigOf i).ready e.slot = false → exec i s = .next (e.store (e.p.skip e.k) false)) ∧
     ((sigOf i).ready e.slot = true → (sigOf i).matches e.slot = false →
       exec i s = .next (e.store ((e.p.setStatus e.k .unfired).moved e.k) true)) ∧
     ((sigOf i).ready e.slot = true → (sigOf i).matches e.slot = true → (sigOf i).hasNull e.slot = true →
       exec i s = .next (e.store (((e.p.setStatus e.k (if nullifies i then .nullified else .fired)).sendNulls (sigOf i) e.pois).moved e.k)
         true))) ∧
  (∀ i s e, (encode i).isSome = true → s.env? = some e → e.slot.status ≠ .waiting → e.slot.status ≠ .pending →
     exec i s = .next (e.store (e.p.skip e.k) false)) ∧
  (∀ (p : Pitch) (tok : Token) (pos : Pos) (k : BitVec 7) (sl : Slot), p.slots[k.toNat]? = some sl →
     p.deliver tok .none = p ∧
     (sl.status = .waiting → sl.holds pos = false →
       ∃ sl', (p.deliver tok (.to pos k)) = { p with slots := p.slots.set k.toNat sl' } ∧ sl'.status = sl.status ∧
         (sl'.left = if pos = .left then some tok else sl.left) ∧ (sl'.right = if pos = .right then some tok else sl.right) ∧
         sl'.pred = if pos = .pred then some tok else sl.pred) ∧
     (sl.status ≠ .waiting ∨ sl.holds pos = true → p.deliver tok (.to pos k) = { p with doubles := k.toNat :: p.doubles }))

/-! ## Structure, exits and scalar instructions (06) -/

/-- The structure instructions READG, READV, WRITEG, WRITEV, MOV, NULL, CONST, CONSTH, PCREL, SEL, GATE and NOP fire with the
results and effects of the table of R119. ILLEGAL raises ILLEGAL_OPCODE when it fires, to be reported at its slot (04 R89; 06 R119).
-/
def Obligations.StructureResults : Prop :=
  (∀ i s e a, Fires i s e → Spec.structure_ e i = some a → exec i s = .next (after i e a)) ∧
  (∀ p s e, Fires (.illegal p) s e → exec (.illegal p) s = .next (raises e { code := 0x01 }))

/-- BR, BRI, CALL, CALLI, DONE and ABORT fire with their exit id and next pitch; a poisoned predicate or target address marks the
pitch control-poisoned (03 R63, R66; 06 R120). TRAP and BREAK fire, are noted with their codes for after the belay, and do nothing
else (06 R121). SVC with a service number that exists, from a context that may call it, requests the service and sends a status;
with any other number, or a system service called from another context than 0, it raises ILLEGAL_ENCODING; a system service raises
IMMEDIATE_LIMIT in a twin (06 R122, R123; 18 R381). -/
def Obligations.ExitsAndServices : Prop :=
  (∀ i s e x d, Fires i s e → Spec.exitOf e i = some (x, d) →
     exec i s = .next (after i e { exit := some (x.toNat, d), ctl := e.pois })) ∧
  ((∀ p n s e, Fires (.trap p n) s e → exec (.trap p n) s = .next (after (.trap p n) e { trap := some (true, n) })) ∧
   (∀ p n s e, Fires (.break_ p n) s e → exec (.break_ p n) s = .next (after (.break_ p n) e { trap := some (false, n) })) ∧
   (∀ p n t s e, Fires (.svc p n t) s e →
     (n = 0x001 ∨ (n ∈ [0x100, 0x101, 0x102] ∧ e.ctx = 0 ∧ e.r.twin = none) →
       ∃ c, exec (.svc p n t) s = .next (after (.svc p n t) e { out0 := some (.scalar 0), svc := some c }) ∧
         c.slot = e.k ∧ c.num = n ∧ c.l = e.a ∧ c.r = e.b ∧ c.pois = (e.left.pois || e.right.pois) ∧ c.target = t) ∧
     (n ∉ [0x001, 0x100, 0x101, 0x102] ∨ (n ∈ [0x100, 0x101, 0x102] ∧ e.ctx ≠ 0) →
       exec (.svc p n t) s = .next (raises e { code := 0x02 })) ∧
     (n ∈ [0x100, 0x101, 0x102] ∧ e.ctx = 0 ∧ e.r.twin ≠ none → exec (.svc p n t) s = .next (raises e { code := 0x06 }))))

/-- ADD, SUB, MUL, MULH, MULHU, AND, OR, XOR, ANDN, SHL, SHR, SAR, ROR, MIN, MAX, MINU, MAXU and LEA: the result of R124 to both
targets, no fault and no flag. ABS, CLZ, CTZ, POPC, SEXT, ZEXT, BFX and BFI (06 R126). ADDI, ANDI, ORI, XORI, SHLI, SHRI and SARI
(06 R127). -/
def Obligations.ScalarArithmetic : Prop :=
  (∀ i f s e, Spec.arith i = some f → Fires i s e → exec i s = .next (after i e (gives e (.scalar (f e.a e.b))))) ∧
  (∀ i f s e, Spec.unary i = some f → i.wf = true → Fires i s e →
     ∃ r, exec i s = .next (after i e (gives e (.scalar r))) ∧ f e.a e.b e.c r) ∧
  (∀ i f s e, Spec.immediate i = some f → Fires i s e → exec i s = .next (after i e (gives e (.scalar (f e.a)))))

/-- DIV, DIVU, REM and REMU truncate toward zero, with the results of R125 for a divisor of 0 and for −2^63 by −1. -/
def Obligations.Division : Prop :=
  (∀ i f s e, Spec.division i = some f → Fires i s e → exec i s = .next (after i e (gives e (.scalar (f e.a e.b))))) ∧
  (∀ p u t f, Spec.division (.div p u t) = some f → f (BitVec.intMin 64) (-1) = BitVec.intMin 64) ∧
  (∀ p u t f, Spec.division (.rem_ p u t) = some f → f (BitVec.intMin 64) (-1) = 0)

/-- TEQ, TNE, TLT, TLE, TLTU, TLEU, TEQI, TNEI, TLTI and TLEI send a predicate that is 1 exactly when the relation holds (06 R128).
-/
def Obligations.ScalarCompare : Prop :=
  ∀ i f s e, Spec.compare i = some f → Fires i s e →
    ∃ b, exec i s = .next (after i e (gives e (.pred b))) ∧ (b = true ↔ f e.a e.b)

/-- FADD, FSUB, FMUL, FFMA, FDIV, FSQRT, FABS, FNEG and FRND: the exact result of the F32 operands, rounded once by FRND, in bits
[31:0] with bits [63:32] zero, with the flags of the operation and of the rounding (06 R129; 02 R35, R37). FCVT reads its source
from the low bits of its width and places the converted lane in the scalar, with the flags of the conversion (06 R131). -/
def Obligations.ScalarFloat : Prop :=
  (∀ i f s e, Spec.floatOp (rndOf e.r.frnd) i = some f → Fires i s e →
     ∃ c fl, (c, fl) = fmtF32.finish (rndOf e.r.frnd) (f (Spec.f32 e.a) (Spec.f32 e.b) (Spec.f32 e.c)) ∧
       exec i s = .next (after i e (givesF e (.scalar (BitVec.ofNat 64 c)) fl)) ∧ c < 2 ^ 32) ∧
  (∀ p d src t s e, (Instr.fcvt p d src t).wf = true → Fires (.fcvt p d src t) s e →
     exec (.fcvt p d src t) s = .next (after (.fcvt p d src t) e
       (givesF e (.scalar (tyPlace d (convert d src (rndOf e.r.frnd) (rndOf e.r.frnd) (e.a.toNat % 2 ^ tyWidth src)).1))
         (convert d src (rndOf e.r.frnd) (rndOf e.r.frnd) (e.a.toNat % 2 ^ tyWidth src)).2)))

/-- FMIN and FMAX return the other operand for one NaN, the canonical NaN for two, and order −0 below +0; FEQ, FLT and FLE compare,
with 0 for a NaN operand and NV from FLT and FLE; FCLASS sets the one bit of the operand's class (06 R129, R130). -/
def Obligations.FloatOrder : Prop :=
  (∀ p u t s e, Fires (.fmin p u t) s e → ∃ r,
    exec (.fmin p u t) s = .next (after (.fmin p u t) e (givesF e (.scalar (BitVec.ofNat 64 (fmtF32.roundVal (rndOf e.r.frnd) r).1)) 0)) ∧
    r = if (Spec.f32 e.a).isNan then Spec.f32 e.b else if (Spec.f32 e.b).isNan then Spec.f32 e.a
      else if Spec.notAbove (Spec.f32 e.a) (Spec.f32 e.b) then Spec.f32 e.a else Spec.f32 e.b) ∧
  (∀ p u t s e, Fires (.fmax p u t) s e → ∃ r,
    exec (.fmax p u t) s = .next (after (.fmax p u t) e (givesF e (.scalar (BitVec.ofNat 64 (fmtF32.roundVal (rndOf e.r.frnd) r).1)) 0)) ∧
    r = if (Spec.f32 e.a).isNan then Spec.f32 e.b else if (Spec.f32 e.b).isNan then Spec.f32 e.a
      else if Spec.notAbove (Spec.f32 e.b) (Spec.f32 e.a) then Spec.f32 e.a else Spec.f32 e.b) ∧
  (∀ p u t s e, Fires (.feq p u t) s e →
    exec (.feq p u t) s = .next (after (.feq p u t) e (gives e (.pred ((Spec.f32 e.a).eq (Spec.f32 e.b)))))) ∧
  (∀ p u t s e, Fires (.flt p u t) s e → exec (.flt p u t) s = .next (after (.flt p u t) e
    (if (Spec.f32 e.a).isNan || (Spec.f32 e.b).isNan then givesF e (.pred false) flagNV
      else gives e (.pred ((Spec.f32 e.a).lt (Spec.f32 e.b)))))) ∧
  (∀ p u t s e, Fires (.fle p u t) s e → exec (.fle p u t) s = .next (after (.fle p u t) e
    (if (Spec.f32 e.a).isNan || (Spec.f32 e.b).isNan then givesF e (.pred false) flagNV
      else gives e (.pred ((Spec.f32 e.a).lt (Spec.f32 e.b) || (Spec.f32 e.a).eq (Spec.f32 e.b)))))) ∧
  (∀ p u t s e, Fires (.fclass p u t) s e →
    exec (.fclass p u t) s = .next (after (.fclass p u t) e (gives e (.scalar (BitVec.ofNat 64 (2 ^ Spec.classBit (Spec.f32 e.a)))))))

/-! ## Vector and sampling instructions (07) -/

/-- The lane-wise instructions of one vector: VABS, VNEG, VSQRT, VEXP2, VLOG2, VRCP, VRSQ, VTANH, VRND, VPOPC and VCLZ. Every lane
of the result is the function of the lane of the operand, and the flags of all lanes are OR-ed (07 R138, R140; 02 R37, R48). The
lane-wise instructions of two vectors: VADD, VSUB, VMUL, VDIV, VMIN, VMAX, VADDS, VSUBS, VMULH, VAND, VOR, VXOR, VSHL, VSHR, VSAR,
VCEQ, VCLT, VCLE and VLDEXP (07 R138, R139, R140). The lane-wise instructions of three vectors: VFMA, VFMS (rounded once), VSEL and
VCLAMP (07 R138, R139, R140). -/
def Obligations.VectorLanes : Prop :=
  (∀ i x f s e, Spec.lanes1 (rndOf e.r.frnd) i = some (x, f) → Fires i s e → ∃ r,
     exec i s = .next (after i e (givesF e (.vector r)
       (Spec.orOf (tyLanes x) fun k => (f (Spec.lane (tyWidth x) e.va k)).2))) ∧
     ∀ k, k < tyLanes x → Spec.lane (tyWidth x) r k = (f (Spec.lane (tyWidth x) e.va k)).1 % 2 ^ tyWidth x) ∧
  (∀ i x f s e, Spec.lanes2 (rndOf e.r.frnd) i = some (x, f) → Fires i s e → ∃ r,
     exec i s = .next (after i e (givesF e (.vector r)
       (Spec.orOf (tyLanes x) fun k => (f (Spec.lane (tyWidth x) e.va k) (Spec.lane (tyWidth x) e.vb k)).2))) ∧
     ∀ k, k < tyLanes x →
       Spec.lane (tyWidth x) r k = (f (Spec.lane (tyWidth x) e.va k) (Spec.lane (tyWidth x) e.vb k)).1 % 2 ^ tyWidth x) ∧
  (∀ i x f s e, Spec.lanes3 (rndOf e.r.frnd) i = some (x, f) → i.wf = true → Fires i s e → ∃ r,
     exec i s = .next (after i e (givesF e (.vector r) (Spec.orOf (tyLanes x) fun k =>
       (f (Spec.lane (tyWidth x) e.va k) (Spec.lane (tyWidth x) e.vb k) (Spec.lane (tyWidth x) e.vc k)).2))) ∧
     ∀ k, k < tyLanes x → Spec.lane (tyWidth x) r k =
       (f (Spec.lane (tyWidth x) e.va k) (Spec.lane (tyWidth x) e.vb k) (Spec.lane (tyWidth x) e.vc k)).1 % 2 ^ tyWidth x)

/-- VBCAST, VIOTA, VINS, VSHUF, VROT, VZIP and VUNZIP: every lane of both results (07 R143, R150). VCVTF and VCVTT: lanes below both
lane counts are converted, VCVTT toward zero; every other bit of the result is zero (07 R141). -/
def Obligations.VectorMoves : Prop :=
  (∀ i x f g s e, Spec.moved e i = some (x, f, g) → i.wf = true → Fires i s e → ∃ r q,
     exec i s = .next (after i e { out0 := some (.vector r), out1 := some (.vector q), pois := e.pois }) ∧
     ∀ k, k < tyLanes x → Spec.lane (tyWidth x) r k = f k ∧ Spec.lane (tyWidth x) q k = g k) ∧
  (∀ i d src f s e, Spec.converts e i = some (d, src, f) → i.wf = true → Fires i s e → ∃ r,
     exec i s = .next (after i e (givesF e (.vector r)
       (Spec.orOf (min (tyLanes src) (tyLanes d)) fun k => (f (Spec.lane (tyWidth src) e.va k)).2))) ∧
     ∀ k, k < tyLanes d → Spec.lane (tyWidth d) r k =
       if k < tyLanes src then (f (Spec.lane (tyWidth src) e.va k)).1 % 2 ^ tyWidth d else 0)

/-- VEXT, VREDSUM, VREDMAX, VREDMIN, VREDAND, VREDOR, VARGMAX, VDOTF, VMASKPOP and CHKL send the scalar their rule gives, VPACK4,
VUNPK4, VPACK6, VUNPK6 and VSCAN the vector, with their flags (07 R142-R146; 06 R134; 02 R40-R46). -/
def Obligations.VectorScalars : Prop :=
  (∀ i r s e, Spec.reduction e i = some r → Fires i s e → exec i s = .next (after i e (givesF e (.scalar r.1) r.2))) ∧
  (∀ i r s e, Spec.packing e i = some r → Fires i s e → exec i s = .next (after i e (givesF e (.vector r.1) r.2)))

/-- VRAND, VDRAW, VDRAWM and RAND with RNGMODE 0: they consume their uniforms in the place of their slot in the task's stream, which
the key, the tag and the record index alone determine (07 R147-R152; 06 R134). -/
def Obligations.Sampling : Prop :=
  ∀ i n f s e, Spec.sampling e i = some (n, f) → e.r.rngmode = false → Fires i s e → ∃ us,
    exec i s = .next (after i e (givesF e (f us).1 (f us).2)) ∧ us.length = n ∧
    ∀ k, k < n → us[k]? = some (uniformKeyed e.r.rngkey e.r.tag e.r.idx
      (e.r.rngctr + BitVec.ofNat 64 (uniformSum (e.p.words.take e.k)) + BitVec.ofNat 64 k)).toNat

/-- TIME sends the package time base, ISPOIS the poison bit of its operand as an unpoisoned predicate, and PMARK the time, which it
also records with l[31:0] at belay (06 R134). CSRR, CSRW, CSRS and CSRC send the register's value at the start of the pitch,
unpoisoned, 0 for a reserved number; the last three ask for their change at belay, and poisoned data marks the pitch
control-poisoned (05 R102, R108; 06 R132). -/
def Obligations.TimeAndRegisters : Prop :=
  ((∀ p u t s e, Fires (.time_ p u t) s e →
     exec (.time_ p u t) s = .next (after (.time_ p u t) e (gives e (.scalar (BitVec.ofNat 64 (s.cycle / 17)))))) ∧
   (∀ p u t s e, Fires (.ispois p u t) s e → exec (.ispois p u t) s =
     .next (after (.ispois p u t) e { out0 := some (.pred e.left.pois), out1 := some (.pred e.left.pois), pois := false })) ∧
   (∀ p u t s e, Fires (.pmark p u t) s e → exec (.pmark p u t) s = .next (after (.pmark p u t) e
     { gives e (.scalar (BitVec.ofNat 64 (s.cycle / 17))) with
       effects := [.mark (BitVec.ofNat 32 e.a.toNat) (BitVec.ofNat 64 (s.cycle / 17))] }))) ∧
  ((∀ p n t s e, Fires (.csrr p n t) s e →
     exec (.csrr p n t) s = .next (after (.csrr p n t) e { out0 := some (.scalar (e.csr n)) })) ∧
   (∀ p n t s e, Fires (.csrw p n t) s e → exec (.csrw p n t) s =
     .next (after (.csrw p n t) e { out0 := some (.scalar (e.csr n)), effects := [.csr .write n e.a], ctl := e.left.pois })) ∧
   (∀ p n t s e, Fires (.csrs p n t) s e → exec (.csrs p n t) s =
     .next (after (.csrs p n t) e { out0 := some (.scalar (e.csr n)), effects := [.csr .set n e.a], ctl := e.left.pois })) ∧
   (∀ p n t s e, Fires (.csrc p n t) s e → exec (.csrc p n t) s =
     .next (after (.csrc p n t) e { out0 := some (.scalar (e.csr n)), effects := [.csr .clear n e.a], ctl := e.left.pois })) ∧
   (∀ e : Env, e.csr 0x023 = e.r.frnd.setWidth 64 ∧ e.csr 0x024 = e.r.fflags.setWidth 64 ∧ e.csr 0x031 = e.r.rngctr ∧
     e.csr 0x010 = e.p.snap.ctags ∧ e.csr 0x041 = e.p.snap.time ∧ e.csr 0x003 = e.r.ctx.setWidth 64 ∧ e.csr 0xFFF = 0))

/-! ## Memory instructions (10) -/

/-- The loads LDB, LDBU, LDH, LDHU, LDW, LDWU, LDD, LDV and LDVX, when their address passes the checks of R210, no unresolved
operation of lower LSID may overlap and nothing holds their lines: the bytes the task sees after its stores of lower LSID, extended
as R212 says, poisoned by the address and by the lines read; the lines read are noted and verified. Memory is as the load has read
it: where no sector was read ahead (12 R259), as it stands; a sector read ahead, as it stood then. What a task reads of one line is
memory's byte where it has stored nothing, else its own byte of its shadow line (09 R201; 10 R212). -/
def Obligations.Loads : Prop :=
  (∀ i l n spans mk s e bs, Spec.loads e i = some (l, n, spans, mk) → Fires i s e →
     e.access { align := n, r := true } spans = .ok bs → e.behindLower l.toNat bs = false → e.held false bs = false →
     ∃ d b, (d, b) = ((s.asRead bs (e.p.earlyOf e.k)).applyStores e.t (e.p.storesBelow l.toNat)).readBounds e.t bs ∧
       exec i s = .next (((after i e { out0 := some (mk d), pois := e.pois || b, counted := e.pois || b }).touchPad
         (bs.map fun x => lineKey x.loc)).readLines e.ctx (bs.map fun x => lineKey x.loc))) ∧
  (∀ (s : State) bs, s.asRead bs [] = s) ∧
  (∀ (s : State) bs (x : SectorRead) k, s.mem.wf = true → k < 16 → (s.asRead bs [x]).mem.read (x.loc + k) = BitVec.ofNat 8 (x.data.toNat / 2 ^ (8 * k))) ∧
  (∀ (s : State) bs (x : SectorRead) a, s.mem.wf = true → a < x.loc ∨ x.loc + 16 ≤ a → (s.asRead bs [x]).mem.read a = s.mem.read a) ∧
  (∀ (s : State) (r : Run) loc n k, loc % 128 + n ≤ 128 → k < n →
     (s.readOwn r loc n).1[k]? = some
       (match r.shadow.find? fun x => x.loc == loc - loc % 128 with
         | none => s.mem.read (loc + k)
         | some x => if x.mask.getLsbD (loc % 128 + k) then BitVec.ofNat 8 (x.data.toNat / 2 ^ (8 * (loc % 128 + k)))
             else s.mem.read (loc + k)))

/-- The stores STB, STH, STW, STD, STV and STVX, when their address passes the checks of R210 and nothing holds their lines: the
bytes wait for belay in pieces at the locations the checks found, with the poison of the data; a poisoned address marks the pitch
control-poisoned (03 R63; 10 R213). A store as it takes effect at belay (09 R201; 10 R213). Outside the scratchpad: afterwards the
task reads the stored bytes at the location stored to, every other byte as before, and no byte of memory has changed. In the
scratchpad: memory holds the bytes. -/
def Obligations.Stores : Prop :=
  (∀ i l n spans data b s e bs, Spec.stores e i = some (l, n, spans, data, b) → Fires i s e →
     e.access { align := n, w := true } spans = .ok bs → e.held true bs = false →
     ∃ ps, exec i s = .next (after i e { effects := [.store l.toNat ps b],
                                         ctl := if i matches .stvx _ _ then e.left.pois || e.right.pois else e.left.pois }) ∧
       ps.map (fun p => (p.loc, p.bytes)) = bs.map fun x => (x.loc, (data.drop x.off).take x.n)) ∧
  ((∀ (s : State) t r p b, s.run? t = some r → p.local_ = false → p.loc % 128 + p.bytes.length ≤ 128 →
     ∃ r', (s.storePiece t b p).run? t = some r' ∧ (s.storePiece t b p).mem = s.mem ∧
       (∀ a, ((s.storePiece t b p).readOwn r' a 1).1 =
         if p.loc ≤ a ∧ a < p.loc + p.bytes.length then [p.bytes[a - p.loc]?.getD 0] else (s.readOwn r a 1).1)) ∧
   (∀ (s : State) t p b, s.mem.wf = true → p.local_ = true → locSpace p.loc = spPad → (∀ k, (s.line k).chkBad = false) →
     ∀ a, (s.storePiece t b p).mem.read a =
       if p.loc ≤ a ∧ a < p.loc + p.bytes.length then p.bytes[a - p.loc]?.getD 0 else s.mem.read a))

/-- An access that fails a check of R210 raises that fault at its slot and sends no token: every load and store, every synchronised
access, atomic, CAS, reduction and release store, FLUSHL and MWAIT. The node entry a failed walk ended at is verified (09 R206). The
checks of R210, each made of every byte before the next: a byte neither canonical nor in the local window faults ADDR_NONCANON with
the lowest such byte; a misaligned address MISALIGNED; the local window, named by a reduction, an ordered contribution or a release,
XLATE_APERTURE with cause 15 (16 R346); then, part by part of the access,
no valid leaf, a permission missing, an aperture, SYNC missing (SYNC_NOT_SYNC), RAP missing on a page of APER 3
(REMOTE_ATOMIC_DENIED); where no check fails there is no fault. That an address whose leaf is withheld waits before the last five
checks is the MODEL's (log entry 71). -/
def Obligations.AccessFaults : Prop :=
  ((∀ i l n spans mk s e f, Spec.loads e i = some (l, n, spans, mk) → Fires i s e →
     e.access { align := n, r := true } spans = .error f → f.code ≠ fcWait → exec i s = .next (Spec.accessFault e f)) ∧
   (∀ i l n spans data b s e f, Spec.stores e i = some (l, n, spans, data, b) → Fires i s e →
     e.access { align := n, w := true } spans = .error f → f.code ≠ fcWait → exec i s = .next (Spec.accessFault e f)) ∧
   (∀ i nd n wr op b s e f, Spec.immediateOf e i = some (nd, n, wr, op, b) → Fires i s e → e.r.twin = none →
     e.access nd [(e.a.toNat, n)] = .error f → f.code ≠ fcWait → exec i s = .next (Spec.accessFault e f)) ∧
   (∀ i nd n op s e f, Spec.commits e i = some (nd, n, op) → Fires i s e →
     e.access nd [(e.a.toNat, n)] = .error f → f.code ≠ fcWait → exec i s = .next (Spec.accessFault e f)) ∧
   (∀ p l o s e f, Fires (.flushl p l o) s e → e.access { align := 1 } [(Spec.addrS e o / 128 * 128, 128)] = .error f →
     f.code ≠ fcWait → exec (.flushl p l o) s = .next (Spec.accessFault e f)) ∧
   (∀ p l t s e f, Fires (.mwait p l t) s e → e.p.waits = [] → e.access { align := 8, r := true } [(e.a.toNat, 8)] = .error f →
     f.code ≠ fcWait → exec (.mwait p l t) s = .next (Spec.accessFault e f))) ∧
  (∀ (s : State) t c nd a n,
     (∀ k, k < n → (∀ j, j < k → isCanonical ((a + j) % 2 ^ 64) = true ∨ isLocal ((a + j) % 2 ^ 64) = true) →
       isCanonical ((a + k) % 2 ^ 64) = false → isLocal ((a + k) % 2 ^ 64) = false →
       s.checkAccess t c nd [(a, n)] = .error { code := 0x15, addr := BitVec.ofNat 64 (a + k) }) ∧
     ((∀ k, k < n → isCanonical ((a + k) % 2 ^ 64) = true ∨ isLocal ((a + k) % 2 ^ 64) = true) → a % nd.align ≠ 0 →
       s.checkAccess t c nd [(a, n)] = .error { code := 0x16, addr := BitVec.ofNat 64 a }) ∧
     ((∀ k, k < n → isCanonical ((a + k) % 2 ^ 64) = true ∨ isLocal ((a + k) % 2 ^ 64) = true) → a % nd.align = 0 →
       (nd.noLocal = true → isLocal a = true →
         s.checkAccess t c nd [(a, n)] = .error { code := 0x12, cause := 15, addr := BitVec.ofNat 64 a }) ∧
       (nd.noLocal = false ∨ isLocal a = false →
         (s.withheld c a = true ∨ s.withheld c (a + n - 1) = true → s.checkAccess t c nd [(a, n)] = .error { code := fcWait }) ∧
         (s.withheld c a = false → s.withheld c (a + n - 1) = false →
           ∃ ps, ps = partsOf s (some t) c [(a, n)] 0 ∧
             (∀ f, s.checkParts c nd ps = some f → s.checkAccess t c nd [(a, n)] = .error f) ∧
             (s.checkParts c nd ps = none → s.checkAccess t c nd [(a, n)] = .ok (ps.map (Part.bound s t c)))))) ∧
     (∀ ps f, ps.findSome? Part.notMapped = some f → s.checkParts c nd ps = some f) ∧
     (∀ ps, ps.findSome? Part.notMapped = none →
       (∀ f, ps.findSome? (Part.perm s c nd) = some f → s.checkParts c nd ps = some f) ∧
       (ps.findSome? (Part.perm s c nd) = none →
         (∀ f, ps.findSome? (Part.aperture s c nd) = some f → s.checkParts c nd ps = some f) ∧
         (ps.findSome? (Part.aperture s c nd) = none →
           (∀ f, ps.findSome? (Part.notSync nd) = some f → s.checkParts c nd ps = some f) ∧
           (ps.findSome? (Part.notSync nd) = none →
             (∀ f, ps.findSome? (Part.denied nd) = some f → s.checkParts c nd ps = some f) ∧
             (ps.findSome? (Part.denied nd) = none → s.checkParts c nd ps = none))))) ∧
     (∀ (p : Part) x, p.leaf = some (.ok x) →
       p.notMapped = none ∧
       (nd.r = true → leafR x.leaf = false → ∃ m, p.perm s c nd = some { code := 0x11, cause := m, addr := BitVec.ofNat 64 p.va }) ∧
       p.notSync nd = (if nd.sync = true ∧ leafSync x.leaf = false then some { code := 0x17, addr := BitVec.ofNat 64 p.va } else none) ∧
       p.denied nd = (if nd.rap = true ∧ leafAper x.leaf = 3 ∧ leafRap x.leaf = false then
         some { code := 0x13, addr := BitVec.ofNat 64 p.va } else none)) ∧
     (∀ (p : Part) m, p.leaf = some (.error m) → p.notMapped = some { code := 0x10, cause := m, addr := BitVec.ofNat 64 p.va }) ∧
     (∀ (p : Part), p.leaf = none → p.notMapped = none ∧ p.perm s c nd = none ∧ p.aperture s c nd = none ∧ p.notSync nd = none ∧
       p.denied nd = none))

/-- The immediate-class accesses SLD, SLDV, SST, SSTV (their waiting, FILL and CLEAR forms), AMOI, AMOW, AMOF and CAS fire by noting
the access and perform nothing (03 R70, R71): their operation, address and location wait for the pitch's checks, and a placeholder
stands for the result, of the kind the instruction has. In a twin they raise IMMEDIATE_LIMIT (18 R381). -/
def Obligations.ImmediateFires : Prop :=
  ∀ i nd n wr op b s e, Spec.immediateOf e i = some (nd, n, wr, op, b) → Fires i s e →
    (e.r.twin ≠ none → exec i s = .next (raises e { code := 0x06 })) ∧
    (∀ x bs, e.r.twin = none → e.access nd [(e.a.toNat, n)] = .ok (x :: bs) → e.held wr (x :: bs) = false →
      ∃ a v c, exec i s = .next (after i e { out0 := v, ctl := c, imm := some a }) ∧ a.op = op ∧ a.va = e.a ∧ a.loc = x.loc ∧
        a.slot = e.k ∧ a.pois = b ∧ a.targets = [(sigOf i).t0] ∧ (v.isSome ↔ (sigOf i).res ≠ .none))

/-- The reductions REDI, REDW, REDF and REDB, the ordered contributions REDO and DRAWM, and the FILL.REL and PRODUCE.REL forms of
SST and SSTV add one entry to the task's commit set at belay, with their operand and the address (03 R65, R69; 10 R216, R221, R224).
FENCE completes when every copy of the task has performed every read and every write within its scope, and awaits them otherwise (10
R229). FLUSHL of a line whose page is mapped adds the flush of the line to the commit set (10 R230). PREF fires with a prefetch of
the line of its address at belay, whatever the address (10 R210, R231); a poisoned address that could be prefetched marks the pitch
control-poisoned (03 R63; log entry 96). MWAIT on a word that can be read returns the word if it is at least r, unsigned; else the
tile waits on the word, and every examination keeps the first word that has reached r (11 R244). On memory of a peer whose capability
record does not list opcode 0xC9 it raises OP_UNSUPPORTED (19 R395). -/
def Obligations.CommitEntriesAndFences : Prop :=
  (∀ i nd n op s e bs, Spec.commits e i = some (nd, n, op) → Fires i s e → e.access nd [(e.a.toNat, n)] = .ok bs →
     ∃ x, exec i s = .next (after i e { effects := [.entry x], ctl := e.left.pois }) ∧ Spec.entryOf e i op e.a x) ∧
  ((∀ p l x s e, Fires (.fence p l x) s e →
     ((∀ c ∈ s.copiesOf e.t e.r, e.fenced x.toNat c = true) → exec (.fence p l x) s = .next (after (.fence p l x) e {})) ∧
     ((∃ c ∈ s.copiesOf e.t e.r, e.fenced x.toNat c = false) → exec (.fence p l x) s = .next (Spec.awaits e))) ∧
   (∀ p l o s e bs, Fires (.flushl p l o) s e → e.access { align := 1 } [(Spec.addrS e o / 128 * 128, 128)] = .ok bs →
     ∃ x, exec (.flushl p l o) s = .next (after (.flushl p l o) e { effects := [.entry x], ctl := e.left.pois }) ∧
       Spec.entryOf e (.flushl p l o) .flush (BitVec.ofNat 64 (Spec.addrS e o)) x) ∧
   (∀ p l o s e, Fires (.pref p l o) s e →
     exec (.pref p l o) s = .next (after (.pref p l o) e { does [.prefetchLine (BitVec.ofNat 64 (Spec.addrL e o 128))] with
       ctl := e.left.pois && e.prefetchable (Spec.addrL e o 128) }))) ∧
  (∀ p l t s e x bs, Fires (.mwait p l t) s e → e.p.waits = [] → e.access { align := 8, r := true } [(e.a.toNat, 8)] = .ok (x :: bs) →
     e.held false (x :: bs) = false →
     (s.mwaitLacks x.loc = true → exec (.mwait p l t) s = .next (raises e { code := 0x14, addr := e.a })) ∧
     (s.mwaitLacks x.loc = false → ∃ d b, (d, b) = s.readOwn e.r x.loc 8 ∧
       (e.b.toNat ≤ leNat d → exec (.mwait p l t) s =
         .next (((after (.mwait p l t) e { out0 := some (.scalar (BitVec.ofNat 64 (leNat d))), pois := e.pois || b }).touchPad
           [lineKey x.loc]).readLines e.ctx [lineKey x.loc])) ∧
       (leNat d < e.b.toNat → ∃ m, m.slot = e.k ∧ m.loc = x.loc ∧ m.t = e.b ∧ m.hit = none ∧ exec (.mwait p l t) s =
         .next (((e.store { (e.p.setStatus e.k .pending).skip e.k with waits := e.p.waits ++ [m] } true).touchPad
           [lineKey x.loc]).readLines e.ctx [lineKey x.loc])))) ∧
  (∀ (s : State) l, (locPkg l = 0 → s.mwaitLacks l = false) ∧
    (locPkg l ≠ 0 → (s.mwaitLacks l = false ↔ ∃ q, s.peer? (locPkg l - 1) = some q ∧ q.ops.getLsbD 41 = true))) ∧
  (∀ (s : State) t r m d b, m.hit = none → locSpace m.loc ≠ spPad → (d, b) = s.readOwn r m.loc 8 →
     (leNat d < m.t.toNat → s.examineWait t r m = m) ∧
     (m.t.toNat ≤ leNat d → (s.examineWait t r m).hit = some (BitVec.ofNat 64 (leNat d), b))) ∧
  (∀ (s : State) t r m w, m.hit = some w → s.examineWait t r m = m)

/-! ## Copies, tags and streams (11) -/

/-- CPY, CPYS, CPYR and CPYB: a descriptor that passes the checks of R238 is issued at belay with its fields as R236 lays them out;
a descriptor that fails them raises the fault of the first failing check; while its tag is pending the instruction waits; a copy
that would make a twin or a REVOCABLE-ONLY task irrevocable raises IMMEDIATE_LIMIT (R235). CWAITA waits until CTAGS AND m is not 0
and returns its lowest set bit, all ones at once for m = 0; CWAITL waits until every bit of m is set and returns m; CFIND returns
the lowest set bit now; CPYQ returns the state of the last copy of its tag; CTCLR clears at belay (11 R242, R243). -/
def Obligations.CopiesAndTags : Prop :=
  (∀ i l k f s e, Spec.copies i = some (l, k, f) → Fires i s e →
     ((descBad f e.va || e.portsBad e.va) = true → exec i s = .next (raises e { code := 0x02 })) ∧
     ((descBad f e.va || e.portsBad e.va) = false →
       (∀ a, descMisaligned e.va = some a → exec i s = .next (raises e { code := 0x16, addr := a })) ∧
       (descMisaligned e.va = none →
         (∀ a, descNonCanon f e.va = some a → exec i s = .next (raises e { code := 0x15, addr := a })) ∧
         (descNonCanon f e.va = none →
           ∃ d : CopyDesc, d.kind = k ∧ d.src = qLane e.va 0 ∧ d.dst = qLane e.va 1 ∧ d.tag = some (qTag e.va) ∧
             d.n = (if f = .cpys then qRows e.va * (qRowLen e.va / 16) else qLen e.va / 16) ∧
             d.stamp = (if qStamp e.va then some (qLane e.va 6, qLane e.va 7) else none) ∧
             (((e.r.twin.isSome || e.r.revocableOnly) && d.irrevocable e.t) = true → exec i s = .next (raises e { code := 0x06 })) ∧
             (((e.r.twin.isSome || e.r.revocableOnly) && d.irrevocable e.t) = false →
               (e.r.ctagpend.getLsbD (qTag e.va) = true → exec i s = .next (Spec.awaits e)) ∧
               (e.r.ctagpend.getLsbD (qTag e.va) = false →
                 exec i s = .next (after i e { effects := [.copy l.toNat d], ctl := e.left.pois }))))))) ∧
  ((∀ p l t s e, Fires (.cwaita p l t) s e →
     (e.a = 0 → exec (.cwaita p l t) s =
       .next (after (.cwaita p l t) e { out0 := some (.scalar 0xFFFF_FFFF_FFFF_FFFF), pois := e.pois })) ∧
     (e.a ≠ 0 → e.r.ctags &&& e.a = 0 → exec (.cwaita p l t) s = .next (Spec.awaits e)) ∧
     (e.r.ctags &&& e.a ≠ 0 → exec (.cwaita p l t) s =
       .next (after (.cwaita p l t) e { out0 := some (.scalar (Spec.lowest (e.r.ctags &&& e.a))), pois := e.pois }))) ∧
   (∀ p l t s e, Fires (.cwaitl p l t) s e →
     (e.r.ctags &&& e.a = e.a → exec (.cwaitl p l t) s =
       .next (after (.cwaitl p l t) e { out0 := some (.scalar e.a), pois := e.pois })) ∧
     (e.r.ctags &&& e.a ≠ e.a → exec (.cwaitl p l t) s = .next (Spec.awaits e))) ∧
   (∀ p l t s e, Fires (.cfind p l t) s e → exec (.cfind p l t) s =
     .next (after (.cfind p l t) e { out0 := some (.scalar (Spec.lowest (e.r.ctags &&& e.a))), pois := e.pois })) ∧
   (∀ p l t s e, Fires (.cpyq p l t) s e → exec (.cpyq p l t) s =
     .next (after (.cpyq p l t) e { out0 := some (.scalar (e.copyState (e.a.toNat % 64))), pois := e.pois })) ∧
   (∀ p l s e, Fires (.ctclr p l) s e → exec (.ctclr p l) s =
     .next (after (.ctclr p l) e { effects := [.ctclr e.a], ctl := e.left.pois })))

/-- SPUSH and SEOS reserve a place on a bound output port and send their packet at belay, waiting while there is no place; SPOP
returns the packet of its place in slot order and removes it at belay, waits while there is none, and returns the end marker on an
ended port with no packet left; SPEEK returns the same packet or marker and removes nothing, and never waits for a packet; a port not
bound in their direction raises ILLEGAL_ENCODING; SSTAT reports the port and never faults (11 R251-R254, R257). The MODEL's choices:
SEOS takes a place like a packet (log entry 47); what SSTAT counts, and an unbound port reads as 0 in every field (log entries 98,
121); a SPOP or SPEEK behind the ending packet gets the marker at once (log entry 99), and one of them is examined again while an
earlier SPOP of its port may still fire or not. -/
def Obligations.StreamPorts : Prop :=
  (∀ p l q s e, Fires (.spush p l q) s e →
    ((e.r.outPort q.toNat).bound = false → exec (.spush p l q) s = .next (raises e { code := 0x02 })) ∧
    ((e.r.outPort q.toNat).bound = true →
      ((e.r.outPort q.toNat).hasRoom (e.p.reserved q.toNat) = true → exec (.spush p l q) s = .next (after (.spush p l q) e
        (does [.push q.toNat (e.va.setWidth 1024) (e.b.setWidth 3) false false (e.left.pois || e.right.pois)]))) ∧
      ((e.r.outPort q.toNat).hasRoom (e.p.reserved q.toNat) = false → exec (.spush p l q) s = .next (Spec.awaits e)))) ∧
  (∀ p l m q s e, Fires (.seos p l m q) s e →
    ((e.r.outPort q.toNat).bound = false → exec (.seos p l m q) s = .next (raises e { code := 0x02 })) ∧
    ((e.r.outPort q.toNat).bound = true →
      ((e.r.outPort q.toNat).hasRoom (e.p.reserved q.toNat) = true →
        exec (.seos p l m q) s = .next (after (.seos p l m q) e (does [.push q.toNat 0 0 (m == 0) (m == 1) e.pois]))) ∧
      ((e.r.outPort q.toNat).hasRoom (e.p.reserved q.toNat) = false → exec (.seos p l m q) s = .next (Spec.awaits e)))) ∧
  (∀ p l q t s e, Fires (.spop p l q t) s e →
    (e.inPort? q.toNat = none → exec (.spop p l q t) s = .next (raises e { code := 0x02 })) ∧
    (∀ y, e.inPort? q.toNat = some y → e.position q = none → exec (.spop p l q t) s = .next (e.store (e.p.skip e.k) false)) ∧
    (∀ y n, e.inPort? q.toNat = some y → e.position q = some n →
      (∀ k, y.queue[n]? = some k → exec (.spop p l q t) s = .next (after (.spop p l q t) e
        { out0 := some (.vector (packetVec k.payload (headerWord k))), pois := e.pois || k.pois, effects := [.pop q.toNat],
          counted := e.pois || k.pois })) ∧
      (y.queue[n]? = none → y.ended = true → exec (.spop p l q t) s = .next (after (.spop p l q t) e
        { out0 := some (.vector (packetVec 0 (BitVec.ofNat 64 (16 + 128 + 2 ^ 32 * 0xFFFFFFFF)))), pois := e.pois, counted := e.pois })) ∧
      (y.queue[n]? = none → y.ended = false → exec (.spop p l q t) s = .next (Spec.awaits e)))) ∧
  (∀ p l q t s e, Fires (.speek p l q t) s e →
    (e.inPort? q.toNat = none → exec (.speek p l q t) s = .next (raises e { code := 0x02 })) ∧
    (∀ y, e.inPort? q.toNat = some y → e.position q = none → exec (.speek p l q t) s = .next (e.store (e.p.skip e.k) false)) ∧
    (∀ y n, e.inPort? q.toNat = some y → e.position q = some n →
      (∀ k, y.queue[n]? = some k → exec (.speek p l q t) s = .next (after (.speek p l q t) e
        { out0 := some (.vector (packetVec k.payload (headerWord k))), pois := e.pois || k.pois })) ∧
      (y.queue[n]? = none → y.ended = true → exec (.speek p l q t) s = .next (after (.speek p l q t) e
        { out0 := some (.vector (packetVec 0 (BitVec.ofNat 64 (16 + 128 + 2 ^ 32 * 0xFFFFFFFF)))), pois := e.pois })) ∧
      (y.queue[n]? = none → y.ended = false → exec (.speek p l q t) s = .next (after (.speek p l q t) e
        { out0 := some (.vector 0), pois := e.pois })))) ∧
  (∀ p l m q t s e, Fires (.sstat p l m q t) s e → exec (.sstat p l m q t) s =
    .next (after (.sstat p l m q t) e { out0 := some (.scalar (e.portStatus (m == 1) q.toNat)), pois := e.pois }))

/-! ## Matrix and graph instructions (08, 13, 15) -/

/-- BLOAD, BSWAP, BCLR, MMA, MMAT, MMAA, ACCZ, ACCWR, ACCST, ACCSTAT and ACCSCL ask for their operation at belay with the control
words they were given; a poisoned control word marks the pitch control-poisoned (08 R161-R179). ACCRD returns half a row of its
accumulator with its poison once no operation on it is outstanding; MSYNC the poison summary once none is outstanding at all (08
R176, R180). -/
def Obligations.MatrixInstructions : Prop :=
  (∀ i l op c s e, Spec.matrix e i = some (l, op, c) → Fires i s e →
    exec i s = .next (after i e { effects := [.matrix l.toNat op], ctl := c })) ∧
  (∀ p l a t s e, Fires (.accrd p l a t) s e →
    ((∃ j ∈ (s.tile e.t).jobs, a.toNat ∈ j.op.accs) → exec (.accrd p l a t) s = .next (Spec.awaits e)) ∧
    ((∀ j ∈ (s.tile e.t).jobs, a.toNat ∉ j.op.accs) → ∃ row, row = (s.tile e.t).accRow a.toNat (e.a.toNat % 128) ∧
      exec (.accrd p l a t) s = .next (after (.accrd p l a t) e
        { out0 := some (.vector (BitVec.ofNat 2048 (row.bits.toNat / 2 ^ (if e.a.getLsbD 7 then 2048 else 0))))
          pois := e.pois || row.pois, effects := [.rowWord e.a], ctl := e.left.pois }))) ∧
  (∀ p l t s e, Fires (.msync p l t) s e →
    ((s.tile e.t).jobs ≠ [] → exec (.msync p l t) s = .next (Spec.awaits e)) ∧
    ((s.tile e.t).jobs = [] → exec (.msync p l t) s =
      .next (after (.msync p l t) e { out0 := some (.scalar (s.tile e.t).summary) })))

/-- DEC, SPAWN, SEND, BIND and UNBIND with legal words add one entry to the commit set (13 R286, R287; 15 R325). Graph and rope
instructions with illegal words raise ILLEGAL_ENCODING or MISALIGNED as they fire (13 R286; 15 R325, R327): an amount of 0 or a
target outside the template, non-zero zero fields, a misaligned template or record address. ROPEJOIN and ROPEWAIT are
immediate-class: they fire by noting their access; ROPELEAVE and ROPEARR act at belay; ROPESZ returns the members and the phase of
the rope, 0 for an unknown key (15 R326-R328). -/
def Obligations.GraphInstructions : Prop :=
  ((∀ p l s e, Fires (.dec p l) s e → e.decBad e.a e.b = false → e.b.toNat % 256 = 0 →
     ∃ x, exec (.dec p l) s = .next (after (.dec p l) e (does [.entry x])) ∧
       Spec.entryOf e (.dec p l) (.dec (e.a.setWidth 32) e.b) e.b x) ∧
   (∀ p l s e, Fires (.spawn p l) s e → leZeros (e.va.setWidth 256) = true → (leTempl (e.va.setWidth 256)).toNat % 256 = 0 →
     (leRename (e.va.setWidth 256) = 1 ∨ (leRename (e.va.setWidth 256)).toNat % 8 = 0) →
     ∃ x, exec (.spawn p l) s = .next (after (.spawn p l) e (does [.entry x])) ∧
       Spec.entryOf e (.spawn p l) (.spawn (e.va.setWidth 256)) 0 x) ∧
   (∀ p l s e, Fires (.send p l) s e → e.sendBad e.b = false →
     ∃ x, exec (.send p l) s = .next (after (.send p l) e (does [.entry x])) ∧
       Spec.entryOf e (.send p l) (.send (e.va.setWidth 512) e.b) 0 x) ∧
   (∀ p l s e, Fires (.bind_ p l) s e → e.b.toNat < 2 ^ 43 → e.a.toNat % 256 = 0 →
     ∃ x, exec (.bind_ p l) s = .next (after (.bind_ p l) e (does [.entry x])) ∧ Spec.entryOf e (.bind_ p l) (.bind e.a e.b) 0 x) ∧
   (∀ p l s e, Fires (.unbind p l) s e → e.a.toNat < 256 →
     ∃ x, exec (.unbind p l) s = .next (after (.unbind p l) e (does [.entry x])) ∧
       Spec.entryOf e (.unbind p l) (.unbind (e.a.setWidth 8)) 0 x)) ∧
  ((∀ p l s e, Fires (.dec p l) s e →
     (e.decBad e.a e.b = true → exec (.dec p l) s = .next (raises e { code := 0x02 })) ∧
     (e.decBad e.a e.b = false → e.b.toNat % 256 ≠ 0 → exec (.dec p l) s = .next (raises e { code := 0x16, addr := e.b })) ∧
     (e.a.toNat / 2 ^ 24 % 64 = 0 → e.decBad e.a e.b = true) ∧ (2 ^ 32 ≤ e.a.toNat → e.decBad e.a e.b = true)) ∧
   (∀ p l s e, Fires (.spawn p l) s e → leZeros (e.va.setWidth 256) = false → exec (.spawn p l) s = .next (raises e { code := 0x02 })) ∧
   (∀ p l s e, Fires (.send p l) s e → e.sendBad e.b = true → exec (.send p l) s = .next (raises e { code := 0x02 })) ∧
   (∀ p l s e, Fires (.bind_ p l) s e →
     (2 ^ 43 ≤ e.b.toNat → exec (.bind_ p l) s = .next (raises e { code := 0x02 })) ∧
     (e.b.toNat < 2 ^ 43 → e.a.toNat % 256 ≠ 0 → exec (.bind_ p l) s = .next (raises e { code := 0x16, addr := e.a }))) ∧
   (∀ p l s e, Fires (.unbind p l) s e → 256 ≤ e.a.toNat → exec (.unbind p l) s = .next (raises e { code := 0x02 })) ∧
   (∀ p l s e, Fires (.ropearr p l) s e → 2 ^ 32 ≤ e.a.toNat → exec (.ropearr p l) s = .next (raises e { code := 0x02 }))) ∧
  ((∀ p l t s e m, Fires (.ropejoin p l t) s e → e.r.twin = none → e.member e.b = some m → e.a.toNat < 2 ^ 32 →
     ∃ a, exec (.ropejoin p l t) s = .next (after (.ropejoin p l t) e { out0 := some (.scalar 0), ctl := e.pois, imm := some a }) ∧
       a.op = .ropeJoin (e.a.setWidth 32) m ∧ a.slot = e.k ∧ a.targets = [t]) ∧
   (∀ p l t s e, Fires (.ropewait p l t) s e → e.r.twin = none → e.a.toNat < 2 ^ 32 →
     ∃ a, exec (.ropewait p l t) s = .next (after (.ropewait p l t) e { out0 := some (.scalar 0), ctl := e.pois, imm := some a }) ∧
       a.op = .ropeWait (e.a.setWidth 32) ∧ a.slot = e.k ∧ a.targets = [t]) ∧
   (∀ p l s e m, Fires (.ropeleave p l) s e → e.member e.b = some m → e.a.toNat < 2 ^ 32 → exec (.ropeleave p l) s =
     .next (after (.ropeleave p l) e { effects := [.ropeLeave (e.a.setWidth 32) m], ctl := e.pois })) ∧
   (∀ p l s e, Fires (.ropearr p l) s e → e.a.toNat < 2 ^ 32 → exec (.ropearr p l) s =
     .next (after (.ropearr p l) e { effects := [.ropeArr (e.a.setWidth 32)], ctl := e.pois })) ∧
   (∀ p l t s e, Fires (.ropesz p l t) s e → e.a.toNat < 2 ^ 32 → exec (.ropesz p l t) s = .next (after (.ropesz p l t) e
     { out0 := some (.scalar (match s.ropes.find? fun x => x.key == e.a.setWidth 32 && x.ctx == e.ctx with
         | some x => BitVec.ofNat 64 (x.members.length + 2 ^ 32 * x.phase.toNat)
         | none => 0)), pois := e.pois, ctl := e.pois })))

/-! ## Taking a fault and returning from one (03, 13, 18) -/

/-- Taking a fault (03 R76; 18 R371): the task enters STALLED, its pitch is back at its start with no token and no effect, its
registers, stores and commit set are as before, the discard of a pitch that fired is counted (17 R354), and a record with the next
SEQ awaits RESUME. -/
def Obligations.TakesFault : Prop :=
  ∀ (s : State) t r spec resume c x, s.run? t = some r → r.twin = none → s.ctx? r.ctx = some x →
    ∃ r' y, (s.takeFault t spec resume c).run? t = some r' ∧ (s.takeFault t spec resume c).ctx? r.ctx = some y ∧
      r'.phase = .stalled x.seq resume c ∧ r'.g = r.g ∧ r'.vr = r.vr ∧ r'.shadow = r.shadow ∧ r'.commit = r.commit ∧
      r'.next = r.next ∧ r'.ctags = r.ctags ∧ r'.fflags = r.fflags ∧ r'.irrevocable = r.irrevocable ∧ r'.cycleft = r.cycleft ∧
      (∀ p, r.pitch = some p → resume = .pitch →
        ∃ p', r'.pitch = some p' ∧ p'.addr = p.addr ∧ p'.words = p.words ∧ p'.effects = [] ∧ p'.exits = [] ∧ ∀ sl ∈ p'.slots, sl = {}) ∧
      ((s.takeFault t spec resume c).tile t).discards = (s.tile t).discards + (if r.firing then 1 else 0) ∧
      x.seq < y.seq ∧ ⟨x.seq, spec.code, .task t⟩ ∈ y.await

/-- Returning from a fault (18 R373): RETRY gives the pitch again from its start, the fetch of the next pitch, or the commit checks
or waits, with the same registers; memory and every other tile are as before. -/
def Obligations.ReturnsFromFault : Prop :=
  ∀ (s : State) t r q resume c, s.run? t = some r → r.phase = .stalled q resume c →
    ∃ r', (s.retryFault t).run? t = some r' ∧ r'.g = r.g ∧ r'.vr = r.vr ∧ r'.shadow = r.shadow ∧ r'.commit = r.commit ∧
      r'.next = r.next ∧ (s.retryFault t).mem = s.mem ∧ (s.retryFault t).lines = s.lines ∧
      (∀ n, n ≠ t → (s.retryFault t).tile n = s.tile n) ∧
      (resume = .pitch → r.pitch.isSome = true → r'.phase = .fire) ∧ (resume = .fetch → r'.phase = .fetch) ∧
      (resume = .checks ∨ resume = .waits → r'.phase = .committing) ∧
      (resume = .watchdog → r'.cycleft = 2 ^ r.cyclim ∧ r'.watchdogDue = false) ∧
      (∀ p, r.pitch = some p → ∃ p', r'.pitch = some p' ∧ p'.addr = p.addr ∧ p'.slots = p.slots ∧ p'.snap = s.csrSnap t r)

/-- A fault record (13 R277) holds its code at bits 15:0, CAUSE at 23:16, STALL at 24, IRREV at 25, COMMIT at 26, PRIORV at 27, CTX
at 63:32, RECORD, TAG, PITCH, SLOT, LSID and EXIT, PRIOR, ADDR, PROG and SEQ each in its own word. -/
def Obligations.RecordLayout : Prop :=
  ∀ (r : RecSpec) ctx seq, r.code < 2 ^ 16 → r.cause < 2 ^ 8 → r.slot < 2 ^ 8 → r.lsid < 2 ^ 8 → r.exit < 2 ^ 8 →
    let b := r.bits ctx seq
    b.extractLsb' 0 16 = BitVec.ofNat 16 r.code ∧ b.extractLsb' 16 8 = BitVec.ofNat 8 r.cause ∧ b.getLsbD 24 = r.stall ∧
    b.getLsbD 25 = r.irrev ∧ b.getLsbD 26 = r.commit ∧ b.getLsbD 27 = r.prior.isSome ∧ b.extractLsb' 28 4 = 0 ∧
    b.extractLsb' 32 32 = ctx ∧ b.extractLsb' 64 64 = r.record ∧ b.extractLsb' 128 32 = r.tag ∧ b.extractLsb' 160 32 = 0 ∧
    b.extractLsb' 192 64 = r.pitch ∧ b.extractLsb' 256 8 = BitVec.ofNat 8 r.slot ∧ b.extractLsb' 264 8 = BitVec.ofNat 8 r.lsid ∧
    b.extractLsb' 272 8 = BitVec.ofNat 8 r.exit ∧
    (∀ p, r.prior = some p → b.extractLsb' 280 40 = ((p - r.pitch).sshiftRight 4).setWidth 40) ∧
    b.extractLsb' 320 64 = r.addr ∧ b.extractLsb' 384 64 = BitVec.ofNat 64 r.prog ∧ b.extractLsb' 448 64 = BitVec.ofNat 64 seq

/-! ## Events of a pitch and its task (03, 09, 10, 14) -/

/-- PITCH_FETCH (03 R53, R74, R78): a pitch whose bytes can be fetched and pass every check of R74 begins with its words, the values
of its start kept, registers, stores and every other tile as before, and memory, which an instruction that fires at once may make a
report in only where its uniforms come from a replay table (07 R149); every one of its words is an instruction. Else the task stalls
with the record of the failed fetch. Lines whose check value fails are apart. -/
def Obligations.PitchFetch : Prop :=
  ∀ t s r, s.run? t = some r → r.phase = .fetch → r.watchdogDue = false → s.migrating r.ctx r.next.toNat = false →
    (∀ k, (s.line k).chkBad = false) →
    (∀ h ws ls, s.fetchPitch t r r.next.toNat = (.ok (h, ws), ls) →
      ∃ u r' p, exec (.pitchFetch t) s = .next u ∧ u.run? t = some r' ∧ r'.phase = .fire ∧ r'.pitch = some p ∧
        p.addr = r.next ∧ p.hdr = h ∧ p.words = ws ∧ p.snap = s.csrSnap t r ∧ (∀ w ∈ ws, ∃ i, decode w = .ok i) ∧
        r'.g = r.g ∧ r'.vr = r.vr ∧ r'.shadow = r.shadow ∧ r'.commit = r.commit ∧ (r.rngmode = false → u.mem = s.mem) ∧
        ∀ n, n ≠ t → u.tile n = s.tile n) ∧
    (∀ f ls, s.fetchPitch t r r.next.toNat = (.error f, ls) →
      exec (.pitchFetch t) s = .next (s.takeFault t (r.fetchSpec f) .fetch false))

/-- An exhausted pitch is checked in the order of R68 (PITCH_EXHAUSTION, and SPILL_PLACE_FREED for one that waited for room): a
double delivery raises ILLEGAL_PITCH, then the lowest slot that raised a fault, then no exit raises NO_EXIT, several MULTI_EXIT, and
an unresolved slot ILLEGAL_PITCH; each discards the pitch. -/
def Obligations.ExhaustionFaults : Prop :=
  ∀ i t s r p, (i = .pitchExhaustion t ∨ i = .spillPlaceFreed t) → s.run? t = some r → r.pitch = some p → r.phase = .fire →
    p.exhausted = true → r.watchdogDue = false →
    (∀ k, p.doubleSlot = some k → exec i s = .next (s.takeFault t (r.pitchSpec p { code := 0x03 } k) .pitch false)) ∧
    (p.doubleSlot = none →
      (∀ k f, p.slotFault (s.tile t) r = some (k, f) → exec i s = .next (s.takeFault t (r.pitchSpec p f k) .pitch false)) ∧
      (p.slotFault (s.tile t) r = none →
        (p.exits = [] → exec i s = .next (s.takeFault t (r.pitchSpec p { code := 0x04 } 128) .pitch false)) ∧
        (2 ≤ p.exits.length → ∃ k ∈ p.exits.map (fun x => x.1), (∀ x ∈ p.exits, x.1 ≤ k) ∧
          exec i s = .next (s.takeFault t (r.pitchSpec p { code := 0x05 } k) .pitch false)) ∧
        (∀ k, p.exits.length = 1 → unresolvedSlot p = some k →
          exec i s = .next (s.takeFault t (r.pitchSpec p { code := 0x03 } k) .pitch false))))

/-- A pitch that passes its checks belays (03 R65, R66, R69): the registers it wrote hold their tokens and the others are as before,
the task goes on at the pitch of its exit, CALL writes g63, the pitch is counted, and no byte of memory changes but those of its
scratchpad stores, nor any other tile. DONE takes the task to COMMITTING (03 R79). A control register it wrote holds the new value,
RNGCTR has moved on by the pitch's uniforms, FFLAGS has gained its flags, the others are as before (02 R37; 05 R110; 06 R132, R133; 07
R147). A fired TRAP or BREAK is taken after the belay, the lowest slot's, with its code as ADDR; its task goes on at the next pitch,
or in COMMITTING (06 R121). ABORT reports ABORTED at its slot and ends the task KILLED (03 R80). A pitch with services performs that
of its lowest slot first; a service's status goes to its target, and a system service makes the task irrevocable; one with a poisoned
argument is not performed: its status is 3 and the task is control-poisoned (06 R122). A pitch that would take the task's shadow set
beyond 8,192 lines raises COMMIT_OVERFLOW at its lowest slot with a new line (03 R69). -/
def Obligations.Belay : Prop :=
  (∀ i t s r p k x d, Spec.passes i t s r p → s.belayFault t r p = none → p.imm = none → p.svcs = [] → p.traps = [] →
    r.matFault = none → p.exits = [(k, x, d)] → d ≠ .abort → r.twin = none → (∀ c ∈ s.fab.copies, c.stall = .no) →
    (∀ k, (s.line k).chkBad = false) →
    ∃ u r', exec i s = .next u ∧ u.run? t = some r' ∧ r'.pitch = none ∧ r'.prior = some (p.addr, x) ∧
      (∀ a, d = .goto a ∨ d = .call a → r'.phase = .fetch ∧ r'.next = a) ∧
      (d = .commit → r'.phase = .committing ∧ r'.donePitch = p.addr ∧ r'.doneExit = x) ∧
      (∀ a, d = .call a → 63 < r.g.length → r'.g[63]? = some { v := p.after }) ∧
      (∀ g, (∀ y ∈ p.effects, ∀ v, y.2 ≠ .writeG g v) → (∀ a, d = .call a → g ≠ 63) → r'.g[g.toNat]? = r.g[g.toNat]?) ∧
      (∀ g, (∀ y ∈ p.effects, ∀ v, y.2 ≠ .writeV g v) → r'.vr[g.toNat]? = r.vr[g.toNat]?) ∧
      (∀ j g v, (j, Effect.writeG g v) ∈ p.effects → j < p.slots.length → g.toNat < r.g.length → (∀ a, d = .call a → g ≠ 63) →
        (∀ y ∈ p.effects, ∀ w, y.2 = .writeG g w → w = v) → r'.g[g.toNat]? = some v) ∧
      (∀ j g v, (j, Effect.writeV g v) ∈ p.effects → j < p.slots.length → g.toNat < r.vr.length →
        (∀ y ∈ p.effects, ∀ w, y.2 = .writeV g w → w = v) → r'.vr[g.toNat]? = some v) ∧
      (∀ n old, n ≠ 0x010 → Spec.csrBefore r p n = some old → (∀ y ∈ p.effects, ∀ o m v, y.2 = .csr o m v → m.toNat ≠ n) →
        r'.csrRead n = some (old ||| Spec.csrFlags p n)) ∧
      (∀ j o n v old, (j, Effect.csr o n v) ∈ p.effects → j < p.slots.length → n ≠ 0x010 → Spec.csrBefore r p n.toNat = some old →
        (∀ y ∈ p.effects, ∀ o' v', y.2 = .csr o' n v' → o' = o ∧ v' = v) →
        r'.csrRead n.toNat = some (o.value old v ||| Spec.csrFlags p n.toNat)) ∧
      (u.tile t).belays = (s.tile t).belays + 1 ∧ (∀ n, n ≠ t → u.tile n = s.tile n) ∧
      (∀ l, (∀ y ∈ p.effects, ∀ id ps b, y.2 = .store id ps b → ∀ q ∈ ps, q.local_ = true → l < q.loc ∨ q.loc + q.bytes.length ≤ l) →
        u.mem.read l = s.mem.read l)) ∧
  (∀ i t s r p k x d, Spec.passes i t s r p → s.belayFault t r p = none → p.imm = none → p.svcs = [] → p.traps ≠ [] →
    r.matFault = none → p.exits = [(k, x, d)] → d ≠ .abort →
    ∃ (w : State) (r' : Run) (spec : RecSpec) (j : Nat) (b : Bool) (code : BitVec 13), (j, b, code) ∈ p.traps ∧ (∀ y ∈ p.traps, j ≤ y.1) ∧
      exec i s = .next (w.takeFault t spec (if d = .commit then .waits else .fetch) false) ∧ w.run? t = some r' ∧ r'.pitch = none ∧
      (∀ a, d = .goto a ∨ d = .call a → r'.next = a) ∧ spec.code = (if b then 0x20 else 0x21) ∧ spec.addr = code.setWidth 64 ∧
      spec.slot = j ∧ spec.pitch = p.addr ∧ (w.tile t).belays = (s.tile t).belays + 1) ∧
  (∀ i t s r p k x, Spec.passes i t s r p → s.belayFault t r p = none → p.imm = none → p.svcs = [] → p.exits = [(k, x, .abort)] →
    (∃ (w : State) (spec : RecSpec), exec i s = .next ((w.record r.ctx spec).killTask r.inst r.idx) ∧ spec.code = 0x23 ∧ spec.slot = k ∧ spec.exit = x ∧
      spec.pitch = p.addr) ∧
    (∀ y, s.rec? r.inst r.idx = some y →
      ∃ u, exec i s = .next u ∧ u.run? t = none ∧ ∀ z, u.rec? r.inst r.idx = some z → z.st = .killed)) ∧
  (∀ i t s r p c, Spec.passes i t s r p → s.belayFault t r p = none → c ∈ p.svcs → c.slot < p.slots.length →
    (∀ y ∈ p.svcs, y ≠ c → c.slot < y.slot) → c.pois = false →
    ∃ r' q, exec i s = .next (s.setRun t r') ∧ r'.phase = .services 0 ∧ r'.pitch = some q ∧ q.svcs[0]? = some c ∧ q.effects = p.effects ∧
      r'.g = r.g ∧ r'.vr = r.vr) ∧
  (∀ (s : State) t r p n c k x a st, s.run? t = some r → r.phase = .services n → r.pitch = some p → p.svcs[n]? = some c →
    p.svcs.length = n + 1 → p.imm = none → p.traps = [] → r.matFault = none → p.exits = [(k, x, .goto a)] →
    ∃ r', (s.serviceDone t st).run? t = some r' ∧ r'.phase = .fetch ∧ r'.next = a ∧ r'.pitch = none ∧
      (c.num ∈ [0x100, 0x101, 0x102] → r'.irrevocable = true) ∧
      (∀ j pos g v, c.target = .to pos j → (j.toNat, Effect.writeG g v) ∈ p.effects → j.toNat < p.slots.length → g.toNat < r.g.length →
        (∀ y ∈ p.effects, ∀ w, y.2 = .writeG g w → y.1 = j.toNat) →
        r'.g[g.toNat]? = some { v := BitVec.ofNat 64 st, pois := c.resPois })) ∧
  (∀ i t s r p c k x a, Spec.passes i t s r p → s.belayFault t r p = none → p.svcs = [c] → c.slot < p.slots.length → c.pois = true →
    p.imm = none → p.traps = [] → r.matFault = none → p.exits = [(k, x, .goto a)] →
    ∃ u r', exec i s = .next u ∧ u.run? t = some r' ∧ r'.phase = .fetch ∧ r'.next = a ∧ r'.ctlPois = true ∧
      (∀ j pos g v, c.target = .to pos j → (j.toNat, Effect.writeG g v) ∈ p.effects → j.toNat < p.slots.length → g.toNat < r.g.length →
        (∀ y ∈ p.effects, ∀ w, y.2 = .writeG g w → y.1 = j.toNat) → r'.g[g.toNat]? = some { v := 3, pois := c.resPois })) ∧
  (∀ i t s r p, Spec.sound i t s r p → p.newLines r ≠ [] →
    8192 < r.shadow.length + (((p.newLines r).map fun x => x.key).eraseDups).length →
    ∃ k, (∃ x ∈ p.newLines r, x.slot = k) ∧ (∀ x ∈ p.newLines r, k ≤ x.slot) ∧
      exec i s = .next (s.takeFault t (r.pitchSpec p { code := 0x24 } k) .pitch false))

/-- SYNC_ACCESS_ARRIVE of a synchronised access (09 R199, R200; 10 R216): where the condition of its mode holds it is performed in
one step, F and memory changed as its mode says; where not, it waits in the retry list of its bank, or is answered busy when the
list is full, and RETRY_LIST_BUSY_RESEND sends it again. WAIT_WITHDRAWAL after a watchdog puts the pitch back at its start (03 R73);
that a watchdog that expired during a service of the pitch withdraws nothing of it is the MODEL's reading (log entry 94). -/
def Obligations.SynchronisedEvents : Prop :=
  (∀ t s r a m vec d, s.run? t = some r → r.phase = .imm .sent → r.syncOp = some (a, m, vec, d) → a.peer = none →
    s.linkDown a.loc = false → s.fab.retry = [] → Canonical s → (∀ k, (s.line k).chkBad = false) → locPkg a.loc = 0 → a.loc % 128 + (if vec then 128 else 8) ≤ 128 →
    ((s.line (lineKey a.loc)).allows m = true → ((s.line (lineKey a.loc)).fullFor .fill && m == .fill) = false →
      ∃ u r' tok, exec (.syncAccessArrive t) s = .next u ∧ u.run? t = some r' ∧ r'.phase = .imm (.done tok) ∧
        (tok.isSome = m.returns) ∧ (u.line (lineKey a.loc)).full = m.after.getD (s.line (lineKey a.loc)).full ∧
        (m.writes = true → u.mem.bytes a.loc (if vec then 128 else 8) = toBytes d.toNat (if vec then 128 else 8)) ∧
        (∀ l, (m.writes = true → l < a.loc ∨ a.loc + (if vec then 128 else 8) ≤ l) → u.mem.read l = s.mem.read l) ∧
        (∀ n, n ≠ t → u.tile n = s.tile n)) ∧
    ((s.line (lineKey a.loc)).allows m = false →
      (s.retryRoom (lineKey a.loc) = true → exec (.syncAccessArrive t) s =
        .next ((s.setRun t { r with phase := .imm .waiting }).enlist { line := lineKey a.loc, tile := t })) ∧
      (s.retryRoom (lineKey a.loc) = false → exec (.syncAccessArrive t) s = .next (s.setRun t { r with phase := .imm .busy })))) ∧
  (∀ t s r, s.run? t = some r → r.phase = .imm .busy →
    exec (.retryListBusyResend t) s = .next (s.setRun t { r with phase := .imm .sent })) ∧
  (∀ t s r, s.run? t = some r → r.dogInService = true → exec (.waitWithdrawal t) s = .next s) ∧
  (∀ t s r p st, s.run? t = some r → r.watchdogDue = true → r.dogInService = false → r.phase = .imm st → (∀ tok, st ≠ .done tok) → r.pitch = some p →
    ∃ u r' p', exec (.waitWithdrawal t) s = .next u ∧ u.run? t = some r' ∧ r'.phase = .fire ∧ r'.pitch = some p' ∧
      p'.words = p.words ∧ p'.effects = [] ∧ p'.imm = none ∧ (∀ sl ∈ p'.slots, sl = {}) ∧ r'.g = r.g ∧ r'.vr = r.vr ∧ u.mem = s.mem ∧
      ∀ e ∈ u.fab.retry, e.tile = t → e.remote.isSome = true)

/-- IMMEDIATE_ACCESS_COMPLETE (03 R71, R72; 10 R219, R220): an atomic combines its word in one step and CAS writes on a match, the
old value being the result and every other byte as before; once performed, its pitch belays and the task is irrevocable.
MEMORY_RESPONSE returns the data an instruction waits for, and nothing while it is not to be had (10 R212): a load whose lines are no
longer held sends the bytes that stand there then, an MWAIT the word that reached its threshold (11 R244). A load that has not fired
reads one more of its sectors ahead, as it stands then (12 R259). -/
def Obligations.ImmediateEvents : Prop :=
  (∀ t s r p a st, s.run? t = some r → r.phase = .imm st → st.open = true → r.pitch = some p → p.imm = some a → a.peer = none →
    s.linkDown a.loc = false → Canonical s → (∀ k, (s.line k).chkBad = false) → locPkg a.loc = 0 →
    (∀ op uns n v, a.op = .amo op uns n v →
      ∃ (w : State) (r' : Run), exec (.immediateAccessComplete t) s = .next (w.completeImm t) ∧ w.run? t = some r' ∧
        r'.phase = .imm (.done (some (oldToken n (s.mem.value a.loc n) true (s.poisonAt a.loc n || a.resPois)))) ∧
        w.mem.value a.loc n = combineInt op uns (8 * n) (s.mem.value a.loc n) (v.toNat % 2 ^ (8 * n)) % 2 ^ (8 * n) ∧
        ∀ l, l < a.loc ∨ a.loc + n ≤ l → w.mem.read l = s.mem.read l) ∧
    (∀ op v, a.op = .amof op v →
      ∃ (w : State) (r' : Run), exec (.immediateAccessComplete t) s = .next (w.completeImm t) ∧ w.run? t = some r' ∧
        r'.phase = .imm (.done (some (oldToken 4 (s.mem.value a.loc 4) false (s.poisonAt a.loc 4 || a.resPois)))) ∧
        w.mem.value a.loc 4 = combineLane op .f32 (s.mem.value a.loc 4) v.toNat % 2 ^ 32 ∧
        ∀ l, l < a.loc ∨ a.loc + 4 ≤ l → w.mem.read l = s.mem.read l) ∧
    (∀ n e v b, a.op = .cas n e v b →
      ∃ (w : State) (r' : Run), exec (.immediateAccessComplete t) s = .next (w.completeImm t) ∧ w.run? t = some r' ∧
        r'.phase = .imm (.done (some (oldToken n (s.mem.value a.loc n) true (s.poisonAt a.loc n || a.resPois)))) ∧
        (s.mem.value a.loc n = e.toNat % 2 ^ (8 * n) → w.mem.value a.loc n = v.toNat % 2 ^ (8 * n)) ∧
        (s.mem.value a.loc n ≠ e.toNat % 2 ^ (8 * n) → w.mem = s.mem) ∧
        ∀ l, l < a.loc ∨ a.loc + n ≤ l → w.mem.read l = s.mem.read l)) ∧
  (∀ t s r p a tok k x d, s.run? t = some r → r.phase = .imm (.done tok) → r.pitch = some p → p.imm = some a →
    p.exits = [(k, x, .goto d)] → p.traps = [] → r.matFault = none →
    ∃ u r', exec (.immediateAccessComplete t) s = .next u ∧ u.run? t = some r' ∧ r'.phase = .fetch ∧ r'.pitch = none ∧ r'.next = d ∧
      r'.irrevocable = true ∧ r'.prior = some (p.addr, x) ∧ (u.tile t).belays = (s.tile t).belays + 1) ∧
  (∀ t k s r p i w, s.run? t = some r → r.phase = .fire → r.pitch = some p → p.awaiting k = true →
    decode (p.words[k]?.getD 0) = .ok i → Spec.awaitsData i = true → exec i (s.aim t k) = .next w →
    (w.awaits t k = false → exec (.memoryResponse t k) s = .next { w with focus := s.focus }) ∧
    (w.awaits t k = true → exec (.memoryResponse t k) s = .next s)) ∧
  (∀ t k s e i l n spans mk bs, (s.aim t k).env? = some e → e.k = k → e.slot.status = .pending → (sigOf i).ready e.slot = true →
    (sigOf i).matches e.slot = true → (sigOf i).hasNull e.slot = false → decode (e.p.words[k]?.getD 0) = .ok i →
    Spec.loads e i = some (l, n, spans, mk) → e.access { align := n, r := true } spans = .ok bs → e.behindLower l.toNat bs = false →
    e.held false bs = false →
    ∃ d b u, (d, b) = ((e.s.asRead bs (e.p.earlyOf k)).applyStores t (e.p.storesBelow l.toNat)).readBounds t bs ∧
      u = ((Spec.resumed i e { out0 := some (mk d), pois := e.pois || b, counted := e.pois || b }).touchPad
        (bs.map fun x => lineKey x.loc)).readLines e.ctx (bs.map fun x => lineKey x.loc) ∧
      exec (.memoryResponse t k) s = .next { u with focus := s.focus }) ∧
  (∀ t k s e p l tg m w, (s.aim t k).env? = some e → e.k = k → e.slot.status = .pending → (sigOf (.mwait p l tg)).ready e.slot = true →
    (sigOf (.mwait p l tg)).matches e.slot = true → (sigOf (.mwait p l tg)).hasNull e.slot = false →
    decode (e.p.words[k]?.getD 0) = .ok (.mwait p l tg) → e.p.waits.find? (fun x => x.slot == k) = some m → m.hit = some w →
    ∃ u, u = ((Spec.resumed (.mwait p l tg) e { out0 := some (.scalar w.1), pois := e.pois || w.2 }).touchPad [lineKey m.loc]).readLines
        e.ctx [lineKey m.loc] ∧
      exec (.memoryResponse t k) s = .next { u with focus := s.focus }) ∧
  (∀ t k s e i l n spans mk bs, (s.aim t k).env? = some e → e.k = k → e.slot.status = .waiting → (sigOf i).ready e.slot = true →
    (sigOf i).matches e.slot = true → (sigOf i).hasNull e.slot = false → decode (e.p.words[k]?.getD 0) = .ok i →
    Spec.loads e i = some (l, n, spans, mk) → e.access { align := n, r := true } spans = .ok bs → e.behindLower l.toNat bs = false →
    e.held false bs = false → 2 ≤ ((boundSectors bs).filter fun o => !(e.p.earlyOf k).any fun x => x.loc == o).length →
    ∃ u r q x, exec (.memoryResponse t k) s = .next u ∧ u.run? t = some r ∧ r.pitch = some q ∧ q.early = e.p.early ++ [x] ∧
      q.slots = e.p.slots ∧ x.slot = k ∧ x.loc ∈ boundSectors bs ∧ (∀ y ∈ e.p.earlyOf k, y.loc ≠ x.loc) ∧
      x.data = BitVec.ofNat 128 (s.mem.value x.loc 16) ∧ x.pois = s.poisonAt x.loc 16)

/-- WATCHDOG_EXPIRY (14 R293, R303; 17 R351; 18 R438): an irrevocable task stalls with its registers and stores; a revocable one
loses its tile, and is PENDING again the first two times in a row; the decision counter WDOG of the tile's die counts it. It is taken
after the cycle of the expiry, in which a fault or the end of the task goes before it, and not while an immediate-class access or a
service of the pitch is under way; else the event does nothing. -/
def Obligations.Watchdog : Prop :=
  (∀ t s r, s.run? t = some r → r.dogNow = false ∨ r.dogBefore s.cycle = false → exec (.watchdogExpiry t) s = .next s) ∧
  ∀ t s r, s.run? t = some r → r.dogNow = true → r.dogBefore s.cycle = true → s.fab.retry = [] →
    (∀ x d, (r.irrevocable = true ∧ r.twin = none) ∨ (r.irrevocable = false ∧ s.rec? r.inst r.idx = some x) →
      s.dies[tileDie t]? = some d →
      ∃ u, exec (.watchdogExpiry t) s = .next u ∧ (u.dies[tileDie t]?).map (fun y => y.dec.wdog) = some (d.dec.wdog + 1)) ∧
    (r.irrevocable = true → r.twin = none →
      ∃ u r' q resume c, exec (.watchdogExpiry t) s = .next u ∧ u.run? t = some r' ∧ r'.phase = .stalled q resume c ∧
        r'.watchdogDue = false ∧ r'.g = r.g ∧ r'.vr = r.vr ∧ r'.shadow = r.shadow ∧ r'.commit = r.commit) ∧
    (∀ x, r.irrevocable = false → s.rec? r.inst r.idx = some x →
      ∃ u, exec (.watchdogExpiry t) s = .next u ∧ u.run? t = none ∧
        (x.dogs < 2 → ∃ y, u.rec? r.inst r.idx = some y ∧ y.st = .pending ∧ y.dogs = x.dogs + 1))

/-- UNCORRECTABLE_ERROR (09 R206; 15 R320; 18 R375, R382): what ECC cannot correct is poisoned where it stands and nothing else
changes; a flipped bit leaves a check value that no longer fits its line; one copy of a counter lost has no effect, both lose the
instance; a word of a record in graph memory is read again from the template image; a shared part lost begins the retirement of its
cluster. -/
def Obligations.UncorrectableErrors : Prop :=
  (∀ s l, exec (.uncorrectableError (.line l)) s = .next (s.setLine (l / 128) { s.line (l / 128) with pois := true })) ∧
  (∀ s l flip, exec (.uncorrectableError (.checkValue l flip)) s =
    .next (s.setLine (l / 128) { s.line (l / 128) with chk := (s.line (l / 128)).chk ^^^ flip })) ∧
  (∀ s id k i x ws, s.inst? id = some i → s.rec? id k = some x → x.spilled = false → x.st ≠ .killed → x.st ≠ .retired →
    s.recWords i.ctx i.templ k = .ok ws → (∀ n, (s.line n).chkBad = false) →
    exec (.uncorrectableError (.recordWord id k)) s = .next (s.modRec id k fun y => { y with words := ws })) ∧
  (∀ s t k r, s.run? t = some r → exec (.uncorrectableError (.reg t k)) s =
    .next (s.setRun t { r with g := r.g.modify k fun v => { v with pois := true } })) ∧
  (∀ s t k r, s.run? t = some r → exec (.uncorrectableError (.vreg t k)) s =
    .next (s.setRun t { r with vr := r.vr.modify k fun v => { v with pois := true } })) ∧
  (∀ s t a k, exec (.uncorrectableError (.accRow t a k)) s =
    .next (s.setTile t ((s.tile t).setAccRow a k { (s.tile t).accRow a k with pois := true }))) ∧
  (∀ s t a, exec (.uncorrectableError (.array t a)) s =
    .next (s.setTile t ((s.tile t).setArray a { (s.tile t).array a with pois := true }))) ∧
  (∀ s t k r p, s.run? t = some r → r.pitch = some p → exec (.uncorrectableError (.operand t k)) s =
    .next (s.setRun t { r with pitch := some { p with slots := p.slots.modify k Slot.poison } })) ∧
  (∀ s i k, exec (.uncorrectableError (.counterOne i k)) s = .next s) ∧
  (∀ s id k i, s.inst? id = some i → i.lost = false →
    ∃ u, (exec (.uncorrectableError (.counterBoth id k)) s = .next u) ∧ ∀ j, u.inst? id = some j → j.lost = true) ∧
  (∀ s id k i, s.inst? id = some i → i.lost = false →
    ∃ u, (exec (.uncorrectableError (.renameBoth id k)) s = .next u) ∧ ∀ j, u.inst? id = some j → j.lost = true) ∧
  (∀ s c, s.inService c = true → (s.cluster c).retire ≠ .retired →
    ∃ u, exec (.uncorrectableError (.shared c)) s = .next u ∧ (u.cluster c).retire = .shared)

/-! ## The end of a task and its publication (03, 10, 12, 18) -/

/-- No poisoned data is published (18 R375): a task with a poisoned shadow sector, a poisoned commit entry or a control poison is
refused at its commit checks (COMMIT_CHECKS, once the waits of R79 are over); an irrevocable one stalls for good, a revocable one
loses its tile. A task whose commit set is empty and whose successor list names no remote place passes (10 R226).
TWIN_DIGEST_COMPARE (18 R380): two twins whose digests agree: the one that came first publishes and the other's tile is free; twins
that differ call for a third run. -/
def Obligations.CommitChecksAndTwins : Prop :=
  ((∀ r : Run, ((∃ l ∈ r.shadow, l.pois ≠ 0) ∨ (∃ e ∈ r.commit, e.pois = true) ∨ r.ctlPois = true) → r.refusal.isSome = true) ∧
   (∀ t s r, s.run? t = some r → r.phase = .committing → r.checked = false → r.twin = none → r.watchdogDue = false → r.matFault = none →
     s.waitsDone t r = true →
     (∀ f, r.refusal = some f → r.irrevocable = true → exec (.commitChecks t) s = .next (s.takeFault t f .never true)) ∧
     (∀ f x, r.refusal = some f → r.irrevocable = false → s.rec? r.inst r.idx = some x →
       ∃ u, exec (.commitChecks t) s = .next u ∧ u.run? t = none) ∧
     (∀ l, r.refusal = none → r.commit = [] → s.successorsOf r = .ok l → (∀ x ∈ l, sucScope x.1 ≠ 3) →
       (∀ k, (s.line k).chkBad = false) →
       exec (.commitChecks t) s = .next (s.setRun t { r with checked := true, via := [] })))) ∧
  (∀ inst idx s a b, s.twinAt inst idx 0 = some a → s.twinAt inst idx 1 = some b → s.twinAt inst idx 2 = none → a.1 ≠ b.1 →
     (a.2.digest = b.2.digest → s.run? a.1 = some a.2 → s.run? b.1 = some b.2 →
       ∃ u t r, exec (.twinDigestCompare inst idx) s = .next u ∧ t = s.firstTwin a b ∧ u.run? t = some r ∧ r.phase = .committing ∧
         r.voted = true ∧ ∀ n, n ≠ t → n = a.1 ∨ n = b.1 → u.run? n = none) ∧
     (a.2.digest ≠ b.2.digest →
       exec (.twinDigestCompare inst idx) s = .next (s.modRec inst idx fun x => { x with third := true })))

/-- HANDOVER (03 R79; 12 R262, R263): once the checks have passed and every claim is granted the tile is free, and a publication in
its first step holds every sector with marked bytes of the task's shadow lines; no byte of memory has changed yet. The tile holds no
placed task. That each sector is an effect of its own is the model's rendering (log 53). -/
def Obligations.Handover : Prop :=
  ∀ t s r l, s.run? t = some r → r.phase = .committing → r.checked = true → r.watchdogDue = false →
    (∀ c ∈ r.claims, c.granted = true) → s.successorsOf r = .ok l → (s.tile t).queue = [] → (s.tile t).state ≠ .drained →
    ∃ u, exec (.handover t) s = .next u ∧ u.run? t = none ∧
      (∃ p ∈ u.fab.pubs, p.id = s.fab.nextId ∧ p.inst = r.inst ∧ p.idx = r.idx ∧ p.tile = t ∧ p.step = 1 ∧
        (∀ x ∈ r.shadow, ∀ b, b < 128 → x.mask.getLsbD b = true → ∃ y ∈ p.stores, y.line = x ∧ b / 16 ∈ y.left) ∧
        ∀ y ∈ p.stores, y.line ∈ r.shadow) ∧
      u.mem = s.mem ∧ (∀ n, n ≠ t → u.run? n = s.run? n)

/-- Publication in three steps (10 R221, R224-R227; 12 R259, R262, R263; 14 R293). REDUCTION_APPLY combines one value in one step,
or, with a number above the reductions, writes the marked bytes of one 16-byte sector of one line and no other byte (log 53).
PUBLICATION_STEP_2, after every effect of step 1, writes one release, its line full and its claim over; the last one ends the step.
PUBLICATION_STEP_3 sends the graph operations. TASK_RETIRED, after every effect of step 3, ends the record and advances its
generation. ORDERED_CONTRIBUTION_ARRIVE (10 R224, R225): the next contribution of a cell is added and the sequence number passed; a
stale or repeated one is discarded and counted at the bank's die (17 R351); an early one is held while its bank has room, and answered
busy when it has none; ORDERED_BUSY_RESEND sends it again. -/
def Obligations.Publication : Prop :=
  ((∀ id k s p l op n f, s.pub? id = some p → p.reds[k]? = some (l, op) → s.linkDown l = false → Spec.reductionOf op = some (n, f) →
     Canonical s → absentLoc l = false → (∀ j, (s.line j).chkBad = false) →
     ∃ u, exec (.reductionApply id k) s = .next u ∧ u.mem.value l n = f (s.mem.value l n) % 2 ^ (8 * n) ∧
       (∀ a, a < l ∨ l + n ≤ a → u.mem.read a = s.mem.read a) ∧ u.pub? id = some { p with reds := p.reds.eraseIdx k } ∧
       Spec.refetched s u id ∧ u.insts = s.insts) ∧
   (∀ id k s p n i x, s.pub? id = some p → p.reds.length ≤ k → p.sectorsLeft[k - p.reds.length]? = some (n, i) →
     p.stores[n]? = some x → s.linkDown x.line.loc = false → Canonical s → i < 8 →
     absentLoc x.line.loc = false → (∀ j, (s.line j).chkBad = false) →
     ∃ u, exec (.reductionApply id k) s = .next u ∧
       (∀ b, b / 16 = i → x.line.mask.getLsbD b = true →
         u.mem.read (x.line.loc + b) = BitVec.ofNat 8 (x.line.data.toNat / 2 ^ (8 * b))) ∧
       (∀ a, (∀ b, b / 16 = i → x.line.mask.getLsbD b = true → a ≠ x.line.loc + b) → u.mem.read a = s.mem.read a) ∧
       u.pub? id = some (p.sectorOver n i) ∧ Spec.refetched s u id ∧ u.insts = s.insts) ∧
   (∀ id k s p, s.pub? id = some p → p.step = 1 → s.step1Done p = true →
     (p.rels = [] → exec (.publicationStep2 id k) s = .next (s.modPub id fun q => { q with step := 2 })) ∧
     (∀ o i v d, p.rels[k]? = some (o, i, v, d) → s.linkDown (128 * o) = false → s.fab.retry = [] → Canonical s →
       i + (if v then 128 else 8) ≤ 128 → absentLoc (128 * o + i) = false → (∀ j, (s.line j).chkBad = false) →
       ∃ u, exec (.publicationStep2 id k) s = .next u ∧
         u.pub? id = some { p with rels := p.rels.eraseIdx k, step := if p.rels.length = 1 then 2 else 1 } ∧
         (u.line o).full = true ∧ (u.line o).claimed = false ∧
         u.mem.bytes (128 * o + i) (if v then 128 else 8) = toBytes d.toNat (if v then 128 else 8) ∧
         (∀ a, a < 128 * o + i ∨ 128 * o + i + (if v then 128 else 8) ≤ a → u.mem.read a = s.mem.read a))) ∧
   (∀ id s p i, s.pub? id = some p → p.step = 2 → s.inst? p.inst = some i →
     ∃ u q, exec (.publicationStep3 id) s = .next u ∧ u.pub? id = some q ∧ q.step = 3 ∧ q.graph = [] ∧
       (∀ e w a, p.graph = [e] → e.op = .dec w a → sucScope w = 0 →
         u.fab.decs = s.fab.decs ++ [{ ctx := p.ctx, amt := sucAmt w, pub := some p.id, die := i.die
                                       target := .slot i.id (sucTarget w) ((i.recs[sucTarget w]?.map Rec.gen).getD 0) i.templ i.tag }]) ∧
       (∀ e x, p.graph = [e] → e.op = .spawn x → u.fab.creations.length = s.fab.creations.length + 1) ∧
       (∀ e m c, p.graph = [e] → e.op = .send m c → u.fab.msgs.length = s.fab.msgs.length + 1) ∧
       (∀ e t c, p.graph = [e] → e.op = .bind t c →
         u.fab.binds = s.fab.binds ++ [{ ctx := p.ctx, mbox := bcMbox c, bind := some (t, c), pub := p.id }]) ∧
       (∀ e m, p.graph = [e] → e.op = .unbind m →
         u.fab.binds = s.fab.binds ++ [{ ctx := p.ctx, mbox := m.toNat, bind := none, pub := p.id }])) ∧
   (∀ id s p i x, s.pub? id = some p → p.step = 3 → s.step3Done p = true → s.inst? p.inst = some i → i.recs[p.idx]? = some x →
     ∃ u, exec (.taskRetired id) s = .next u ∧ u.pub? id = none ∧
       ∀ y, u.rec? p.inst p.idx = some y → y.st = .retired ∧ y.gen = x.gen + 1)) ∧
  ((∀ k s c, s.fab.arriving[k]? = some c → c.busy = false → s.linkDown c.loc = false →
     (∀ v, c.op = .redo v → c.q = BitVec.ofNat 32 (s.mem.value (c.loc + 8) 4) → s.fab.held = [] → Canonical s →
       absentLoc c.loc = false → (∀ j, (s.line j).chkBad = false) →
       ∃ u, exec (.orderedContributionArrive k) s = .next u ∧
         u.mem.value c.loc 4 = (laneAdd .f32 .rne (s.mem.value c.loc 4) v.toNat).1 % 2 ^ 32 ∧
         u.mem.value (c.loc + 8) 4 = (c.q + 1).toNat ∧ u.fab.arriving = s.fab.arriving.eraseIdx k ∧
         ∀ a, a < c.loc ∨ c.loc + 12 ≤ a → u.mem.read a = s.mem.read a) ∧
     ((c.q - s.cellNext c).toNat ≠ 0 → (c.q - s.cellNext c).toNat < 2 ^ 31 → (∀ h ∈ s.fab.held, h.loc = c.loc → h.q = c.q → h.op.isLine ≠ c.op.isLine) →
       (s.heldAt (cellBank c.loc) < 1024 → exec (.orderedContributionArrive k) s = .next { s with fab := { s.fab with
           arriving := s.fab.arriving.eraseIdx k, held := s.fab.held ++ [{ c with pub := none }] } }) ∧
       (1024 ≤ s.heldAt (cellBank c.loc) → exec (.orderedContributionArrive k) s = .next { s with fab := { s.fab with
           arriving := s.fab.arriving.set k { c with busy := true } } })) ∧
     (2 ^ 31 ≤ (c.q - s.cellNext c).toNat ∨ (∃ h ∈ s.fab.held, h.loc = c.loc ∧ h.q = c.q ∧ h.op.isLine = false) →
       (∀ v, c.op = .redo v →
       ∃ u, exec (.orderedContributionArrive k) s = .next u ∧ u.mem = s.mem ∧ u.fab.arriving = s.fab.arriving.eraseIdx k ∧
         (bankOf c.loc = none → u.dies = s.dies) ∧
         ∀ b d, bankOf c.loc = some b → s.dies[b / 128]? = some d →
           (u.dies[b / 128]?).map (fun x => x.dec.dupseq) = some (d.dec.dupseq + 1)))) ∧
   (∀ k s c, s.fab.arriving[k]? = some c → c.busy = true →
     exec (.orderedBusyResend k) s = .next { s with fab := { s.fab with
       arriving := s.fab.arriving.eraseIdx k ++ [{ c with busy := false }] } }))

/-! ## The dispatcher and the graph (13, 14, 15) -/

/-- PLACEMENT and CROSS_DIE_PLACEMENT (14 R296-R299, R304): the records that cannot be placed are reported; of the eligible tiles the
best score wins, and the first task in the order of service with an eligible tile on its die is placed there. A tile of another die is
taken only for a task that may cross: no tile of its own die is eligible for it, nor has been for 256 cycles; where no task may cross
and find a tile, the event places nothing. A die notes of each of its tasks since when it has had no eligible tile, and forgets it
when it has one. TASK_RUNNABLE (14 R300): an entry whose prefetches are all over becomes RUNNABLE. TASK_START (03 R52; 14 R307): a
free tile takes its next entry (which entry that is where rope membership and prefetches bear on it is the MODEL's, log entry 66);
g0-g15 hold the arguments, every other register is 0 and not poisoned, the accumulators are zero, and the first pitch is that of the
record's entry. -/
def Obligations.Placement : Prop :=
  ((∀ s k l t, State.bestTile s k l = some t → t ∈ l ∧ ∀ u ∈ l, (s.score k u).total ≤ (s.score k t).total) ∧
   (∀ die s, exec (.placement die true) s = .next (s.checkDie die s.insts)) ∧
   (∀ die s before k rest t i x, s.checkDie die s.insts = s → s.service die = before ++ k :: rest →
     (∀ y ∈ before, s.eligibles y (dieTiles die) = []) →
     s.bestTile k (s.eligibles k (dieTiles die)) = some t → s.inst? k.inst = some i → s.rec? k.inst k.idx = some x →
     ∃ u, exec (.placement die false) s = .next u ∧
       (∃ p ∈ (u.tile t).queue, p.inst = k.inst ∧ p.idx = k.idx ∧ p.twin = k.twin) ∧
       (x.st = .pending → ∃ y, u.rec? k.inst k.idx = some y ∧ (y.st = .placed ∨ y.st = .runnable)) ∧ ∀ n, u.run? n = s.run? n) ∧
   (∀ die s before k rest t i x, s.checkDie die s.insts = s → s.service die = before ++ k :: rest →
     (∀ y ∈ before, s.crosses die y = false ∨ s.eligibles y (otherTiles die) = []) → s.crosses die k = true →
     s.bestTile k (s.eligibles k (otherTiles die)) = some t → s.inst? k.inst = some i → s.rec? k.inst k.idx = some x →
     ∃ u, exec (.crossDiePlacement die) s = .next u ∧
       (∃ p ∈ (u.tile t).queue, p.inst = k.inst ∧ p.idx = k.idx ∧ p.twin = k.twin) ∧ ∀ n, u.run? n = s.run? n) ∧
   (∀ die s, s.checkDie die s.insts = s → (∀ k ∈ s.service die, s.crosses die k = false ∨ s.eligibles k (otherTiles die) = []) →
     exec (.crossDiePlacement die) s = .next s) ∧
   (∀ (s : State) die k, s.crosses die k = true ↔
     s.eligibles k (dieTiles die) = [] ∧ ∃ x b, s.rec? k.inst k.idx = some x ∧ x.blocked = some b ∧ b + 256 ≤ s.cycle) ∧
   (∀ (s : State) die k x, s.rec? k.inst k.idx = some x → (s.noteBlocked die [k]).rec? k.inst k.idx =
     some { x with blocked := if s.eligibles k (dieTiles die) = [] then some (x.blocked.getD s.cycle) else none }) ∧
   (∀ (s : State) die k l, s.noteBlocked die (k :: l) = (s.noteBlocked die [k]).noteBlocked die l)) ∧
  ((∀ t inst idx s p, (s.tile t).queue.find? (fun p => p.inst == inst && p.idx == idx && !p.runnable) = some p → p.issued = true →
     (∀ c ∈ s.prefetchesOf t p, c.done = true) →
     ∃ u, exec (.taskRunnable t inst idx) s = .next u ∧ (∃ q ∈ (u.tile t).queue, q.same p = true ∧ q.runnable = true) ∧
       u.mem = s.mem ∧ ∀ n, n ≠ t → u.tile n = s.tile n) ∧
   (∀ t s p i x, s.run? t = none → s.nextEntry (s.tile t).queue = some p → s.inst? p.inst = some i → s.rec? p.inst p.idx = some x →
     ∃ u r, exec (.taskStart t) s = .next u ∧ u.run? t = some r ∧ r.phase = .fetch ∧ r.inst = i.id ∧ r.idx = p.idx ∧ r.ctx = i.ctx ∧
       r.next = recEntry x.words ∧ r.cycleft = 2 ^ recCyclim x.words ∧ r.shadow = [] ∧ r.commit = [] ∧ r.irrevocable = false ∧
       (∀ k, k < 16 → r.g[k]? = (i.args p.idx x.words)[k]?.map fun v => { v := v, pois := false }) ∧
       (∀ k, 16 ≤ k → k < 64 → r.g[k]? = some { v := 0, pois := false }) ∧ (∀ k, k < 32 → r.vr[k]? = some { v := 0, pois := false }) ∧
       (u.tile t).acc = [] ∧ ∀ n, n ≠ t → u.run? n = s.run? n))

/-- DECREMENT_APPLY (15 R324): an amount below the counter lowers it; the exact amount makes the record PENDING; a slot that has been
used again makes it stray 1; a peer's, whose context does not exist here, is refused to the peer. STRAY_DECREMENT_ANSWER: a peer's
refusal counts and reports stray 5 at the sender. ROPE_ARRIVAL (15 R326, R328): arrival n of a member counts when B + n = A, and a
phase completes when every member has arrived beyond it and not before. INSTANCE_CREATE (15 R318): a spawn whose template has passed
its check, below K and with a fresh tag, becomes an instance with the records of its image, those with counter 0 PENDING, and leaves
the creations. -/
def Obligations.GraphMemory : Prop :=
  ((∀ k s d inst idx gen templ tag i x, s.fab.decs[k]? = some d → d.answered = false → d.target = .slot inst idx gen templ tag →
     s.inst? inst = some i → i.recs[idx]? = some x →
     (x.gen = gen → x.st = .waiting → d.amt < x.counter.toNat →
       ∃ u, exec (.decrementApply k) s = .next u ∧ u.fab.decs = s.fab.decs.eraseIdx k ∧
         u.rec? inst idx = some { x with counter := x.counter - BitVec.ofNat 32 d.amt } ∧ u.mem = s.mem ∧ u.tiles = s.tiles) ∧
     (x.gen = gen → x.st = .waiting → d.amt = x.counter.toNat → x.counter ≠ 0 → x.spilled = false →
       ∃ u y, exec (.decrementApply k) s = .next u ∧ u.fab.decs = s.fab.decs.eraseIdx k ∧ u.rec? inst idx = some y ∧
         y.st = .pending ∧ y.counter = 0 ∧ u.mem = s.mem ∧ u.tiles = s.tiles) ∧
     (x.gen ≠ gen →
       ∃ u, exec (.decrementApply k) s = .next u ∧ u.fab.decs = s.fab.decs.eraseIdx k ∧ u.insts = s.insts ∧
         ∀ c, s.dies[i.die]? = some c → (u.dies[i.die]?).map (fun y => y.dec.stray) = some (c.dec.stray + 1))) ∧
   (∀ k s d va tag n p l, s.fab.decs[k]? = some d → d.answered = false → d.target = .remote n l va tag → n ≠ s.pkg.id.toNat →
     s.linkDown (locOf spHbm (n + 1) 0 0) = false → s.peer? n = some p → p.rdec = true →
     ∃ u, exec (.decrementApply k) s = .next u ∧ u.out = .peerDecrement n d.ctx (locSpace l * 2 ^ 49 + locPa l) tag d.amt :: s.out ∧
       u.fab.decs = s.fab.decs.eraseIdx k ++ [{ d with answered := true, pub := none }] ∧ u.insts = s.insts ∧ u.mem = s.mem) ∧
   (∀ k s d va tag p l, s.fab.decs[k]? = some d → d.answered = true → d.target = .remote p l va tag →
     exec (.strayDecrementAnswer k) s =
       .next ((({ s with fab := { s.fab with decs := s.fab.decs.eraseIdx k } } : State).stray d.ctx d.die 5 va tag).received d.ctx d.die)) ∧
   (∀ k s d va tag p l, s.fab.decs[k]? = some d → d.answered = false → d.target = .remote s.pkg.id.toNat l va tag →
     s.linkDown d.way = false → s.ctx? d.ctx = none → d.port = some p →
     exec (.decrementApply k) s = .next (({ s with fab := { s.fab with decs := s.fab.decs.eraseIdx k } } : State).faultPeer p 0x2B)) ∧
   (∀ k (s : State) a, s.fab.ropeArr[k]? = some a → (∀ b ∈ s.fab.ropeArr.take k, b.tile ≠ a.tile ∨ b.key ≠ a.key) →
     ∃ (u : State), exec (.ropeArrival k) s = .next u ∧ u.fab.ropeArr.length + 1 = s.fab.ropeArr.length ∧ u.ropes.length = s.ropes.length ∧
       ∀ (n : Nat) (x : Rope), s.ropes[n]? = some x → ∃ y : Rope, (u.ropes : List Rope)[(n : Nat)]? = some y ∧ y.key = x.key ∧ y.ctx = x.ctx ∧
         (x.key ≠ a.key ∨ x.ctx ≠ a.ctx → y = x) ∧
         (x.key = a.key → x.ctx = a.ctx →
           y.members = x.members.map (fun m =>
             if m.inst = a.inst ∧ m.idx = a.idx ∧ m.b + BitVec.ofNat 32 a.n = m.a then { m with a := m.a + 1 } else m) ∧
           ((∃ m ∈ y.members, m.a = x.phase) → y.phase = x.phase) ∧
           (y.members ≠ [] → (∀ m ∈ y.members, m.a = x.phase + 1) → y.phase = x.phase + 1)))) ∧
  (∀ k s c t ws, s.fab.creations[k]? = some c → (∀ d ∈ s.fab.creations.take k, d.ctx ≠ c.ctx ∨ d.templ ≠ c.templ) →
     c.origin = .spawn → c.rename = 0 → s.verdictOf c.ctx c.templ = (s, .ok t) → t.bad = none →
     (s.insts.filter fun i => i.ctx == c.ctx && i.templ == c.templ && !i.lost).length < t.k → s.liveInst c.ctx c.templ c.tag = none →
     s.newRecs c t = .ok ws →
     (State.buildInst (State.verifyTables { s with fab := { s.fab with creations := s.fab.creations.eraseIdx k } } c t) c t
       (List.replicate t.nbuf 0) ws).isSome = true → (∀ x ∈ s.insts, x.id ≠ s.fab.nextId) →
     ∃ u i, exec (.instanceCreate k) s = .next u ∧ u.fab.creations = s.fab.creations.eraseIdx k ∧ i ∈ u.insts ∧ i.ctx = c.ctx ∧
       i.templ = c.templ ∧ i.tag = c.tag ∧ i.die = homeDie t c.tag ∧ i.recs.length = (applyParked (s.parkedFor c.ctx c.templ c.tag) (ws.map recCount)).1.length ∧
       i.prio = c.prio ∧ i.rename = List.replicate t.nbuf 0 ∧ i.cont = c.cont ∧ i.mbox = none ∧ i.recs.map Rec.words = ws ∧
       (∀ x ∈ i.recs, (x.counter = 0 → x.st = .pending) ∧ (x.counter ≠ 0 → x.st = .waiting)) ∧
       (∀ d ∈ u.fab.parked, d.isFor c.ctx c.templ c.tag = false) ∧ u.tiles = s.tiles)

/-- MESSAGE_ACCEPT (13 R283, R284, R288): a message with room at its mailbox, behind those of its commit and those that wait there,
takes the next number and stands behind those held; one without room waits; one whose context does not exist is a stray, at the peer
that sent it where it came from one; one for a peer leaves over UALink and stays outstanding. A BIND or UNBIND of a commit reaches its
mailbox as its own event, those of one commit to one mailbox in order (12 R262; 13 R289). HANDLER_DELIVERY asks for the handler's
instance of the oldest. MAILBOX_OVERFLOW reports a SEND that has waited 2^20 cycles, and one so reported never again (13 R284). Rings
(13 R271-R280): RING_POLL, and LAUNCH_NOTIFY of a queue in notify mode, takes the entry at HEAD of a usable launch ring and asks for
its instance; FAULT_RECORD_HELD_WRITE moves the oldest held record to a ring with room and advances TAIL, and notifies the host where
the ring asks for it; that the notification waits while no port carries it is the MODEL's (log entry 86). QUIESCENCE_WAVE reports a
context at rest after two equal waves, and the same rest never again (14 R312); that the record's ADDR is the number of waves the
context has had, plus one, is the MODEL's reading (log entry 59). -/
def Obligations.MessagesAndRings : Prop :=
  ((∀ k s m c, s.fab.msgs[k]? = some m → (∀ x ∈ s.fab.msgs.take k, x.inOrder m = true → x.waiting = true) → m.pkg = none →
     (∀ x ∈ s.fab.msgs, x.waitsBefore m = false) → s.ctx? m.ctx = some c → (c.mbox m.mbox).held.length < 32 →
     ∃ u d, exec (.messageAccept k) s = .next u ∧ u.fab.msgs = s.fab.msgs.eraseIdx k ∧ u.ctx? m.ctx = some d ∧
       (d.mbox m.mbox).held = (c.mbox m.mbox).held ++ [((c.mbox m.mbox).mseq, m.words)] ∧
       (d.mbox m.mbox).mseq = (c.mbox m.mbox).mseq + 1 ∧ u.mem = s.mem ∧ u.tiles = s.tiles ∧ u.insts = s.insts) ∧
   (∀ k s m, s.fab.msgs[k]? = some m → (∀ x ∈ s.fab.msgs.take k, x.inOrder m = true → x.waiting = true) → m.pkg = none →
     (∀ x ∈ s.fab.msgs, x.waitsBefore m = false) → (s.ctx? m.ctx).isSome = true → s.acceptMessage m.ctx m.mbox m.words = none →
     m.waiting = false →
     ∃ u y, exec (.messageAccept k) s = .next u ∧ u.fab.msgs[k]? = some y ∧ y.waiting = true ∧ y.waitsFrom = s.cycle ∧
       y.words = m.words ∧ u.fab.msgs.length = s.fab.msgs.length ∧ u.ctxs = s.ctxs ∧ u.mem = s.mem ∧ u.tiles = s.tiles) ∧
   (∀ k s m d, s.fab.msgs[k]? = some m → (∀ x ∈ s.fab.msgs.take k, x.inOrder m = true → x.waiting = true) → m.pkg = none →
     (∀ x ∈ s.fab.msgs, x.waitsBefore m = false) → s.ctx? m.ctx = none → m.port = none → s.dies[m.mbox % 4]? = some d →
     ∃ u e, exec (.messageAccept k) s = .next u ∧ u.fab.msgs = s.fab.msgs.eraseIdx k ∧ u.dies[m.mbox % 4]? = some e ∧
       e.dec.stray = d.dec.stray + 1 ∧ u.tiles = s.tiles ∧ u.insts = s.insts) ∧
   (∀ k s m p, s.fab.msgs[k]? = some m → (∀ x ∈ s.fab.msgs.take k, x.inOrder m = true → x.waiting = true) → m.pkg = none →
     (∀ x ∈ s.fab.msgs, x.waitsBefore m = false) → s.ctx? m.ctx = none → m.port = some p →
     exec (.messageAccept k) s = .next (({ s with fab := { s.fab with msgs := s.fab.msgs.eraseIdx k } } : State).faultPeer p 0x2B)) ∧
   (∀ k s m p x, s.fab.msgs[k]? = some m → (∀ x ∈ s.fab.msgs.take k, x.inOrder m = false) → m.pkg = some p → m.sent = false →
     s.linkDown m.way = false → s.peer? p = some x → x.mbox = true →
     ∃ u, exec (.messageAccept k) s = .next u ∧ u.out = .peerMessage p m.ctx m.mbox m.words :: s.out ∧
       u.fab.msgs = s.fab.msgs.set k { m with sent := true } ∧ u.ctxs = s.ctxs ∧ u.mem = s.mem ∧ u.tiles = s.tiles) ∧
   (∀ k s b, s.fab.msgs.length ≤ k → s.fab.binds[k - s.fab.msgs.length]? = some b →
     (∀ x ∈ s.fab.binds.take (k - s.fab.msgs.length), x.ctx = b.ctx → x.mbox = b.mbox → x.pub ≠ b.pub) →
     ∃ w, w = ({ s with fab := { s.fab with binds := s.fab.binds.eraseIdx (k - s.fab.msgs.length) } } : State) ∧
       (∀ x, b.bind = some x → exec (.messageAccept k) s = .next (w.bindMbox b.ctx x.1 x.2)) ∧
       (b.bind = none → exec (.messageAccept k) s = .next (w.unbindMbox b.ctx b.mbox))) ∧
   (∀ ctx m s c n w rest t, s.ctx? ctx = some c → s.deliverable c m = true → (c.mbox m).held = (n, w) :: rest →
     s.verdictOf c.id (c.mbox m).htempl = (s, .ok t) → t.bad = none → (c.mbox m).hrec < t.nrec →
     exec (.handlerDelivery ctx m) s = .next (s.askCreation
       { ctx := c.id, templ := (c.mbox m).htempl, rename := 0, tag := n, prio := (c.mbox m).hprio
         origin := .mailbox m w (c.mbox m).hrec })) ∧
   (∀ k s m w, s.fab.msgs[k]? = some m → m.waiting = true → m.reported = false → m.waitsFrom + 2 ^ 20 ≤ s.cycle →
     w = ({ s with fab := { s.fab with msgs := s.fab.msgs.set k { m with reported := true } } } : State) →
     (m.port = none → exec (.mailboxOverflow k) s = .next (w.record m.sender
       { code := 0x2A, record := m.recVa, tag := m.tag, addr := BitVec.ofNat 64 (m.mbox + 2 ^ 32 * m.ctx.toNat) })) ∧
     (∀ p, m.port = some p → exec (.mailboxOverflow k) s = .next (w.faultPeer p 0x2A))) ∧
   (∀ k s m, s.fab.msgs[k]? = some m → m.reported = true → exec (.mailboxOverflow k) s = .next s) ∧
   (∀ (s : State) p n, s.faultPeer p n = s.sendPort (.ualink p) 0 (.peerFault p n))) ∧
  ((∀ ctx k s c reg q l, s.ctx? ctx = some c → c.launch.find? (fun x => x.1 == k) = some reg → s.launching ctx k = false →
     s.viewRing ctx qLaunch (some reg.2) = .ready q → q.used ≠ 0 → s.entryLoc ctx q 32 q.head = .ok l →
     (∀ n, (s.line n).chkBad = false) →
     (s.tally ctx 0 fun c => { c with sent := c.sent + 1 }).entryFault ctx (BitVec.ofNat 256 (s.mem.value l 32)) = none →
     ∃ x : BitVec 256, x = BitVec.ofNat 256 (s.mem.value l 32) ∧
       exec (.ringPoll ctx k) s = .next ((s.tally ctx 0 fun c => { c with sent := c.sent + 1 }).askCreation
         { ctx := ctx, templ := leTempl x, rename := leRename x, tag := leTag x, prio := lePrio x
           cont := if leCv x then some (leTempl x, leCont x) else none, origin := .launch k
           entryAddr := BitVec.ofNat 64 (q.base + 32 * (bitsAt q.head 0 32 % 2 ^ q.log2n)) }) ∧
       (q.notify = true → exec (.launchNotify ctx k) s = exec (.ringPoll ctx k) s)) ∧
   (∀ ctx s c f rest q l, s.ctx? ctx = some c → c.heldRecs = f :: rest → s.viewRing ctx qFault c.faultQ = .ready q → q.mbv = false →
     q.en = true → q.full = false → s.entryLoc ctx q 64 q.tail = .ok l → (∀ n, (s.line n).chkBad = false) →
     ∃ u d, exec (.faultRecordHeldWrite ctx) s = .next u ∧ u.ctx? ctx = some d ∧ d.heldRecs = rest ∧ u.tiles = s.tiles ∧
       (q.notify = true →
         (s.carries (.chrolu 0) = true ∨ s.carries (.chrolu 1) = true → u.out = .notify (q.vec.setWidth 16) :: s.out ∧ d.notes = c.notes) ∧
         (s.carries (.chrolu 0) = false → s.carries (.chrolu 1) = false → u.out = s.out ∧ d.notes = c.notes ++ [q.vec.setWidth 16])) ∧
       (Canonical s → q.loc + 64 ≤ l ∨ l + 64 ≤ q.loc →
         u.mem.bytes l 64 = toBytes f.bits.toNat 64 ∧ u.mem.value (q.loc + 16) 8 = (bitsAt q.tail 0 32 + 1) % 2 ^ 32 ∧
         u.mem.value (q.loc + 40) 8 = (bitsAt q.drops 0 32 + 2 ^ 32 * rest.length) % 2 ^ 64)) ∧
   (∀ ctx s c, s.ctx? ctx = some c →
     (c.wave = none → exec (.quiescenceWave ctx) s =
       .next (s.modCtx ctx fun d => { d with waves := c.waves + 1, wave := some (s.totals c, false) })) ∧
     (c.wave = some (s.totals c, false) → (s.totals c).balanced = true →
       exec (.quiescenceWave ctx) s =
         .next ((s.modCtx ctx fun d => { d with waves := c.waves + 1, wave := some (s.totals c, true) }).record ctx
           { code := 0x33, addr := BitVec.ofNat 64 (c.waves + 1) })) ∧
     (c.wave = some (s.totals c, true) →
       exec (.quiescenceWave ctx) s = .next (s.modCtx ctx fun d => { d with waves := c.waves + 1 }))))

/-! ## Copies, streams and the matrix unit (08, 11) -/

/-- The life of a copy (11 R234-R244; 05 R113). COPY_ELEMENT_TRANSLATE finds where the next element is read and written, and an element
that does not translate stalls the copy. COPY_ELEMENT_COMPLETE reads the source of an element in flight, in any order (12 R265), and
then writes it: to device memory; to a scratchpad line, whose F becomes full with the last write of the copy in it (09 R186);
combined into bank memory (CPYR, 11 R239); to each named tile of the cluster (CPYB, 11 R240), none being named completing it; into an
output port, eight sectors to a packet (11 R252). A copy from an input port takes its packets (11 R253, R254). COPY_STAMP_WRITE writes
the stamp after every element; COPY_COMPLETE sets the tag's bit in CTAGS and clears it in CTAGPEND. The MODEL's choices: an element of
a CPYB is complete with its last named tile (log entry 41); the eight elements of a line of an ordered CPYR are issued together (log
entry 42); the stamp counts among the bytes a copy writes in a line (log entry 49); the last element so far of a copy from a port
waits where it is not known to be the last write of its line (log entry 104). -/
def Obligations.CopyEvents : Prop :=
  ((∀ (s : State) c i a b, s.elemLocs c i = .ok (a, b) → c.desc.kind ≠ .prefetch → c.desc.sout = none →
     s.streamLoc c.tile c.ctx (c.desc.src + (BitVec.ofNat 64 (i / c.desc.row) * c.desc.sstride + BitVec.ofNat 64 (16 * (i % c.desc.row))))
       false = .ok a ∧
     (c.desc.kind ≠ .cpyb →
       s.streamLoc c.tile c.ctx (c.desc.dst + (BitVec.ofNat 64 (i / c.desc.row) * c.desc.dstride + BitVec.ofNat 64 (16 * (i % c.desc.row))))
         true = .ok b) ∧
     (∀ op ty, c.desc.kind = .cpyr op ty → locSpace b = spBank ∧ locPkg b = 0)) ∧
   (∀ id s c a b, s.copy? id = some c → c.live = true → c.next < c.desc.n → c.desc.sin = none → c.desc.kind ≠ .prefetch →
     (∀ op ty, c.desc.kind = .cpyr op ty → c.desc.ord = false) → s.elemLocs c c.next = .ok (a, b) →
     exec (.copyElementTranslate id) s = .next (s.modCopy id fun y =>
       { y with next := c.next + 1, fly := y.fly ++ [{ n := c.next, loc := b, src := a, via := s.elemVia c c.next }] })) ∧
   (∀ id s c f, s.copy? id = some c → c.live = true → c.next < c.desc.n → c.desc.sin = none → c.desc.kind ≠ .prefetch →
     (∀ op ty, c.desc.kind = .cpyr op ty → c.desc.ord = false) → s.elemLocs c c.next = .error f → f.code ≠ 0 → c.prog < c.next →
     (∀ k, (s.line k).chkBad = false) →
     exec (.copyElementTranslate id) s = .next (s.modCopy id fun y => { y with stall := .draining f, merged := none })) ∧
   (∀ id s c op ty l, s.copy? id = some c → c.live = true → c.next < c.desc.n → c.desc.sin = none → c.desc.kind = .cpyr op ty →
     c.desc.ord = true → s.lineLocs c ((List.range 8).map fun i => c.next + i) = .ok l →
     exec (.copyElementTranslate id) s = .next (s.modCopy id fun y =>
       { y with next := c.next + 8
                fly := y.fly ++ l.map fun x => ({ n := x.1, loc := x.2.2, src := x.2.1, via := s.elemVia c x.1 } : Elem) })) ∧
   (∀ id s c p b d q rest, s.copy? id = some c → c.live = true → c.next < c.desc.n → c.desc.sin = some p →
     c.inPart = (d, q) :: rest → s.elemDst c c.next = .ok b →
     exec (.copyElementTranslate id) s = .next (s.modCopy id fun y =>
       { y with inPart := rest, next := c.next + 1
                fly := y.fly ++ [{ n := c.next, loc := b, src := portLoc, got := true, data := d, pois := q, via := s.elemVia c c.next }] })) ∧
   (∀ id s c p q r k rest, s.copy? id = some c → c.live = true → c.next < c.desc.n → c.desc.sin = some p → c.inPart = [] →
     s.inPort? c.inst c.idx p = some q → s.copyRun c = some r → r.popping p = false → q.queue = k :: rest → s.keepRoom c.ctx q = true →
     k.abort = false → k.eot = false →
     ∃ u d, exec (.copyElementTranslate id) s = .next u ∧ u.copy? id = some d ∧ d.next = c.next ∧ d.fly = c.fly ∧
       d.inPart.length = 8 ∧ (∀ i, i < 8 → d.inPart[i]? = some (k.payload.extractLsb' (128 * i) 128, k.pois)) ∧
       u.mem = s.mem ∧ u.tiles = s.tiles) ∧
   (∀ id s c p q r, s.copy? id = some c → c.live = true → c.next < c.desc.n → c.desc.sin = some p → c.inPart = [] →
     s.inPort? c.inst c.idx p = some q → s.copyRun c = some r → r.popping p = false → q.queue = [] → q.ended = true →
     exec (.copyElementTranslate id) s = .next (s.modCopy id fun y => { y with cut := true }))) ∧
  (∀ id k s c e, s.copy? id = some c → c.fly[k]? = some e → e.got = false → s.behindMatrix c e.src 16 false = false →
    s.linkDown e.src = false → locPkg e.src = 0 → (∀ n, (s.line n).chkBad = false) → c.desc.kind ≠ .prefetch →
    (∀ op ty, c.desc.kind = .cpyr op ty → c.desc.ord = false) → (c.desc.kind = .cpyb → c.named ≠ []) →
    ∃ u d, exec (.copyElementComplete id k) s = .next u ∧ u.copy? id = some d ∧ u.mem = s.mem ∧ u.tiles = s.tiles ∧
      (locSpace e.src ≠ spPad → u.lines = s.lines) ∧ (∀ n, { u.line n with rd := (s.line n).rd } = s.line n) ∧
      (c.desc.kind ≠ .cpyb → d.fly = c.fly.map fun x => if x.n = e.n ∧ x.got = false then
        { x with got := true, data := BitVec.ofNat 128 (s.mem.value e.src 16), pois := s.poisonAt e.src 16 } else x) ∧
      (c.desc.kind = .cpyb → ∀ t, t ∈ clusterTiles (tileCluster c.tile) → c.desc.tmask.getLsbD (tileIndex t) = true →
        ∃ x ∈ d.fly, x.n = e.n ∧ x.got = true ∧ x.loc = padLoc t (locPa e.loc) ∧ x.data = BitVec.ofNat 128 (s.mem.value e.src 16) ∧
          x.pois = s.poisonAt e.src 16)) ∧
  (∀ id k s c e, s.copy? id = some c → c.fly[k]? = some e → e.got = false → s.behindMatrix c e.src 16 false = false →
    s.linkDown e.src = false → locPkg e.src = 0 → (∀ n, (s.line n).chkBad = false) → c.desc.kind = .cpyb → c.named = [] → c.stall = .no →
    ∃ u d, exec (.copyElementComplete id k) s = .next u ∧ u.copy? id = some d ∧ u.mem = s.mem ∧ u.tiles = s.tiles ∧
      (e.n < d.prog ∨ e.n ∈ d.above)) ∧
  (∀ id k s c e, s.copy? id = some c → c.fly[k]? = some e → e.got = true → s.behindMatrix c e.loc 16 true = false →
    s.linkDown e.loc = false → (∀ n, (s.line n).chkBad = false) → Canonical s → c.stall = .no → c.desc.sout = none → s.fab.retry = [] →
    ((c.desc.kind = .cpy ∨ c.desc.kind = .cpys) → locSpace e.loc ≠ spPad → absentLoc e.loc = false →
      ∃ u d, exec (.copyElementComplete id k) s = .next u ∧ u.mem.value e.loc 16 = e.data.toNat ∧
        (∀ a, a < e.loc ∨ e.loc + 16 ≤ a → u.mem.read a = s.mem.read a) ∧ u.copy? id = some d ∧ d.fly = c.fly.eraseIdx k ∧
        ((∀ x ∈ c.fly.eraseIdx k, x.n ≠ e.n) → e.n < d.prog ∨ e.n ∈ d.above) ∧ u.tiles = s.tiles) ∧
    ((c.desc.kind = .cpy ∨ c.desc.kind = .cpys) → c.undecided e = false → locSpace e.loc = spPad → c.tile < 1088 →
      ∃ u d l key, l = padLoc c.tile ((c.desc.dst + c.desc.dstOff e.n).toNat % 2 ^ 20) ∧ key = c.padLine c.tile e.n ∧
        exec (.copyElementComplete id k) s = .next u ∧ u.mem.value l 16 = e.data.toNat ∧
        (∀ a, a < l ∨ l + 16 ≤ a → u.mem.read a = s.mem.read a) ∧ u.copy? id = some d ∧ d.fly = c.fly.eraseIdx k ∧
        ((∀ x ∈ c.fly.eraseIdx k, x.n ≠ e.n) → e.n < d.prog ∨ e.n ∈ d.above) ∧ (u.line key).wr = true ∧
        (({ c with fly := c.fly.eraseIdx k } : Copy).lineOver c.tile key = true → (u.line key).full = true) ∧
        (({ c with fly := c.fly.eraseIdx k } : Copy).lineOver c.tile key = false → (u.line key).full = (s.line key).full) ∧
        (∀ n, n ≠ key → (u.line n).full = (s.line n).full) ∧ ∀ n, n ≠ c.tile → u.tile n = s.tile n) ∧
    (∀ op ty, c.desc.kind = .cpyr op ty → c.desc.ord = false → (∀ x ∈ c.fly, e.n ≤ x.n) → absentLoc e.loc = false →
      ∃ u d, exec (.copyElementComplete id k) s = .next u ∧
        u.mem.value e.loc 16 = combineLine op ty (s.mem.value e.loc 16) e.data.toNat % 2 ^ 128 ∧
        (∀ a, a < e.loc ∨ e.loc + 16 ≤ a → u.mem.read a = s.mem.read a) ∧ u.copy? id = some d ∧ d.fly = c.fly.eraseIdx k ∧
        ((∀ x ∈ c.fly.eraseIdx k, x.n ≠ e.n) → e.n < d.prog ∨ e.n ∈ d.above) ∧ u.tiles = s.tiles) ∧
    (c.desc.kind = .cpyb → s.takesBroadcast c (locCtx e.loc) = true →
      ∃ u l, l = padLoc (locCtx e.loc) ((c.desc.dst + c.desc.dstOff e.n).toNat % 2 ^ 20) ∧ exec (.copyElementComplete id k) s = .next u ∧
        u.mem.value l 16 = e.data.toNat ∧ (∀ a, a < l ∨ l + 16 ≤ a → u.mem.read a = s.mem.read a) ∧
        (({ c with fly := c.fly.eraseIdx k } : Copy).lineOver (locCtx e.loc) (lineKey l) = true → (u.line (lineKey l)).full = true)) ∧
    (c.desc.kind = .cpyb → s.takesBroadcast c (locCtx e.loc) = false →
      ∃ u d, exec (.copyElementComplete id k) s = .next u ∧ u.mem = s.mem ∧ u.lines = s.lines ∧ u.tiles = s.tiles ∧ u.copy? id = some d ∧
        d.skip = c.skip ||| ((1 : BitVec 16) <<< tileIndex (locCtx e.loc)))) ∧
  (∀ id k s c e port r, s.copy? id = some c → c.fly[k]? = some e → e.got = true → s.behindMatrix c e.loc 16 true = false →
    s.linkDown e.loc = false → c.desc.sout = some port → c.stall = .no → s.copyRun c = some r → (∀ x ∈ c.fly, e.n ≤ x.n) →
    (c.part.length + 1 < 8 → e.n + 1 < c.desc.n →
      ∃ u d, exec (.copyElementComplete id k) s = .next u ∧ u.copy? id = some d ∧ d.part = c.part ++ [e] ∧ u.run? c.tile = some r ∧
        u.mem = s.mem) ∧
    (8 ≤ c.part.length + 1 ∨ c.desc.n ≤ e.n + 1 → (r.outPort port).hasRoom ((r.pitch.map fun p => p.reserved port).getD 0) = true →
      port < r.out.length → c.part.length < 8 →
      ∃ u d r' x, exec (.copyElementComplete id k) s = .next u ∧ u.copy? id = some d ∧ d.part = [] ∧
        d.lastSent = some (r.outPort port).nextSeq ∧ u.run? c.tile = some r' ∧
        (r'.outPort port).queue = (r.outPort port).queue ++ [x] ∧ x.seq = (r.outPort port).nextSeq ∧
        (r'.outPort port).nextSeq = (r.outPort port).nextSeq + 1 ∧ x.pois = (c.part ++ [e]).any (fun y => y.pois) ∧
        x.eot = false ∧ x.abort = false ∧
        (∀ i y, (c.part ++ [e])[i]? = some y → x.payload.extractLsb' (128 * i) 128 = y.data) ∧ u.mem = s.mem)) ∧
  (∀ id s c a v l, s.copy? id = some c → c.desc.stamp = some (a, v) → c.moved = true → c.done = false → c.stampDone = false →
    s.streamLoc c.tile c.ctx a true = .ok l → s.behindMatrix c l 8 true = false → absentLoc l = false →
    (∀ n, (s.line n).chkBad = false) → s.fab.retry = [] → Canonical s →
    ∃ u d, exec (.copyStampWrite id) s = .next u ∧ u.mem.value l 8 = v.toNat ∧ u.copy? id = some d ∧ d.stampDone = true ∧
      (∀ a, a < l ∨ l + 8 ≤ a → u.mem.read a = s.mem.read a) ∧ u.tiles = s.tiles ∧
      (locSpace l = spPad → ({ c with stampDone := true } : Copy).lineOver c.tile (lineKey l) = true → (u.line (lineKey l)).full = true)) ∧
  (∀ id s c r g, s.copy? id = some c → c.moved = true → c.done = false → (c.desc.stamp = none ∨ c.stampDone = true) →
    s.copyRun c = some r → r.twin = none → c.portClear r = true → c.desc.tag = some g → g < 64 →
    ∃ u r' d, exec (.copyComplete id) s = .next u ∧ u.copy? id = some d ∧ d.done = true ∧ u.run? c.tile = some r' ∧
      r'.ctags = r.ctags ||| ((1 : BitVec 64) <<< g) ∧ r'.ctagpend = r.ctagpend &&& ~~~((1 : BitVec 64) <<< g) ∧ u.mem = s.mem ∧
      ∀ n, n ≠ c.tile → u.tile n = s.tile n)

/-- Streams (11 R252-R255): STREAM_PACKET_ARRIVE of a good packet that is next from its source puts it behind those in the input
queue and keeps it at the sender until STREAM_ACKNOWLEDGE; a packet whose check value failed is asked for again, and
STREAM_RESEND_REQUEST sends it again; one that failed three times is delivered poisoned. -/
def Obligations.StreamEvents : Prop :=
  (∀ t port good s r k rest q o, s.run? t = some r → o = r.outPort port → o.queue = k :: rest →
    s.inPort? r.inst o.peer o.peerPort = some q → s.circuit r o = true → o.resend = none → q.queue.length < 16 →
    s.runsOf q.inst q.idx = [] → k.seq.ult (q.expect (s.sourceIndex r port o)).1 = false → port < r.out.length →
    ∃ u r' q', exec (.streamPacketArrive t port good) s = .next u ∧ u.run? t = some r' ∧ (r'.outPort port).queue = rest ∧
      (r'.outPort port).unacked = o.unacked ++ [k] ∧ u.inPort? r.inst o.peer o.peerPort = some q' ∧ u.mem = s.mem ∧
      (good = true → q'.queue.length = q.queue.length + 1 ∧ q'.queue.take q.queue.length = q.queue ∧
        (∀ p, q'.queue[q.queue.length]? = some p → p.payload = k.payload ∧ p.fmt = k.fmt ∧ p.pois = k.pois ∧ p.seq = k.seq)) ∧
      (good = false → 2 ≤ (q.expect (s.sourceIndex r port o)).2 →
        ∃ p, q'.queue = q.queue ++ [p] ∧ p.payload = k.payload ∧ p.seq = k.seq ∧ p.pois = true) ∧
      (good = false → (q.expect (s.sourceIndex r port o)).2 < 2 → q'.queue = q.queue ∧ (r'.outPort port).resend = some k.seq)) ∧
  (∀ t port s r, s.run? t = some r → r.twin = none → (r.outPort port).acks ≠ 0 →
    exec (.streamAcknowledge t port) s =
      .next (s.setRun t (r.modOut port fun o => { o with unacked := o.unacked.drop 1, acks := o.acks - 1 }))) ∧
  (∀ t port s r n, s.run? t = some r → (r.outPort port).resend = some n → (∀ k ∈ (r.outPort port).unacked, k.reads = []) →
    exec (.streamResendRequest t port) s = .next (s.setRun t (r.modOut port fun o =>
      { o with queue := ((r.outPort port).unacked.filter fun k => !k.seq.ult n) ++ o.queue
               unacked := o.unacked.filter fun k => k.seq.ult n, resend := none })))

/-- The matrix unit (08 R162-R179). MATRIX_OP_START starts the operation issued next when its resources are free, a conditional
BLOAD making its comparison. MATRIX_OP_COMPLETE performs it and frees them: BLOAD reads rows, block scales and band scales into an
array, BSWAP exchanges two, BCLR makes one invalid; MMA and MMAT pass their A rows in order, each accumulator word rounded once for
each row (02 R42, R43); ACCZ, ACCWR, ACCST, ACCSTAT and ACCSCL write an accumulator or store from it. An MMA fed from a stream takes
the packets of its port from its start on, while there is room to keep them: a row for each packet of a format of one row, and a
packet of a format it may not take stops it (08 R173, R181; 11 R254). ARMED_MMA_ROW waits for the lines of its row, passes it, and
stores the accumulator row to its output lines, which become full. That an operation completes in one step (log entry 39), and that
the poison of a row of A comes from its own elements and the array alone, not from its scale tables (log entry 23), are the MODEL's
readings. -/
def Obligations.MatrixEvents : Prop :=
  (∀ t s k j, (s.tile t).nextJob = some k → (s.tile t).jobs[k]? = some j → (s.tile t).free k j.op = true →
    (s.tile t).pathsHeld + j.op.paths ≤ 2 →
    ∃ u, u = s.modJob t k (fun y => { y with started := true, matched := (s.tile t).match_ j.op }) ∧
      exec (.matrixOpStart t) s = .next (u.feed t) ∧ ((∀ x ∈ (s.tile t).jobs, x.op.port = none) → u.feed t = u)) ∧
  ((∀ (s : State) t p n r k j q x rest, s.run? t = some r → (s.tile t).feeding p = some (k, j) → r.popping p = false →
     s.inPort? r.inst r.idx p = some q → q.queue = x :: rest →
     (s.keepRoom r.ctx q = false → s.feedMma t p (n + 1) = s) ∧
     (s.keepRoom r.ctx q = true →
       s.feedMma t p (n + 1) = ((s.modInPort r.inst r.idx p InPort.take).packetRows t k j x).feedMma t p n)) ∧
   (∀ (s : State) t k j arr acc a w x u, (s.tile t).jobs[k]? = some j → j.op = .mma arr acc a w → j.half = none → x.abort = false →
     x.eot = false → (∀ n, (s.line n).chkBad = false) → u = s.packetRows t k j x →
     (j.op.takes x.fmt.toNat = true → x.fmt.toNat ∉ [0, 4, 5] →
       (u.tile t).jobs[k]? = some { j with rows := j.rows + 1, half := none } ∧ u.mem = s.mem ∧ (u.tile t).arrays = (s.tile t).arrays ∧
         (u.tile t).macrows = (s.tile t).macrows + 1 ∧
         ∀ n c, c < 128 → (n ≠ acc ∨ c ≠ (cwRow w + j.rows) % 128) → (u.tile t).accRow n c = (s.tile t).accRow n c) ∧
     (j.op.takes x.fmt.toNat = false → (u.tile t).jobs = (s.tile t).jobs.take k ∧ (u.tile t).acc = (s.tile t).acc ∧
       ∀ r, s.run? t = some r → ∃ r', u.run? t = some r' ∧ r'.matFault.isSome = true))) ∧
  ((∀ t k s j a lw sw, Spec.completes s t k j → j.op = .bload a lw sw → a < 4 →
     ∃ u, exec (.matrixOpComplete t k) s = .next u ∧ Spec.leaves s u t k ∧ u.mem = s.mem ∧ (u.tile t).acc = (s.tile t).acc ∧
       (∀ b, b ≠ a → b < 4 → (u.tile t).array b = (s.tile t).array b) ∧
       (j.matched = true → (u.tile t).array a = (s.tile t).array a) ∧
       (j.matched = false → ∃ w f, w = (u.tile t).array a ∧ f = bitsAt lw 40 3 ∧ w.valid = true ∧ w.fmt.toNat = f ∧
         w.rtag.toNat = bitsAt sw 40 24 ∧
         (∀ n k, n < 128 → k < 128 →
           (w.codes n)[k]? = some (Spec.rowCode s t f (bitsAt lw 0 20 + n * bitsAt lw 20 20) (rowBytes f) k)) ∧
         (f ≤ 1 → ∀ n i, n < 128 → i < 16 →
           (w.bsc[n]?.getD 0).toNat / 2 ^ (8 * i) % 256 = leNat (s.padBytes t (bitsAt sw 0 20 + 16 * n + i) 1)) ∧
         (1 < f → w.bsc = ((s.tile t).array a).bsc) ∧
         w.band0.toNat = (if lw.getLsbD 43 then leNat (s.padBytes t (bitsAt sw 20 20) 2) else 0x3F80) ∧
         w.band1.toNat = (if lw.getLsbD 43 then leNat (s.padBytes t (bitsAt sw 20 20 + 2) 2) else 0x3F80) ∧
         (w.pois = true ↔ (∃ n, n < 128 ∧ s.padPoison t (bitsAt lw 0 20 + n * bitsAt lw 20 20) (rowBytes f) = true) ∨
           (f ≤ 1 ∧ s.padPoison t (bitsAt sw 0 20) 2048 = true) ∨ (lw.getLsbD 43 = true ∧ s.padPoison t (bitsAt sw 20 20) 4 = true)))) ∧
   (∀ t k s j, Spec.completes s t k j → j.matched = false →
     (∀ a, j.op = .bclr a → a < 4 → ∃ u, exec (.matrixOpComplete t k) s = .next u ∧ Spec.leaves s u t k ∧
       (u.tile t).array a = { (s.tile t).array a with valid := false, pois := false } ∧
       (∀ b, b ≠ a → b < 4 → (u.tile t).array b = (s.tile t).array b) ∧ (u.tile t).acc = (s.tile t).acc ∧ u.mem = s.mem) ∧
     (∀ a b, j.op = .bswap a b → a < 4 → b < 4 → ∃ u, exec (.matrixOpComplete t k) s = .next u ∧ Spec.leaves s u t k ∧
       (u.tile t).array a = (s.tile t).array b ∧ (u.tile t).array b = (s.tile t).array a ∧
       (∀ c, c ≠ a → c ≠ b → c < 4 → (u.tile t).array c = (s.tile t).array c) ∧ (u.tile t).acc = (s.tile t).acc ∧ u.mem = s.mem))) ∧
  ((∀ t k s j arr acc a w, Spec.completes s t k j → j.matched = false → j.op = .mma arr acc a w → awStrm a = false →
     ∃ u, exec (.matrixOpComplete t k) s = .next u ∧ Spec.leaves s u t k ∧ u.mem = s.mem ∧ (u.tile t).arrays = (s.tile t).arrays ∧
       (u.tile t).macrows = (s.tile t).macrows + BitVec.ofNat 64 (awRows a) ∧
       ∀ c, c < 128 →
         (∀ n, n ≠ acc → (u.tile t).accRow n c = (s.tile t).accRow n c) ∧
         (∀ i, i < 128 → Spec.accWord ((u.tile t).accRow acc c) i =
           Spec.mmaWord ((s.tile t).array arr) (awScl a) (awIacc a)
             (fun n => Spec.aCodes s t (j.aFmt a) (awOff a + n * awStride a))
             (fun n => Spec.aVals s t (j.aFmt a) (awScl a) (awOff a + n * awStride a) (j.soff w) (j.boff w) n) i
             (Spec.accWord ((s.tile t).accRow acc c) i) (Spec.rowsInto (cwRow w) (awRows a) c)) ∧
         (((u.tile t).accRow acc c).pois = true ↔ ((s.tile t).accRow acc c).pois = true ∨
           ∃ n ∈ Spec.rowsInto (cwRow w) (awRows a) c, ((s.tile t).array arr).pois = true ∨
             s.padPoison t (awOff a + n * awStride a) (rowBytes (j.aFmt a)) = true)) ∧
   (∀ t k s j arr acc a w, Spec.completes s t k j → j.matched = false → j.op = .mmat arr acc a w → 1 < j.aFmt a →
     ∃ u, exec (.matrixOpComplete t k) s = .next u ∧ Spec.leaves s u t k ∧ u.mem = s.mem ∧ (u.tile t).arrays = (s.tile t).arrays ∧
       (u.tile t).macrows = (s.tile t).macrows + BitVec.ofNat 64 (awRows a) ∧
       ∀ c, c < 128 →
         (∀ n, n ≠ acc → (u.tile t).accRow n c = (s.tile t).accRow n c) ∧
         (∀ i, i < 128 → Spec.accWord ((u.tile t).accRow acc c) i =
           Spec.mmaWord ((s.tile t).array arr) (awScl a) (awIacc a)
             (fun n => Spec.tCodes s t (j.aFmt a) (awOff a) (awStride a) (awRows a) n)
             (fun n => Spec.tVals s t (j.aFmt a) (awScl a) (awOff a) (awStride a) (awRows a) (j.boff w) n) i
             (Spec.accWord ((s.tile t).accRow acc c) i) (Spec.rowsInto (cwRow w) (awRows a) c)) ∧
         (((u.tile t).accRow acc c).pois = true ↔ ((s.tile t).accRow acc c).pois = true ∨
           ∃ n ∈ Spec.rowsInto (cwRow w) (awRows a) c, ((s.tile t).array arr).pois = true ∨
             ∃ i, i < 128 ∧ s.padPoison t (awOff a + i * awStride a + n * (matWidth (j.aFmt a) / 8)) (matWidth (j.aFmt a) / 8) = true)) ∧
   (∀ t k s j, Spec.completes s t k j → j.op.port.isSome = true → (∀ p, (s.tile t).feeding p = none) →
     (j.ended = true ∨ j.op.rows ≤ j.rows) →
     ∃ u, exec (.matrixOpComplete t k) s = .next u ∧ Spec.leaves s u t k ∧ (u.tile t).acc = (s.tile t).acc ∧
       (u.tile t).arrays = (s.tile t).arrays ∧ u.mem = s.mem)) ∧
  (∀ t k s j, Spec.completes s t k j → j.matched = false →
    (∀ a, j.op = .accz a → ∃ u, exec (.matrixOpComplete t k) s = .next u ∧ Spec.leaves s u t k ∧ u.mem = s.mem ∧
      (u.tile t).arrays = (s.tile t).arrays ∧ ∀ n, n < 128 → (u.tile t).accRow a n = {} ∧
      ∀ b, b ≠ a → (u.tile t).accRow b n = (s.tile t).accRow b n) ∧
    (∀ a row d p, j.op = .accwr a row d p → ∃ u, exec (.matrixOpComplete t k) s = .next u ∧ Spec.leaves s u t k ∧ u.mem = s.mem ∧
      (u.tile t).arrays = (s.tile t).arrays ∧
      (∀ i, i < 128 → Spec.accWord ((u.tile t).accRow a (bitsAt row 0 7)) i =
        if (64 ≤ i) = (row.getLsbD 7 = true) then d.toNat / 2 ^ (32 * (i % 64)) % 2 ^ 32
        else Spec.accWord ((s.tile t).accRow a (bitsAt row 0 7)) i) ∧
      ((u.tile t).accRow a (bitsAt row 0 7)).pois = (((s.tile t).accRow a (bitsAt row 0 7)).pois || p) ∧
      ∀ b c, (b ≠ a ∨ c ≠ bitsAt row 0 7) → c < 128 → (u.tile t).accRow b c = (s.tile t).accRow b c) ∧
    (∀ a w m, j.op = .accst a w → m = bitsAt w 47 7 + 1 → Canonical s → ∃ u, exec (.matrixOpComplete t k) s = .next u ∧
      Spec.leaves s u t k ∧ (u.tile t).acc = (s.tile t).acc ∧ (u.tile t).arrays = (s.tile t).arrays ∧
      (∀ n, n < m →
        (∀ i x y, n < i → i < m → x < outBytes (bitsAt w 54 3) → y < outBytes (bitsAt w 54 3) →
          (bitsAt w 0 20 + n * bitsAt w 20 20 + x) % 2 ^ 20 ≠ (bitsAt w 0 20 + i * bitsAt w 20 20 + y) % 2 ^ 20) →
        ∀ i, i < 128 →
          leNat (u.padBytes t (bitsAt w 0 20 + n * bitsAt w 20 20 + outBytes (bitsAt w 54 3) / 128 * i) (outBytes (bitsAt w 54 3) / 128)) =
            Spec.outLane (bitsAt w 54 3) (Spec.accWord ((s.tile t).accRow a ((bitsAt w 40 7 + n) % 128)) i)) ∧
      (w.getLsbD 57 = true → ∀ n, n < m → ∀ l ∈ padLines t (bitsAt w 0 20 + n * bitsAt w 20 20) (outBytes (bitsAt w 54 3)),
        (u.line l).full = true) ∧
      (w.getLsbD 57 = false → ∀ l, (u.line l).full = (s.line l).full) ∧
      (∀ l, (∀ n x, n < m → x < outBytes (bitsAt w 54 3) → l ≠ padLoc t ((bitsAt w 0 20 + n * bitsAt w 20 20 + x) % 2 ^ 20)) →
        u.mem.read l = s.mem.read l)) ∧
    (∀ a w, j.op = .accstat a w → Canonical s → ∃ u, exec (.matrixOpComplete t k) s = .next u ∧ Spec.leaves s u t k ∧
      (u.tile t).acc = (s.tile t).acc ∧ (u.tile t).arrays = (s.tile t).arrays ∧
      (∀ c, c < 128 → ∃ m x, (m, x) = rowStat (f32Val (bitsAt w 20 32))
          ((List.range 128).map fun i => f32Val (Spec.accWord ((s.tile t).accRow a c) i)) ∧
        leNat (u.padBytes t (bitsAt w 0 20 + 4 * c) 4) = (fmtF32.roundVal .rne m).1 ∧
        leNat (u.padBytes t (bitsAt w 0 20 + 512 + 4 * c) 4) = (fmtF32.roundVal .rne x).1) ∧
      (∀ l, (∀ x, x < 1024 → l ≠ padLoc t ((bitsAt w 0 20 + x) % 2 ^ 20)) → u.mem.read l = s.mem.read l) ∧
      ∀ l, (u.line l).full = (s.line l).full) ∧
    (∀ a e w, j.op = .accscl a e w → ∃ u, exec (.matrixOpComplete t k) s = .next u ∧ Spec.leaves s u t k ∧ u.mem = s.mem ∧
      (u.tile t).arrays = (s.tile t).arrays ∧
      (∀ c, c < 128 →
        (∀ i, i < 128 → Spec.accWord ((u.tile t).accRow a c) i =
          scaleWord e (f32Val (bitsAt w 20 32)) (f32Val (leNat (s.padBytes t (bitsAt w 0 20 + 4 * c) 4)))
            (f32Val (leNat (s.padBytes t (bitsAt w 0 20 + 512 + 4 * c) 4))) (Spec.accWord ((s.tile t).accRow a c) i)) ∧
        (((u.tile t).accRow a c).pois = true ↔ ((s.tile t).accRow a c).pois = true ∨
          s.padPoison t (bitsAt w 0 20 + 4 * c) 4 = true ∨ s.padPoison t (bitsAt w 0 20 + 512 + 4 * c) 4 = true)) ∧
      ∀ b c, b ≠ a → c < 128 → (u.tile t).accRow b c = (s.tile t).accRow b c)) ∧
  (∀ t k s j arr acc a w, Spec.completes s t k j → j.op = .mmaa arr acc a w → (s.tile t).pathsHeld < 2 → Canonical s →
    ∃ ain out : List Nat, ain = padLines t (awOff a + j.rows * awStride a) (rowBytes (j.aFmt a)) ∧
      out = padLines t (bitsAt w 0 20 + j.rows * bitsAt w 20 20) (outBytes (bitsAt w 40 3)) ∧
      (s.allFull true ain = false ∨ s.allFull false out = false → exec (.armedMmaRow t k) s = .next s) ∧
      (s.allFull true ain = true → s.allFull false out = true →
        ∃ u y, exec (.armedMmaRow t k) s = .next u ∧ y = (u.tile t).accRow acc ((bitsAt w 45 7 + j.rows) % 128) ∧
          (∀ n ∈ out, (u.line n).full = true) ∧ (∀ n ∈ ain, (u.line n).full = !w.getLsbD 44) ∧
          (∀ i, i < 128 → Spec.accWord y i =
            Spec.mmaWord ((s.tile t).array arr) (awScl a) (awIacc a)
              (fun n => Spec.aCodes s t (j.aFmt a) (awOff a + n * awStride a))
              (fun n => Spec.aVals s t (j.aFmt a) (awScl a) (awOff a + n * awStride a) j.scalep.toNat j.bandp.toNat n) i
              (if w.getLsbD 43 then 0 else Spec.accWord ((s.tile t).accRow acc ((bitsAt w 45 7 + j.rows) % 128)) i) [j.rows]) ∧
          (∀ i, i < 128 →
            leNat (u.padBytes t (bitsAt w 0 20 + j.rows * bitsAt w 20 20 + outBytes (bitsAt w 40 3) / 128 * i)
              (outBytes (bitsAt w 40 3) / 128)) = Spec.outLane (bitsAt w 40 3) (Spec.accWord y i)) ∧
          (∀ l, (∀ x, x < outBytes (bitsAt w 40 3) → l ≠ padLoc t ((bitsAt w 0 20 + j.rows * bitsAt w 20 20 + x) % 2 ^ 20)) →
            u.mem.read l = s.mem.read l) ∧
          (j.rows + 1 = awRows a → (u.tile t).jobs = (s.tile t).jobs.eraseIdx k) ∧
          (j.rows + 1 ≠ awRows a → (u.tile t).jobs = (s.tile t).jobs.set k { j with rows := j.rows + 1 })))

/-! ## Services and translations (06, 13, 16, 18) -/

/-- LOG appends its entry to the log ring and completes with 0, with 1 where the ring is full (13 R281). RESUME performs an allowed
action and supersedes the record, and refuses any other with 2 (18 R372-R374). TLBINV and MIGRATE begin an invalidation, or are
refused with 2 (16 R344, R348; which operands are refused beyond those the rules name is the MODEL's reading, log entry 69). That MIGRATE
waits while its descriptor is withheld, and while its page is under another MIGRATE, is the MODEL's reading (log entry 71). -/
def Obligations.Services : Prop :=
  (∀ t s r c x q l, s.service? t 0x001 = some (r, c) → s.ctx? r.ctx = some x → s.viewRing r.ctx qLog x.logQ = .ready q →
    (∀ n, (s.line n).chkBad = false) →
    (q.full = true → exec (.svcLog t) s = .next (s.serviceDone t 1)) ∧
    (q.full = false → s.entryLoc r.ctx q 16 q.tail = .ok l → exec (.svcLog t) s =
      .next ((s.ringAppend r.ctx q l (toBytes c.l.toNat 8 ++ toBytes (c.r.toNat % 2 ^ 16) 2 ++ [0, 0] ++ toBytes r.tag.toNat 4)).serviceDone t 0))) ∧
  (∀ t s r c ctx, s.service? t 0x101 = some (r, c) → ctx = BitVec.ofNat 32 (bitsAt c.r 32 32) →
    (bitsAt c.r 2 30 ≠ 0 → exec (.svcResume t) s = .next (s.serviceDone t 2)) ∧
    (∀ x w, bitsAt c.r 2 30 = 0 → s.ctx? ctx = some x → x.await.find? (fun w => w.seq % 2 ^ 64 == c.l.toNat) = some w →
      (s.allows w (actionOf c.r) = false → exec (.svcResume t) s = .next (s.serviceDone t 2)) ∧
      (s.allows w (actionOf c.r) = true → exec (.svcResume t) s = .next
        (((s.modCtx ctx fun y => { y with await := y.await.filter fun z => z != w }).act w (actionOf c.r)).serviceDone t 0))) ∧
    (∀ x, s.ctx? ctx = some x → (∀ w ∈ x.await, w.seq % 2 ^ 64 ≠ c.l.toNat) →
      exec (.svcResume t) s = .next (s.serviceDone t 2))) ∧
  (∀ t s r c, s.service? t 0x100 = some (r, c) → s.invalidating t = false →
    (s.invalidation c.l c.r (.svc t) = none → exec (.svcTlbinv t) s = .next (s.serviceDone t 2)) ∧
    (∀ v, s.invalidation c.l c.r (.svc t) = some v → exec (.svcTlbinv t) s = .next (s.invalidate v))) ∧
  (∀ t s r c, s.service? t 0x102 = some (r, c) → s.invalidating t = false →
    (∀ f, s.migDesc t r c.l = .error f → (f.code ≠ 0 ∨ c.r ≠ 0) → exec (.svcMigrate t) s = .next (s.serviceDone t 2)) ∧
    (∀ f, s.migDesc t r c.l = .error f → f.code = 0 → c.r = 0 → exec (.svcMigrate t) s = .next s) ∧
    (∀ d, s.migDesc t r c.l = .ok d → c.r ≠ 0 → exec (.svcMigrate t) s = .next (s.serviceDone t 2)) ∧
    (∀ d, c.r = 0 → s.migDesc t r c.l = .ok d → s.migWaits d = true → exec (.svcMigrate t) s = .next s) ∧
    (∀ d, c.r = 0 → s.migDesc t r c.l = .ok d → s.migWaits d = false →
      (s.migration t d = none → exec (.svcMigrate t) s = .next (s.serviceDone t 2)) ∧
      (∀ v, s.migration t d = some v → exec (.svcMigrate t) s = .next (s.invalidate v))))

/-- Translations (16 R339-R349). A walk that a miss of a tile makes fills its TLB with the leaf found; that it caches nothing where it
finds none is the MODEL's choice, as R342 allows a negative result to be kept (log entry 8). An invalidation leaves no cached leaf that
it names, and completes only when nothing waits; then its service goes on with status 0, a host command has its completion written,
and a MIGRATE has every byte of the old frame in the new one, an absent frame taking nothing (16 R336). For what an invalidation
waits, and that a MIGRATE whose frame lies behind a link that is down waits for the link, is the MODEL's reading (log entries 70,
71). -/
def Obligations.Translations : Prop :=
  (∀ t ctx va s, isCanonical va.toNat = true → s.migrating ctx va.toNat = false →
    (∀ x, s.tlbHit t ctx va.toNat = some x → exec (.translationWalk t ctx va) s = .next s) ∧
    (∀ x, s.tlbHit t ctx va.toNat = none → s.tlbHit (l2Unit (tileCluster t)) ctx va.toNat = none →
      s.walk (some (tileDie t)) ctx va.toNat = .ok x →
      ∃ u, exec (.translationWalk t ctx va) s = .next u ∧ u.tlbHit t ctx va.toNat = some x ∧ u.mem = s.mem ∧ u.tiles = s.tiles) ∧
    (∀ f, s.tlbHit t ctx va.toNat = none → s.tlbHit (l2Unit (tileCluster t)) ctx va.toNat = none →
      s.walk (some (tileDie t)) ctx va.toNat = .error f →
      ∃ u, exec (.translationWalk t ctx va) s = .next u ∧ u.pkg.tlb = s.pkg.tlb ∧ u.mem = s.mem ∧ u.tiles = s.tiles)) ∧
  (∀ (s : State) v, (s.invalidate v).mem = s.mem ∧ (s.invalidate v).tiles = s.tiles ∧
    ∀ e ∈ (s.invalidate v).pkg.tlb, v.drops e.ctx e.va.toNat (pageBytes (leafSize e.leaf)) (leafG e.leaf) = false) ∧
  (∀ k s v, s.pkg.invs[k]? = some v → s.canReport v.owner = true →
    (v.holders.all (s.freed v) = false ∨ s.frameDown v = true → exec (.invalidationComplete k) s = .next s) ∧
    (∀ u, v.holders.all (s.freed v) = true → s.frameDown v = false → u = ({ s with pkg := { s.pkg with invs := s.pkg.invs.eraseIdx k } } : State) →
      (∀ t, v.owner = .svc t → exec (.invalidationComplete k) s = .next (u.serviceDone t 0)) ∧
      (∀ p i, v.owner = .host p i → exec (.invalidationComplete k) s = .next (u.complete p i 0 0)) ∧
      (∀ t old new l, v.owner = .migrate t old new l → exec (.invalidationComplete k) s = .next (u.migrate v.ctx t old new l)))) ∧
  (∀ (s : State) a b n, (absentLoc b = false → ∀ k, k < n → (s.moveFrame a b n).mem.read (b + k) = s.mem.read (a + k)) ∧
    (absentLoc b = true → (s.moveFrame a b n).mem = s.mem))

/-! ## Wear, tests and clocks (01, 17, 18, 20) -/

/-- Wear and ageing (17 R357-R363, R369). An interval, of 2^20 cycles of the tile's own time, adds the wear of its busy cycles and a
sixteenth of the idle ones to the lifetime wear, and charges each context its share; a sample, once in 2^26 cycles, keeps the least
margin and the greatest rate, at most 65535; a DRAINED tile with no task retires 2^30 cycles after it was drained; the lifetime record
is written to the copy not written last. Clocks of clusters (01 R22; 20 R410): stopped at 105 °C, lowered at 100 °C and cool again below
95 °C; lowered for the power cap; gated when the cluster has been idle for 2^16 cycles. Nothing else changes: an interval and a sample
change their tile, the charges and the interval's count and no more, unless a quota is reached or margin and wear bring the tile a
transition; the record's write, a temperature and a power window change what they name and no more. The MODEL's choices: what the two
current integrals of a sample read (log entry 74); how wear rounds and saturates (log entry 73); that a cluster stopped by heat runs
lowered between 95 and 100 °C (log entry 75); which clusters are lowered where the window would exceed the cap (log entry 114). -/
def Obligations.WearAndClocks : Prop :=
  ((∀ t s n, (s.tile t).state ≠ .retired → n = kvGet 0 s.pkg.wearMarks t →
     (n + 1) * 2 ^ 20 ≤ s.cycle - (s.cluster (tileCluster t)).stopped →
     ∃ u b part v, exec (.wearIntervalEnd t) s = .next u ∧ b = (((s.tile t).busy.filter fun x => x.1 == n).map fun x => x.2.2).sum ∧
       part = b * (s.tile t).af * 2 ^ 32 / (256 * 1700000000) ∧ kvGet 0 u.pkg.wearMarks t = n + 1 ∧
       (∀ c k x, (s.tile t).busy.filter (fun x => x.1 == n && x.2.1 == c) = [(n, c, k)] → s.ctx? c = some x →
         ∃ y, u.ctx? c = some y ∧ y.charge = min (2 ^ 64 - 1) (x.charge + part * k / b)) ∧
       v = { s.tile t with
         busy := (s.tile t).busy.filter fun x => x.1 != n
         life := min (2 ^ 64 - 1) ((s.tile t).life + part + (2 ^ 20 - b) * (s.tile t).af * 2 ^ 32 / (16 * 256 * 1700000000)) } ∧
       (u.tile t).life = v.life ∧
       ((∀ c ∈ s.ctxs, c.wquota = 0 ∨ c.charge + part < c.wquota) → v.aged (s.origin t) = s.origin t →
         u.tile t = v ∧ (∀ m, m ≠ t → u.tile m = s.tile m) ∧ u.mem = s.mem ∧ u.lines = s.lines ∧ u.insts = s.insts ∧ u.fab = s.fab ∧
         u.dies = s.dies ∧ u.out = s.out ∧ u.pkg = { s.pkg with wearMarks := kvPut s.pkg.wearMarks t (n + 1) } ∧
         ∀ c x, s.ctx? c = some x → ∃ y, u.ctx? c = some y ∧ { y with charge := x.charge, overQuota := x.overQuota } = x)) ∧
   (∀ t s, s.cycle - (s.cluster (tileCluster t)).stopped < (kvGet 0 s.pkg.wearMarks t + 1) * 2 ^ 20 →
     exec (.wearIntervalEnd t) s = .next s) ∧
   (∀ t bti rates s, s.cycle - (s.cluster (tileCluster t)).stopped < (s.tile t).sampledAt + 2 ^ 26 →
     exec (.monitorSample t bti rates) s = .next s) ∧
   (∀ t bti rates s, (s.tile t).state ≠ .retired → bti.length = 4 → rates.length = 6 →
     (s.tile t).sampledAt + 2 ^ 26 ≤ s.cycle - (s.cluster (tileCluster t)).stopped →
     ∃ u v m g, exec (.monitorSample t bti rates) s = .next u ∧ m ∈ bti ∧ (∀ x ∈ bti, m ≤ x) ∧ g ∈ rates ∧ (∀ x ∈ rates, x ≤ g) ∧
       v = { s.tile t with
         sampledAt := (s.cycle - (s.cluster (tileCluster t)).stopped) / 2 ^ 26 * 2 ^ 26, prevMargin := (s.tile t).margin, margin := m
         af := min 65535 g, em0 := v.em0, em1 := v.em1 } ∧
       (u.tile t).margin = m ∧ (u.tile t).prevMargin = (s.tile t).margin ∧ (u.tile t).af = min 65535 g ∧
       (v.aged (s.origin t) = s.origin t → u = { s.setTile t v with free := s.free + 16 })) ∧
   (∀ t s, (s.tile t).state = .drained → (s.tile t).run = none → (s.tile t).drainedAt + 2 ^ 30 ≤ s.cycle →
     ∃ u, exec (.drainedTimeout t) s = .next u ∧ (u.tile t).state = .retired) ∧
   (∀ t s, s.cycle < (s.tile t).drainedAt + 2 ^ 30 → exec (.drainedTimeout t) s = .next s) ∧
   (∀ s, ∃ u x, exec .lifetimeRecordWrite s = .next u ∧
     u = (if s.pkg.lastIsA then { s with pkg := { s.pkg with lifeB := x, lifeAt := some s.cycle } }
       else { s with pkg := { s.pkg with lifeA := x, lifeAt := some s.cycle } }) ∧
     (∀ w, w = (if s.pkg.lastIsA then u.pkg.lifeB else u.pkg.lifeA) → w.valid = true ∧
       w.count = max s.pkg.lifeA.count s.pkg.lifeB.count + 1 ∧ w.lcs = s.pkg.lcs ∧
       ∀ n v, (n, v) ∈ s.tiles → ∃ x, (n, x) ∈ w.tiles ∧ x.state = v.state ∧ x.life = v.life ∧ x.blame = v.blame ∧
         x.margin = v.margin ∧ x.af = v.af) ∧
     (s.pkg.lastIsA = true → u.pkg.lifeA = s.pkg.lifeA) ∧ (s.pkg.lastIsA = false → u.pkg.lifeB = s.pkg.lifeB))) ∧
  ((∀ c d s, ∃ h, exec (.thermalThreshold c d) s = .next (s.modCluster c fun x => { x with heat := h }) ∧
     (105 ≤ d → h = .stopped) ∧ (100 ≤ d → d < 105 → h = .lowered) ∧ (d < 95 → h = .cool) ∧
     (95 ≤ d → d < 100 → ((s.cluster c).heat = .cool → h = .cool) ∧ ((s.cluster c).heat ≠ .cool → h = .lowered))) ∧
   (∀ w l s, ∃ u k, exec (.powerCapWindow w l) s = .next u ∧ u = { s with pkg := { s.pkg with watts := w, clusters := k } } ∧
     (∀ c, { u.cluster c with capped := (s.cluster c).capped } = s.cluster c) ∧
     ((∃ c ∈ l, c < 68) ∨ w ≤ s.pkg.powerCap → ∀ c, c < 68 → (u.cluster c).capped = l.contains c) ∧
     (s.pkg.powerCap < w → ∃ c, c < 68 ∧ (u.cluster c).capped = true)) ∧
   (∀ c s, s.idleCluster c = true → (s.cluster c).inTest = false →
     ((s.cluster c).idleSince + 2 ^ 16 ≤ s.cycle → exec (.clusterClockGate c) s = .next (s.modCluster c fun x => { x with gated := true })) ∧
     (s.cycle < (s.cluster c).idleSince + 2 ^ 16 → exec (.clusterClockGate c) s = .next s)))

/-- In-field tests and retirement (17 R363, R366; 18 R383-R385). A test starts in an idle cluster and clears its accumulators and
arrays; a failing tile becomes QUARANTINED, a QUARANTINED one RETIRED; a pass clears the cluster's history. A cluster that retires
has every tile RETIRED. -/
def Obligations.TestsAndRetirement : Prop :=
  (∀ c s, s.inService c = true → (s.cluster c).inTest = false → (s.cluster c).retire = .no →
    (s.idleCluster c = true →
      ∃ u, exec (.infieldTestStart c) s = .next u ∧ (u.cluster c).inTest = true ∧
        ∀ t ∈ clusterTiles c, (u.tile t).acc = [] ∧ ∀ w ∈ (u.tile t).arrays, w.valid = false) ∧
    (s.idleCluster c = false → (s.cluster c).testDue = false → (s.cluster c).lastPass + 2 ^ 32 ≤ s.cycle →
      ∃ u, exec (.infieldTestStart c) s = .next u ∧ (u.cluster c).testDue = true ∧ ∀ t ∈ clusterTiles c, (u.tile t).queue = []) ∧
    (s.idleCluster c = false → s.cycle < (s.cluster c).lastPass + 2 ^ 32 → exec (.infieldTestStart c) s = .next s)) ∧
  (∀ c failed shared s, (s.cluster c).inTest = false → exec (.infieldTestResult c failed shared) s = .next s) ∧
  (∀ c failed shared s, (s.cluster c).inTest = true → (∀ t ∈ clusterTiles c, s.origin t = (s.tile t).state) →
    ∃ u, exec (.infieldTestResult c failed shared) s = .next u ∧ (u.cluster c).inTest = false ∧
      (∀ t ∈ clusterTiles c, failed.getLsbD (tileIndex t) = true →
        ((s.tile t).state = .normal ∨ (s.tile t).state = .derated → (u.tile t).state = .quarantined) ∧
        ((s.tile t).state = .quarantined → (u.tile t).state = .retired)) ∧
      (failed = 0 → shared = false → (u.cluster c).lastPass = s.cycle ∧ (u.cluster c).passCommit = s.pkg.commitSeq ∧
        (u.cluster c).history = [])) ∧
  (∀ c failed s, ((s.cluster c).retire = .shared ∨ ((s.cluster c).retire = .byCount ∧ s.noRuns c = true)) →
    ∃ u, exec (.clusterRetire c failed) s = .next u ∧ (u.cluster c).retire = .retired ∧
      ∀ t ∈ clusterTiles c, (u.tile t).state = .retired) ∧
  (∀ c failed s, (s.cluster c).retire = .byCount → s.noRuns c = false → exec (.clusterRetire c failed) s = .next s)

/-! ## The host and peers (10, 12-17, 19) -/

/-- The commands of the host (19 R387-R391, R400). The command at the head of a port's ring that is well-formed, and may be given by
its session, has its effect and its completion with status 0; one that changes what its command word does not allow is completed as
malformed with 1; one on a context that it may not command is refused with 2; another command than the event's is left. A port that
is in ERROR takes none (19 R394). TLBINV and
DRAIN_FOR are completed later; a drain that completes names the tiles it excluded, and keeps them (14 R309). -/
def Obligations.HostCommands : Prop :=
  (∀ i p n h s, Spec.commandOf i = some (p, n, h) → s.carries (.chrolu p) = false → exec i s = .next s) ∧
  (∀ i p n h s c, Spec.commandOf i = some (p, n, h) → p < 2 → s.carries (.chrolu p) = true → (s.tendRings p).headCmd p = some c →
    (∀ k, ((s.tendRings p).line k).chkBad = false) → c.code = h.code →
    (h.malformed c = true → exec i s = .next ((s.tendRings p).complete p c.index 1 0)) ∧
    (h.malformed c = false → (s.tendRings p).commands p n h c = false → exec i s = .next ((s.tendRings p).complete p c.index 2 0)) ∧
    (∀ u r, h.malformed c = false → (s.tendRings p).commands p n h c = true → Spec.commandEffect (s.tendRings p) c i = some (u, r) →
      exec i s = .next (u.complete p c.index 0 r)) ∧
    (∀ u, h.malformed c = false → (s.tendRings p).commands p n h c = true → Spec.commandBegins (s.tendRings p) c i = some u →
      exec i s = .next u)) ∧
  (∀ i p n h s c, Spec.commandOf i = some (p, n, h) → p < 2 → s.carries (.chrolu p) = true → (s.tendRings p).headCmd p = some c →
    (∀ k, ((s.tendRings p).line k).chkBad = false) → 1 ≤ c.code → c.code ≤ 13 → c.code ≠ h.code → exec i s = .next (s.tendRings p)) ∧
  (∀ k s d, s.pkg.drains[k]? = some d →
    (d.ended = true → exec (.drainComplete k) s = .next s) ∧
    ((∃ x ∈ s.foreignTiles d, x.2.stuck = false) → exec (.drainComplete k) s = .next s) ∧
    (∀ q, d.ended = false → (∀ x ∈ s.foreignTiles d, x.2.stuck = true) → s.completionRoom d.port = some q →
      ∃ u : State, exec (.drainComplete k) s =
          .next (u.complete d.port d.index 0 (s.clusterMask ((s.foreignTiles d).map fun x => x.1))) ∧
        u.mem = s.mem ∧ u.tiles = s.tiles ∧
        (∀ ctx t, ctx ≠ d.ctx → t ∈ (s.foreignTiles d).map (fun x => x.1) → u.drained ctx t = true) ∧
        (s.foreignTiles d = [] → ∀ e ∈ u.pkg.drains, ∃ y ∈ s.pkg.drains.eraseIdx k,
          e.ctx = y.ctx ∧ e.mask = y.mask ∧ e.port = y.port ∧ e.index = y.index)))

/-- What the commands on contexts leave (19 R389-R391; 13 R274): a created context has the id, quotas, weight and tables of its
descriptor and no task; a destroyed one is gone, with its keys and mailboxes, its tasks, instances, ropes, parked decrements and
creations, and its bank memory is zero and not poisoned. That a line it held in HBM4 or DDR-5 then fails its check value, its keys
being gone, is the MODEL's reading (log entry 91); that an access that waits in a retry list may go on there first is shut out. -/
def Obligations.ContextLife : Prop :=
  (∀ (s : State) d, (wordAt d 0).setWidth 32 ≠ (0 : BitVec 32) → ∃ x, (s.createCtx d).ctxs = s.ctxs ++ [x] ∧ x.id = (wordAt d 0).setWidth 32 ∧
    x.prot = (wordAt d 0).getLsbD 32 ∧ x.gquota = (wordAt d 2).toNat % 2 ^ 24 ∧ x.tquota = (wordAt d 2).toNat / 2 ^ 24 % 2 ^ 16 ∧
    x.weight = (wordAt d 2).toNat / 2 ^ 40 % 2 ^ 7 ∧ x.wquota = (wordAt d 3).toNat ∧ x.larder = (wordAt d 4).toNat ∧
    x.lardlen = (wordAt d 5).toNat ∧ x.rngkey = wordAt d 6 ∧ x.launch = [] ∧ x.faultQ = none ∧ x.logQ = none ∧ x.seq = 0 ∧
    (s.createCtx d).mem = s.mem ∧ (s.createCtx d).tiles = s.tiles) ∧
  (∀ (s : State) ctx, (s.destroyCtx ctx).ctx? ctx = none ∧ (∀ i ∈ (s.destroyCtx ctx).insts, i.ctx ≠ ctx) ∧
    (∀ t r, (s.destroyCtx ctx).run? t = some r → r.ctx ≠ ctx) ∧
    ∀ u, u = s.destroyCtx ctx → s.fab.retry = [] →
      (∀ l, locSpace l = spBank → locPkg l = 0 → locCtx l = ctx.toNat → u.mem.read l = 0 ∧ (u.line (lineKey l)).pois = false) ∧
      (∀ x ∈ u.ropes, x.ctx ≠ ctx) ∧ (∀ d ∈ u.fab.parked, d.ctx ≠ ctx) ∧ (∀ c ∈ u.fab.creations, c.ctx ≠ ctx) ∧
      (∀ c ∈ u.fab.copies, c.ctx ≠ ctx) ∧ (∀ c ∈ u.ctxs, c.id ≠ ctx) ∧
      (∀ c k, s.ctx? ctx = some c → k ∈ s.linesHeld c → (u.line k).chkBad = true))

/-- The host's reads and writes of memory (19 R388, R392, R400, R402). A part of a read that stands at a location answers its bytes
and its poison, one that reaches no memory zeros, and one of a protected context of another session its stored, enciphered bytes; a
read of several lines answers them in order. With the bytes go the check values of the lines they come from (19 R402); the answer
enters the port's retry buffer and leaves at once (18 R386). A write stores its bytes there, and is dropped and counted where it may not. A port in
ERROR carries neither. -/
def Obligations.HostMemory : Prop :=
  (∀ p n a len s, s.carries (.chrolu p) = false → exec (.hostRead p n a len) s = .next s) ∧
  (∀ p n a bs s, s.carries (.chrolu p) = false → exec (.hostWrite p n a bs) s = .next s) ∧
  (∀ p n a len s, s.carries (.chrolu p) = true → a.toNat % 128 + len ≤ 128 → 0 < len → (∀ k, (s.line k).chkBad = false) →
    (s.hostLoc p a = none →
      exec (.hostRead p n a len) s = .next (s.sendPort (.chrolu p) 0 (.hostData p (List.replicate len 0) false []))) ∧
    (∀ l, s.hostLoc p a = some l → s.foreign p n l = false →
      exec (.hostRead p n a len) s =
        .next (s.sendPort (.chrolu p) 0 (.hostData p (s.mem.bytes l len) (s.poisonAt l len) [s.chk (lineKey l)]))) ∧
    (∀ l c, s.hostLoc p a = some l → s.foreignOwner p n l = some c →
      exec (.hostRead p n a len) s = .next (s.sendPort (.chrolu p) 0 (.hostData p ((List.range len).map fun i =>
        Config.cipherByte c.keys (lineKey l) (s.lineData (lineKey l)) (l % 128 + i)) false [s.chk (lineKey l)])))) ∧
  (∀ (s : State) p o, s.carries p = true → ∃ u : State, s.sendPort p 0 o = u ∧ u.out = o :: s.out ∧ u.mem = s.mem ∧ u.lines = s.lines ∧
    u.tiles = s.tiles ∧ u.ctxs = s.ctxs ∧ u.insts = s.insts ∧ u.pkg = s.pkg ∧
    ∃ x, u.fab.sent = s.fab.sent ++ [x] ∧ x.port = p ∧ x.chan = 0 ∧ x.packet = o ∧ x.seq = kvGet 0 s.fab.sentNext (4 * portKey p)) ∧
  (∀ p n a len s, s.carries (.chrolu p) = true → (∀ k, (s.line k).chkBad = false) →
    (∀ x ∈ cutLines a.toNat len (len + 1), ∃ l, s.hostLoc p (BitVec.ofNat 64 x.1) = some l ∧ s.foreign p n l = false) →
    ∃ b bs ch, exec (.hostRead p n a len) s = .next (s.sendPort (.chrolu p) 0 (.hostData p bs b ch)) ∧
      ch = (cutLines a.toNat len (len + 1)).map (fun x => s.chk (lineKey ((s.hostLoc p (BitVec.ofNat 64 x.1)).getD 0))) ∧
      bs = (cutLines a.toNat len (len + 1)).flatMap fun x => s.mem.bytes ((s.hostLoc p (BitVec.ofNat 64 x.1)).getD 0) x.2) ∧
  (∀ p n a bs s, s.carries (.chrolu p) = true → a.toNat % 128 + bs.length ≤ 128 → bs ≠ [] →
    (s.hostLoc p a = none → exec (.hostWrite p n a bs) s = .next (s.refuse1 (.chrolu p))) ∧
    (∀ l, s.hostLoc p a = some l → s.foreign p n l = true → exec (.hostWrite p n a bs) s = .next (s.refuse1 (.chrolu p))) ∧
    (∀ l, s.hostLoc p a = some l → s.foreign p n l = false → Canonical s → (∀ k, (s.line k).chkBad = false) →
      ∃ u, exec (.hostWrite p n a bs) s = .next u ∧ u.mem.bytes l bs.length = bs ∧ u.tiles = s.tiles ∧ u.ctxs = s.ctxs ∧
        ∀ b, b < l ∨ l + bs.length ≤ b → u.mem.read b = s.mem.read b)) ∧
  (∀ p n a bs s, s.carries (.chrolu p) = true → (∀ k, (s.line k).chkBad = false) → Canonical s →
    ∃ u, exec (.hostWrite p n a bs) s = .next u ∧ u.tiles = s.tiles ∧ u.ctxs = s.ctxs ∧
      ∀ b, (∀ x ∈ cutLines a.toNat bs.length (bs.length + 1), ∀ l, s.hostLoc p (BitVec.ofNat 64 x.1) = some l →
        b < l ∨ l + x.2 ≤ b) → u.mem.read b = s.mem.read b)

/-- Requests of a peer (10 R216-R225; 12 R269; 13 R288; 16 R336; 18 R386; 19 R402). Packets of a virtual channel are taken in link
sequence order: one below the next expected number is discarded, one beyond it asks for a replay. A read answers the bytes of a
location with its check value, and zeros with poison at an absent address (log entry 87); a write stores there; an atomic answers the
old value and combines in one step; a reduction combines; an ordered contribution, a decrement and a message go on their way. A port in
ERROR carries none. -/
def Obligations.PeerRequests : Prop :=
  (∀ p a q s, s.carries (.ualink p) = false → exec (.peerAccess p a q) s = .next s) ∧
  (∀ p a q n s, p < 16 → s.carries (.ualink p) = true → n = (s.port (.ualink p)).expects (peerChan q.req) →
    (q.seq < n → exec (.peerAccess p a q) s = .next s) ∧
    (n < q.seq → exec (.peerAccess p a q) s =
      .next { s with out := .askReplay (.ualink p) (peerChan q.req) n :: s.out }) ∧
    (q.seq = n → ∃ u : State, exec (.peerAccess p a q) s = .next (u.peerRequest p a q.req) ∧
      (peerChan q.req < (s.port (.ualink p)).expected.length → (u.port (.ualink p)).expects (peerChan q.req) = n + 1) ∧
      (∀ c, c ≠ peerChan q.req → (u.port (.ualink p)).expects c = (s.port (.ualink p)).expects c) ∧
      u.mem = s.mem ∧ u.lines = s.lines ∧ u.tiles = s.tiles ∧ u.ctxs = s.ctxs ∧ u.fab = s.fab ∧ u.out = s.out)) ∧
  (∀ p a s n ctx len, p < 16 → s.carries (.ualink p) = true → n = (s.port (.ualink p)).expects 0 → a.toNat % 128 + len ≤ 128 →
    0 < len → (∀ k, (s.line k).chkBad = false) →
    (s.peerLoc ctx a = none → exec (.peerAccess p a { seq := n, req := .read ctx len }) s =
      .next ((s.passLink p 0).sendPort (.ualink p) 0 (.peerData p (List.replicate len 0) true []))) ∧
    (∀ l, s.peerLoc ctx a = some l → exec (.peerAccess p a { seq := n, req := .read ctx len }) s =
      .next ((s.passLink p 0).sendPort (.ualink p) 0 (.peerData p (s.mem.bytes l len) (s.poisonAt l len) [s.chk (lineKey l)])))) ∧
  (∀ p a s n ctx bs b, p < 16 → s.carries (.ualink p) = true → n = (s.port (.ualink p)).expects 0 → a.toNat % 128 + bs.length ≤ 128 →
    bs ≠ [] →
    (s.peerLoc ctx a = none → exec (.peerAccess p a { seq := n, req := .write ctx bs b }) s =
      .next ((s.passLink p 0).refuse1 (.ualink p))) ∧
    (∀ l, s.peerLoc ctx a = some l → Canonical s →
      ∃ u, exec (.peerAccess p a { seq := n, req := .write ctx bs b }) s = .next u ∧ u.mem.bytes l bs.length = bs ∧
        (b = false → (∀ k, (s.line k).chkBad = false) → u.tiles = s.tiles ∧ u.ctxs = s.ctxs ∧
          ∀ k, k < l ∨ l + bs.length ≤ k → u.mem.read k = s.mem.read k))) ∧
  (∀ p a s m v ctx op uns n d b l, p < 16 → s.carries (.ualink p) = true → m = (s.port (.ualink p)).expects 0 → n = 4 ∨ n = 8 →
    s.peerLoc ctx a = some l → l % n = 0 → v = (s.passLink p 0).gotPoison ctx l b → (∀ k, (v.line k).chkBad = false) → Canonical v →
    (b = false → v = s.passLink p 0) ∧
    (∃ u, exec (.peerAccess p a { seq := m, req := .amo ctx op uns n d b }) s = .next u ∧
      u.out = .peerData p (toBytes (v.mem.value l n) n) (v.poisonAt l n) [v.chk (lineKey l)] :: v.out ∧
      u.mem.value l n = combineInt (redOpOf op) uns (8 * n) (v.mem.value l n) (d.toNat % 2 ^ (8 * n)) % 2 ^ (8 * n) ∧
      ∀ k, k < l ∨ l + n ≤ k → u.mem.read k = v.mem.read k)) ∧
  (∀ p a s m ctx op uns n d l, p < 16 → s.carries (.ualink p) = true → m = (s.port (.ualink p)).expects 0 → n = 4 ∨ n = 8 →
    s.peerLoc ctx a = some l → l % n = 0 → (∀ k, (s.line k).chkBad = false) → Canonical s →
    ∃ u, exec (.peerAccess p a { seq := m, req := .reduceInt ctx op uns n d }) s = .next u ∧ u.out = s.out ∧
      u.mem.value l n = combineInt (redOpOf op) uns (8 * n) (s.mem.value l n) (d.toNat % 2 ^ (8 * n)) % 2 ^ (8 * n) ∧
      ∀ k, k < l ∨ l + n ≤ k → u.mem.read k = s.mem.read k) ∧
  (∀ p a s m ctx d q l, p < 16 → s.carries (.ualink p) = true → m = (s.port (.ualink p)).expects 2 → s.peerLoc ctx a = some l →
    l % 16 = 0 →
    ∃ u, exec (.peerAccess p a { seq := m, req := .redo ctx d q }) s = .next u ∧ u.mem = s.mem ∧
      u.fab.arriving = s.fab.arriving ++ [{ ctx := ctx, loc := l, q := q, op := .redo d, pois := false }]) ∧
  (∀ p a s n ctx tag amt, p < 16 → s.carries (.ualink p) = true → n = (s.port (.ualink p)).expects 1 →
    ((s.ctx? ctx).isSome = true → ∀ l, s.peerLoc ctx a = some l →
      exec (.peerAccess p a { seq := n, req := .decrement ctx tag amt }) s =
        .next ((s.passLink p 1).addDec
          { ctx := ctx, target := .remote s.pkg.id.toNat l a tag, amt := amt, die := (bankOf l).getD 0 / 128, port := some p })) ∧
    (s.ctx? ctx = none → exec (.peerAccess p a { seq := n, req := .decrement ctx tag amt }) s =
      .next ((s.passLink p 1).sendPort (.ualink p) 0 (.peerFault p 0x2B)))) ∧
  (∀ p a s n ctx from_ m w, p < 16 → s.carries (.ualink p) = true → n = (s.port (.ualink p)).expects 1 →
    ((s.ctx? ctx).isSome = true →
      ∃ u x, exec (.peerAccess p a { seq := n, req := .message ctx from_ m w }) s = .next u ∧ u.fab.msgs = s.fab.msgs ++ [x] ∧
        x.ctx = ctx ∧ x.mbox = m.toNat ∧ x.words = w ∧ x.sender = from_ ∧ x.port = some p ∧ u.mem = s.mem ∧ u.tiles = s.tiles) ∧
    (s.ctx? ctx = none → exec (.peerAccess p a { seq := n, req := .message ctx from_ m w }) s =
      .next ((s.passLink p 1).sendPort (.ualink p) 0 (.peerFault p 0x2B))))

/-! ## Sessions, ports and the package (17-20) -/

/-- SPDM (19 R393, R401). The device answers on every port (`SpdmEnd.answers`), and asks its peers over the UALink ports (`asks`). As
responder it answers each request in the order of the exchange, GET_VERSION first, which begins it anew; a request before its turn
changes nothing and is answered as unexpected, and as requester it makes none (that order, that restart and the form of the answers
are the MODEL's, log entry 12). It chooses its suite from an offer that holds it and names it in its answer. KEY_EXCHANGE opens a
session with a number of its own, FINISH establishes it, KEY_UPDATE renews its keys, END_SESSION ends it and puts the ports it locked
in ERROR. The port lock and its link (18 R386; 19 R394, R396, R397): LOCK_PORT takes an unlocked port for an established session,
START_PORT runs it with fresh keys and sends again what its retry buffer holds, a change of a locked or running port's configuration
puts it in ERROR with its keys destroyed, and STOP_PORT, of an established session, leads back; that what is outstanding then waits
until the port runs under new keys is the MODEL's reading (log entry 85). A packet that arrives stomped or unauthenticated is
discarded, counted where it failed authentication, and a replay asked for from the number its channel expects; asked for one, the port
sends the channel's packets again from that number, the earlier ones having arrived; after three failed ones the link is reset, its lock
state and keys as before (the form of replay and reset is the MODEL's, log entry 86). -/
def Obligations.SessionsAndPorts : Prop :=
  ((∀ x s, realEnd x = true →
     (∃ u, exec (.getVersion x) s = .next u ∧ (u.conn x).version = true ∧ (u.conn x).caps = false ∧ (u.conn x).algs = none ∧
       u.out = .spdm x .version true [] :: s.out) ∧
     ((s.conn x).version = true → ∃ u, exec (.getCapabilities x) s = .next u ∧ (u.conn x).caps = true ∧
       u.out = .spdm x .capabilities true [] :: s.out) ∧
     ((s.conn x).version = false → exec (.getCapabilities x) s = .next (s.respond x .capabilities false [])) ∧
     (∀ o : SpdmOffer, o.side = x →
       ((s.conn x).caps = true → o.hash = true → o.sign = true → o.exchange = true → o.aead = true →
         ∃ u, exec (.negotiateAlgorithms o) s = .next u ∧ (u.conn x).algs = some {} ∧
           u.out = (match x with
             | .answers _ => [.chosen x {}, .spdm x .algorithms true []]
             | .asks _ => [.spdm x .algorithms true []]) ++ s.out) ∧
       ((s.conn x).caps = false ∨ o.hash = false ∨ o.sign = false ∨ o.exchange = false ∨ o.aead = false →
         exec (.negotiateAlgorithms o) s = .next (s.respond x .algorithms false []))) ∧
     ((s.conn x).algs.isSome = true →
       (∃ u, exec (.getDigests x) s = .next u ∧ u.out = .spdm x .digests true [] :: s.out ∧ u.conn x = s.conn x) ∧
       (∃ u, exec (.getCertificate x) s = .next u ∧ u.out = .spdm x .certificate true [] :: s.out ∧ u.conn x = s.conn x) ∧
       (∀ n : BitVec 256, exec (.challenge x n) s = .next (s.respond x .challenge true (toBytes n.toNat 32))) ∧
       (∀ n : BitVec 256, ∃ u bs, exec (.getMeasurements x n) s = .next u ∧ u.out = .spdm x .measurements true bs :: s.out ∧
         bs.take 32 = toBytes n.toNat 32 ∧ u.mem = s.mem) ∧
       (s.pkg.sessions.length < 64 →
         ∃ u n, exec (.keyExchange x) s = .next u ∧ u.pkg.sessions = s.pkg.sessions ++ [{ id := n, side := x, suite := (s.conn x).algs.getD {} }] ∧
           (∀ y ∈ s.pkg.sessions, y.id ≠ n) ∧ n ≠ 0)) ∧
     ((s.conn x).algs = none →
       exec (.getDigests x) s = .next (s.respond x .digests false []) ∧ exec (.getCertificate x) s = .next (s.respond x .certificate false []) ∧
       (∀ n, exec (.challenge x n) s = .next (s.respond x .challenge false []) ∧
         exec (.getMeasurements x n) s = .next (s.respond x .measurements false [])) ∧
       exec (.keyExchange x) s = .next (s.respond x .keyExchange false []))) ∧
   (∀ (s : State) m bs, (∀ p, s.respond (.answers p) m false bs = { s with out := .spdm (.answers p) m false bs :: s.out }) ∧
     (∀ p, s.respond (.asks p) m false bs = s) ∧ ∀ x, s.respond x m true bs = { s with out := .spdm x m true bs :: s.out }) ∧
   (∀ p n s x, s.session? p n = some x →
     (x.finished = false → exec (.finish p n true) s =
       .next ((s.modSession n fun x => { x with finished := true }).respond p .finish true [])) ∧
     (x.finished = false → exec (.finish p n false) s = .next ((s.dropSession n).respond p .finish false [])) ∧
     (x.finished = true → exec (.keyUpdate p n true) s =
       .next ((s.modSession n fun x => { x with keyGen := x.keyGen + 1 }).respond p .keyUpdate true [])) ∧
     (x.finished = true → exec (.keyUpdate p n false) s = .next ((s.failLocked n).respond p .keyUpdate false [])) ∧
     exec (.endSession p n) s = .next (((s.failLocked n).dropSession n).respond p .endSession true [])) ∧
   (∀ (s : State) n k x, (k, x) ∈ (s.failLocked n).pkg.ports → x.session = some n → x.locked = false)) ∧
  ((∀ p n s x, realPort p = true → (s.port p).lock = .unlocked → x ∈ s.pkg.sessions → x.id = n → x.finished = true →
     exec (.lockPort p n) s = .next (s.modPort p fun y => { y with lock := .locked, session := some n })) ∧
   (∀ p n s, (s.port p).lock ≠ .unlocked → exec (.lockPort p n) s = .next s) ∧
   (∀ p n s, realPort p = true → (s.port p).lock = .locked → (s.port p).session = some n → s.modesLegal p = true →
     ∃ u notes, exec (.startPort p n) s = .next u ∧ (u.port p).lock = .run ∧ (u.port p).keys = true ∧ (u.port p).waiting = false ∧
       u.carries p = true ∧ u.fab = s.fab ∧ u.mem = s.mem ∧
       u.out = notes ++ ((s.fab.sent.filter fun x => x.port == p).map fun x => .replay p x.chan x.seq x.packet).reverse ++ s.out ∧
       (∀ k, p = .ualink k → notes = [] ∧ u.ctxs = s.ctxs) ∧
       (∀ k, p = .chrolu k → notes = ((s.ctxs.flatMap fun c => c.notes).map Out.notify).reverse ∧ ∀ c ∈ u.ctxs, c.notes = [])) ∧
   (∀ p (s : State), s.carries p = true ↔ (s.port p).lock ≠ .error ∧ (s.port p).waiting = false) ∧
   (∀ p n s, (s.port p).session ≠ some n → exec (.startPort p n) s = .next s) ∧
   (∀ p s, realPort p = true → (s.port p).lock = .error → (∃ x ∈ s.pkg.sessions, x.finished = true) →
     exec (.stopPort p) s = .next (s.modPort p fun y => { y with lock := .unlocked })) ∧
   (∀ p s, (s.port p).lock ≠ .error ∨ (∀ x ∈ s.pkg.sessions, x.finished = false) → exec (.stopPort p) s = .next s) ∧
   (∀ p ch s, realPort p = true → (s.port p).changed ch ≠ s.port p →
     ((s.port p).lock = .unlocked → exec (.portConfigChange p ch) s = .next (s.modPort p fun y => y.changed ch)) ∧
     ((s.port p).lock = .locked ∨ (s.port p).lock = .run →
       ∃ u, exec (.portConfigChange p ch) s = .next u ∧ (u.port p).lock = .error ∧ (u.port p).keys = false ∧ (u.port p).session = none ∧
         u.carries p = false)) ∧
   (∀ (s : State) p chan o, s.carries p = false → ∃ u : State, s.sendPort p chan o = u ∧ u.out = s.out ∧ u.mem = s.mem ∧
     ∃ x, u.fab.sent = s.fab.sent ++ [x] ∧ x.port = p ∧ x.chan = chan ∧ x.packet = o) ∧
   (∀ p a f s, 3 ≤ (s.port p).replays → exec (.linkReplay p a f) s = .next s) ∧
   (∀ p a f s, realPort p = true → s.carries p = true → (s.port p).replays < 3 →
     ∃ u, exec (.linkReplay p a f) s = .next u ∧ (u.port p).lock = (s.port p).lock ∧ (u.port p).keys = (s.port p).keys ∧
       (u.port p).replays = (if f then (s.port p).replays + 1 else 0) ∧ u.mem = s.mem ∧
       (∀ chan b, a = .arrived chan b →
         u.out = .askReplay p chan ((s.port p).expects chan) :: s.out ∧ u.fab = s.fab ∧
         (u.port p).refused = (s.port p).refused + (if b then 1 else 0)) ∧
       (∀ chan n, a = .asked chan n →
         (u.port p).refused = (s.port p).refused ∧
         u.fab.sent = s.fab.sent.filter (fun x => !(x.port == p && x.chan == chan && decide (x.seq < n))) ∧
         u.out = (((u.fab.sent.filter fun x => x.port == p && x.chan == chan).map fun x =>
           .replay p x.chan x.seq x.packet).reverse) ++ s.out)) ∧
   (∀ p s, realPort p = true → 3 ≤ (s.port p).replays →
     ∃ u, exec (.linkReset p) s = .next u ∧ u.port p = { s.port p with replays := 0 } ∧ u.mem = s.mem ∧ u.fab = s.fab ∧
       u.out = (if s.carries p then ((s.fab.sent.filter fun x => x.port == p).map fun x => .replay p x.chan x.seq x.packet).reverse
         else []) ++ s.out) ∧
   (∀ p s, (s.port p).replays < 3 → exec (.linkReset p) s = .next s))

/-- Reset and power (17 R369, R370; 20 R403-R410). Both resets make every line of the package's own memory zero and unpoisoned,
leave context 0 alone with no task, start TIME at 0 and keep the lifetime records; of a DECOMMISSIONED package they stop after step 2.
A failed or old microcode image changes nothing; a good one runs, its change over within 2^20 cycles. A debug token destroys every
context but 0 in PRODUCTION. Freezing needs DEBUG_UNLOCKED. The MODEL's choices: host and peer memory stay as they were, and channels
train as they will (log entry 89); what a microcode change keeps and how long it takes (log entries 90, 113); what a debug token does
to context 0 and to the ports (log entry 91); a power failure may cut short a write of the lifetime record of its own cycle (log entry
106). -/
def Obligations.PackageEvents : Prop :=
  (∀ s i, (i = .supplyGood ∨ (i = .managementReset ∧ s.pkg.power ≠ .off)) → s.pkg.lcs ≠ 3 →
    ∃ u, exec i s = .next u ∧ u.cycle = 0 ∧ u.insts = [] ∧ u.ropes = [] ∧ u.pkg.sessions = [] ∧ u.pkg.ports = [] ∧
      u.pkg.lifeA = s.pkg.lifeA ∧ u.pkg.lifeB = s.pkg.lifeB ∧ u.ctxs.map (fun c => c.id) = [0] ∧ (∀ t, u.run? t = none) ∧
      u.pkg.power = .on ∧ u.out = .status u.pkg.statusWord :: s.out ∧ (∀ c, (u.pkg.ddrPres.getLsbD c = true → s.pkg.rdimm[c]?.getD 0 ≠ 0)) ∧
      (∀ l, locSpace l ≠ spHost → locPkg l = 0 → u.mem.read l = 0 ∧ u.line (lineKey l) = {}) ∧
      (∀ l, locSpace l = spHost ∨ locPkg l ≠ 0 → u.mem.read l = s.mem.read l ∧ u.line (lineKey l) = s.line (lineKey l))) ∧
  (∀ s i, (i = .supplyGood ∨ (i = .managementReset ∧ s.pkg.power ≠ .off)) → s.pkg.lcs = 3 →
    ∃ u, exec i s = .next u ∧ u.pkg.power = .halted ∧ u.mem = s.mem ∧ u.lines = s.lines ∧ u.ctxs = [] ∧ u.pkg.map = [] ∧ u.out = s.out ∧
      u.pkg.lifeA = s.pkg.lifeA ∧ u.pkg.lifeB = s.pkg.lifeB ∧ ∀ t, u.run? t = none) ∧
  (∀ s, s.pkg.power = .off → exec .managementReset s = .next s) ∧
  (∀ s, ∃ p, exec .powerFailure s = .next { s with free := s.free + 1, pkg := { p with power := .off } } ∧
    (p = s.pkg ∨ (s.pkg.lifeAt = some s.cycle ∧ p = s.pkg.cutWrite))) ∧
  (∀ v d w good s, (good = false ∨ v < s.pkg.rollback) → exec (.microcodeLoad v d w good) s = .next s) ∧
  (∀ v d w s, s.pkg.rollback ≤ v → ∃ u c, exec (.microcodeLoad v d w true) s = .next u ∧ u.pkg.ucode = d ∧ u.pkg.rollback = v ∧
    u.pkg.ucodeOk = true ∧ u.pkg.change = some c ∧ s.cycle ≤ c ∧ c ≤ s.cycle + 2 ^ 20 ∧ u.mem = s.mem ∧ u.tiles = s.tiles ∧
    ∀ x ∈ u.dies, x.score = (w.map scoringOf).getD {}) ∧
  (∀ good s, (good = false ∨ s.pkg.lcs ≠ 1) → exec (.debugToken good) s = .next s) ∧
  (∀ s, s.pkg.lcs = 1 → ∃ u, exec (.debugToken true) s = .next u ∧ u.pkg.lcs = 2 ∧ (∀ c ∈ u.ctxs, c.id = 0) ∧ u.pkg.sessions = [] ∧
    ∀ x ∈ u.pkg.ports, x.2.keys = false) ∧
  (∀ s, s.pkg.lcs = 2 → s.pkg.power = .on →
    exec .freeze s = .next { s with pkg := { s.pkg with power := .frozen } } ∧
    ∀ n, 4 ≤ n → exec (.frzNAssert n) s = .next { s with pkg := { s.pkg with power := .frozen } }) ∧
  (∀ s, s.pkg.lcs ≠ 2 → exec .freeze s = .next s ∧ ∀ n, exec (.frzNAssert n) s = .next s) ∧
  (∀ n s, n < 4 → exec (.frzNAssert n) s = .next s) ∧
  (∀ w s, (1200 ≤ w ∧ w ≤ 2300 → exec (.powerCapSet w) s = .next { s with pkg := { s.pkg with powerCap := w } }) ∧
    (w < 1200 ∨ 2300 < w → exec (.powerCapSet w) s = .next s))

/-- Events with an effect of their own answer a next state with it. MEMORY_RESPONSE fires a load whose lines are no longer held (10
R212); HOST_READ answers the bytes of a line and HOST_WRITE stores there (19 R388, R392); SUPPLY_GOOD and MANAGEMENT_RESET reset the
package, TIME from 0 (20 R403); MICROCODE_LOAD replaces the running image (20 R406, R407); DEBUG_TOKEN unlocks, FREEZE and
FRZ_N_ASSERT freeze an unlocked package (20 R408, R409); POWER_CAP_SET sets the cap (20 R410); at POWER_FAILURE the package is without
supply (17 R369). -/
def Obligations.EventsComplete : Prop :=
  (∀ t k s e i l n spans mk bs, (s.aim t k).env? = some e → e.k = k → e.slot.status = .pending → (sigOf i).ready e.slot = true →
    (sigOf i).matches e.slot = true → (sigOf i).hasNull e.slot = false → decode (e.p.words[k]?.getD 0) = .ok i →
    Spec.loads e i = some (l, n, spans, mk) → e.access { align := n, r := true } spans = .ok bs → e.behindLower l.toNat bs = false →
    e.held false bs = false → e.pois = false → (∀ n, (s.line n).chkBad = false) → (∀ b ∈ bs, locPkg b.loc = 0) →
    ∃ d b u, (d, b) = ((e.s.asRead bs (e.p.earlyOf k)).applyStores t (e.p.storesBelow l.toNat)).readBounds t bs ∧
      u = (Spec.resumed i e { out0 := some (mk d), pois := b, counted := b }).touchPad (bs.map fun x => lineKey x.loc) ∧
      exec (.memoryResponse t k) s = .next { u with focus := s.focus }) ∧
  (∀ p n a len l s, s.carries (.chrolu p) = true → a.toNat % 128 + len ≤ 128 → 0 < len → (∀ k, (s.line k).chkBad = false) →
    s.hostLoc p a = some l → s.foreign p n l = false →
    exec (.hostRead p n a len) s =
      .next (s.sendPort (.chrolu p) 0 (.hostData p (s.mem.bytes l len) (s.poisonAt l len) [s.chk (lineKey l)]))) ∧
  (∀ p n a bs l s, s.carries (.chrolu p) = true → a.toNat % 128 + bs.length ≤ 128 → bs ≠ [] → s.hostLoc p a = some l →
    s.foreign p n l = false → Canonical s → (∀ k, (s.line k).chkBad = false) →
    ∃ u, exec (.hostWrite p n a bs) s = .next u ∧ u.mem.bytes l bs.length = bs) ∧
  (∀ s, s.pkg.lcs ≠ 3 → ∃ u, exec .supplyGood s = .next u ∧ u.cycle = 0 ∧ u.insts = [] ∧ u.pkg.power = .on ∧ ∀ t, u.run? t = none) ∧
  (∀ s, s.pkg.lcs ≠ 3 → s.pkg.power ≠ .off →
    ∃ u, exec .managementReset s = .next u ∧ u.cycle = 0 ∧ u.insts = [] ∧ u.pkg.power = .on ∧ ∀ t, u.run? t = none) ∧
  (∀ v d w s, s.pkg.rollback ≤ v →
    ∃ u, exec (.microcodeLoad v d w true) s = .next u ∧ u.pkg.ucode = d ∧ u.pkg.rollback = v ∧ u.pkg.ucodeOk = true ∧ u.mem = s.mem) ∧
  (∀ s, s.pkg.lcs = 1 → ∃ u, exec (.debugToken true) s = .next u ∧ u.pkg.lcs = 2 ∧ u.pkg.sessions = []) ∧
  (∀ s, s.pkg.lcs = 2 → s.pkg.power = .on →
    exec .freeze s = .next { s with pkg := { s.pkg with power := .frozen } } ∧
    ∀ n, 4 ≤ n → exec (.frzNAssert n) s = .next { s with pkg := { s.pkg with power := .frozen } }) ∧
  (∀ w s, 1200 ≤ w → w ≤ 2300 → exec (.powerCapSet w) s = .next { s with pkg := { s.pkg with powerCap := w } }) ∧
  (∀ s, ∃ u, exec .powerFailure s = .next u ∧ u.pkg.power = .off ∧ u.mem = s.mem ∧ u.tiles = s.tiles)
end

