-- ==== Sys2Proof/Laws/Encoding.lean ====
section
/-! SUPPORT. The reader of each format undoes its packer: the fields of a packed word are the fields it was packed from. -/

namespace Sys2Proof.Laws

/-! ## Codes -/

@[simp] theorem prOf_code (p : Pr) : prOf p.code = some p := by cases p <;> rfl

@[simp] theorem targetOf_code (t : Target) : targetOf t.code = some t := by
  rcases t with _ | ⟨pos, k⟩
  · rfl
  · cases pos <;> revert k <;> decide

@[simp] theorem typeOf_code (x : ElemType) : typeOf x.code = some x := by cases x <;> rfl

/-! ## Fields of packed words -/

/-- A field that lies in the low part of a concatenation. -/
theorem field_low {n m : Nat} (a : BitVec n) (b : BitVec m) (i k : Nat) (h : i + k ≤ m) :
    (a ++ b).extractLsb' i k = b.extractLsb' i k := by
  apply BitVec.eq_of_getLsbD_eq
  intro j hj
  simp only [BitVec.getLsbD_extractLsb', BitVec.getLsbD_append]
  rw [if_pos (by omega)]

/-- A field that lies in the high part of a concatenation. -/
theorem field_high {n m : Nat} (a : BitVec n) (b : BitVec m) (i k : Nat) (h : m ≤ i) :
    (a ++ b).extractLsb' i k = a.extractLsb' (i - m) k := by
  apply BitVec.eq_of_getLsbD_eq
  intro j hj
  simp only [BitVec.getLsbD_extractLsb', BitVec.getLsbD_append]
  rw [if_neg (by omega), show i + j - m = i - m + j by omega]

/-- A field that is the whole. -/
@[simp] theorem field_all {n : Nat} (a : BitVec n) : a.extractLsb' 0 n = a := by
  simp

/-! ## Format G -/

@[simp] theorem G_row (op : BitVec 8) (p : Pr) (x : BitVec 4) (u t : Target) : (packG op p x u t).extractLsb' 28 4 = op.extractLsb' 4 4 := by
  have h : (op ++ p.code ++ x ++ u.code ++ t.code).extractLsb' 28 4 = op.extractLsb' 4 4 := by
    rw [field_high _ _ _ _ (by decide), field_high _ _ _ _ (by decide), field_high _ _ _ _ (by decide), field_high _ _ _ _ (by decide)]
  exact h
@[simp] theorem G_col (op : BitVec 8) (p : Pr) (x : BitVec 4) (u t : Target) : (packG op p x u t).extractLsb' 24 4 = op.extractLsb' 0 4 := by
  have h : (op ++ p.code ++ x ++ u.code ++ t.code).extractLsb' 24 4 = op.extractLsb' 0 4 := by
    rw [field_high _ _ _ _ (by decide), field_high _ _ _ _ (by decide), field_high _ _ _ _ (by decide), field_high _ _ _ _ (by decide)]
  exact h
@[simp] theorem G_pr (op : BitVec 8) (p : Pr) (x : BitVec 4) (u t : Target) : fPr (packG op p x u t) = some p := by
  have h : (op ++ p.code ++ x ++ u.code ++ t.code).extractLsb' 22 2 = p.code := by
    rw [field_high _ _ _ _ (by decide), field_high _ _ _ _ (by decide), field_high _ _ _ _ (by decide), field_low _ _ _ _ (by decide)]
    exact field_all _
  exact (congrArg prOf h).trans (prOf_code _)
@[simp] theorem G_x (op : BitVec 8) (p : Pr) (x : BitVec 4) (u t : Target) : fX (packG op p x u t) = x := by
  have h : (op ++ p.code ++ x ++ u.code ++ t.code).extractLsb' 18 4 = x := by
    rw [field_high _ _ _ _ (by decide), field_high _ _ _ _ (by decide), field_low _ _ _ _ (by decide)]
    exact field_all _
  exact h
@[simp] theorem G_t1 (op : BitVec 8) (p : Pr) (x : BitVec 4) (u t : Target) : fT1 (packG op p x u t) = some u := by
  have h : (op ++ p.code ++ x ++ u.code ++ t.code).extractLsb' 9 9 = u.code := by
    rw [field_high _ _ _ _ (by decide), field_low _ _ _ _ (by decide)]
    exact field_all _
  exact (congrArg targetOf h).trans (targetOf_code _)
@[simp] theorem G_t0 (op : BitVec 8) (p : Pr) (x : BitVec 4) (u t : Target) : fT0 (packG op p x u t) = some t := by
  have h : (op ++ p.code ++ x ++ u.code ++ t.code).extractLsb' 0 9 = t.code := by
    rw [field_low _ _ _ _ (by decide)]
    exact field_all _
  exact (congrArg targetOf h).trans (targetOf_code _)
@[simp] theorem G_exit (op : BitVec 8) (p : Pr) (x : BitVec 4) (u t : Target) : fExit (packG op p x u t) = x.extractLsb' 1 3 := by
  have h : (op ++ p.code ++ x ++ u.code ++ t.code).extractLsb' 19 3 = x.extractLsb' 1 3 := by
    rw [field_high _ _ _ _ (by decide), field_high _ _ _ _ (by decide), field_low _ _ _ _ (by decide)]
  exact h

/-! ## The conversion layout -/

@[simp] theorem C_row (op : BitVec 8) (p : Pr) (d s : ElemType) (t : Target) : (packC op p d s t).extractLsb' 28 4 = op.extractLsb' 4 4 := by
  have h : (op ++ p.code ++ d.code ++ 0#5 ++ s.code ++ t.code).extractLsb' 28 4 = op.extractLsb' 4 4 := by
    rw [field_high _ _ _ _ (by decide), field_high _ _ _ _ (by decide), field_high _ _ _ _ (by decide), field_high _ _ _ _ (by decide), field_high _ _ _ _ (by decide)]
  exact h
@[simp] theorem C_col (op : BitVec 8) (p : Pr) (d s : ElemType) (t : Target) : (packC op p d s t).extractLsb' 24 4 = op.extractLsb' 0 4 := by
  have h : (op ++ p.code ++ d.code ++ 0#5 ++ s.code ++ t.code).extractLsb' 24 4 = op.extractLsb' 0 4 := by
    rw [field_high _ _ _ _ (by decide), field_high _ _ _ _ (by decide), field_high _ _ _ _ (by decide), field_high _ _ _ _ (by decide), field_high _ _ _ _ (by decide)]
  exact h
@[simp] theorem C_pr (op : BitVec 8) (p : Pr) (d s : ElemType) (t : Target) : fPr (packC op p d s t) = some p := by
  have h : (op ++ p.code ++ d.code ++ 0#5 ++ s.code ++ t.code).extractLsb' 22 2 = p.code := by
    rw [field_high _ _ _ _ (by decide), field_high _ _ _ _ (by decide), field_high _ _ _ _ (by decide), field_high _ _ _ _ (by decide), field_low _ _ _ _ (by decide)]
    exact field_all _
  exact (congrArg prOf h).trans (prOf_code _)
@[simp] theorem C_d (op : BitVec 8) (p : Pr) (d s : ElemType) (t : Target) : fX (packC op p d s t) = d.code := by
  have h : (op ++ p.code ++ d.code ++ 0#5 ++ s.code ++ t.code).extractLsb' 18 4 = d.code := by
    rw [field_high _ _ _ _ (by decide), field_high _ _ _ _ (by decide), field_high _ _ _ _ (by decide), field_low _ _ _ _ (by decide)]
    exact field_all _
  exact h
@[simp] theorem C_zero (op : BitVec 8) (p : Pr) (d s : ElemType) (t : Target) : (packC op p d s t).extractLsb' 13 5 = 0#5 := by
  have h : (op ++ p.code ++ d.code ++ 0#5 ++ s.code ++ t.code).extractLsb' 13 5 = 0#5 := by
    rw [field_high _ _ _ _ (by decide), field_high _ _ _ _ (by decide), field_low _ _ _ _ (by decide)]
    rfl
  exact h
@[simp] theorem C_s (op : BitVec 8) (p : Pr) (d s : ElemType) (t : Target) : (packC op p d s t).extractLsb' 9 4 = s.code := by
  have h : (op ++ p.code ++ d.code ++ 0#5 ++ s.code ++ t.code).extractLsb' 9 4 = s.code := by
    rw [field_high _ _ _ _ (by decide), field_low _ _ _ _ (by decide)]
    exact field_all _
  exact h
@[simp] theorem C_t0 (op : BitVec 8) (p : Pr) (d s : ElemType) (t : Target) : fT0 (packC op p d s t) = some t := by
  have h : (op ++ p.code ++ d.code ++ 0#5 ++ s.code ++ t.code).extractLsb' 0 9 = t.code := by
    rw [field_low _ _ _ _ (by decide)]
    exact field_all _
  exact (congrArg targetOf h).trans (targetOf_code _)

/-! ## Format I -/

@[simp] theorem I_row (op : BitVec 8) (p : Pr) (i : BitVec 13) (t : Target) : (packI op p i t).extractLsb' 28 4 = op.extractLsb' 4 4 := by
  have h : (op ++ p.code ++ i ++ t.code).extractLsb' 28 4 = op.extractLsb' 4 4 := by
    rw [field_high _ _ _ _ (by decide), field_high _ _ _ _ (by decide), field_high _ _ _ _ (by decide)]
  exact h
@[simp] theorem I_col (op : BitVec 8) (p : Pr) (i : BitVec 13) (t : Target) : (packI op p i t).extractLsb' 24 4 = op.extractLsb' 0 4 := by
  have h : (op ++ p.code ++ i ++ t.code).extractLsb' 24 4 = op.extractLsb' 0 4 := by
    rw [field_high _ _ _ _ (by decide), field_high _ _ _ _ (by decide), field_high _ _ _ _ (by decide)]
  exact h
@[simp] theorem I_pr (op : BitVec 8) (p : Pr) (i : BitVec 13) (t : Target) : fPr (packI op p i t) = some p := by
  have h : (op ++ p.code ++ i ++ t.code).extractLsb' 22 2 = p.code := by
    rw [field_high _ _ _ _ (by decide), field_high _ _ _ _ (by decide), field_low _ _ _ _ (by decide)]
    exact field_all _
  exact (congrArg prOf h).trans (prOf_code _)
@[simp] theorem I_imm (op : BitVec 8) (p : Pr) (i : BitVec 13) (t : Target) : fImm13 (packI op p i t) = i := by
  have h : (op ++ p.code ++ i ++ t.code).extractLsb' 9 13 = i := by
    rw [field_high _ _ _ _ (by decide), field_low _ _ _ _ (by decide)]
    exact field_all _
  exact h
@[simp] theorem I_imm12 (op : BitVec 8) (p : Pr) (i : BitVec 13) (t : Target) : (packI op p i t).extractLsb' 9 12 = i.extractLsb' 0 12 := by
  have h : (op ++ p.code ++ i ++ t.code).extractLsb' 9 12 = i.extractLsb' 0 12 := by
    rw [field_high _ _ _ _ (by decide), field_low _ _ _ _ (by decide)]
  exact h
@[simp] theorem I_immTop (op : BitVec 8) (p : Pr) (i : BitVec 13) (t : Target) : (packI op p i t).extractLsb' 21 1 = i.extractLsb' 12 1 := by
  have h : (op ++ p.code ++ i ++ t.code).extractLsb' 21 1 = i.extractLsb' 12 1 := by
    rw [field_high _ _ _ _ (by decide), field_low _ _ _ _ (by decide)]
  exact h
@[simp] theorem I_t0 (op : BitVec 8) (p : Pr) (i : BitVec 13) (t : Target) : fT0 (packI op p i t) = some t := by
  have h : (op ++ p.code ++ i ++ t.code).extractLsb' 0 9 = t.code := by
    rw [field_low _ _ _ _ (by decide)]
    exact field_all _
  exact (congrArg targetOf h).trans (targetOf_code _)
@[simp] theorem I_low9 (op : BitVec 8) (p : Pr) (i : BitVec 13) (t : Target) : (packI op p i t).extractLsb' 0 9 = t.code := by
  have h : (op ++ p.code ++ i ++ t.code).extractLsb' 0 9 = t.code := by
    rw [field_low _ _ _ _ (by decide)]
    exact field_all _
  exact h

/-! ## Format A -/

@[simp] theorem A_row (op : BitVec 8) (p : Pr) (l : BitVec 7) (m x : BitVec 3) (t : Target) : (packA op p l m x t).extractLsb' 28 4 = op.extractLsb' 4 4 := by
  have h : (op ++ p.code ++ l ++ m ++ x ++ t.code).extractLsb' 28 4 = op.extractLsb' 4 4 := by
    rw [field_high _ _ _ _ (by decide), field_high _ _ _ _ (by decide), field_high _ _ _ _ (by decide), field_high _ _ _ _ (by decide), field_high _ _ _ _ (by decide)]
  exact h
@[simp] theorem A_col (op : BitVec 8) (p : Pr) (l : BitVec 7) (m x : BitVec 3) (t : Target) : (packA op p l m x t).extractLsb' 24 4 = op.extractLsb' 0 4 := by
  have h : (op ++ p.code ++ l ++ m ++ x ++ t.code).extractLsb' 24 4 = op.extractLsb' 0 4 := by
    rw [field_high _ _ _ _ (by decide), field_high _ _ _ _ (by decide), field_high _ _ _ _ (by decide), field_high _ _ _ _ (by decide), field_high _ _ _ _ (by decide)]
  exact h
@[simp] theorem A_pr (op : BitVec 8) (p : Pr) (l : BitVec 7) (m x : BitVec 3) (t : Target) : fPr (packA op p l m x t) = some p := by
  have h : (op ++ p.code ++ l ++ m ++ x ++ t.code).extractLsb' 22 2 = p.code := by
    rw [field_high _ _ _ _ (by decide), field_high _ _ _ _ (by decide), field_high _ _ _ _ (by decide), field_high _ _ _ _ (by decide), field_low _ _ _ _ (by decide)]
    exact field_all _
  exact (congrArg prOf h).trans (prOf_code _)
@[simp] theorem A_lsid (op : BitVec 8) (p : Pr) (l : BitVec 7) (m x : BitVec 3) (t : Target) : fLsid (packA op p l m x t) = l := by
  have h : (op ++ p.code ++ l ++ m ++ x ++ t.code).extractLsb' 15 7 = l := by
    rw [field_high _ _ _ _ (by decide), field_high _ _ _ _ (by decide), field_high _ _ _ _ (by decide), field_low _ _ _ _ (by decide)]
    exact field_all _
  exact h
@[simp] theorem A_mode (op : BitVec 8) (p : Pr) (l : BitVec 7) (m x : BitVec 3) (t : Target) : fMode (packA op p l m x t) = m := by
  have h : (op ++ p.code ++ l ++ m ++ x ++ t.code).extractLsb' 12 3 = m := by
    rw [field_high _ _ _ _ (by decide), field_high _ _ _ _ (by decide), field_low _ _ _ _ (by decide)]
    exact field_all _
  exact h
@[simp] theorem A_x3 (op : BitVec 8) (p : Pr) (l : BitVec 7) (m x : BitVec 3) (t : Target) : fX3 (packA op p l m x t) = x := by
  have h : (op ++ p.code ++ l ++ m ++ x ++ t.code).extractLsb' 9 3 = x := by
    rw [field_high _ _ _ _ (by decide), field_low _ _ _ _ (by decide)]
    exact field_all _
  exact h
@[simp] theorem A_t0 (op : BitVec 8) (p : Pr) (l : BitVec 7) (m x : BitVec 3) (t : Target) : fT0 (packA op p l m x t) = some t := by
  have h : (op ++ p.code ++ l ++ m ++ x ++ t.code).extractLsb' 0 9 = t.code := by
    rw [field_low _ _ _ _ (by decide)]
    exact field_all _
  exact (congrArg targetOf h).trans (targetOf_code _)

/-! ## Format L -/

@[simp] theorem L_row (op : BitVec 8) (p : Pr) (l : BitVec 7) (i : BitVec 6) (t : Target) : (packL op p l i t).extractLsb' 28 4 = op.extractLsb' 4 4 := by
  have h : (op ++ p.code ++ l ++ i ++ t.code).extractLsb' 28 4 = op.extractLsb' 4 4 := by
    rw [field_high _ _ _ _ (by decide), field_high _ _ _ _ (by decide), field_high _ _ _ _ (by decide), field_high _ _ _ _ (by decide)]
  exact h
@[simp] theorem L_col (op : BitVec 8) (p : Pr) (l : BitVec 7) (i : BitVec 6) (t : Target) : (packL op p l i t).extractLsb' 24 4 = op.extractLsb' 0 4 := by
  have h : (op ++ p.code ++ l ++ i ++ t.code).extractLsb' 24 4 = op.extractLsb' 0 4 := by
    rw [field_high _ _ _ _ (by decide), field_high _ _ _ _ (by decide), field_high _ _ _ _ (by decide), field_high _ _ _ _ (by decide)]
  exact h
@[simp] theorem L_pr (op : BitVec 8) (p : Pr) (l : BitVec 7) (i : BitVec 6) (t : Target) : fPr (packL op p l i t) = some p := by
  have h : (op ++ p.code ++ l ++ i ++ t.code).extractLsb' 22 2 = p.code := by
    rw [field_high _ _ _ _ (by decide), field_high _ _ _ _ (by decide), field_high _ _ _ _ (by decide), field_low _ _ _ _ (by decide)]
    exact field_all _
  exact (congrArg prOf h).trans (prOf_code _)
@[simp] theorem L_lsid (op : BitVec 8) (p : Pr) (l : BitVec 7) (i : BitVec 6) (t : Target) : fLsid (packL op p l i t) = l := by
  have h : (op ++ p.code ++ l ++ i ++ t.code).extractLsb' 15 7 = l := by
    rw [field_high _ _ _ _ (by decide), field_high _ _ _ _ (by decide), field_low _ _ _ _ (by decide)]
    exact field_all _
  exact h
@[simp] theorem L_imm (op : BitVec 8) (p : Pr) (l : BitVec 7) (i : BitVec 6) (t : Target) : (packL op p l i t).extractLsb' 9 6 = i := by
  have h : (op ++ p.code ++ l ++ i ++ t.code).extractLsb' 9 6 = i := by
    rw [field_high _ _ _ _ (by decide), field_low _ _ _ _ (by decide)]
    exact field_all _
  exact h
@[simp] theorem L_t0 (op : BitVec 8) (p : Pr) (l : BitVec 7) (i : BitVec 6) (t : Target) : fT0 (packL op p l i t) = some t := by
  have h : (op ++ p.code ++ l ++ i ++ t.code).extractLsb' 0 9 = t.code := by
    rw [field_low _ _ _ _ (by decide)]
    exact field_all _
  exact (congrArg targetOf h).trans (targetOf_code _)
@[simp] theorem L_low9 (op : BitVec 8) (p : Pr) (l : BitVec 7) (i : BitVec 6) (t : Target) : (packL op p l i t).extractLsb' 0 9 = t.code := by
  have h : (op ++ p.code ++ l ++ i ++ t.code).extractLsb' 0 9 = t.code := by
    rw [field_low _ _ _ _ (by decide)]
    exact field_all _
  exact h

/-! ## Format S -/

@[simp] theorem S_row (op : BitVec 8) (p : Pr) (l : BitVec 7) (i : BitVec 15) : (packS op p l i).extractLsb' 28 4 = op.extractLsb' 4 4 := by
  have h : (op ++ p.code ++ l ++ i).extractLsb' 28 4 = op.extractLsb' 4 4 := by
    rw [field_high _ _ _ _ (by decide), field_high _ _ _ _ (by decide), field_high _ _ _ _ (by decide)]
  exact h
@[simp] theorem S_col (op : BitVec 8) (p : Pr) (l : BitVec 7) (i : BitVec 15) : (packS op p l i).extractLsb' 24 4 = op.extractLsb' 0 4 := by
  have h : (op ++ p.code ++ l ++ i).extractLsb' 24 4 = op.extractLsb' 0 4 := by
    rw [field_high _ _ _ _ (by decide), field_high _ _ _ _ (by decide), field_high _ _ _ _ (by decide)]
  exact h
@[simp] theorem S_pr (op : BitVec 8) (p : Pr) (l : BitVec 7) (i : BitVec 15) : fPr (packS op p l i) = some p := by
  have h : (op ++ p.code ++ l ++ i).extractLsb' 22 2 = p.code := by
    rw [field_high _ _ _ _ (by decide), field_high _ _ _ _ (by decide), field_low _ _ _ _ (by decide)]
    exact field_all _
  exact (congrArg prOf h).trans (prOf_code _)
@[simp] theorem S_lsid (op : BitVec 8) (p : Pr) (l : BitVec 7) (i : BitVec 15) : fLsid (packS op p l i) = l := by
  have h : (op ++ p.code ++ l ++ i).extractLsb' 15 7 = l := by
    rw [field_high _ _ _ _ (by decide), field_low _ _ _ _ (by decide)]
    exact field_all _
  exact h
@[simp] theorem S_imm (op : BitVec 8) (p : Pr) (l : BitVec 7) (i : BitVec 15) : (packS op p l i).extractLsb' 0 15 = i := by
  have h : (op ++ p.code ++ l ++ i).extractLsb' 0 15 = i := by
    rw [field_low _ _ _ _ (by decide)]
    exact field_all _
  exact h

/-! ## Format E -/

@[simp] theorem E_row (op : BitVec 8) (p : Pr) (e : BitVec 3) (o : BitVec 19) : (packE op p e o).extractLsb' 28 4 = op.extractLsb' 4 4 := by
  have h : (op ++ p.code ++ e ++ o).extractLsb' 28 4 = op.extractLsb' 4 4 := by
    rw [field_high _ _ _ _ (by decide), field_high _ _ _ _ (by decide), field_high _ _ _ _ (by decide)]
  exact h
@[simp] theorem E_col (op : BitVec 8) (p : Pr) (e : BitVec 3) (o : BitVec 19) : (packE op p e o).extractLsb' 24 4 = op.extractLsb' 0 4 := by
  have h : (op ++ p.code ++ e ++ o).extractLsb' 24 4 = op.extractLsb' 0 4 := by
    rw [field_high _ _ _ _ (by decide), field_high _ _ _ _ (by decide), field_high _ _ _ _ (by decide)]
  exact h
@[simp] theorem E_pr (op : BitVec 8) (p : Pr) (e : BitVec 3) (o : BitVec 19) : fPr (packE op p e o) = some p := by
  have h : (op ++ p.code ++ e ++ o).extractLsb' 22 2 = p.code := by
    rw [field_high _ _ _ _ (by decide), field_high _ _ _ _ (by decide), field_low _ _ _ _ (by decide)]
    exact field_all _
  exact (congrArg prOf h).trans (prOf_code _)
@[simp] theorem E_exit (op : BitVec 8) (p : Pr) (e : BitVec 3) (o : BitVec 19) : fExit (packE op p e o) = e := by
  have h : (op ++ p.code ++ e ++ o).extractLsb' 19 3 = e := by
    rw [field_high _ _ _ _ (by decide), field_low _ _ _ _ (by decide)]
    exact field_all _
  exact h
@[simp] theorem E_off (op : BitVec 8) (p : Pr) (e : BitVec 3) (o : BitVec 19) : (packE op p e o).extractLsb' 0 19 = o := by
  have h : (op ++ p.code ++ e ++ o).extractLsb' 0 19 = o := by
    rw [field_low _ _ _ _ (by decide)]
    exact field_all _
  exact h

/-! ## Format R -/

@[simp] theorem R_row (op : BitVec 8) (r : BitVec 6) (u t : Target) : (packR op r u t).extractLsb' 28 4 = op.extractLsb' 4 4 := by
  have h : (op ++ r ++ u.code ++ t.code).extractLsb' 28 4 = op.extractLsb' 4 4 := by
    rw [field_high _ _ _ _ (by decide), field_high _ _ _ _ (by decide), field_high _ _ _ _ (by decide)]
  exact h
@[simp] theorem R_col (op : BitVec 8) (r : BitVec 6) (u t : Target) : (packR op r u t).extractLsb' 24 4 = op.extractLsb' 0 4 := by
  have h : (op ++ r ++ u.code ++ t.code).extractLsb' 24 4 = op.extractLsb' 0 4 := by
    rw [field_high _ _ _ _ (by decide), field_high _ _ _ _ (by decide), field_high _ _ _ _ (by decide)]
  exact h
@[simp] theorem R_reg (op : BitVec 8) (r : BitVec 6) (u t : Target) : (packR op r u t).extractLsb' 18 6 = r := by
  have h : (op ++ r ++ u.code ++ t.code).extractLsb' 18 6 = r := by
    rw [field_high _ _ _ _ (by decide), field_high _ _ _ _ (by decide), field_low _ _ _ _ (by decide)]
    exact field_all _
  exact h
@[simp] theorem R_reg5 (op : BitVec 8) (r : BitVec 6) (u t : Target) : (packR op r u t).extractLsb' 18 5 = r.extractLsb' 0 5 := by
  have h : (op ++ r ++ u.code ++ t.code).extractLsb' 18 5 = r.extractLsb' 0 5 := by
    rw [field_high _ _ _ _ (by decide), field_high _ _ _ _ (by decide), field_low _ _ _ _ (by decide)]
  exact h
@[simp] theorem R_regTop (op : BitVec 8) (r : BitVec 6) (u t : Target) : (packR op r u t).extractLsb' 23 1 = r.extractLsb' 5 1 := by
  have h : (op ++ r ++ u.code ++ t.code).extractLsb' 23 1 = r.extractLsb' 5 1 := by
    rw [field_high _ _ _ _ (by decide), field_high _ _ _ _ (by decide), field_low _ _ _ _ (by decide)]
  exact h
@[simp] theorem R_t1 (op : BitVec 8) (r : BitVec 6) (u t : Target) : fT1 (packR op r u t) = some u := by
  have h : (op ++ r ++ u.code ++ t.code).extractLsb' 9 9 = u.code := by
    rw [field_high _ _ _ _ (by decide), field_low _ _ _ _ (by decide)]
    exact field_all _
  exact (congrArg targetOf h).trans (targetOf_code _)
@[simp] theorem R_t0 (op : BitVec 8) (r : BitVec 6) (u t : Target) : fT0 (packR op r u t) = some t := by
  have h : (op ++ r ++ u.code ++ t.code).extractLsb' 0 9 = t.code := by
    rw [field_low _ _ _ _ (by decide)]
    exact field_all _
  exact (congrArg targetOf h).trans (targetOf_code _)

/-! ## Format W -/

@[simp] theorem W_row (op : BitVec 8) (r : BitVec 6) : (packW op r).extractLsb' 28 4 = op.extractLsb' 4 4 := by
  have h : (op ++ r ++ 0#18).extractLsb' 28 4 = op.extractLsb' 4 4 := by
    rw [field_high _ _ _ _ (by decide), field_high _ _ _ _ (by decide)]
  exact h
@[simp] theorem W_col (op : BitVec 8) (r : BitVec 6) : (packW op r).extractLsb' 24 4 = op.extractLsb' 0 4 := by
  have h : (op ++ r ++ 0#18).extractLsb' 24 4 = op.extractLsb' 0 4 := by
    rw [field_high _ _ _ _ (by decide), field_high _ _ _ _ (by decide)]
  exact h
@[simp] theorem W_reg (op : BitVec 8) (r : BitVec 6) : (packW op r).extractLsb' 18 6 = r := by
  have h : (op ++ r ++ 0#18).extractLsb' 18 6 = r := by
    rw [field_high _ _ _ _ (by decide), field_low _ _ _ _ (by decide)]
    exact field_all _
  exact h
@[simp] theorem W_reg5 (op : BitVec 8) (r : BitVec 6) : (packW op r).extractLsb' 18 5 = r.extractLsb' 0 5 := by
  have h : (op ++ r ++ 0#18).extractLsb' 18 5 = r.extractLsb' 0 5 := by
    rw [field_high _ _ _ _ (by decide), field_low _ _ _ _ (by decide)]
  exact h
@[simp] theorem W_regTop (op : BitVec 8) (r : BitVec 6) : (packW op r).extractLsb' 23 1 = r.extractLsb' 5 1 := by
  have h : (op ++ r ++ 0#18).extractLsb' 23 1 = r.extractLsb' 5 1 := by
    rw [field_high _ _ _ _ (by decide), field_low _ _ _ _ (by decide)]
  exact h
@[simp] theorem W_low18 (op : BitVec 8) (r : BitVec 6) : (packW op r).extractLsb' 0 18 = 0#18 := by
  have h : (op ++ r ++ 0#18).extractLsb' 0 18 = 0#18 := by
    rw [field_low _ _ _ _ (by decide)]
    rfl
  exact h

/-! ## Small fields, and words whose low fields are zero -/

theorem two_top (n : BitVec 2) : BitVec.extractLsb' 2 1 (0#1 ++ n) = 0#1 := by revert n; decide
theorem two_low (n : BitVec 2) : BitVec.extractLsb' 0 2 (0#1 ++ n) = n := by revert n; decide
theorem vreg_top (r : BitVec 5) : BitVec.extractLsb' 5 1 (0#1 ++ r) = 0#1 := by revert r; decide
theorem vreg_low (r : BitVec 5) : BitVec.extractLsb' 0 5 (0#1 ++ r) = r := by revert r; decide
theorem number_top (n : BitVec 12) : BitVec.extractLsb' 12 1 (0#1 ++ n) = 0#1 :=
  (field_high (0#1) n 12 1 (by decide)).trans rfl
theorem number_low (n : BitVec 12) : BitVec.extractLsb' 0 12 (0#1 ++ n) = n :=
  (field_low (0#1) n 0 12 (by decide)).trans (field_all n)
theorem flag_top (b : Bool) : BitVec.extractLsb' 1 2 (0#2 ++ BitVec.ofBool b) = 0#2 := by cases b <;> rfl
theorem flag_low (b : Bool) : (0#2 ++ BitVec.ofBool b)[0] = b := by cases b <;> rfl

theorem G_low22 (op : BitVec 8) (p : Pr) : BitVec.extractLsb' 0 22 (packG op p 0#4 .none .none) = 0#22 := by
  apply BitVec.eq_of_getLsbD_eq
  intro j hj
  have h : (op ++ p.code ++ 0#4 ++ 0#9 ++ 0#9).getLsbD j = false := by
    simp only [BitVec.getLsbD_append, BitVec.getLsbD_zero]
    grind
  rw [BitVec.getLsbD_extractLsb', Nat.zero_add]
  refine (congrArg (fun b => decide (j < 22) && b) h).trans ?_
  simp

theorem G_low19 (op : BitVec 8) (p : Pr) (e : BitVec 3) : (packG op p (e ++ 0#1) .none .none).extractLsb' 0 19 = 0 := by
  apply BitVec.eq_of_getLsbD_eq
  intro j hj
  have h : (op ++ p.code ++ (e ++ 0#1) ++ 0#9 ++ 0#9).getLsbD j = false := by
    simp only [BitVec.getLsbD_append, BitVec.getLsbD_zero]
    grind
  rw [BitVec.getLsbD_extractLsb', Nat.zero_add]
  refine (congrArg (fun b => decide (j < 19) && b) h).trans ?_
  simp

theorem G_exitId (e : BitVec 3) : BitVec.extractLsb' 1 3 (e ++ 0#1) = e := by revert e; decide

/-! ## A reader after its packer -/

@[simp] theorem unGF_pack {x : BitVec 4} {k : Pr → Target → Target → Instr} {op p u t} :
    unGF x k (packG op p x u t) = some (k p u t) := by
  simp [unGF, when]
@[simp] theorem unG_pack {k : Pr → Target → Target → Instr} {op p u t} :
    unG k (packG op p 0 u t) = some (k p u t) := by
  simp [unG, unGF, when]
@[simp] theorem unGX_pack {k : Pr → ElemType → Target → Target → Instr} {op p x u t} :
    unGX k (packG op p (ElemType.code x) u t) = some (k p x u t) := by
  simp [unGX]
@[simp] theorem unGT_pack {k : Target → Target → Instr} {op u t} :
    unGT k (packG op .always 0 u t) = some (k u t) := by
  simp [unGT, when]
@[simp] theorem unGTX_pack {k : ElemType → Target → Target → Instr} {op x u t} :
    unGTX k (packG op .always (ElemType.code x) u t) = some (k x u t) := by
  simp [unGTX]
@[simp] theorem unG0_pack {k : Pr → Instr} {op p} :
    unG0 k (packG op p 0 .none .none) = some (k p) := by
  simp [unG0, G_low22, when]
@[simp] theorem unGExit_pack {k : Pr → BitVec 3 → Instr} {op p e} :
    unGExit k (packG op p (e ++ 0#1) .none .none) = some (k p e) := by
  simp [unGExit, G_low19, G_exitId, when]
@[simp] theorem unGConv_pack {k : Pr → ElemType → ElemType → Target → Instr} {op p d s t} :
    unGConv k (packC op p d s t) = some (k p d s t) := by
  simp [unGConv, when]
@[simp] theorem unI_pack {k : Pr → BitVec 13 → Target → Instr} {op p i t} :
    unI k (packI op p i t) = some (k p i t) := by
  simp [unI]
@[simp] theorem unICode_pack {k : Pr → BitVec 13 → Instr} {op p i} :
    unICode k (packI op p i .none) = some (k p i) := by
  simp [unICode, Target.code, when]
@[simp] theorem unICsr_pack {k : Pr → BitVec 12 → Target → Instr} {op p} {n : BitVec 12} {t} :
    unICsr k (packI op p (0#1 ++ n) t) = some (k p n t) := by
  simp [unICsr, number_top, number_low, when]
@[simp] theorem unR6_pack {k : BitVec 6 → Target → Target → Instr} {op r u t} :
    unR6 k (packR op r u t) = some (k r u t) := by
  simp [unR6]
@[simp] theorem unR5_pack {k : BitVec 5 → Target → Target → Instr} {op} {r : BitVec 5} {u t} :
    unR5 k (packR op (0#1 ++ r) u t) = some (k r u t) := by
  simp [unR5, vreg_top, vreg_low, when]
@[simp] theorem unW6_pack {k : BitVec 6 → Instr} {op r} :
    unW6 k (packW op r) = some (k r) := by
  simp [unW6, when]
@[simp] theorem unW5_pack {k : BitVec 5 → Instr} {op} {r : BitVec 5} :
    unW5 k (packW op (0#1 ++ r)) = some (k r) := by
  simp [unW5, vreg_top, vreg_low, when]
@[simp] theorem unE_pack {k : Pr → BitVec 3 → BitVec 19 → Instr} {op p e o} :
    unE k (packE op p e o) = some (k p e o) := by
  simp [unE]
@[simp] theorem unEDone_pack {k : Pr → BitVec 3 → Instr} {op p e} :
    unEDone k (packE op p e 0) = some (k p e) := by
  simp [unEDone, unGExit, when]
@[simp] theorem unL_pack {k : Pr → BitVec 7 → BitVec 6 → Target → Instr} {op p l i t} :
    unL k (packL op p l i t) = some (k p l i t) := by
  simp [unL]
@[simp] theorem unL0_pack {k : Pr → BitVec 7 → BitVec 6 → Instr} {op p l i} :
    unL0 k (packL op p l i .none) = some (k p l i) := by
  simp [unL0, Target.code, when]
@[simp] theorem unLX_pack {k : Pr → BitVec 7 → Target → Instr} {op p l t} :
    unLX k (packL op p l 0 t) = some (k p l t) := by
  simp [unLX, when]
@[simp] theorem unS_pack {k : Pr → BitVec 7 → BitVec 15 → Instr} {op p l i} :
    unS k (packS op p l i) = some (k p l i) := by
  simp [unS]
@[simp] theorem unST_pack {k : BitVec 7 → BitVec 15 → Instr} {op l i} :
    unST k (packS op .always l i) = some (k l i) := by
  simp [unST]
@[simp] theorem unAll_pack {k : Pr → BitVec 7 → BitVec 3 → BitVec 3 → Target → Option Instr} {op p l m x t} :
    unAll k (packA op p l m x t) = k p l m x t := by
  simp [unAll]
@[simp] theorem unAT_pack {k : Pr → BitVec 7 → Target → Instr} {op p l t} :
    unAT k (packA op p l 0 0 t) = some (k p l t) := by
  simp [unAT, unAll, when]
@[simp] theorem unA_pack {k : Pr → BitVec 7 → Instr} {op p l} :
    unA k (packA op p l 0 0 .none) = some (k p l) := by
  simp [unA, unAll, when]
@[simp] theorem unAMT_pack {k : Pr → BitVec 7 → BitVec 3 → Target → Instr} {op p l m t} :
    unAMT k (packA op p l m 0 t) = some (k p l m t) := by
  simp [unAMT, unAll, when]
@[simp] theorem unAM_pack {k : Pr → BitVec 7 → BitVec 3 → Instr} {op p l m} :
    unAM k (packA op p l m 0 .none) = some (k p l m) := by
  simp [unAM, unAll, when]
@[simp] theorem unAMUT_pack {k : Pr → BitVec 7 → BitVec 3 → Bool → Target → Instr} {op p l m} {b : Bool} {t} :
    unAMUT k (packA op p l m (0#2 ++ BitVec.ofBool b) t) = some (k p l m b t) := by
  simp [unAMUT, unAll, flag_top, flag_low, when]
@[simp] theorem unAMU_pack {k : Pr → BitVec 7 → BitVec 3 → Bool → Instr} {op p l m} {b : Bool} :
    unAMU k (packA op p l m (0#2 ++ BitVec.ofBool b) .none) = some (k p l m b) := by
  simp [unAMU, unAll, flag_top, flag_low, when]
@[simp] theorem unATern_pack {k : BitVec 7 → BitVec 3 → Target → Instr} {op l m t} :
    unATern k (packA op .always l m 0 t) = some (k l m t) := by
  simp [unATern, unAll, when]
@[simp] theorem unAMX_pack {k : Pr → BitVec 7 → BitVec 3 → BitVec 3 → Instr} {op p l m x} :
    unAMX k (packA op p l m x .none) = some (k p l m x) := by
  simp [unAMX, unAll, when]
@[simp] theorem unAX_pack {k : Pr → BitVec 7 → BitVec 3 → Instr} {op p l x} :
    unAX k (packA op p l 0 x .none) = some (k p l x) := by
  simp [unAX, unAll, when]
@[simp] theorem unAN_pack {k : Pr → BitVec 7 → BitVec 2 → Instr} {op p l} {n : BitVec 2} :
    unAN k (packA op p l 0 (0#1 ++ n) .none) = some (k p l n) := by
  simp [unAN, unAll, two_top, two_low, when]
@[simp] theorem unANT_pack {k : Pr → BitVec 7 → BitVec 2 → Target → Instr} {op p l} {n : BitVec 2} {t} :
    unANT k (packA op p l 0 (0#1 ++ n) t) = some (k p l n t) := by
  simp [unANT, unAll, two_top, two_low, when]
@[simp] theorem unAMN_pack {k : Pr → BitVec 7 → BitVec 3 → BitVec 2 → Instr} {op p l m} {n : BitVec 2} :
    unAMN k (packA op p l m (0#1 ++ n) .none) = some (k p l m n) := by
  simp [unAMN, unAll, two_top, two_low, when]
@[simp] theorem unAMNT_pack {k : Pr → BitVec 7 → BitVec 3 → BitVec 2 → Target → Instr} {op p l m} {n : BitVec 2} {t} :
    unAMNT k (packA op p l m (0#1 ++ n) t) = some (k p l m n t) := by
  simp [unAMNT, unAll, two_top, two_low, when]
@[simp] theorem unAR_pack {k : Pr → BitVec 7 → BitVec 2 → Instr} {op p l} {a : BitVec 2} :
    unAR k (packA op p l (0#1 ++ a) 0 .none) = some (k p l a) := by
  simp [unAR, unAll, two_top, two_low, when]
@[simp] theorem unARR_pack {k : Pr → BitVec 7 → BitVec 2 → BitVec 2 → Instr} {op p l} {a b : BitVec 2} :
    unARR k (packA op p l (0#1 ++ a) (0#1 ++ b) .none) = some (k p l a b) := by
  simp [unARR, unAll, two_top, two_low, when]

end Sys2Proof.Laws
end

