-- ==== Sys2Proof/Laws/Fabric.lean ====
section
/-! SUPPORT. The named updates of what is under way between agents, and of ropes: each leaves every other field as it was, one
lemma per field. -/

namespace Sys2Proof.Laws

open Machine

/-! ## modCopy -/

@[simp] theorem modCopy_mem (s : State) (id : Nat) (f : Copy → Copy) : (s.modCopy id f).mem = s.mem := rfl
@[simp] theorem modCopy_lines (s : State) (id : Nat) (f : Copy → Copy) : (s.modCopy id f).lines = s.lines := rfl
@[simp] theorem modCopy_tiles (s : State) (id : Nat) (f : Copy → Copy) : (s.modCopy id f).tiles = s.tiles := rfl
@[simp] theorem modCopy_ctxs (s : State) (id : Nat) (f : Copy → Copy) : (s.modCopy id f).ctxs = s.ctxs := rfl
@[simp] theorem modCopy_insts (s : State) (id : Nat) (f : Copy → Copy) : (s.modCopy id f).insts = s.insts := rfl
@[simp] theorem modCopy_ropes (s : State) (id : Nat) (f : Copy → Copy) : (s.modCopy id f).ropes = s.ropes := rfl
@[simp] theorem modCopy_dies (s : State) (id : Nat) (f : Copy → Copy) : (s.modCopy id f).dies = s.dies := rfl
@[simp] theorem modCopy_pkg (s : State) (id : Nat) (f : Copy → Copy) : (s.modCopy id f).pkg = s.pkg := rfl
@[simp] theorem modCopy_cycle (s : State) (id : Nat) (f : Copy → Copy) : (s.modCopy id f).cycle = s.cycle := rfl
@[simp] theorem modCopy_focus (s : State) (id : Nat) (f : Copy → Copy) : (s.modCopy id f).focus = s.focus := rfl
@[simp] theorem modCopy_free (s : State) (id : Nat) (f : Copy → Copy) : (s.modCopy id f).free = s.free := rfl
@[simp] theorem modCopy_agenda (s : State) (id : Nat) (f : Copy → Copy) : (s.modCopy id f).agenda = s.agenda := rfl
@[simp] theorem modCopy_out (s : State) (id : Nat) (f : Copy → Copy) : (s.modCopy id f).out = s.out := rfl

/-! ## modPub -/

@[simp] theorem modPub_mem (s : State) (id : Nat) (f : Pub → Pub) : (s.modPub id f).mem = s.mem := rfl
@[simp] theorem modPub_lines (s : State) (id : Nat) (f : Pub → Pub) : (s.modPub id f).lines = s.lines := rfl
@[simp] theorem modPub_tiles (s : State) (id : Nat) (f : Pub → Pub) : (s.modPub id f).tiles = s.tiles := rfl
@[simp] theorem modPub_ctxs (s : State) (id : Nat) (f : Pub → Pub) : (s.modPub id f).ctxs = s.ctxs := rfl
@[simp] theorem modPub_insts (s : State) (id : Nat) (f : Pub → Pub) : (s.modPub id f).insts = s.insts := rfl
@[simp] theorem modPub_ropes (s : State) (id : Nat) (f : Pub → Pub) : (s.modPub id f).ropes = s.ropes := rfl
@[simp] theorem modPub_dies (s : State) (id : Nat) (f : Pub → Pub) : (s.modPub id f).dies = s.dies := rfl
@[simp] theorem modPub_pkg (s : State) (id : Nat) (f : Pub → Pub) : (s.modPub id f).pkg = s.pkg := rfl
@[simp] theorem modPub_cycle (s : State) (id : Nat) (f : Pub → Pub) : (s.modPub id f).cycle = s.cycle := rfl
@[simp] theorem modPub_focus (s : State) (id : Nat) (f : Pub → Pub) : (s.modPub id f).focus = s.focus := rfl
@[simp] theorem modPub_free (s : State) (id : Nat) (f : Pub → Pub) : (s.modPub id f).free = s.free := rfl
@[simp] theorem modPub_agenda (s : State) (id : Nat) (f : Pub → Pub) : (s.modPub id f).agenda = s.agenda := rfl
@[simp] theorem modPub_out (s : State) (id : Nat) (f : Pub → Pub) : (s.modPub id f).out = s.out := rfl

/-! ## modInPort -/

@[simp] theorem modInPort_mem (s : State) (inst idx port : Nat) (f : InPort → InPort) : (s.modInPort inst idx port f).mem = s.mem := rfl
@[simp] theorem modInPort_lines (s : State) (inst idx port : Nat) (f : InPort → InPort) : (s.modInPort inst idx port f).lines = s.lines := rfl
@[simp] theorem modInPort_tiles (s : State) (inst idx port : Nat) (f : InPort → InPort) : (s.modInPort inst idx port f).tiles = s.tiles := rfl
@[simp] theorem modInPort_ctxs (s : State) (inst idx port : Nat) (f : InPort → InPort) : (s.modInPort inst idx port f).ctxs = s.ctxs := rfl
@[simp] theorem modInPort_insts (s : State) (inst idx port : Nat) (f : InPort → InPort) : (s.modInPort inst idx port f).insts = s.insts := rfl
@[simp] theorem modInPort_ropes (s : State) (inst idx port : Nat) (f : InPort → InPort) : (s.modInPort inst idx port f).ropes = s.ropes := rfl
@[simp] theorem modInPort_dies (s : State) (inst idx port : Nat) (f : InPort → InPort) : (s.modInPort inst idx port f).dies = s.dies := rfl
@[simp] theorem modInPort_pkg (s : State) (inst idx port : Nat) (f : InPort → InPort) : (s.modInPort inst idx port f).pkg = s.pkg := rfl
@[simp] theorem modInPort_cycle (s : State) (inst idx port : Nat) (f : InPort → InPort) : (s.modInPort inst idx port f).cycle = s.cycle := rfl
@[simp] theorem modInPort_focus (s : State) (inst idx port : Nat) (f : InPort → InPort) : (s.modInPort inst idx port f).focus = s.focus := rfl
@[simp] theorem modInPort_free (s : State) (inst idx port : Nat) (f : InPort → InPort) : (s.modInPort inst idx port f).free = s.free := rfl
@[simp] theorem modInPort_agenda (s : State) (inst idx port : Nat) (f : InPort → InPort) : (s.modInPort inst idx port f).agenda = s.agenda := rfl
@[simp] theorem modInPort_out (s : State) (inst idx port : Nat) (f : InPort → InPort) : (s.modInPort inst idx port f).out = s.out := rfl

/-! ## enlist -/

@[simp] theorem enlist_mem (s : State) (e : RetryEntry) : (s.enlist e).mem = s.mem := rfl
@[simp] theorem enlist_lines (s : State) (e : RetryEntry) : (s.enlist e).lines = s.lines := rfl
@[simp] theorem enlist_tiles (s : State) (e : RetryEntry) : (s.enlist e).tiles = s.tiles := rfl
@[simp] theorem enlist_ctxs (s : State) (e : RetryEntry) : (s.enlist e).ctxs = s.ctxs := rfl
@[simp] theorem enlist_insts (s : State) (e : RetryEntry) : (s.enlist e).insts = s.insts := rfl
@[simp] theorem enlist_ropes (s : State) (e : RetryEntry) : (s.enlist e).ropes = s.ropes := rfl
@[simp] theorem enlist_dies (s : State) (e : RetryEntry) : (s.enlist e).dies = s.dies := rfl
@[simp] theorem enlist_pkg (s : State) (e : RetryEntry) : (s.enlist e).pkg = s.pkg := rfl
@[simp] theorem enlist_cycle (s : State) (e : RetryEntry) : (s.enlist e).cycle = s.cycle := rfl
@[simp] theorem enlist_focus (s : State) (e : RetryEntry) : (s.enlist e).focus = s.focus := rfl
@[simp] theorem enlist_free (s : State) (e : RetryEntry) : (s.enlist e).free = s.free := rfl
@[simp] theorem enlist_agenda (s : State) (e : RetryEntry) : (s.enlist e).agenda = s.agenda := rfl
@[simp] theorem enlist_out (s : State) (e : RetryEntry) : (s.enlist e).out = s.out := rfl

/-! ## delist -/

@[simp] theorem delist_mem (s : State) (e : RetryEntry) : (s.delist e).mem = s.mem := rfl
@[simp] theorem delist_lines (s : State) (e : RetryEntry) : (s.delist e).lines = s.lines := rfl
@[simp] theorem delist_tiles (s : State) (e : RetryEntry) : (s.delist e).tiles = s.tiles := rfl
@[simp] theorem delist_ctxs (s : State) (e : RetryEntry) : (s.delist e).ctxs = s.ctxs := rfl
@[simp] theorem delist_insts (s : State) (e : RetryEntry) : (s.delist e).insts = s.insts := rfl
@[simp] theorem delist_ropes (s : State) (e : RetryEntry) : (s.delist e).ropes = s.ropes := rfl
@[simp] theorem delist_dies (s : State) (e : RetryEntry) : (s.delist e).dies = s.dies := rfl
@[simp] theorem delist_pkg (s : State) (e : RetryEntry) : (s.delist e).pkg = s.pkg := rfl
@[simp] theorem delist_cycle (s : State) (e : RetryEntry) : (s.delist e).cycle = s.cycle := rfl
@[simp] theorem delist_focus (s : State) (e : RetryEntry) : (s.delist e).focus = s.focus := rfl
@[simp] theorem delist_free (s : State) (e : RetryEntry) : (s.delist e).free = s.free := rfl
@[simp] theorem delist_agenda (s : State) (e : RetryEntry) : (s.delist e).agenda = s.agenda := rfl
@[simp] theorem delist_out (s : State) (e : RetryEntry) : (s.delist e).out = s.out := rfl

/-! ## setMessage -/

@[simp] theorem setMessage_mem (s : State) (k : Nat) (m : Message) : (s.setMessage k m).mem = s.mem := rfl
@[simp] theorem setMessage_lines (s : State) (k : Nat) (m : Message) : (s.setMessage k m).lines = s.lines := rfl
@[simp] theorem setMessage_tiles (s : State) (k : Nat) (m : Message) : (s.setMessage k m).tiles = s.tiles := rfl
@[simp] theorem setMessage_ctxs (s : State) (k : Nat) (m : Message) : (s.setMessage k m).ctxs = s.ctxs := rfl
@[simp] theorem setMessage_insts (s : State) (k : Nat) (m : Message) : (s.setMessage k m).insts = s.insts := rfl
@[simp] theorem setMessage_ropes (s : State) (k : Nat) (m : Message) : (s.setMessage k m).ropes = s.ropes := rfl
@[simp] theorem setMessage_dies (s : State) (k : Nat) (m : Message) : (s.setMessage k m).dies = s.dies := rfl
@[simp] theorem setMessage_pkg (s : State) (k : Nat) (m : Message) : (s.setMessage k m).pkg = s.pkg := rfl
@[simp] theorem setMessage_cycle (s : State) (k : Nat) (m : Message) : (s.setMessage k m).cycle = s.cycle := rfl
@[simp] theorem setMessage_focus (s : State) (k : Nat) (m : Message) : (s.setMessage k m).focus = s.focus := rfl
@[simp] theorem setMessage_free (s : State) (k : Nat) (m : Message) : (s.setMessage k m).free = s.free := rfl
@[simp] theorem setMessage_agenda (s : State) (k : Nat) (m : Message) : (s.setMessage k m).agenda = s.agenda := rfl
@[simp] theorem setMessage_out (s : State) (k : Nat) (m : Message) : (s.setMessage k m).out = s.out := rfl

/-! ## modRope -/

@[simp] theorem modRope_mem (s : State) (c k : BitVec 32) (f : Rope → Rope) : (s.modRope c k f).mem = s.mem := rfl
@[simp] theorem modRope_lines (s : State) (c k : BitVec 32) (f : Rope → Rope) : (s.modRope c k f).lines = s.lines := rfl
@[simp] theorem modRope_tiles (s : State) (c k : BitVec 32) (f : Rope → Rope) : (s.modRope c k f).tiles = s.tiles := rfl
@[simp] theorem modRope_ctxs (s : State) (c k : BitVec 32) (f : Rope → Rope) : (s.modRope c k f).ctxs = s.ctxs := rfl
@[simp] theorem modRope_insts (s : State) (c k : BitVec 32) (f : Rope → Rope) : (s.modRope c k f).insts = s.insts := rfl
@[simp] theorem modRope_fab (s : State) (c k : BitVec 32) (f : Rope → Rope) : (s.modRope c k f).fab = s.fab := rfl
@[simp] theorem modRope_dies (s : State) (c k : BitVec 32) (f : Rope → Rope) : (s.modRope c k f).dies = s.dies := rfl
@[simp] theorem modRope_pkg (s : State) (c k : BitVec 32) (f : Rope → Rope) : (s.modRope c k f).pkg = s.pkg := rfl
@[simp] theorem modRope_cycle (s : State) (c k : BitVec 32) (f : Rope → Rope) : (s.modRope c k f).cycle = s.cycle := rfl
@[simp] theorem modRope_focus (s : State) (c k : BitVec 32) (f : Rope → Rope) : (s.modRope c k f).focus = s.focus := rfl
@[simp] theorem modRope_free (s : State) (c k : BitVec 32) (f : Rope → Rope) : (s.modRope c k f).free = s.free := rfl
@[simp] theorem modRope_agenda (s : State) (c k : BitVec 32) (f : Rope → Rope) : (s.modRope c k f).agenda = s.agenda := rfl
@[simp] theorem modRope_out (s : State) (c k : BitVec 32) (f : Rope → Rope) : (s.modRope c k f).out = s.out := rfl

/-! ## sendPort -/

/-- A packet sent enters the port's retry buffer, leaves where the port carries it, and changes nothing else (18 R386; 19 R394). -/
theorem sendPort_eq (s : State) (p : PortSel) (c : Nat) (o : Out) : s.sendPort p c o = { s with
    fab := { s.fab with
      sent := s.fab.sent ++ [{ port := p, chan := c, seq := kvGet 0 s.fab.sentNext (4 * portKey p + c), packet := o }]
      sentNext := kvPut s.fab.sentNext (4 * portKey p + c) (kvGet 0 s.fab.sentNext (4 * portKey p + c) + 1) }
    out := if s.carries p then o :: s.out else s.out } := by
  unfold State.sendPort
  dsimp only
  split <;> rfl

@[simp] theorem sendPort_mem (s : State) (p : PortSel) (c : Nat) (o : Out) : (s.sendPort p c o).mem = s.mem := by rw [sendPort_eq]
@[simp] theorem sendPort_lines (s : State) (p : PortSel) (c : Nat) (o : Out) : (s.sendPort p c o).lines = s.lines := by rw [sendPort_eq]
@[simp] theorem sendPort_tiles (s : State) (p : PortSel) (c : Nat) (o : Out) : (s.sendPort p c o).tiles = s.tiles := by rw [sendPort_eq]
@[simp] theorem sendPort_ctxs (s : State) (p : PortSel) (c : Nat) (o : Out) : (s.sendPort p c o).ctxs = s.ctxs := by rw [sendPort_eq]
@[simp] theorem sendPort_insts (s : State) (p : PortSel) (c : Nat) (o : Out) : (s.sendPort p c o).insts = s.insts := by rw [sendPort_eq]
@[simp] theorem sendPort_ropes (s : State) (p : PortSel) (c : Nat) (o : Out) : (s.sendPort p c o).ropes = s.ropes := by rw [sendPort_eq]
@[simp] theorem sendPort_dies (s : State) (p : PortSel) (c : Nat) (o : Out) : (s.sendPort p c o).dies = s.dies := by rw [sendPort_eq]
@[simp] theorem sendPort_pkg (s : State) (p : PortSel) (c : Nat) (o : Out) : (s.sendPort p c o).pkg = s.pkg := by rw [sendPort_eq]
@[simp] theorem sendPort_cycle (s : State) (p : PortSel) (c : Nat) (o : Out) : (s.sendPort p c o).cycle = s.cycle := by rw [sendPort_eq]
@[simp] theorem sendPort_focus (s : State) (p : PortSel) (c : Nat) (o : Out) : (s.sendPort p c o).focus = s.focus := by rw [sendPort_eq]
@[simp] theorem sendPort_free (s : State) (p : PortSel) (c : Nat) (o : Out) : (s.sendPort p c o).free = s.free := by rw [sendPort_eq]
@[simp] theorem sendPort_agenda (s : State) (p : PortSel) (c : Nat) (o : Out) : (s.sendPort p c o).agenda = s.agenda := by rw [sendPort_eq]
@[simp] theorem sendPort_out (s : State) (p : PortSel) (c : Nat) (o : Out) : (s.sendPort p c o).out = if s.carries p then o :: s.out else s.out := by
  rw [sendPort_eq]

/-! ## resend -/

@[simp] theorem resend_mem (s : State) (p : PortSel) (f : Nat → Bool) : (s.resend p f).mem = s.mem := rfl
@[simp] theorem resend_lines (s : State) (p : PortSel) (f : Nat → Bool) : (s.resend p f).lines = s.lines := rfl
@[simp] theorem resend_tiles (s : State) (p : PortSel) (f : Nat → Bool) : (s.resend p f).tiles = s.tiles := rfl
@[simp] theorem resend_ctxs (s : State) (p : PortSel) (f : Nat → Bool) : (s.resend p f).ctxs = s.ctxs := rfl
@[simp] theorem resend_insts (s : State) (p : PortSel) (f : Nat → Bool) : (s.resend p f).insts = s.insts := rfl
@[simp] theorem resend_ropes (s : State) (p : PortSel) (f : Nat → Bool) : (s.resend p f).ropes = s.ropes := rfl
@[simp] theorem resend_fab (s : State) (p : PortSel) (f : Nat → Bool) : (s.resend p f).fab = s.fab := rfl
@[simp] theorem resend_dies (s : State) (p : PortSel) (f : Nat → Bool) : (s.resend p f).dies = s.dies := rfl
@[simp] theorem resend_pkg (s : State) (p : PortSel) (f : Nat → Bool) : (s.resend p f).pkg = s.pkg := rfl
@[simp] theorem resend_cycle (s : State) (p : PortSel) (f : Nat → Bool) : (s.resend p f).cycle = s.cycle := rfl
@[simp] theorem resend_focus (s : State) (p : PortSel) (f : Nat → Bool) : (s.resend p f).focus = s.focus := rfl
@[simp] theorem resend_free (s : State) (p : PortSel) (f : Nat → Bool) : (s.resend p f).free = s.free := rfl
@[simp] theorem resend_agenda (s : State) (p : PortSel) (f : Nat → Bool) : (s.resend p f).agenda = s.agenda := rfl

/-! ## sendBind -/

@[simp] theorem sendBind_mem (s : State) (b : MboxBind) : (s.sendBind b).mem = s.mem := rfl
@[simp] theorem sendBind_lines (s : State) (b : MboxBind) : (s.sendBind b).lines = s.lines := rfl
@[simp] theorem sendBind_tiles (s : State) (b : MboxBind) : (s.sendBind b).tiles = s.tiles := rfl
@[simp] theorem sendBind_ctxs (s : State) (b : MboxBind) : (s.sendBind b).ctxs = s.ctxs := rfl
@[simp] theorem sendBind_insts (s : State) (b : MboxBind) : (s.sendBind b).insts = s.insts := rfl
@[simp] theorem sendBind_ropes (s : State) (b : MboxBind) : (s.sendBind b).ropes = s.ropes := rfl
@[simp] theorem sendBind_dies (s : State) (b : MboxBind) : (s.sendBind b).dies = s.dies := rfl
@[simp] theorem sendBind_pkg (s : State) (b : MboxBind) : (s.sendBind b).pkg = s.pkg := rfl
@[simp] theorem sendBind_cycle (s : State) (b : MboxBind) : (s.sendBind b).cycle = s.cycle := rfl
@[simp] theorem sendBind_focus (s : State) (b : MboxBind) : (s.sendBind b).focus = s.focus := rfl
@[simp] theorem sendBind_free (s : State) (b : MboxBind) : (s.sendBind b).free = s.free := rfl
@[simp] theorem sendBind_agenda (s : State) (b : MboxBind) : (s.sendBind b).agenda = s.agenda := rfl
@[simp] theorem sendBind_out (s : State) (b : MboxBind) : (s.sendBind b).out = s.out := rfl

end Sys2Proof.Laws
end

