-- ==== Sys2Proof/Laws/Fire.lean ====
section
/-! SUPPORT. What the firing of a slot can do, said once: every meaning of an instruction of a pitch is `fire`. -/

namespace Sys2Proof.Laws

open Machine

/-- The focused slot belongs to the state it was found in. -/
theorem env_state {s : State} {e : Env} (h : s.env? = some e) : e.s = s ∧ e.t = s.focus := by
  unfold State.env? at h
  split at h
  · cases h
  · split at h
    · split at h
      · cases h; exact ⟨rfl, rfl⟩
      · cases h
    · cases h

/-- The task of the focused slot runs on the focused tile, and its pitch stands in the window. -/
theorem env_run {s : State} {e : Env} (h : s.env? = some e) :
    s.run? s.focus = some e.r ∧ e.r.pitch = some e.p ∧ e.r.phase = .fire ∧ e.k = e.p.cursor ∧ e.p.slots[e.k]? = some e.slot := by
  unfold State.env? at h
  split at h
  · cases h
  · rename_i r hr
    split at h
    · rename_i p hp hq
      split at h
      · rename_i sl hs
        cases h
        exact ⟨hr, hq, hp, rfl, hs⟩
      · cases h
    · cases h

/-- With a pitch in the window of the focused tile, a meaning answers a next state. -/
theorem fire_env {i : Instr} {act : Env → Reply} {s : State} {e : Env} (h : s.env? = some e) :
    fire i act s = .next (fireAt i act e) := by
  unfold fire; rw [h]

/-- An instruction that fires answers what its action asks for, and the lines it has read are reported on. -/
theorem fire_reply {i : Instr} {act : Env → Reply} {s : State} {e : Env} {r : Reply} (h : Fires i s e) (ha : act e = r)
    (hf : ∀ f, r ≠ .fault f) :
    fire i act s = .next (((e.store (e.p.answer e.k (sigOf i) r) (r != .hold)).touchPad r.reads).readLines e.ctx r.reads) := by
  obtain ⟨he, hst, hr, hm, hn⟩ := h
  subst ha
  rw [fire_env he]
  simp only [fireAt, hst, hr, hm, hn]
  cases hact : act e with
  | fault f => exact absurd hact (hf f)
  | hold => rfl
  | wait => rfl
  | waitFor w => rfl
  | done a => rfl

@[simp] theorem touchPad_nil (s : State) : s.touchPad [] = s := rfl
@[simp] theorem readLines_nil (s : State) (c : BitVec 32) : s.readLines c [] = s := rfl

/-- An instruction that fires and reads no memory. -/
theorem fire_done {i : Instr} {act : Env → Reply} {s : State} {e : Env} {a : Act} (h : Fires i s e) (ha : act e = .done a)
    (hr : a.reads = []) : fire i act s = .next (after i e a) := by
  rw [fire_reply h ha (fun _ => nofun)]
  have hb : (Reply.done a != .hold) = true := rfl
  simp [Reply.reads, hr, after, Pitch.answer, hb]

/-- An instruction that raises a fault as it fires; a walk that ended at a bad node entry is reported on. -/
theorem fire_fault {i : Instr} {act : Env → Reply} {s : State} {e : Env} {f : FaultInfo} (h : Fires i s e) (ha : act e = .fault f)
    (hf : f.code ≠ fcWait) : fire i act s = .next ((raises e f).verifyWalk (some (tileDie e.t)) e.ctx f) := by
  obtain ⟨he, hst, hr, hm, hn⟩ := h
  rw [fire_env he]
  have hb : (Reply.fault f != .hold) = true := rfl
  simp [fireAt, hst, hr, hm, hn, ha, Reply.reads, raises, Pitch.answer, hb, hf]

end Sys2Proof.Laws
end

