-- ==== Sys2Proof/Laws/Memory.lean ====
section
/-! SUPPORT. Laws of keyed lists and of memory: read after write, what a write leaves alone, and that every operation keeps the
canonical form (keys strictly rising, no default listed). -/

namespace Sys2Proof.Laws

open Machine

/-! ## Keyed lists -/

theorem kvGet_kvPut {α : Type} (d : α) (l : List (Nat × α)) (k j : Nat) (v : α) :
    kvGet d (kvPut l k v) j = if j = k then v else kvGet d l j := by
  induction l with
  | nil => simp [kvPut, kvGet, eq_comm]
  | cons x rest ih =>
    obtain ⟨i, w⟩ := x
    simp only [kvPut]
    split
    · simp only [kvGet]; grind
    · split
      · subst_vars; simp only [kvGet]; grind
      · simp only [kvGet, ih]; grind

@[simp] theorem kvGet_kvPut_same {α : Type} (d : α) (l : List (Nat × α)) (k : Nat) (v : α) : kvGet d (kvPut l k v) k = v := by
  simp [kvGet_kvPut]

theorem kvGet_kvPut_ne {α : Type} (d : α) (l : List (Nat × α)) {k j : Nat} (v : α) (h : j ≠ k) :
    kvGet d (kvPut l k v) j = kvGet d l j := by
  simp [kvGet_kvPut, h]

/-- The canonical form in library terms. -/
theorem kvWf_iff {α : Type} [DecidableEq α] {d : α} {l : List (Nat × α)} :
    kvWf d l = true ↔ l.Pairwise (fun x y => x.1 < y.1) ∧ ∀ x ∈ l, x.2 ≠ d := by
  induction l with
  | nil => simp [kvWf]
  | cons x rest ih =>
    obtain ⟨i, v⟩ := x
    cases rest with
    | nil => simp [kvWf]
    | cons y tail =>
      obtain ⟨j, w⟩ := y
      simp only [kvWf, Bool.and_eq_true, ih, List.pairwise_cons]
      simp only [decide_eq_true_eq, bne_iff_ne, List.mem_cons, forall_eq_or_imp]
      constructor
      · rintro ⟨⟨hij, hv⟩, ⟨hj, ht⟩, hw, hd⟩
        exact ⟨⟨⟨hij, fun z hz => lt_trans hij (hj z hz)⟩, hj, ht⟩, hv, hw, hd⟩
      · rintro ⟨⟨⟨hij, -⟩, hj, ht⟩, hv, hw, hd⟩
        exact ⟨⟨hij, hv⟩, ⟨hj, ht⟩, hw, hd⟩

theorem mem_kvPut {α : Type} {l : List (Nat × α)} {k : Nat} {v : α} {x : Nat × α} (h : x ∈ kvPut l k v) :
    x = (k, v) ∨ x ∈ l := by
  induction l with
  | nil => simpa [kvPut] using h
  | cons y rest ih => obtain ⟨i, w⟩ := y; simp only [kvPut] at h; grind

theorem kvPut_sorted {α : Type} {l : List (Nat × α)} (k : Nat) (v : α) (h : l.Pairwise fun x y => x.1 < y.1) :
    (kvPut l k v).Pairwise fun x y => x.1 < y.1 := by
  induction l with
  | nil => simp [kvPut]
  | cons y rest ih =>
    obtain ⟨i, w⟩ := y
    rw [List.pairwise_cons] at h
    simp only [kvPut]
    split
    · rename_i hk
      refine List.pairwise_cons.2 ⟨fun x hx => ?_, List.pairwise_cons.2 h⟩
      rcases List.mem_cons.1 hx with rfl | hx
      · exact hk
      · exact lt_trans hk (h.1 x hx)
    · split
      · subst_vars; exact List.pairwise_cons.2 ⟨h.1, h.2⟩
      · refine List.pairwise_cons.2 ⟨fun x hx => ?_, ih h.2⟩
        rcases mem_kvPut hx with rfl | hx
        · simp only; omega
        · exact h.1 x hx

theorem kvErase_sublist {α : Type} (l : List (Nat × α)) (k : Nat) : (kvErase l k).Sublist l := by
  induction l with
  | nil => simp [kvErase]
  | cons y rest ih =>
    obtain ⟨i, w⟩ := y
    simp only [kvErase]
    split
    · exact List.sublist_cons_self _ _
    · exact ih.cons_cons _

theorem kvGet_of_sorted {α : Type} {d : α} {l : List (Nat × α)} {k : Nat} (h : ∀ x ∈ l, k < x.1) : kvGet d l k = d := by
  induction l with
  | nil => rfl
  | cons y rest ih =>
    obtain ⟨i, w⟩ := y
    have := h _ List.mem_cons_self
    simp only [kvGet]
    rw [if_neg (by simp only at this; omega), ih fun x hx => h x (List.mem_cons_of_mem _ hx)]

theorem kvGet_kvErase {α : Type} {d : α} {l : List (Nat × α)} (k j : Nat) (h : l.Pairwise fun x y => x.1 < y.1) :
    kvGet d (kvErase l k) j = if j = k then d else kvGet d l j := by
  induction l with
  | nil => simp [kvErase, kvGet]
  | cons y rest ih =>
    obtain ⟨i, w⟩ := y
    rw [List.pairwise_cons] at h
    simp only [kvErase]
    split
    · subst_vars
      by_cases hj : j = i
      · subst hj; rw [if_pos rfl]; exact kvGet_of_sorted fun x hx => h.1 x hx
      · simp [kvGet, hj, Ne.symm hj]
    · simp only [kvGet, ih h.2]; grind

theorem kvWf_kvSet {α : Type} [DecidableEq α] {d : α} {l : List (Nat × α)} (k : Nat) (v : α) (h : kvWf d l = true) :
    kvWf d (kvSet d l k v) = true := by
  obtain ⟨h1, h2⟩ := kvWf_iff.1 h
  unfold kvSet
  split
  · exact kvWf_iff.2 ⟨h1.sublist (kvErase_sublist l k), fun x hx => h2 x ((kvErase_sublist l k).subset hx)⟩
  · rename_i hv
    refine kvWf_iff.2 ⟨kvPut_sorted k v h1, fun x hx => ?_⟩
    rcases mem_kvPut hx with rfl | hx
    · exact hv
    · exact h2 x hx

/-- What is set is read back, and nothing else changes. -/
theorem kvGet_kvSet {α : Type} [DecidableEq α] {d : α} {l : List (Nat × α)} (k j : Nat) (v : α) (h : kvWf d l = true) :
    kvGet d (kvSet d l k v) j = if j = k then v else kvGet d l j := by
  unfold kvSet
  split
  · subst_vars; exact kvGet_kvErase k j (kvWf_iff.1 h).1
  · exact kvGet_kvPut d l k j v

theorem kvWf_filter {α : Type} [DecidableEq α] {d : α} {l : List (Nat × α)} (p : Nat × α → Bool) (h : kvWf d l = true) :
    kvWf d (l.filter p) = true := by
  obtain ⟨h1, h2⟩ := kvWf_iff.1 h
  exact kvWf_iff.2 ⟨h1.sublist List.filter_sublist, fun x hx => h2 x (List.filter_sublist.subset hx)⟩

/-- Two canonical lists that read alike everywhere are one list: equal memories are equal data. -/
theorem kvGet_ext {α : Type} [DecidableEq α] {d : α} {l m : List (Nat × α)} (hl : kvWf d l = true) (hm : kvWf d m = true)
    (h : ∀ k, kvGet d l k = kvGet d m k) : l = m := by
  obtain ⟨l1, l2⟩ := kvWf_iff.1 hl
  obtain ⟨m1, m2⟩ := kvWf_iff.1 hm
  clear hl hm
  induction l generalizing m with
  | nil =>
    cases m with
    | nil => rfl
    | cons y rest =>
      obtain ⟨i, w⟩ := y
      have := h i
      simp [kvGet] at this
      exact absurd this.symm (m2 _ List.mem_cons_self)
  | cons x tail ih =>
    obtain ⟨i, v⟩ := x
    cases m with
    | nil =>
      have := h i
      simp [kvGet] at this
      exact absurd this (l2 _ List.mem_cons_self)
    | cons y rest =>
      obtain ⟨j, w⟩ := y
      rw [List.pairwise_cons] at l1 m1
      have hi := h i
      have hj := h j
      simp only [kvGet] at hi hj
      have hij : i = j := by
        rcases lt_trichotomy i j with hlt | heq | hlt
        · simp only [if_true, if_neg (Nat.ne_of_gt hlt), kvGet_of_sorted fun x hx => lt_trans hlt (m1.1 x hx)] at hi
          exact absurd hi (l2 _ List.mem_cons_self)
        · exact heq
        · simp only [if_true, if_neg (Nat.ne_of_gt hlt), kvGet_of_sorted fun x hx => lt_trans hlt (l1.1 x hx)] at hj
          exact absurd hj.symm (m2 _ List.mem_cons_self)
      subst hij
      simp only [if_true] at hi
      subst hi
      congr 1
      refine ih (fun k => ?_) l1.2 (fun x hx => l2 x (List.mem_cons_of_mem _ hx)) m1.2 fun x hx => m2 x (List.mem_cons_of_mem _ hx)
      by_cases hk : k = i
      · subst hk; rw [kvGet_of_sorted l1.1, kvGet_of_sorted m1.1]
      · have := h k; simpa [kvGet, Ne.symm hk] using this

/-! ## Memory bytes -/

theorem write_wf {m : Memory} (a : Nat) (b : Byte) (h : m.wf = true) : (m.write a b).wf = true := kvWf_kvSet a b h

/-- A byte written is read back; every other byte is as before. -/
theorem read_write {m : Memory} (a c : Nat) (b : Byte) (h : m.wf = true) :
    (m.write a b).read c = if c = a then b else m.read c := kvGet_kvSet a c b h

theorem writes_wf {m : Memory} (a : Nat) (bs : List Byte) (h : m.wf = true) : (m.writes a bs).wf = true := by
  induction bs generalizing m a with
  | nil => exact h
  | cons b rest ih => exact ih (a + 1) (write_wf a b h)

/-- Bytes written are read back; every other byte is as before. -/
theorem read_writes {m : Memory} (a c : Nat) (bs : List Byte) (h : m.wf = true) :
    (m.writes a bs).read c = if a ≤ c ∧ c < a + bs.length then bs[c - a]?.getD 0 else m.read c := by
  induction bs generalizing m a with
  | nil => simp only [Memory.writes, List.length_nil]; rw [if_neg (by omega)]
  | cons b rest ih =>
    simp only [Memory.writes, ih (a + 1) (write_wf a b h), read_write a c b h, List.length_cons]
    by_cases hc : c = a
    · subst hc; simp
    · by_cases hr : a + 1 ≤ c ∧ c < a + 1 + rest.length
      · rw [if_pos hr, if_pos (by omega)]
        have : c - a = (c - (a + 1)) + 1 := by omega
        rw [this, List.getElem?_cons_succ]
      · rw [if_neg hr, if_neg hc, if_neg (by omega)]

@[simp] theorem length_bytes (m : Memory) (a n : Nat) : (m.bytes a n).length = n := by
  induction n generalizing a with
  | zero => rfl
  | succ n ih => simp [Memory.bytes, ih]

/-- The bytes of a range, one by one. -/
theorem getElem?_bytes (m : Memory) (a n k : Nat) (h : k < n) : (m.bytes a n)[k]? = some (m.read (a + k)) := by
  induction n generalizing a k with
  | zero => omega
  | succ n ih =>
    cases k with
    | zero => simp [Memory.bytes]
    | succ k => simp only [Memory.bytes, List.getElem?_cons_succ]; rw [ih (a + 1) k (by omega)]; congr 2; omega

theorem filter_wf {m : Memory} (p : Host.Cell → Bool) (h : m.wf = true) :
    Memory.wf { cells := m.cells.filter p } = true := kvWf_filter p h

/-! ## Lines -/

theorem setLine_lines_wf {s : State} (k : Nat) (m : LineMeta) (h : kvWf {} s.lines = true) :
    kvWf {} (s.setLine k m).lines = true := kvWf_kvSet k m h

theorem line_setLine {s : State} (k j : Nat) (m : LineMeta) (h : kvWf {} s.lines = true) :
    (s.setLine k m).line j = if j = k then m else s.line j := kvGet_kvSet k j m h

/-! ## Bytes of numbers -/

@[simp] theorem length_toBytes (v n : Nat) : (toBytes v n).length = n := by
  induction n generalizing v with
  | zero => rfl
  | succ n ih => simp [toBytes, ih]

theorem leNat_toBytes (v n : Nat) : leNat (toBytes v n) = v % 256 ^ n := by
  induction n generalizing v with
  | zero => simp [toBytes, leNat, Nat.mod_one]
  | succ n ih =>
    have h8 : (BitVec.ofNat 8 v).toNat = v % 256 := rfl
    rw [toBytes, leNat, ih, h8, Nat.pow_succ', Nat.mod_mul]

/-- A value stored is the value loaded. -/
theorem value_writes {m : Memory} (a v n : Nat) (h : m.wf = true) : (m.writes a (toBytes v n)).value a n = v % 256 ^ n := by
  have : (m.writes a (toBytes v n)).bytes a n = toBytes v n := by
    apply List.ext_getElem?
    intro k
    by_cases hk : k < n
    · rw [getElem?_bytes _ _ _ _ hk, read_writes a (a + k) _ h, if_pos (by simp; omega)]
      have hk' : k < (toBytes v n).length := by simpa using hk
      simp [List.getElem?_eq_getElem hk']
    · rw [List.getElem?_eq_none (by simp; omega), List.getElem?_eq_none (by simp; omega)]
  rw [Memory.value, this, leNat_toBytes]

end Sys2Proof.Laws
end

