-- ==== Sys2Proof/Laws/State.lean ====
section
/-! SUPPORT. The named updates of the state: each leaves every other field as it was, one lemma per field. -/

namespace Sys2Proof.Laws

open Machine

/-! ## setLine -/

@[simp] theorem setLine_mem (s : State) (key : Nat) (m : LineMeta) : (s.setLine key m).mem = s.mem := rfl
@[simp] theorem setLine_tiles (s : State) (key : Nat) (m : LineMeta) : (s.setLine key m).tiles = s.tiles := rfl
@[simp] theorem setLine_ctxs (s : State) (key : Nat) (m : LineMeta) : (s.setLine key m).ctxs = s.ctxs := rfl
@[simp] theorem setLine_insts (s : State) (key : Nat) (m : LineMeta) : (s.setLine key m).insts = s.insts := rfl
@[simp] theorem setLine_ropes (s : State) (key : Nat) (m : LineMeta) : (s.setLine key m).ropes = s.ropes := rfl
@[simp] theorem setLine_fab (s : State) (key : Nat) (m : LineMeta) : (s.setLine key m).fab = s.fab := rfl
@[simp] theorem setLine_dies (s : State) (key : Nat) (m : LineMeta) : (s.setLine key m).dies = s.dies := rfl
@[simp] theorem setLine_pkg (s : State) (key : Nat) (m : LineMeta) : (s.setLine key m).pkg = s.pkg := rfl
@[simp] theorem setLine_cycle (s : State) (key : Nat) (m : LineMeta) : (s.setLine key m).cycle = s.cycle := rfl
@[simp] theorem setLine_focus (s : State) (key : Nat) (m : LineMeta) : (s.setLine key m).focus = s.focus := rfl
@[simp] theorem setLine_free (s : State) (key : Nat) (m : LineMeta) : (s.setLine key m).free = s.free := rfl
@[simp] theorem setLine_agenda (s : State) (key : Nat) (m : LineMeta) : (s.setLine key m).agenda = s.agenda := rfl
@[simp] theorem setLine_out (s : State) (key : Nat) (m : LineMeta) : (s.setLine key m).out = s.out := rfl

/-! ## modLine -/

@[simp] theorem modLine_mem (s : State) (key : Nat) (f : LineMeta → LineMeta) : (s.modLine key f).mem = s.mem := rfl
@[simp] theorem modLine_tiles (s : State) (key : Nat) (f : LineMeta → LineMeta) : (s.modLine key f).tiles = s.tiles := rfl
@[simp] theorem modLine_ctxs (s : State) (key : Nat) (f : LineMeta → LineMeta) : (s.modLine key f).ctxs = s.ctxs := rfl
@[simp] theorem modLine_insts (s : State) (key : Nat) (f : LineMeta → LineMeta) : (s.modLine key f).insts = s.insts := rfl
@[simp] theorem modLine_ropes (s : State) (key : Nat) (f : LineMeta → LineMeta) : (s.modLine key f).ropes = s.ropes := rfl
@[simp] theorem modLine_fab (s : State) (key : Nat) (f : LineMeta → LineMeta) : (s.modLine key f).fab = s.fab := rfl
@[simp] theorem modLine_dies (s : State) (key : Nat) (f : LineMeta → LineMeta) : (s.modLine key f).dies = s.dies := rfl
@[simp] theorem modLine_pkg (s : State) (key : Nat) (f : LineMeta → LineMeta) : (s.modLine key f).pkg = s.pkg := rfl
@[simp] theorem modLine_cycle (s : State) (key : Nat) (f : LineMeta → LineMeta) : (s.modLine key f).cycle = s.cycle := rfl
@[simp] theorem modLine_focus (s : State) (key : Nat) (f : LineMeta → LineMeta) : (s.modLine key f).focus = s.focus := rfl
@[simp] theorem modLine_free (s : State) (key : Nat) (f : LineMeta → LineMeta) : (s.modLine key f).free = s.free := rfl
@[simp] theorem modLine_agenda (s : State) (key : Nat) (f : LineMeta → LineMeta) : (s.modLine key f).agenda = s.agenda := rfl
@[simp] theorem modLine_out (s : State) (key : Nat) (f : LineMeta → LineMeta) : (s.modLine key f).out = s.out := rfl

/-! ## setTile -/

@[simp] theorem setTile_mem (s : State) (t : Nat) (v : Tile) : (s.setTile t v).mem = s.mem := rfl
@[simp] theorem setTile_lines (s : State) (t : Nat) (v : Tile) : (s.setTile t v).lines = s.lines := rfl
@[simp] theorem setTile_ctxs (s : State) (t : Nat) (v : Tile) : (s.setTile t v).ctxs = s.ctxs := rfl
@[simp] theorem setTile_insts (s : State) (t : Nat) (v : Tile) : (s.setTile t v).insts = s.insts := rfl
@[simp] theorem setTile_ropes (s : State) (t : Nat) (v : Tile) : (s.setTile t v).ropes = s.ropes := rfl
@[simp] theorem setTile_fab (s : State) (t : Nat) (v : Tile) : (s.setTile t v).fab = s.fab := rfl
@[simp] theorem setTile_dies (s : State) (t : Nat) (v : Tile) : (s.setTile t v).dies = s.dies := rfl
@[simp] theorem setTile_pkg (s : State) (t : Nat) (v : Tile) : (s.setTile t v).pkg = s.pkg := rfl
@[simp] theorem setTile_cycle (s : State) (t : Nat) (v : Tile) : (s.setTile t v).cycle = s.cycle := rfl
@[simp] theorem setTile_focus (s : State) (t : Nat) (v : Tile) : (s.setTile t v).focus = s.focus := rfl
@[simp] theorem setTile_free (s : State) (t : Nat) (v : Tile) : (s.setTile t v).free = s.free := rfl
@[simp] theorem setTile_agenda (s : State) (t : Nat) (v : Tile) : (s.setTile t v).agenda = s.agenda := rfl
@[simp] theorem setTile_out (s : State) (t : Nat) (v : Tile) : (s.setTile t v).out = s.out := rfl

/-! ## modTile -/

@[simp] theorem modTile_mem (s : State) (t : Nat) (f : Tile → Tile) : (s.modTile t f).mem = s.mem := rfl
@[simp] theorem modTile_lines (s : State) (t : Nat) (f : Tile → Tile) : (s.modTile t f).lines = s.lines := rfl
@[simp] theorem modTile_ctxs (s : State) (t : Nat) (f : Tile → Tile) : (s.modTile t f).ctxs = s.ctxs := rfl
@[simp] theorem modTile_insts (s : State) (t : Nat) (f : Tile → Tile) : (s.modTile t f).insts = s.insts := rfl
@[simp] theorem modTile_ropes (s : State) (t : Nat) (f : Tile → Tile) : (s.modTile t f).ropes = s.ropes := rfl
@[simp] theorem modTile_fab (s : State) (t : Nat) (f : Tile → Tile) : (s.modTile t f).fab = s.fab := rfl
@[simp] theorem modTile_dies (s : State) (t : Nat) (f : Tile → Tile) : (s.modTile t f).dies = s.dies := rfl
@[simp] theorem modTile_pkg (s : State) (t : Nat) (f : Tile → Tile) : (s.modTile t f).pkg = s.pkg := rfl
@[simp] theorem modTile_cycle (s : State) (t : Nat) (f : Tile → Tile) : (s.modTile t f).cycle = s.cycle := rfl
@[simp] theorem modTile_focus (s : State) (t : Nat) (f : Tile → Tile) : (s.modTile t f).focus = s.focus := rfl
@[simp] theorem modTile_free (s : State) (t : Nat) (f : Tile → Tile) : (s.modTile t f).free = s.free := rfl
@[simp] theorem modTile_agenda (s : State) (t : Nat) (f : Tile → Tile) : (s.modTile t f).agenda = s.agenda := rfl
@[simp] theorem modTile_out (s : State) (t : Nat) (f : Tile → Tile) : (s.modTile t f).out = s.out := rfl

/-! ## setRun -/

@[simp] theorem setRun_mem (s : State) (t : Nat) (r : Run) : (s.setRun t r).mem = s.mem := rfl
@[simp] theorem setRun_lines (s : State) (t : Nat) (r : Run) : (s.setRun t r).lines = s.lines := rfl
@[simp] theorem setRun_ctxs (s : State) (t : Nat) (r : Run) : (s.setRun t r).ctxs = s.ctxs := rfl
@[simp] theorem setRun_insts (s : State) (t : Nat) (r : Run) : (s.setRun t r).insts = s.insts := rfl
@[simp] theorem setRun_ropes (s : State) (t : Nat) (r : Run) : (s.setRun t r).ropes = s.ropes := rfl
@[simp] theorem setRun_fab (s : State) (t : Nat) (r : Run) : (s.setRun t r).fab = s.fab := rfl
@[simp] theorem setRun_dies (s : State) (t : Nat) (r : Run) : (s.setRun t r).dies = s.dies := rfl
@[simp] theorem setRun_pkg (s : State) (t : Nat) (r : Run) : (s.setRun t r).pkg = s.pkg := rfl
@[simp] theorem setRun_cycle (s : State) (t : Nat) (r : Run) : (s.setRun t r).cycle = s.cycle := rfl
@[simp] theorem setRun_focus (s : State) (t : Nat) (r : Run) : (s.setRun t r).focus = s.focus := rfl
@[simp] theorem setRun_free (s : State) (t : Nat) (r : Run) : (s.setRun t r).free = s.free := rfl
@[simp] theorem setRun_agenda (s : State) (t : Nat) (r : Run) : (s.setRun t r).agenda = s.agenda := rfl
@[simp] theorem setRun_out (s : State) (t : Nat) (r : Run) : (s.setRun t r).out = s.out := rfl

/-! ## modRun -/

@[simp] theorem modRun_mem (s : State) (t : Nat) (f : Run → Run) : (s.modRun t f).mem = s.mem := by
  unfold State.modRun; split <;> rfl
@[simp] theorem modRun_lines (s : State) (t : Nat) (f : Run → Run) : (s.modRun t f).lines = s.lines := by
  unfold State.modRun; split <;> rfl
@[simp] theorem modRun_ctxs (s : State) (t : Nat) (f : Run → Run) : (s.modRun t f).ctxs = s.ctxs := by
  unfold State.modRun; split <;> rfl
@[simp] theorem modRun_insts (s : State) (t : Nat) (f : Run → Run) : (s.modRun t f).insts = s.insts := by
  unfold State.modRun; split <;> rfl
@[simp] theorem modRun_ropes (s : State) (t : Nat) (f : Run → Run) : (s.modRun t f).ropes = s.ropes := by
  unfold State.modRun; split <;> rfl
@[simp] theorem modRun_fab (s : State) (t : Nat) (f : Run → Run) : (s.modRun t f).fab = s.fab := by
  unfold State.modRun; split <;> rfl
@[simp] theorem modRun_dies (s : State) (t : Nat) (f : Run → Run) : (s.modRun t f).dies = s.dies := by
  unfold State.modRun; split <;> rfl
@[simp] theorem modRun_pkg (s : State) (t : Nat) (f : Run → Run) : (s.modRun t f).pkg = s.pkg := by
  unfold State.modRun; split <;> rfl
@[simp] theorem modRun_cycle (s : State) (t : Nat) (f : Run → Run) : (s.modRun t f).cycle = s.cycle := by
  unfold State.modRun; split <;> rfl
@[simp] theorem modRun_focus (s : State) (t : Nat) (f : Run → Run) : (s.modRun t f).focus = s.focus := by
  unfold State.modRun; split <;> rfl
@[simp] theorem modRun_free (s : State) (t : Nat) (f : Run → Run) : (s.modRun t f).free = s.free := by
  unfold State.modRun; split <;> rfl
@[simp] theorem modRun_agenda (s : State) (t : Nat) (f : Run → Run) : (s.modRun t f).agenda = s.agenda := by
  unfold State.modRun; split <;> rfl
@[simp] theorem modRun_out (s : State) (t : Nat) (f : Run → Run) : (s.modRun t f).out = s.out := by
  unfold State.modRun; split <;> rfl

/-! ## setPitch -/

@[simp] theorem setPitch_mem (s : State) (t : Nat) (p : Pitch) : (s.setPitch t p).mem = s.mem := modRun_mem s t _
@[simp] theorem setPitch_lines (s : State) (t : Nat) (p : Pitch) : (s.setPitch t p).lines = s.lines := modRun_lines s t _
@[simp] theorem setPitch_ctxs (s : State) (t : Nat) (p : Pitch) : (s.setPitch t p).ctxs = s.ctxs := modRun_ctxs s t _
@[simp] theorem setPitch_insts (s : State) (t : Nat) (p : Pitch) : (s.setPitch t p).insts = s.insts := modRun_insts s t _
@[simp] theorem setPitch_ropes (s : State) (t : Nat) (p : Pitch) : (s.setPitch t p).ropes = s.ropes := modRun_ropes s t _
@[simp] theorem setPitch_fab (s : State) (t : Nat) (p : Pitch) : (s.setPitch t p).fab = s.fab := modRun_fab s t _
@[simp] theorem setPitch_dies (s : State) (t : Nat) (p : Pitch) : (s.setPitch t p).dies = s.dies := modRun_dies s t _
@[simp] theorem setPitch_pkg (s : State) (t : Nat) (p : Pitch) : (s.setPitch t p).pkg = s.pkg := modRun_pkg s t _
@[simp] theorem setPitch_cycle (s : State) (t : Nat) (p : Pitch) : (s.setPitch t p).cycle = s.cycle := modRun_cycle s t _
@[simp] theorem setPitch_focus (s : State) (t : Nat) (p : Pitch) : (s.setPitch t p).focus = s.focus := modRun_focus s t _
@[simp] theorem setPitch_free (s : State) (t : Nat) (p : Pitch) : (s.setPitch t p).free = s.free := modRun_free s t _
@[simp] theorem setPitch_agenda (s : State) (t : Nat) (p : Pitch) : (s.setPitch t p).agenda = s.agenda := modRun_agenda s t _
@[simp] theorem setPitch_out (s : State) (t : Nat) (p : Pitch) : (s.setPitch t p).out = s.out := modRun_out s t _

/-! ## stallTask -/

@[simp] theorem stallTask_mem (s : State) (r : Run) (n : Nat) (x : Resume) (b : Bool) : (s.stallTask r n x b).mem = s.mem := rfl
@[simp] theorem stallTask_lines (s : State) (r : Run) (n : Nat) (x : Resume) (b : Bool) : (s.stallTask r n x b).lines = s.lines := rfl
@[simp] theorem stallTask_ctxs (s : State) (r : Run) (n : Nat) (x : Resume) (b : Bool) : (s.stallTask r n x b).ctxs = s.ctxs := rfl
@[simp] theorem stallTask_insts (s : State) (r : Run) (n : Nat) (x : Resume) (b : Bool) : (s.stallTask r n x b).insts = s.insts := rfl
@[simp] theorem stallTask_ropes (s : State) (r : Run) (n : Nat) (x : Resume) (b : Bool) : (s.stallTask r n x b).ropes = s.ropes := rfl
@[simp] theorem stallTask_fab (s : State) (r : Run) (n : Nat) (x : Resume) (b : Bool) : (s.stallTask r n x b).fab = s.fab := rfl
@[simp] theorem stallTask_dies (s : State) (r : Run) (n : Nat) (x : Resume) (b : Bool) : (s.stallTask r n x b).dies = s.dies := rfl
@[simp] theorem stallTask_pkg (s : State) (r : Run) (n : Nat) (x : Resume) (b : Bool) : (s.stallTask r n x b).pkg = s.pkg := rfl
@[simp] theorem stallTask_cycle (s : State) (r : Run) (n : Nat) (x : Resume) (b : Bool) : (s.stallTask r n x b).cycle = s.cycle := rfl
@[simp] theorem stallTask_focus (s : State) (r : Run) (n : Nat) (x : Resume) (b : Bool) : (s.stallTask r n x b).focus = s.focus := rfl
@[simp] theorem stallTask_free (s : State) (r : Run) (n : Nat) (x : Resume) (b : Bool) : (s.stallTask r n x b).free = s.free := rfl
@[simp] theorem stallTask_agenda (s : State) (r : Run) (n : Nat) (x : Resume) (b : Bool) : (s.stallTask r n x b).agenda = s.agenda := rfl
@[simp] theorem stallTask_out (s : State) (r : Run) (n : Nat) (x : Resume) (b : Bool) : (s.stallTask r n x b).out = s.out := rfl

/-! ## modCluster -/

@[simp] theorem modCluster_mem (s : State) (c : Nat) (f : Cluster → Cluster) : (s.modCluster c f).mem = s.mem := rfl
@[simp] theorem modCluster_lines (s : State) (c : Nat) (f : Cluster → Cluster) : (s.modCluster c f).lines = s.lines := rfl
@[simp] theorem modCluster_tiles (s : State) (c : Nat) (f : Cluster → Cluster) : (s.modCluster c f).tiles = s.tiles := rfl
@[simp] theorem modCluster_ctxs (s : State) (c : Nat) (f : Cluster → Cluster) : (s.modCluster c f).ctxs = s.ctxs := rfl
@[simp] theorem modCluster_insts (s : State) (c : Nat) (f : Cluster → Cluster) : (s.modCluster c f).insts = s.insts := rfl
@[simp] theorem modCluster_ropes (s : State) (c : Nat) (f : Cluster → Cluster) : (s.modCluster c f).ropes = s.ropes := rfl
@[simp] theorem modCluster_fab (s : State) (c : Nat) (f : Cluster → Cluster) : (s.modCluster c f).fab = s.fab := rfl
@[simp] theorem modCluster_dies (s : State) (c : Nat) (f : Cluster → Cluster) : (s.modCluster c f).dies = s.dies := rfl
@[simp] theorem modCluster_cycle (s : State) (c : Nat) (f : Cluster → Cluster) : (s.modCluster c f).cycle = s.cycle := rfl
@[simp] theorem modCluster_focus (s : State) (c : Nat) (f : Cluster → Cluster) : (s.modCluster c f).focus = s.focus := rfl
@[simp] theorem modCluster_free (s : State) (c : Nat) (f : Cluster → Cluster) : (s.modCluster c f).free = s.free := rfl
@[simp] theorem modCluster_agenda (s : State) (c : Nat) (f : Cluster → Cluster) : (s.modCluster c f).agenda = s.agenda := rfl
@[simp] theorem modCluster_out (s : State) (c : Nat) (f : Cluster → Cluster) : (s.modCluster c f).out = s.out := rfl

/-! ## modPort -/

@[simp] theorem modPort_mem (s : State) (p : PortSel) (f : Port → Port) : (s.modPort p f).mem = s.mem := rfl
@[simp] theorem modPort_lines (s : State) (p : PortSel) (f : Port → Port) : (s.modPort p f).lines = s.lines := rfl
@[simp] theorem modPort_tiles (s : State) (p : PortSel) (f : Port → Port) : (s.modPort p f).tiles = s.tiles := rfl
@[simp] theorem modPort_ctxs (s : State) (p : PortSel) (f : Port → Port) : (s.modPort p f).ctxs = s.ctxs := rfl
@[simp] theorem modPort_insts (s : State) (p : PortSel) (f : Port → Port) : (s.modPort p f).insts = s.insts := rfl
@[simp] theorem modPort_ropes (s : State) (p : PortSel) (f : Port → Port) : (s.modPort p f).ropes = s.ropes := rfl
@[simp] theorem modPort_fab (s : State) (p : PortSel) (f : Port → Port) : (s.modPort p f).fab = s.fab := rfl
@[simp] theorem modPort_dies (s : State) (p : PortSel) (f : Port → Port) : (s.modPort p f).dies = s.dies := rfl
@[simp] theorem modPort_cycle (s : State) (p : PortSel) (f : Port → Port) : (s.modPort p f).cycle = s.cycle := rfl
@[simp] theorem modPort_focus (s : State) (p : PortSel) (f : Port → Port) : (s.modPort p f).focus = s.focus := rfl
@[simp] theorem modPort_free (s : State) (p : PortSel) (f : Port → Port) : (s.modPort p f).free = s.free := rfl
@[simp] theorem modPort_agenda (s : State) (p : PortSel) (f : Port → Port) : (s.modPort p f).agenda = s.agenda := rfl
@[simp] theorem modPort_out (s : State) (p : PortSel) (f : Port → Port) : (s.modPort p f).out = s.out := rfl

/-! ## setCtx -/

@[simp] theorem setCtx_mem (s : State) (c : Ctx) : (s.setCtx c).mem = s.mem := rfl
@[simp] theorem setCtx_lines (s : State) (c : Ctx) : (s.setCtx c).lines = s.lines := rfl
@[simp] theorem setCtx_tiles (s : State) (c : Ctx) : (s.setCtx c).tiles = s.tiles := rfl
@[simp] theorem setCtx_insts (s : State) (c : Ctx) : (s.setCtx c).insts = s.insts := rfl
@[simp] theorem setCtx_ropes (s : State) (c : Ctx) : (s.setCtx c).ropes = s.ropes := rfl
@[simp] theorem setCtx_fab (s : State) (c : Ctx) : (s.setCtx c).fab = s.fab := rfl
@[simp] theorem setCtx_dies (s : State) (c : Ctx) : (s.setCtx c).dies = s.dies := rfl
@[simp] theorem setCtx_pkg (s : State) (c : Ctx) : (s.setCtx c).pkg = s.pkg := rfl
@[simp] theorem setCtx_cycle (s : State) (c : Ctx) : (s.setCtx c).cycle = s.cycle := rfl
@[simp] theorem setCtx_focus (s : State) (c : Ctx) : (s.setCtx c).focus = s.focus := rfl
@[simp] theorem setCtx_free (s : State) (c : Ctx) : (s.setCtx c).free = s.free := rfl
@[simp] theorem setCtx_agenda (s : State) (c : Ctx) : (s.setCtx c).agenda = s.agenda := rfl
@[simp] theorem setCtx_out (s : State) (c : Ctx) : (s.setCtx c).out = s.out := rfl

/-! ## modCtx -/

@[simp] theorem modCtx_mem (s : State) (id : BitVec 32) (f : Ctx → Ctx) : (s.modCtx id f).mem = s.mem := rfl
@[simp] theorem modCtx_lines (s : State) (id : BitVec 32) (f : Ctx → Ctx) : (s.modCtx id f).lines = s.lines := rfl
@[simp] theorem modCtx_tiles (s : State) (id : BitVec 32) (f : Ctx → Ctx) : (s.modCtx id f).tiles = s.tiles := rfl
@[simp] theorem modCtx_insts (s : State) (id : BitVec 32) (f : Ctx → Ctx) : (s.modCtx id f).insts = s.insts := rfl
@[simp] theorem modCtx_ropes (s : State) (id : BitVec 32) (f : Ctx → Ctx) : (s.modCtx id f).ropes = s.ropes := rfl
@[simp] theorem modCtx_fab (s : State) (id : BitVec 32) (f : Ctx → Ctx) : (s.modCtx id f).fab = s.fab := rfl
@[simp] theorem modCtx_dies (s : State) (id : BitVec 32) (f : Ctx → Ctx) : (s.modCtx id f).dies = s.dies := rfl
@[simp] theorem modCtx_pkg (s : State) (id : BitVec 32) (f : Ctx → Ctx) : (s.modCtx id f).pkg = s.pkg := rfl
@[simp] theorem modCtx_cycle (s : State) (id : BitVec 32) (f : Ctx → Ctx) : (s.modCtx id f).cycle = s.cycle := rfl
@[simp] theorem modCtx_focus (s : State) (id : BitVec 32) (f : Ctx → Ctx) : (s.modCtx id f).focus = s.focus := rfl
@[simp] theorem modCtx_free (s : State) (id : BitVec 32) (f : Ctx → Ctx) : (s.modCtx id f).free = s.free := rfl
@[simp] theorem modCtx_agenda (s : State) (id : BitVec 32) (f : Ctx → Ctx) : (s.modCtx id f).agenda = s.agenda := rfl
@[simp] theorem modCtx_out (s : State) (id : BitVec 32) (f : Ctx → Ctx) : (s.modCtx id f).out = s.out := rfl

/-! ## modInst -/

@[simp] theorem modInst_mem (s : State) (id : Nat) (f : Inst → Inst) : (s.modInst id f).mem = s.mem := rfl
@[simp] theorem modInst_lines (s : State) (id : Nat) (f : Inst → Inst) : (s.modInst id f).lines = s.lines := rfl
@[simp] theorem modInst_tiles (s : State) (id : Nat) (f : Inst → Inst) : (s.modInst id f).tiles = s.tiles := rfl
@[simp] theorem modInst_ctxs (s : State) (id : Nat) (f : Inst → Inst) : (s.modInst id f).ctxs = s.ctxs := rfl
@[simp] theorem modInst_ropes (s : State) (id : Nat) (f : Inst → Inst) : (s.modInst id f).ropes = s.ropes := rfl
@[simp] theorem modInst_fab (s : State) (id : Nat) (f : Inst → Inst) : (s.modInst id f).fab = s.fab := rfl
@[simp] theorem modInst_dies (s : State) (id : Nat) (f : Inst → Inst) : (s.modInst id f).dies = s.dies := rfl
@[simp] theorem modInst_pkg (s : State) (id : Nat) (f : Inst → Inst) : (s.modInst id f).pkg = s.pkg := rfl
@[simp] theorem modInst_cycle (s : State) (id : Nat) (f : Inst → Inst) : (s.modInst id f).cycle = s.cycle := rfl
@[simp] theorem modInst_focus (s : State) (id : Nat) (f : Inst → Inst) : (s.modInst id f).focus = s.focus := rfl
@[simp] theorem modInst_free (s : State) (id : Nat) (f : Inst → Inst) : (s.modInst id f).free = s.free := rfl
@[simp] theorem modInst_agenda (s : State) (id : Nat) (f : Inst → Inst) : (s.modInst id f).agenda = s.agenda := rfl
@[simp] theorem modInst_out (s : State) (id : Nat) (f : Inst → Inst) : (s.modInst id f).out = s.out := rfl

/-! ## modRec -/

@[simp] theorem modRec_mem (s : State) (id idx : Nat) (f : Rec → Rec) : (s.modRec id idx f).mem = s.mem := rfl
@[simp] theorem modRec_lines (s : State) (id idx : Nat) (f : Rec → Rec) : (s.modRec id idx f).lines = s.lines := rfl
@[simp] theorem modRec_tiles (s : State) (id idx : Nat) (f : Rec → Rec) : (s.modRec id idx f).tiles = s.tiles := rfl
@[simp] theorem modRec_ctxs (s : State) (id idx : Nat) (f : Rec → Rec) : (s.modRec id idx f).ctxs = s.ctxs := rfl
@[simp] theorem modRec_ropes (s : State) (id idx : Nat) (f : Rec → Rec) : (s.modRec id idx f).ropes = s.ropes := rfl
@[simp] theorem modRec_fab (s : State) (id idx : Nat) (f : Rec → Rec) : (s.modRec id idx f).fab = s.fab := rfl
@[simp] theorem modRec_dies (s : State) (id idx : Nat) (f : Rec → Rec) : (s.modRec id idx f).dies = s.dies := rfl
@[simp] theorem modRec_pkg (s : State) (id idx : Nat) (f : Rec → Rec) : (s.modRec id idx f).pkg = s.pkg := rfl
@[simp] theorem modRec_cycle (s : State) (id idx : Nat) (f : Rec → Rec) : (s.modRec id idx f).cycle = s.cycle := rfl
@[simp] theorem modRec_focus (s : State) (id idx : Nat) (f : Rec → Rec) : (s.modRec id idx f).focus = s.focus := rfl
@[simp] theorem modRec_free (s : State) (id idx : Nat) (f : Rec → Rec) : (s.modRec id idx f).free = s.free := rfl
@[simp] theorem modRec_agenda (s : State) (id idx : Nat) (f : Rec → Rec) : (s.modRec id idx f).agenda = s.agenda := rfl
@[simp] theorem modRec_out (s : State) (id idx : Nat) (f : Rec → Rec) : (s.modRec id idx f).out = s.out := rfl

/-! ## modDie -/

@[simp] theorem modDie_mem (s : State) (d : Nat) (f : Die → Die) : (s.modDie d f).mem = s.mem := rfl
@[simp] theorem modDie_lines (s : State) (d : Nat) (f : Die → Die) : (s.modDie d f).lines = s.lines := rfl
@[simp] theorem modDie_tiles (s : State) (d : Nat) (f : Die → Die) : (s.modDie d f).tiles = s.tiles := rfl
@[simp] theorem modDie_ctxs (s : State) (d : Nat) (f : Die → Die) : (s.modDie d f).ctxs = s.ctxs := rfl
@[simp] theorem modDie_insts (s : State) (d : Nat) (f : Die → Die) : (s.modDie d f).insts = s.insts := rfl
@[simp] theorem modDie_ropes (s : State) (d : Nat) (f : Die → Die) : (s.modDie d f).ropes = s.ropes := rfl
@[simp] theorem modDie_fab (s : State) (d : Nat) (f : Die → Die) : (s.modDie d f).fab = s.fab := rfl
@[simp] theorem modDie_pkg (s : State) (d : Nat) (f : Die → Die) : (s.modDie d f).pkg = s.pkg := rfl
@[simp] theorem modDie_cycle (s : State) (d : Nat) (f : Die → Die) : (s.modDie d f).cycle = s.cycle := rfl
@[simp] theorem modDie_focus (s : State) (d : Nat) (f : Die → Die) : (s.modDie d f).focus = s.focus := rfl
@[simp] theorem modDie_free (s : State) (d : Nat) (f : Die → Die) : (s.modDie d f).free = s.free := rfl
@[simp] theorem modDie_agenda (s : State) (d : Nat) (f : Die → Die) : (s.modDie d f).agenda = s.agenda := rfl
@[simp] theorem modDie_out (s : State) (d : Nat) (f : Die → Die) : (s.modDie d f).out = s.out := rfl

/-! ## count -/

@[simp] theorem count_mem (s : State) (d : Nat) (f : Decisions → Decisions) : (s.count d f).mem = s.mem := rfl
@[simp] theorem count_lines (s : State) (d : Nat) (f : Decisions → Decisions) : (s.count d f).lines = s.lines := rfl
@[simp] theorem count_tiles (s : State) (d : Nat) (f : Decisions → Decisions) : (s.count d f).tiles = s.tiles := rfl
@[simp] theorem count_ctxs (s : State) (d : Nat) (f : Decisions → Decisions) : (s.count d f).ctxs = s.ctxs := rfl
@[simp] theorem count_insts (s : State) (d : Nat) (f : Decisions → Decisions) : (s.count d f).insts = s.insts := rfl
@[simp] theorem count_ropes (s : State) (d : Nat) (f : Decisions → Decisions) : (s.count d f).ropes = s.ropes := rfl
@[simp] theorem count_fab (s : State) (d : Nat) (f : Decisions → Decisions) : (s.count d f).fab = s.fab := rfl
@[simp] theorem count_pkg (s : State) (d : Nat) (f : Decisions → Decisions) : (s.count d f).pkg = s.pkg := rfl
@[simp] theorem count_cycle (s : State) (d : Nat) (f : Decisions → Decisions) : (s.count d f).cycle = s.cycle := rfl
@[simp] theorem count_focus (s : State) (d : Nat) (f : Decisions → Decisions) : (s.count d f).focus = s.focus := rfl
@[simp] theorem count_free (s : State) (d : Nat) (f : Decisions → Decisions) : (s.count d f).free = s.free := rfl
@[simp] theorem count_agenda (s : State) (d : Nat) (f : Decisions → Decisions) : (s.count d f).agenda = s.agenda := rfl
@[simp] theorem count_out (s : State) (d : Nat) (f : Decisions → Decisions) : (s.count d f).out = s.out := rfl

/-! ## nextFree -/

@[simp] theorem nextFree_mem (s : State) : (s.nextFree).mem = s.mem := rfl
@[simp] theorem nextFree_lines (s : State) : (s.nextFree).lines = s.lines := rfl
@[simp] theorem nextFree_tiles (s : State) : (s.nextFree).tiles = s.tiles := rfl
@[simp] theorem nextFree_ctxs (s : State) : (s.nextFree).ctxs = s.ctxs := rfl
@[simp] theorem nextFree_insts (s : State) : (s.nextFree).insts = s.insts := rfl
@[simp] theorem nextFree_ropes (s : State) : (s.nextFree).ropes = s.ropes := rfl
@[simp] theorem nextFree_fab (s : State) : (s.nextFree).fab = s.fab := rfl
@[simp] theorem nextFree_dies (s : State) : (s.nextFree).dies = s.dies := rfl
@[simp] theorem nextFree_pkg (s : State) : (s.nextFree).pkg = s.pkg := rfl
@[simp] theorem nextFree_cycle (s : State) : (s.nextFree).cycle = s.cycle := rfl
@[simp] theorem nextFree_focus (s : State) : (s.nextFree).focus = s.focus := rfl
@[simp] theorem nextFree_agenda (s : State) : (s.nextFree).agenda = s.agenda := rfl
@[simp] theorem nextFree_out (s : State) : (s.nextFree).out = s.out := rfl

end Sys2Proof.Laws
end

