-- ==== Sys2Proof/Laws/Ops.lean ====
section
/-! SUPPORT. What the shared operations can do, one law each: stores, records, taking a fault and returning from one. -/

namespace Sys2Proof.Laws

open Machine

/-! ## Tiles -/

theorem tile_setTile (s : State) (t u : Nat) (v : Tile) : (s.setTile t v).tile u = if u = t then v else s.tile u := by
  exact kvGet_kvPut ({} : Tile) s.tiles t u v

@[simp] theorem tile_setTile_same (s : State) (t : Nat) (v : Tile) : (s.setTile t v).tile t = v := by simp [tile_setTile]

theorem tile_modTile (s : State) (t u : Nat) (f : Tile → Tile) :
    (s.modTile t f).tile u = if u = t then f (s.tile t) else s.tile u := tile_setTile s t u _

@[simp] theorem tile_modTile_same (s : State) (t : Nat) (f : Tile → Tile) : (s.modTile t f).tile t = f (s.tile t) := by
  simp [tile_modTile]

theorem run?_setRun (s : State) (t u : Nat) (r : Run) : (s.setRun t r).run? u = if u = t then some r else s.run? u := by
  simp only [State.run?, State.setRun, tile_modTile]; split <;> rfl

@[simp] theorem run?_setRun_same (s : State) (t : Nat) (r : Run) : (s.setRun t r).run? t = some r := by simp [run?_setRun]

theorem run?_modRun (s : State) (t u : Nat) (f : Run → Run) :
    (s.modRun t f).run? u = if u = t then (s.run? t).map f else s.run? u := by
  unfold State.modRun
  split
  · rename_i r h; simp [run?_setRun, h]
  · rename_i h; split
    · subst_vars; simp [h]
    · rfl

theorem cluster_modCluster (s : State) (c d : Nat) (f : Cluster → Cluster) :
    (s.modCluster c f).cluster d = if d = c then f (s.cluster c) else s.cluster d :=
  kvGet_kvPut ({} : Cluster) s.pkg.clusters c d _

/-! ## Contexts and instances -/

theorem find?_map_id {α β : Type} [BEq β] (key : α → β) (l : List α) (k : β) (f : α → α)
    (hf : ∀ x, (key x == k) = true → key (f x) = key x) :
    (l.map fun x => if (key x == k) = true then f x else x).find? (fun x => key x == k) =
      (l.find? fun x => key x == k).map f := by
  induction l with
  | nil => rfl
  | cons x rest ih =>
    simp only [List.map_cons, List.find?_cons]
    by_cases h : (key x == k) = true
    · simp [h, hf x h]
    · simp [h, ih]

/-- A change that keeps the context's number is what its context becomes. -/
theorem ctx?_modCtx (s : State) (id : BitVec 32) (f : Ctx → Ctx) (hf : ∀ c, (f c).id = c.id) :
    (s.modCtx id f).ctx? id = (s.ctx? id).map f :=
  find?_map_id (fun c : Ctx => c.id) s.ctxs id f fun c _ => hf c

theorem inst?_modInst (s : State) (id : Nat) (f : Inst → Inst) (hf : ∀ i, (f i).id = i.id) :
    (s.modInst id f).inst? id = (s.inst? id).map f :=
  find?_map_id (fun i : Inst => i.id) s.insts id f fun i _ => hf i

/-! ## Stores (09 R187, R205) -/

theorem writes_append (m : Memory) (a : Nat) (bs cs : List Byte) :
    m.writes a (bs ++ cs) = (m.writes a bs).writes (a + bs.length) cs := by
  induction bs generalizing m a with
  | nil => rfl
  | cons b rest ih =>
    simp only [List.cons_append, Memory.writes, ih, List.length_cons]
    rw [show a + 1 + rest.length = a + (rest.length + 1) by omega]

@[simp] theorem storeLine_mem (s : State) (l : Nat) (bs : List Byte) (p : Bool) :
    (s.storeLine l bs p).mem = s.mem.writes l bs := rfl

theorem storeCut_mem (bs : List Byte) (l : Nat) (p : Bool) (fuel : Nat) :
    ∀ (s : State) (a n : Nat), l ≤ a → n < fuel → (a - l) + n = bs.length →
      (s.storeCut bs l p (cutLines a n fuel)).mem = s.mem.writes a (bs.drop (a - l)) := by
  induction fuel with
  | zero => intro s a n _ h _; omega
  | succ fuel ih =>
    intro s a n hl hn hb
    rw [cutLines]
    split
    · rw [List.drop_eq_nil_of_le (by omega)]; rfl
    · have hk : 0 < min n (128 - a % 128) := by omega
      simp only [State.storeCut]
      rw [ih _ _ _ (by omega) (by omega) (by omega), storeLine_mem,
        show a + min n (128 - a % 128) - l = (a - l) + min n (128 - a % 128) by omega, ← List.drop_drop]
      conv_rhs => rw [← List.take_append_drop (min n (128 - a % 128)) (bs.drop (a - l))]
      rw [writes_append, List.length_take, List.length_drop]
      congr 2
      omega

/-- A store, whatever lines it crosses, writes its bytes at successive locations and no other. -/
theorem store_mem (s : State) (l : Nat) (bs : List Byte) (p : Bool) : (s.store l bs p).mem = s.mem.writes l bs := by
  have := storeCut_mem bs l p (bs.length + 1) s l bs.length le_rfl (by omega) (by omega)
  simpa [State.store] using this

/-- A byte stored is read back; every other byte is as before. -/
theorem read_store {s : State} (l a : Nat) (bs : List Byte) (p : Bool) (h : s.mem.wf = true) :
    (s.store l bs p).mem.read a = if l ≤ a ∧ a < l + bs.length then bs[a - l]?.getD 0 else s.mem.read a := by
  rw [store_mem, read_writes l a bs h]

theorem store_wf {s : State} (l : Nat) (bs : List Byte) (p : Bool) (h : s.mem.wf = true) : (s.store l bs p).mem.wf = true := by
  rw [store_mem]; exact writes_wf l bs h

theorem storeCut_else (bs : List Byte) (l : Nat) (p : Bool) (parts : List (Nat × Nat)) (s : State) :
    s.storeCut bs l p parts =
      { s with mem := (s.storeCut bs l p parts).mem, lines := (s.storeCut bs l p parts).lines } := by
  induction parts generalizing s with
  | nil => rfl
  | cons x rest ih => obtain ⟨a, k⟩ := x; simp only [State.storeCut]; rw [ih]; rfl

/-- A store changes memory and its lines, and nothing else. -/
theorem store_else (s : State) (l : Nat) (bs : List Byte) (p : Bool) :
    s.store l bs p = { s with mem := s.mem.writes l bs, lines := (s.store l bs p).lines } := by
  rw [← store_mem s l bs p]; exact storeCut_else bs l p _ s

theorem storeCut_lines_wf (bs : List Byte) (l : Nat) (p : Bool) (parts : List (Nat × Nat)) {s : State}
    (h : kvWf {} s.lines = true) : kvWf {} (s.storeCut bs l p parts).lines = true := by
  induction parts generalizing s with
  | nil => exact h
  | cons x rest ih => exact ih (kvWf_kvSet _ _ h)

theorem store_lines_wf {s : State} (l : Nat) (bs : List Byte) (p : Bool) (h : kvWf {} s.lines = true) :
    kvWf {} (s.store l bs p).lines = true := storeCut_lines_wf bs l p _ h

/-! ## What touches only memory, contexts and what leaves the package -/

/-- Two states that differ at most in memory, lines, contexts and what has left the package, the memory of the second
canonical if the first's is: what rings, records and messages accepted can do. -/
structure RingsOnly (s t : State) : Prop where
  tiles : t.tiles = s.tiles
  insts : t.insts = s.insts
  ropes : t.ropes = s.ropes
  fab : t.fab = s.fab
  dies : t.dies = s.dies
  pkg : t.pkg = s.pkg
  cycle : t.cycle = s.cycle
  focus : t.focus = s.focus
  free : t.free = s.free
  agenda : t.agenda = s.agenda
  mem : s.mem.wf = true → t.mem.wf = true
  lines : kvWf {} s.lines = true → kvWf {} t.lines = true

theorem RingsOnly.refl (s : State) : RingsOnly s s := by constructor <;> intros <;> first | rfl | assumption

theorem RingsOnly.trans {s t u : State} (h : RingsOnly s t) (g : RingsOnly t u) : RingsOnly s u where
  tiles := g.tiles.trans h.tiles
  insts := g.insts.trans h.insts
  ropes := g.ropes.trans h.ropes
  fab := g.fab.trans h.fab
  dies := g.dies.trans h.dies
  pkg := g.pkg.trans h.pkg
  cycle := g.cycle.trans h.cycle
  focus := g.focus.trans h.focus
  free := g.free.trans h.free
  agenda := g.agenda.trans h.agenda
  mem := g.mem ∘ h.mem
  lines := g.lines ∘ h.lines

theorem rings_modCtx (s : State) (id : BitVec 32) (f : Ctx → Ctx) : RingsOnly s (s.modCtx id f) := by
  constructor <;> intros <;> first | rfl | assumption

theorem rings_store (s : State) (l : Nat) (bs : List Byte) (p : Bool) : RingsOnly s (s.store l bs p) := by
  have h := store_else s l bs p
  constructor
  case mem => exact store_wf l bs p
  case lines => exact store_lines_wf l bs p
  all_goals rw [h]

theorem rings_modLine (s : State) (k : Nat) (f : LineMeta → LineMeta) : RingsOnly s (s.modLine k f) := by
  constructor
  case lines => exact setLine_lines_wf k _
  all_goals intros; first | rfl | assumption

theorem rings_failLine (s : State) (c : BitVec 32) (k : Nat) : RingsOnly s (s.failLine c k) :=
  (rings_modLine s _ _).trans (rings_modCtx _ _ _)

/-- A line read for a ring that fails is poisoned and noted, and nothing else (09 R206). -/
theorem rings_noteLine (s : State) (c : BitVec 32) (k : Nat) : RingsOnly s (s.noteLine c k) := by
  unfold State.noteLine
  split
  · exact (rings_failLine s _ _).trans (rings_modCtx _ _ _)
  · exact RingsOnly.refl _

theorem noteLine_good {s : State} (c : BitVec 32) {k : Nat} (h : (s.line k).chkBad = false) : s.noteLine c k = s := by
  simp [State.noteLine, h]

theorem rings_noteRing (s : State) (c : BitVec 32) (q : Option QcbReg) : RingsOnly s (s.noteRing c q) := by
  unfold State.noteRing
  split
  · exact RingsOnly.refl _
  · split
    · exact RingsOnly.refl _
    · split
      · exact rings_noteLine s _ _
      · exact RingsOnly.refl _

theorem rings_qcbWord (s : State) (c : BitVec 32) (l o w : Nat) : RingsOnly s (s.qcbWord c l o w) :=
  (rings_noteLine s _ _).trans (rings_store _ _ _ _)

theorem rings_out (s : State) (x : Out) : RingsOnly s { s with out := x :: s.out } := by
  constructor <;> intros <;> first | rfl | assumption

/-- A notification leaves, or waits in its context for a port. -/
theorem rings_notify (s : State) (c : BitVec 32) (v : BitVec 16) : RingsOnly s (s.notify c v) := by
  unfold State.notify
  split
  · exact rings_out s _
  · exact rings_modCtx s _ _

theorem rings_append (s : State) (c : BitVec 32) (q : Qcb) (l : Nat) (bs : List Byte) : RingsOnly s (s.ringAppend c q l bs) := by
  have h := ((rings_noteLine s c (lineKey l)).trans (rings_store _ l bs false)).trans (rings_qcbWord _ c q.loc 16 ((bitsAt q.tail 0 32 + 1) % 2 ^ 32))
  unfold State.ringAppend
  dsimp only
  split
  · exact h.trans (rings_notify _ _ _)
  · exact h

theorem rings_accept {s t : State} {c : BitVec 32} {m : Nat} {w : BitVec 512} (h : s.acceptMessage c m w = some t) :
    RingsOnly s t := by
  unfold State.acceptMessage at h
  split at h
  · cases h
  · simp only at h
    split at h
    · cases h; exact rings_modCtx s _ _
    · cases h

theorem rings_hold (s : State) (c : BitVec 32) (q : Option Qcb) (f : FaultRec) : RingsOnly s (s.holdRecord c q f) := by
  unfold State.holdRecord
  split
  · exact RingsOnly.refl _
  · simp only
    split
    · split
      · exact (rings_modCtx s _ _).trans (rings_qcbWord _ _ _ _ _)
      · exact rings_modCtx s _ _
    · split
      · exact rings_qcbWord s _ _ _ _
      · exact RingsOnly.refl _

theorem rings_mail {s t : State} {c : BitVec 32} {w : BitVec 512} (h : s.mailRecord c w = some t) : RingsOnly s t := by
  unfold State.mailRecord at h
  split at h
  · cases h
  · split at h
    · cases h
    · exact rings_accept h

/-- What a mailbox takes, or what is done instead of it. -/
theorem rings_mailOr (s u : State) (c : BitVec 32) (w : BitVec 512) (h : RingsOnly s u) :
    RingsOnly s ((s.mailRecord c w).getD u) := by
  cases e : s.mailRecord c w with
  | none => exact h
  | some t => exact rings_mail e

theorem rings_ringError (s : State) (c : BitVec 32) (q : Option Qcb) (f : FaultInfo) :
    RingsOnly s (s.faultRingError c q f) := by
  unfold State.faultRingError
  dsimp only
  split
  · exact ((rings_modCtx s _ _).trans (rings_qcbWord _ _ _ _ _)).trans (rings_mailOr _ _ _ _ (RingsOnly.refl _))
  · exact (rings_modCtx s _ _).trans (rings_modCtx _ _ _)

theorem rings_unringed (s : State) (c : BitVec 32) (f : FaultRec) : RingsOnly s (s.unringed c f) :=
  rings_mailOr s _ c _ (rings_hold s c none f)

theorem rings_ringRecord (s : State) (c : BitVec 32) (q : Qcb) (f : FaultRec) : RingsOnly s (s.ringRecord c q f) := by
  unfold State.ringRecord
  split
  · exact RingsOnly.refl _
  · split
    · exact rings_hold s _ _ _
    · split
      · exact rings_hold s _ _ _
      · split
        · exact (rings_hold s _ _ _).trans (rings_ringError _ _ _ _)
        · exact rings_append s _ _ _ _

theorem rings_deliver (s : State) (c : BitVec 32) (f : FaultRec) : RingsOnly s (s.deliverRecord c f) := by
  unfold State.deliverRecord
  split
  · exact RingsOnly.refl _
  · next k _ =>
    have n := rings_noteRing s c k.faultQ
    dsimp only
    split
    · exact n.trans (rings_unringed _ _ _)
    · exact n.trans ((rings_unringed _ _ _).trans (rings_ringError _ _ _ _))
    · exact n.trans ((rings_unringed _ _ _).trans (rings_ringError _ _ _ _))
    · exact n.trans (rings_mailOr _ _ _ _ (rings_ringRecord _ _ _ _))

/-- A record changes nothing but its context, the ring it goes to, and what leaves the package (13 R277-R280). -/
theorem rings_record (s : State) (c : BitVec 32) (r : RecSpec) : RingsOnly s (s.record c r) := by
  unfold State.record
  split
  · exact RingsOnly.refl _
  · exact (rings_modCtx s _ _).trans (rings_deliver _ _ _)

theorem rings_recordAwait (s : State) (c : BitVec 32) (r : RecSpec) (o : AwaitOf) : RingsOnly s (s.recordAwait c r o) :=
  (rings_record s c _).trans (rings_modCtx _ _ _)

theorem rings_ringErr (s : State) (c : BitVec 32) (va : BitVec 64) (f : FaultInfo) : RingsOnly s (s.ringError c va f) :=
  rings_record s c _

theorem rings_verifyLine (s : State) (c : BitVec 32) (k : Nat) : RingsOnly s (s.verifyLine c k) := by
  unfold State.verifyLine
  split
  · exact (rings_failLine s _ _).trans (rings_record _ _ _)
  · exact RingsOnly.refl _

/-- A received poison bit is reported, and does nothing else (19 R402). -/
theorem rings_gotPoison (s : State) (c : BitVec 32) (l : Nat) (p : Bool) : RingsOnly s (s.gotPoison c l p) := by
  unfold State.gotPoison
  split
  · exact (rings_modCtx s _ _).trans (rings_record _ c _)
  · exact RingsOnly.refl _

/-- Reading a line verifies it and reports what is wrong with it, and does nothing else (09 R206; 19 R402). -/
theorem rings_readLine (s : State) (c : BitVec 32) (k : Nat) : RingsOnly s (s.readLine c k) :=
  (rings_verifyLine s c k).trans (rings_gotPoison _ _ _ _)

theorem rings_readLines (s : State) (c : BitVec 32) (l : List Nat) : RingsOnly s (s.readLines c l) := by
  induction l generalizing s with
  | nil => exact RingsOnly.refl _
  | cons k rest ih => exact (rings_readLine s c k).trans (ih _)

/-- Verifying the lines read reports bad ones and marks them poisoned, and does nothing else (09 R206). -/
theorem rings_verifyLines (s : State) (c : BitVec 32) (l : List Nat) : RingsOnly s (s.verifyLines c l) := by
  induction l generalizing s with
  | nil => exact RingsOnly.refl _
  | cons k rest ih => exact (rings_verifyLine s c k).trans (ih _)

/-- No line whose check value fails: verifying does nothing. -/
theorem verifyLines_good (s : State) (c : BitVec 32) (l : List Nat) (h : ∀ k, (s.line k).chkBad = false) :
    s.verifyLines c l = s := by
  induction l with
  | nil => rfl
  | cons k rest ih =>
    have : s.verifyLine c k = s := by simp [State.verifyLine, h k]
    simp [State.verifyLines, this, ih]

/-- Lines of this package whose check values hold: reading them does nothing but deliver them. -/
theorem readLines_good (s : State) (c : BitVec 32) (l : List Nat) (h : ∀ k, (s.line k).chkBad = false)
    (own : ∀ k, k ∈ l → locPkg (k * 128) = 0) : s.readLines c l = s := by
  induction l with
  | nil => rfl
  | cons k rest ih =>
    have a : s.readLine c k = s := by
      simp [State.readLine, State.verifyLine, State.gotPoison, h k, own k (by simp)]
    simp [State.readLines, a, ih fun k hk => own k (by simp [hk])]

/-- A write for a context changes memory, line states, and what the record of a failed line changes. -/
theorem rings_storeFor (s : State) (c : BitVec 32) (l : Nat) (bs : List Byte) (p : Bool) : RingsOnly s (s.storeFor c l bs p) := by
  unfold State.storeFor
  split
  · exact RingsOnly.refl s
  · exact (rings_verifyLines s c _).trans (rings_store _ l bs p)

/-- A write to an address that no package has is dropped (16 R336). -/
theorem storeFor_absent (s : State) (c : BitVec 32) (l : Nat) (bs : List Byte) (p : Bool) (h : absentLoc l = true) :
    s.storeFor c l bs p = s := by
  simp [State.storeFor, h]

/-- Where no line's check value fails, a write for a context is the plain write. -/
theorem storeFor_good (s : State) (c : BitVec 32) (l : Nat) (bs : List Byte) (p : Bool) (h : absentLoc l = false)
    (g : ∀ k, (s.line k).chkBad = false) : s.storeFor c l bs p = s.store l bs p := by
  simp [State.storeFor, h, verifyLines_good s c _ g]

/-! ## Taking a fault, and returning from one (18 R371, R373) -/

/-- Taking a fault changes no byte of memory but its record's, and no rope, queue between agents, die or package table. -/
theorem takeFault_keeps (s : State) (t : Nat) (sp : RecSpec) (r : Resume) (b : Bool) :
    (s.takeFault t sp r b).ropes = s.ropes ∧ (s.takeFault t sp r b).fab = s.fab ∧ (s.takeFault t sp r b).dies = s.dies ∧
    (s.takeFault t sp r b).pkg = s.pkg ∧ (s.takeFault t sp r b).cycle = s.cycle ∧ (s.takeFault t sp r b).free = s.free ∧
    (s.mem.wf = true → (s.takeFault t sp r b).mem.wf = true) := by
  unfold State.takeFault
  split
  · simp
  · have h := rings_recordAwait
    refine ⟨?_, ?_, ?_, ?_, ?_, ?_, ?_⟩
    · exact (h _ _ _ _).ropes
    · exact (h _ _ _ _).fab
    · exact (h _ _ _ _).dies
    · exact (h _ _ _ _).pkg
    · exact (h _ _ _ _).cycle
    · exact (h _ _ _ _).free
    · exact fun hm => (h _ _ _ _).mem hm

/-- Returning from a fault changes the run and the state of its record alone. -/
theorem retryFault_keeps (s : State) (t : Nat) :
    (s.retryFault t).mem = s.mem ∧ (s.retryFault t).lines = s.lines ∧ (s.retryFault t).ctxs = s.ctxs ∧
    (s.retryFault t).fab = s.fab ∧ (s.retryFault t).pkg = s.pkg ∧ (s.retryFault t).out = s.out := by
  unfold State.retryFault
  repeat' split
  all_goals simp

end Sys2Proof.Laws
end

