-- ==== Sys2Proof/Laws/Host.lean ====
section
/-! SUPPORT. What the operations on the host's side of memory can do. -/

namespace Sys2Proof.Laws

open Machine

/-- Lines scrambled change memory, their own line states and the count of free values, and keep both canonical (19 R390). -/
theorem scramble_keeps (l : List Nat) (s : State) :
    (s.scramble l).tiles = s.tiles ∧ (s.scramble l).ctxs = s.ctxs ∧ (s.scramble l).insts = s.insts ∧ (s.scramble l).ropes = s.ropes ∧
    (s.scramble l).fab = s.fab ∧ (s.scramble l).dies = s.dies ∧ (s.scramble l).pkg = s.pkg ∧ (s.scramble l).out = s.out ∧
    (s.mem.wf = true → (s.scramble l).mem.wf = true) ∧ (kvWf {} s.lines = true → kvWf {} (s.scramble l).lines = true) := by
  induction l generalizing s with
  | nil => simp [State.scramble]
  | cons k rest ih =>
    unfold State.scramble
    have h := (rings_store { s with free := s.free + 128 } (128 * k) (freeBytes s.free 128) (s.line k).pois).trans
      (rings_modLine _ k fun m => { m with chk := 1 })
    obtain ⟨a, b, c, d, e, f, g, i, m, n⟩ := ih (((({ s with free := s.free + 128 } : State).store (128 * k) (freeBytes s.free 128)
      (s.line k).pois).modLine k fun m => { m with chk := 1 }))
    refine ⟨a.trans h.tiles, b.trans ?_, c.trans h.insts, d.trans h.ropes, e.trans h.fab, f.trans h.dies, g.trans h.pkg, i.trans ?_,
      fun w => m (h.mem w), fun w => n (h.lines w)⟩
    · rw [modLine_ctxs, store_else]
    · rw [modLine_out, store_else]

end Sys2Proof.Laws
end

