-- ==== Sys2Proof/Laws/PerInstr.lean ====
section
/-! SUPPORT. The family Reads: every instruction's word, read by the opcode map and the reader of its format, gives the instruction
back with every field as it was packed; an event has no word. One lemma per constructor. -/

namespace Sys2Proof.Laws.Reads

/-- Reading the word of an instruction gives the instruction, before check 4 examines its fields (04 R81-R88). -/
def Statement (i : Instr) : Prop := ∀ w, encode i = some w → decodeOp w = some (some i)

/-- The opcode map on a word whose opcode is known: the row is chosen by bits 31-28, the column by bits 27-24 (04 R87). -/
theorem decodeOp_at {w : Word} {h l : BitVec 4} (hh : w.extractLsb' 28 4 = h) (hl : w.extractLsb' 24 4 = l) :
    decodeOp w =
      match h.toNat with
      | 0x0 => decodeRow0 w l.toNat
      | 0x1 => decodeRow1 w l.toNat
      | 0x2 => decodeRow2 w l.toNat
      | 0x3 => decodeRow3 w l.toNat
      | 0x4 => decodeRow4 w l.toNat
      | 0x5 => decodeRow5 w l.toNat
      | 0x6 => decodeRow6 w l.toNat
      | 0x7 => decodeRow7 w l.toNat
      | 0x8 => decodeRow8 w l.toNat
      | 0x9 => decodeRow9 w l.toNat
      | 0xA => decodeRowA w l.toNat
      | 0xB => decodeRowB w l.toNat
      | 0xC => decodeRowC w l.toNat
      | 0xD => decodeRowD w l.toNat
      | 0xE => decodeRowE w l.toNat
      | _ => decodeRowF w l.toNat := by
  subst hh hl; rfl

/-- One word, and what it reads as. -/
theorem word {i : Instr} {w : Word} (he : encode i = some w) (hd : decodeOp w = some (some i)) : Statement i := by
  intro v hv; rw [he] at hv; cases hv; exact hd

/-- An event has no word. -/
theorem event {i : Instr} (he : encode i = none) : Statement i := by
  intro v hv; rw [he] at hv; cases hv

theorem illegal (p : Pr) : Statement (.illegal p) :=
  word rfl ((decodeOp_at (G_row ..) (G_col ..)).trans (congrArg some unG0_pack))
theorem readg (r : BitVec 6) (u : Target) (t : Target) : Statement (.readg r u t) :=
  word rfl ((decodeOp_at (R_row ..) (R_col ..)).trans (congrArg some unR6_pack))
theorem readv (r : BitVec 5) (u : Target) (t : Target) : Statement (.readv r u t) :=
  word rfl ((decodeOp_at (R_row ..) (R_col ..)).trans (congrArg some unR5_pack))
theorem writeg (r : BitVec 6) : Statement (.writeg r) :=
  word rfl ((decodeOp_at (W_row ..) (W_col ..)).trans (congrArg some unW6_pack))
theorem writev (r : BitVec 5) : Statement (.writev r) :=
  word rfl ((decodeOp_at (W_row ..) (W_col ..)).trans (congrArg some unW5_pack))
theorem mov (p : Pr) (u : Target) (t : Target) : Statement (.mov p u t) :=
  word rfl ((decodeOp_at (G_row ..) (G_col ..)).trans (congrArg some unG_pack))
theorem null (p : Pr) (u : Target) (t : Target) : Statement (.null p u t) :=
  word rfl ((decodeOp_at (G_row ..) (G_col ..)).trans (congrArg some unG_pack))
theorem const_ (p : Pr) (imm : BitVec 13) (t : Target) : Statement (.const_ p imm t) :=
  word rfl ((decodeOp_at (I_row ..) (I_col ..)).trans (congrArg some unI_pack))
theorem consth (p : Pr) (imm : BitVec 13) (t : Target) : Statement (.consth p imm t) :=
  word rfl ((decodeOp_at (I_row ..) (I_col ..)).trans (congrArg some unI_pack))
theorem pcrel (p : Pr) (imm : BitVec 13) (t : Target) : Statement (.pcrel p imm t) :=
  word rfl ((decodeOp_at (I_row ..) (I_col ..)).trans (congrArg some unI_pack))
theorem sel (p : Pr) (u : Target) (t : Target) : Statement (.sel p u t) :=
  word rfl ((decodeOp_at (G_row ..) (G_col ..)).trans (congrArg some unG_pack))
theorem gate (p : Pr) (u : Target) (t : Target) : Statement (.gate p u t) :=
  word rfl ((decodeOp_at (G_row ..) (G_col ..)).trans (congrArg some unG_pack))
theorem nop (p : Pr) : Statement (.nop p) :=
  word rfl ((decodeOp_at (G_row ..) (G_col ..)).trans (congrArg some unG0_pack))
theorem br (p : Pr) (exit : BitVec 3) (off : BitVec 19) : Statement (.br p exit off) :=
  word rfl ((decodeOp_at (E_row ..) (E_col ..)).trans (congrArg some unE_pack))
theorem bri (p : Pr) (exit : BitVec 3) : Statement (.bri p exit) :=
  word rfl ((decodeOp_at (G_row ..) (G_col ..)).trans (congrArg some unGExit_pack))
theorem call_ (p : Pr) (exit : BitVec 3) (off : BitVec 19) : Statement (.call_ p exit off) :=
  word rfl ((decodeOp_at (E_row ..) (E_col ..)).trans (congrArg some unE_pack))
theorem calli (p : Pr) (exit : BitVec 3) : Statement (.calli p exit) :=
  word rfl ((decodeOp_at (G_row ..) (G_col ..)).trans (congrArg some unGExit_pack))
theorem done_ (p : Pr) (exit : BitVec 3) : Statement (.done_ p exit) :=
  word rfl ((decodeOp_at (E_row ..) (E_col ..)).trans (congrArg some unEDone_pack))
theorem abort (p : Pr) (exit : BitVec 3) : Statement (.abort p exit) :=
  word rfl ((decodeOp_at (G_row ..) (G_col ..)).trans (congrArg some unGExit_pack))
theorem trap (p : Pr) (imm : BitVec 13) : Statement (.trap p imm) :=
  word rfl ((decodeOp_at (I_row ..) (I_col ..)).trans (congrArg some unICode_pack))
theorem break_ (p : Pr) (imm : BitVec 13) : Statement (.break_ p imm) :=
  word rfl ((decodeOp_at (I_row ..) (I_col ..)).trans (congrArg some unICode_pack))
theorem svc (p : Pr) (imm : BitVec 13) (t : Target) : Statement (.svc p imm t) :=
  word rfl ((decodeOp_at (I_row ..) (I_col ..)).trans (congrArg some unI_pack))
theorem add (p : Pr) (u : Target) (t : Target) : Statement (.add p u t) :=
  word rfl ((decodeOp_at (G_row ..) (G_col ..)).trans (congrArg some unG_pack))
theorem sub (p : Pr) (u : Target) (t : Target) : Statement (.sub p u t) :=
  word rfl ((decodeOp_at (G_row ..) (G_col ..)).trans (congrArg some unG_pack))
theorem mul (p : Pr) (u : Target) (t : Target) : Statement (.mul p u t) :=
  word rfl ((decodeOp_at (G_row ..) (G_col ..)).trans (congrArg some unG_pack))
theorem mulh (p : Pr) (u : Target) (t : Target) : Statement (.mulh p u t) :=
  word rfl ((decodeOp_at (G_row ..) (G_col ..)).trans (congrArg some unG_pack))
theorem mulhu (p : Pr) (u : Target) (t : Target) : Statement (.mulhu p u t) :=
  word rfl ((decodeOp_at (G_row ..) (G_col ..)).trans (congrArg some unG_pack))
theorem div (p : Pr) (u : Target) (t : Target) : Statement (.div p u t) :=
  word rfl ((decodeOp_at (G_row ..) (G_col ..)).trans (congrArg some unG_pack))
theorem divu (p : Pr) (u : Target) (t : Target) : Statement (.divu p u t) :=
  word rfl ((decodeOp_at (G_row ..) (G_col ..)).trans (congrArg some unG_pack))
theorem rem_ (p : Pr) (u : Target) (t : Target) : Statement (.rem_ p u t) :=
  word rfl ((decodeOp_at (G_row ..) (G_col ..)).trans (congrArg some unG_pack))
theorem remu (p : Pr) (u : Target) (t : Target) : Statement (.remu p u t) :=
  word rfl ((decodeOp_at (G_row ..) (G_col ..)).trans (congrArg some unG_pack))
theorem and_ (p : Pr) (u : Target) (t : Target) : Statement (.and_ p u t) :=
  word rfl ((decodeOp_at (G_row ..) (G_col ..)).trans (congrArg some unG_pack))
theorem or_ (p : Pr) (u : Target) (t : Target) : Statement (.or_ p u t) :=
  word rfl ((decodeOp_at (G_row ..) (G_col ..)).trans (congrArg some unG_pack))
theorem xor_ (p : Pr) (u : Target) (t : Target) : Statement (.xor_ p u t) :=
  word rfl ((decodeOp_at (G_row ..) (G_col ..)).trans (congrArg some unG_pack))
theorem andn (p : Pr) (u : Target) (t : Target) : Statement (.andn p u t) :=
  word rfl ((decodeOp_at (G_row ..) (G_col ..)).trans (congrArg some unG_pack))
theorem shl (p : Pr) (u : Target) (t : Target) : Statement (.shl p u t) :=
  word rfl ((decodeOp_at (G_row ..) (G_col ..)).trans (congrArg some unG_pack))
theorem shr (p : Pr) (u : Target) (t : Target) : Statement (.shr p u t) :=
  word rfl ((decodeOp_at (G_row ..) (G_col ..)).trans (congrArg some unG_pack))
theorem sar (p : Pr) (u : Target) (t : Target) : Statement (.sar p u t) :=
  word rfl ((decodeOp_at (G_row ..) (G_col ..)).trans (congrArg some unG_pack))
theorem ror (p : Pr) (u : Target) (t : Target) : Statement (.ror p u t) :=
  word rfl ((decodeOp_at (G_row ..) (G_col ..)).trans (congrArg some unG_pack))
theorem min_ (p : Pr) (u : Target) (t : Target) : Statement (.min_ p u t) :=
  word rfl ((decodeOp_at (G_row ..) (G_col ..)).trans (congrArg some unG_pack))
theorem max_ (p : Pr) (u : Target) (t : Target) : Statement (.max_ p u t) :=
  word rfl ((decodeOp_at (G_row ..) (G_col ..)).trans (congrArg some unG_pack))
theorem minu (p : Pr) (u : Target) (t : Target) : Statement (.minu p u t) :=
  word rfl ((decodeOp_at (G_row ..) (G_col ..)).trans (congrArg some unG_pack))
theorem maxu (p : Pr) (u : Target) (t : Target) : Statement (.maxu p u t) :=
  word rfl ((decodeOp_at (G_row ..) (G_col ..)).trans (congrArg some unG_pack))
theorem abs_ (p : Pr) (u : Target) (t : Target) : Statement (.abs_ p u t) :=
  word rfl ((decodeOp_at (G_row ..) (G_col ..)).trans (congrArg some unG_pack))
theorem clz (p : Pr) (u : Target) (t : Target) : Statement (.clz p u t) :=
  word rfl ((decodeOp_at (G_row ..) (G_col ..)).trans (congrArg some unG_pack))
theorem ctz (p : Pr) (u : Target) (t : Target) : Statement (.ctz p u t) :=
  word rfl ((decodeOp_at (G_row ..) (G_col ..)).trans (congrArg some unG_pack))
theorem popc (p : Pr) (u : Target) (t : Target) : Statement (.popc p u t) :=
  word rfl ((decodeOp_at (G_row ..) (G_col ..)).trans (congrArg some unG_pack))
theorem sext (p : Pr) (x : ElemType) (u : Target) (t : Target) : Statement (.sext p x u t) :=
  word rfl ((decodeOp_at (G_row ..) (G_col ..)).trans (congrArg some unGX_pack))
theorem zext (p : Pr) (x : ElemType) (u : Target) (t : Target) : Statement (.zext p x u t) :=
  word rfl ((decodeOp_at (G_row ..) (G_col ..)).trans (congrArg some unGX_pack))
theorem bfx (p : Pr) (u : Target) (t : Target) : Statement (.bfx p u t) :=
  word rfl ((decodeOp_at (G_row ..) (G_col ..)).trans (congrArg some unG_pack))
theorem bfi (u : Target) (t : Target) : Statement (.bfi u t) :=
  word rfl ((decodeOp_at (G_row ..) (G_col ..)).trans (congrArg some unGT_pack))
theorem lea (p : Pr) (u : Target) (t : Target) : Statement (.lea p u t) :=
  word rfl ((decodeOp_at (G_row ..) (G_col ..)).trans (congrArg some unG_pack))
theorem addi (p : Pr) (imm : BitVec 13) (t : Target) : Statement (.addi p imm t) :=
  word rfl ((decodeOp_at (I_row ..) (I_col ..)).trans (congrArg some unI_pack))
theorem andi (p : Pr) (imm : BitVec 13) (t : Target) : Statement (.andi p imm t) :=
  word rfl ((decodeOp_at (I_row ..) (I_col ..)).trans (congrArg some unI_pack))
theorem ori (p : Pr) (imm : BitVec 13) (t : Target) : Statement (.ori p imm t) :=
  word rfl ((decodeOp_at (I_row ..) (I_col ..)).trans (congrArg some unI_pack))
theorem xori (p : Pr) (imm : BitVec 13) (t : Target) : Statement (.xori p imm t) :=
  word rfl ((decodeOp_at (I_row ..) (I_col ..)).trans (congrArg some unI_pack))
theorem shli (p : Pr) (imm : BitVec 13) (t : Target) : Statement (.shli p imm t) :=
  word rfl ((decodeOp_at (I_row ..) (I_col ..)).trans (congrArg some unI_pack))
theorem shri (p : Pr) (imm : BitVec 13) (t : Target) : Statement (.shri p imm t) :=
  word rfl ((decodeOp_at (I_row ..) (I_col ..)).trans (congrArg some unI_pack))
theorem sari (p : Pr) (imm : BitVec 13) (t : Target) : Statement (.sari p imm t) :=
  word rfl ((decodeOp_at (I_row ..) (I_col ..)).trans (congrArg some unI_pack))
theorem teq (p : Pr) (u : Target) (t : Target) : Statement (.teq p u t) :=
  word rfl ((decodeOp_at (G_row ..) (G_col ..)).trans (congrArg some unG_pack))
theorem tne (p : Pr) (u : Target) (t : Target) : Statement (.tne p u t) :=
  word rfl ((decodeOp_at (G_row ..) (G_col ..)).trans (congrArg some unG_pack))
theorem tlt (p : Pr) (u : Target) (t : Target) : Statement (.tlt p u t) :=
  word rfl ((decodeOp_at (G_row ..) (G_col ..)).trans (congrArg some unG_pack))
theorem tle (p : Pr) (u : Target) (t : Target) : Statement (.tle p u t) :=
  word rfl ((decodeOp_at (G_row ..) (G_col ..)).trans (congrArg some unG_pack))
theorem tltu (p : Pr) (u : Target) (t : Target) : Statement (.tltu p u t) :=
  word rfl ((decodeOp_at (G_row ..) (G_col ..)).trans (congrArg some unG_pack))
theorem tleu (p : Pr) (u : Target) (t : Target) : Statement (.tleu p u t) :=
  word rfl ((decodeOp_at (G_row ..) (G_col ..)).trans (congrArg some unG_pack))
theorem teqi (p : Pr) (imm : BitVec 13) (t : Target) : Statement (.teqi p imm t) :=
  word rfl ((decodeOp_at (I_row ..) (I_col ..)).trans (congrArg some unI_pack))
theorem tnei (p : Pr) (imm : BitVec 13) (t : Target) : Statement (.tnei p imm t) :=
  word rfl ((decodeOp_at (I_row ..) (I_col ..)).trans (congrArg some unI_pack))
theorem tlti (p : Pr) (imm : BitVec 13) (t : Target) : Statement (.tlti p imm t) :=
  word rfl ((decodeOp_at (I_row ..) (I_col ..)).trans (congrArg some unI_pack))
theorem tlei (p : Pr) (imm : BitVec 13) (t : Target) : Statement (.tlei p imm t) :=
  word rfl ((decodeOp_at (I_row ..) (I_col ..)).trans (congrArg some unI_pack))
theorem fadd (p : Pr) (u : Target) (t : Target) : Statement (.fadd p u t) :=
  word rfl ((decodeOp_at (G_row ..) (G_col ..)).trans (congrArg some unG_pack))
theorem fsub (p : Pr) (u : Target) (t : Target) : Statement (.fsub p u t) :=
  word rfl ((decodeOp_at (G_row ..) (G_col ..)).trans (congrArg some unG_pack))
theorem fmul (p : Pr) (u : Target) (t : Target) : Statement (.fmul p u t) :=
  word rfl ((decodeOp_at (G_row ..) (G_col ..)).trans (congrArg some unG_pack))
theorem ffma (u : Target) (t : Target) : Statement (.ffma u t) :=
  word rfl ((decodeOp_at (G_row ..) (G_col ..)).trans (congrArg some unGT_pack))
theorem fdiv (p : Pr) (u : Target) (t : Target) : Statement (.fdiv p u t) :=
  word rfl ((decodeOp_at (G_row ..) (G_col ..)).trans (congrArg some unG_pack))
theorem fsqrt (p : Pr) (u : Target) (t : Target) : Statement (.fsqrt p u t) :=
  word rfl ((decodeOp_at (G_row ..) (G_col ..)).trans (congrArg some unG_pack))
theorem fmin (p : Pr) (u : Target) (t : Target) : Statement (.fmin p u t) :=
  word rfl ((decodeOp_at (G_row ..) (G_col ..)).trans (congrArg some unG_pack))
theorem fmax (p : Pr) (u : Target) (t : Target) : Statement (.fmax p u t) :=
  word rfl ((decodeOp_at (G_row ..) (G_col ..)).trans (congrArg some unG_pack))
theorem fabs (p : Pr) (u : Target) (t : Target) : Statement (.fabs p u t) :=
  word rfl ((decodeOp_at (G_row ..) (G_col ..)).trans (congrArg some unG_pack))
theorem fneg (p : Pr) (u : Target) (t : Target) : Statement (.fneg p u t) :=
  word rfl ((decodeOp_at (G_row ..) (G_col ..)).trans (congrArg some unG_pack))
theorem fcvt (p : Pr) (d : ElemType) (src : ElemType) (t : Target) : Statement (.fcvt p d src t) :=
  word rfl ((decodeOp_at (C_row ..) (C_col ..)).trans (congrArg some unGConv_pack))
theorem fclass (p : Pr) (u : Target) (t : Target) : Statement (.fclass p u t) :=
  word rfl ((decodeOp_at (G_row ..) (G_col ..)).trans (congrArg some unG_pack))
theorem feq (p : Pr) (u : Target) (t : Target) : Statement (.feq p u t) :=
  word rfl ((decodeOp_at (G_row ..) (G_col ..)).trans (congrArg some unG_pack))
theorem flt (p : Pr) (u : Target) (t : Target) : Statement (.flt p u t) :=
  word rfl ((decodeOp_at (G_row ..) (G_col ..)).trans (congrArg some unG_pack))
theorem fle (p : Pr) (u : Target) (t : Target) : Statement (.fle p u t) :=
  word rfl ((decodeOp_at (G_row ..) (G_col ..)).trans (congrArg some unG_pack))
theorem frnd (p : Pr) (u : Target) (t : Target) : Statement (.frnd p u t) :=
  word rfl ((decodeOp_at (G_row ..) (G_col ..)).trans (congrArg some unG_pack))
theorem vadd (p : Pr) (x : ElemType) (u : Target) (t : Target) : Statement (.vadd p x u t) :=
  word rfl ((decodeOp_at (G_row ..) (G_col ..)).trans (congrArg some unGX_pack))
theorem vsub (p : Pr) (x : ElemType) (u : Target) (t : Target) : Statement (.vsub p x u t) :=
  word rfl ((decodeOp_at (G_row ..) (G_col ..)).trans (congrArg some unGX_pack))
theorem vmul (p : Pr) (x : ElemType) (u : Target) (t : Target) : Statement (.vmul p x u t) :=
  word rfl ((decodeOp_at (G_row ..) (G_col ..)).trans (congrArg some unGX_pack))
theorem vfma (x : ElemType) (u : Target) (t : Target) : Statement (.vfma x u t) :=
  word rfl ((decodeOp_at (G_row ..) (G_col ..)).trans (congrArg some unGTX_pack))
theorem vfms (x : ElemType) (u : Target) (t : Target) : Statement (.vfms x u t) :=
  word rfl ((decodeOp_at (G_row ..) (G_col ..)).trans (congrArg some unGTX_pack))
theorem vdiv (p : Pr) (x : ElemType) (u : Target) (t : Target) : Statement (.vdiv p x u t) :=
  word rfl ((decodeOp_at (G_row ..) (G_col ..)).trans (congrArg some unGX_pack))
theorem vsqrt (p : Pr) (u : Target) (t : Target) : Statement (.vsqrt p u t) :=
  word rfl ((decodeOp_at (G_row ..) (G_col ..)).trans (congrArg some unG_pack))
theorem vmin (p : Pr) (x : ElemType) (u : Target) (t : Target) : Statement (.vmin p x u t) :=
  word rfl ((decodeOp_at (G_row ..) (G_col ..)).trans (congrArg some unGX_pack))
theorem vmax (p : Pr) (x : ElemType) (u : Target) (t : Target) : Statement (.vmax p x u t) :=
  word rfl ((decodeOp_at (G_row ..) (G_col ..)).trans (congrArg some unGX_pack))
theorem vabs (p : Pr) (x : ElemType) (u : Target) (t : Target) : Statement (.vabs p x u t) :=
  word rfl ((decodeOp_at (G_row ..) (G_col ..)).trans (congrArg some unGX_pack))
theorem vneg (p : Pr) (x : ElemType) (u : Target) (t : Target) : Statement (.vneg p x u t) :=
  word rfl ((decodeOp_at (G_row ..) (G_col ..)).trans (congrArg some unGX_pack))
theorem vadds (p : Pr) (x : ElemType) (u : Target) (t : Target) : Statement (.vadds p x u t) :=
  word rfl ((decodeOp_at (G_row ..) (G_col ..)).trans (congrArg some unGX_pack))
theorem vsubs (p : Pr) (x : ElemType) (u : Target) (t : Target) : Statement (.vsubs p x u t) :=
  word rfl ((decodeOp_at (G_row ..) (G_col ..)).trans (congrArg some unGX_pack))
theorem vmulh (p : Pr) (x : ElemType) (u : Target) (t : Target) : Statement (.vmulh p x u t) :=
  word rfl ((decodeOp_at (G_row ..) (G_col ..)).trans (congrArg some unGX_pack))
theorem vand (p : Pr) (x : ElemType) (u : Target) (t : Target) : Statement (.vand p x u t) :=
  word rfl ((decodeOp_at (G_row ..) (G_col ..)).trans (congrArg some unGX_pack))
theorem vor (p : Pr) (x : ElemType) (u : Target) (t : Target) : Statement (.vor p x u t) :=
  word rfl ((decodeOp_at (G_row ..) (G_col ..)).trans (congrArg some unGX_pack))
theorem vxor (p : Pr) (x : ElemType) (u : Target) (t : Target) : Statement (.vxor p x u t) :=
  word rfl ((decodeOp_at (G_row ..) (G_col ..)).trans (congrArg some unGX_pack))
theorem vshl (p : Pr) (x : ElemType) (u : Target) (t : Target) : Statement (.vshl p x u t) :=
  word rfl ((decodeOp_at (G_row ..) (G_col ..)).trans (congrArg some unGX_pack))
theorem vshr (p : Pr) (x : ElemType) (u : Target) (t : Target) : Statement (.vshr p x u t) :=
  word rfl ((decodeOp_at (G_row ..) (G_col ..)).trans (congrArg some unGX_pack))
theorem vsar (p : Pr) (x : ElemType) (u : Target) (t : Target) : Statement (.vsar p x u t) :=
  word rfl ((decodeOp_at (G_row ..) (G_col ..)).trans (congrArg some unGX_pack))
theorem vpopc (p : Pr) (x : ElemType) (u : Target) (t : Target) : Statement (.vpopc p x u t) :=
  word rfl ((decodeOp_at (G_row ..) (G_col ..)).trans (congrArg some unGX_pack))
theorem vclz (p : Pr) (x : ElemType) (u : Target) (t : Target) : Statement (.vclz p x u t) :=
  word rfl ((decodeOp_at (G_row ..) (G_col ..)).trans (congrArg some unGX_pack))
theorem vsel (x : ElemType) (u : Target) (t : Target) : Statement (.vsel x u t) :=
  word rfl ((decodeOp_at (G_row ..) (G_col ..)).trans (congrArg some unGTX_pack))
theorem vclamp (x : ElemType) (u : Target) (t : Target) : Statement (.vclamp x u t) :=
  word rfl ((decodeOp_at (G_row ..) (G_col ..)).trans (congrArg some unGTX_pack))
theorem vceq (p : Pr) (x : ElemType) (u : Target) (t : Target) : Statement (.vceq p x u t) :=
  word rfl ((decodeOp_at (G_row ..) (G_col ..)).trans (congrArg some unGX_pack))
theorem vclt (p : Pr) (x : ElemType) (u : Target) (t : Target) : Statement (.vclt p x u t) :=
  word rfl ((decodeOp_at (G_row ..) (G_col ..)).trans (congrArg some unGX_pack))
theorem vcle (p : Pr) (x : ElemType) (u : Target) (t : Target) : Statement (.vcle p x u t) :=
  word rfl ((decodeOp_at (G_row ..) (G_col ..)).trans (congrArg some unGX_pack))
theorem vexp2 (p : Pr) (u : Target) (t : Target) : Statement (.vexp2 p u t) :=
  word rfl ((decodeOp_at (G_row ..) (G_col ..)).trans (congrArg some unG_pack))
theorem vlog2 (p : Pr) (u : Target) (t : Target) : Statement (.vlog2 p u t) :=
  word rfl ((decodeOp_at (G_row ..) (G_col ..)).trans (congrArg some unG_pack))
theorem vrcp (p : Pr) (u : Target) (t : Target) : Statement (.vrcp p u t) :=
  word rfl ((decodeOp_at (G_row ..) (G_col ..)).trans (congrArg some unG_pack))
theorem vrsq (p : Pr) (u : Target) (t : Target) : Statement (.vrsq p u t) :=
  word rfl ((decodeOp_at (G_row ..) (G_col ..)).trans (congrArg some unG_pack))
theorem vtanh (p : Pr) (u : Target) (t : Target) : Statement (.vtanh p u t) :=
  word rfl ((decodeOp_at (G_row ..) (G_col ..)).trans (congrArg some unG_pack))
theorem vrnd (p : Pr) (x : ElemType) (u : Target) (t : Target) : Statement (.vrnd p x u t) :=
  word rfl ((decodeOp_at (G_row ..) (G_col ..)).trans (congrArg some unGX_pack))
theorem vcvtf (p : Pr) (d : ElemType) (src : ElemType) (t : Target) : Statement (.vcvtf p d src t) :=
  word rfl ((decodeOp_at (C_row ..) (C_col ..)).trans (congrArg some unGConv_pack))
theorem vcvtt (p : Pr) (d : ElemType) (src : ElemType) (t : Target) : Statement (.vcvtt p d src t) :=
  word rfl ((decodeOp_at (C_row ..) (C_col ..)).trans (congrArg some unGConv_pack))
theorem vpack4 (p : Pr) (u : Target) (t : Target) : Statement (.vpack4 p u t) :=
  word rfl ((decodeOp_at (G_row ..) (G_col ..)).trans (congrArg some unGF_pack))
theorem vunpk4 (p : Pr) (u : Target) (t : Target) : Statement (.vunpk4 p u t) :=
  word rfl ((decodeOp_at (G_row ..) (G_col ..)).trans (congrArg some unGF_pack))
theorem vpack6 (p : Pr) (u : Target) (t : Target) : Statement (.vpack6 p u t) :=
  word rfl ((decodeOp_at (G_row ..) (G_col ..)).trans (congrArg some unGF_pack))
theorem vunpk6 (p : Pr) (u : Target) (t : Target) : Statement (.vunpk6 p u t) :=
  word rfl ((decodeOp_at (G_row ..) (G_col ..)).trans (congrArg some unGF_pack))
theorem vbcast (p : Pr) (x : ElemType) (u : Target) (t : Target) : Statement (.vbcast p x u t) :=
  word rfl ((decodeOp_at (G_row ..) (G_col ..)).trans (congrArg some unGX_pack))
theorem vins (p : Pr) (x : ElemType) (u : Target) (t : Target) : Statement (.vins p x u t) :=
  word rfl ((decodeOp_at (G_row ..) (G_col ..)).trans (congrArg some unGX_pack))
theorem vext (p : Pr) (x : ElemType) (u : Target) (t : Target) : Statement (.vext p x u t) :=
  word rfl ((decodeOp_at (G_row ..) (G_col ..)).trans (congrArg some unGX_pack))
theorem vshuf (p : Pr) (x : ElemType) (u : Target) (t : Target) : Statement (.vshuf p x u t) :=
  word rfl ((decodeOp_at (G_row ..) (G_col ..)).trans (congrArg some unGX_pack))
theorem vrot (p : Pr) (x : ElemType) (u : Target) (t : Target) : Statement (.vrot p x u t) :=
  word rfl ((decodeOp_at (G_row ..) (G_col ..)).trans (congrArg some unGX_pack))
theorem viota (p : Pr) (x : ElemType) (u : Target) (t : Target) : Statement (.viota p x u t) :=
  word rfl ((decodeOp_at (G_row ..) (G_col ..)).trans (congrArg some unGX_pack))
theorem vredsum (p : Pr) (x : ElemType) (u : Target) (t : Target) : Statement (.vredsum p x u t) :=
  word rfl ((decodeOp_at (G_row ..) (G_col ..)).trans (congrArg some unGX_pack))
theorem vredmax (p : Pr) (x : ElemType) (u : Target) (t : Target) : Statement (.vredmax p x u t) :=
  word rfl ((decodeOp_at (G_row ..) (G_col ..)).trans (congrArg some unGX_pack))
theorem vredmin (p : Pr) (x : ElemType) (u : Target) (t : Target) : Statement (.vredmin p x u t) :=
  word rfl ((decodeOp_at (G_row ..) (G_col ..)).trans (congrArg some unGX_pack))
theorem vredand (p : Pr) (x : ElemType) (u : Target) (t : Target) : Statement (.vredand p x u t) :=
  word rfl ((decodeOp_at (G_row ..) (G_col ..)).trans (congrArg some unGX_pack))
theorem vredor (p : Pr) (x : ElemType) (u : Target) (t : Target) : Statement (.vredor p x u t) :=
  word rfl ((decodeOp_at (G_row ..) (G_col ..)).trans (congrArg some unGX_pack))
theorem vargmax (p : Pr) (x : ElemType) (u : Target) (t : Target) : Statement (.vargmax p x u t) :=
  word rfl ((decodeOp_at (G_row ..) (G_col ..)).trans (congrArg some unGX_pack))
theorem vscan (p : Pr) (x : ElemType) (u : Target) (t : Target) : Statement (.vscan p x u t) :=
  word rfl ((decodeOp_at (G_row ..) (G_col ..)).trans (congrArg some unGX_pack))
theorem vdotf (p : Pr) (x : ElemType) (u : Target) (t : Target) : Statement (.vdotf p x u t) :=
  word rfl ((decodeOp_at (G_row ..) (G_col ..)).trans (congrArg some unGX_pack))
theorem vmaskpop (p : Pr) (x : ElemType) (u : Target) (t : Target) : Statement (.vmaskpop p x u t) :=
  word rfl ((decodeOp_at (G_row ..) (G_col ..)).trans (congrArg some unGX_pack))
theorem vrand (p : Pr) (x : ElemType) (u : Target) (t : Target) : Statement (.vrand p x u t) :=
  word rfl ((decodeOp_at (G_row ..) (G_col ..)).trans (congrArg some unGX_pack))
theorem vdraw (p : Pr) (x : ElemType) (u : Target) (t : Target) : Statement (.vdraw p x u t) :=
  word rfl ((decodeOp_at (G_row ..) (G_col ..)).trans (congrArg some unGX_pack))
theorem vdrawm (p : Pr) (u : Target) (t : Target) : Statement (.vdrawm p u t) :=
  word rfl ((decodeOp_at (G_row ..) (G_col ..)).trans (congrArg some unG_pack))
theorem vldexp (p : Pr) (x : ElemType) (u : Target) (t : Target) : Statement (.vldexp p x u t) :=
  word rfl ((decodeOp_at (G_row ..) (G_col ..)).trans (congrArg some unGX_pack))
theorem vzip (p : Pr) (x : ElemType) (u : Target) (t : Target) : Statement (.vzip p x u t) :=
  word rfl ((decodeOp_at (G_row ..) (G_col ..)).trans (congrArg some unGX_pack))
theorem vunzip (p : Pr) (x : ElemType) (u : Target) (t : Target) : Statement (.vunzip p x u t) :=
  word rfl ((decodeOp_at (G_row ..) (G_col ..)).trans (congrArg some unGX_pack))
theorem ldb (p : Pr) (lsid : BitVec 7) (imm : BitVec 6) (t : Target) : Statement (.ldb p lsid imm t) :=
  word rfl ((decodeOp_at (L_row ..) (L_col ..)).trans (congrArg some unL_pack))
theorem ldbu (p : Pr) (lsid : BitVec 7) (imm : BitVec 6) (t : Target) : Statement (.ldbu p lsid imm t) :=
  word rfl ((decodeOp_at (L_row ..) (L_col ..)).trans (congrArg some unL_pack))
theorem ldh (p : Pr) (lsid : BitVec 7) (imm : BitVec 6) (t : Target) : Statement (.ldh p lsid imm t) :=
  word rfl ((decodeOp_at (L_row ..) (L_col ..)).trans (congrArg some unL_pack))
theorem ldhu (p : Pr) (lsid : BitVec 7) (imm : BitVec 6) (t : Target) : Statement (.ldhu p lsid imm t) :=
  word rfl ((decodeOp_at (L_row ..) (L_col ..)).trans (congrArg some unL_pack))
theorem ldw (p : Pr) (lsid : BitVec 7) (imm : BitVec 6) (t : Target) : Statement (.ldw p lsid imm t) :=
  word rfl ((decodeOp_at (L_row ..) (L_col ..)).trans (congrArg some unL_pack))
theorem ldwu (p : Pr) (lsid : BitVec 7) (imm : BitVec 6) (t : Target) : Statement (.ldwu p lsid imm t) :=
  word rfl ((decodeOp_at (L_row ..) (L_col ..)).trans (congrArg some unL_pack))
theorem ldd (p : Pr) (lsid : BitVec 7) (imm : BitVec 6) (t : Target) : Statement (.ldd p lsid imm t) :=
  word rfl ((decodeOp_at (L_row ..) (L_col ..)).trans (congrArg some unL_pack))
theorem stb (p : Pr) (lsid : BitVec 7) (imm : BitVec 15) : Statement (.stb p lsid imm) :=
  word rfl ((decodeOp_at (S_row ..) (S_col ..)).trans (congrArg some unS_pack))
theorem sth (p : Pr) (lsid : BitVec 7) (imm : BitVec 15) : Statement (.sth p lsid imm) :=
  word rfl ((decodeOp_at (S_row ..) (S_col ..)).trans (congrArg some unS_pack))
theorem stw (p : Pr) (lsid : BitVec 7) (imm : BitVec 15) : Statement (.stw p lsid imm) :=
  word rfl ((decodeOp_at (S_row ..) (S_col ..)).trans (congrArg some unS_pack))
theorem std (p : Pr) (lsid : BitVec 7) (imm : BitVec 15) : Statement (.std p lsid imm) :=
  word rfl ((decodeOp_at (S_row ..) (S_col ..)).trans (congrArg some unS_pack))
theorem ldv (p : Pr) (lsid : BitVec 7) (imm : BitVec 6) (t : Target) : Statement (.ldv p lsid imm t) :=
  word rfl ((decodeOp_at (L_row ..) (L_col ..)).trans (congrArg some unL_pack))
theorem stv (p : Pr) (lsid : BitVec 7) (imm : BitVec 15) : Statement (.stv p lsid imm) :=
  word rfl ((decodeOp_at (S_row ..) (S_col ..)).trans (congrArg some unS_pack))
theorem ldvx (p : Pr) (lsid : BitVec 7) (t : Target) : Statement (.ldvx p lsid t) :=
  word rfl ((decodeOp_at (L_row ..) (L_col ..)).trans (congrArg some unLX_pack))
theorem stvx (lsid : BitVec 7) (imm : BitVec 15) : Statement (.stvx lsid imm) :=
  word rfl ((decodeOp_at (S_row ..) (S_col ..)).trans (congrArg some unST_pack))
theorem sld (p : Pr) (lsid : BitVec 7) (mode : BitVec 3) (t : Target) : Statement (.sld p lsid mode t) :=
  word rfl ((decodeOp_at (A_row ..) (A_col ..)).trans (congrArg some unAMT_pack))
theorem sst (p : Pr) (lsid : BitVec 7) (mode : BitVec 3) : Statement (.sst p lsid mode) :=
  word rfl ((decodeOp_at (A_row ..) (A_col ..)).trans (congrArg some unAM_pack))
theorem sldv (p : Pr) (lsid : BitVec 7) (mode : BitVec 3) (t : Target) : Statement (.sldv p lsid mode t) :=
  word rfl ((decodeOp_at (A_row ..) (A_col ..)).trans (congrArg some unAMT_pack))
theorem sstv (p : Pr) (lsid : BitVec 7) (mode : BitVec 3) : Statement (.sstv p lsid mode) :=
  word rfl ((decodeOp_at (A_row ..) (A_col ..)).trans (congrArg some unAM_pack))
theorem amoi (p : Pr) (lsid : BitVec 7) (mode : BitVec 3) (un : Bool) (t : Target) : Statement (.amoi p lsid mode un t) :=
  word rfl ((decodeOp_at (A_row ..) (A_col ..)).trans (congrArg some unAMUT_pack))
theorem amow (p : Pr) (lsid : BitVec 7) (mode : BitVec 3) (un : Bool) (t : Target) : Statement (.amow p lsid mode un t) :=
  word rfl ((decodeOp_at (A_row ..) (A_col ..)).trans (congrArg some unAMUT_pack))
theorem amof (p : Pr) (lsid : BitVec 7) (mode : BitVec 3) (t : Target) : Statement (.amof p lsid mode t) :=
  word rfl ((decodeOp_at (A_row ..) (A_col ..)).trans (congrArg some unAMT_pack))
theorem cas (lsid : BitVec 7) (mode : BitVec 3) (t : Target) : Statement (.cas lsid mode t) :=
  word rfl ((decodeOp_at (A_row ..) (A_col ..)).trans (congrArg some unATern_pack))
theorem redi (p : Pr) (lsid : BitVec 7) (mode : BitVec 3) (un : Bool) : Statement (.redi p lsid mode un) :=
  word rfl ((decodeOp_at (A_row ..) (A_col ..)).trans (congrArg some unAMU_pack))
theorem redw (p : Pr) (lsid : BitVec 7) (mode : BitVec 3) (un : Bool) : Statement (.redw p lsid mode un) :=
  word rfl ((decodeOp_at (A_row ..) (A_col ..)).trans (congrArg some unAMU_pack))
theorem redf (p : Pr) (lsid : BitVec 7) (mode : BitVec 3) : Statement (.redf p lsid mode) :=
  word rfl ((decodeOp_at (A_row ..) (A_col ..)).trans (congrArg some unAM_pack))
theorem redb (p : Pr) (lsid : BitVec 7) (mode : BitVec 3) (x3 : BitVec 3) : Statement (.redb p lsid mode x3) :=
  word rfl ((decodeOp_at (A_row ..) (A_col ..)).trans (congrArg some unAMX_pack))
theorem redo (p : Pr) (lsid : BitVec 7) : Statement (.redo p lsid) :=
  word rfl ((decodeOp_at (A_row ..) (A_col ..)).trans (congrArg some unA_pack))
theorem drawm (p : Pr) (lsid : BitVec 7) : Statement (.drawm p lsid) :=
  word rfl ((decodeOp_at (A_row ..) (A_col ..)).trans (congrArg some unA_pack))
theorem fence (p : Pr) (lsid : BitVec 7) (x3 : BitVec 3) : Statement (.fence p lsid x3) :=
  word rfl ((decodeOp_at (A_row ..) (A_col ..)).trans (congrArg some unAX_pack))
theorem flushl (p : Pr) (lsid : BitVec 7) (imm : BitVec 15) : Statement (.flushl p lsid imm) :=
  word rfl ((decodeOp_at (S_row ..) (S_col ..)).trans (congrArg some unS_pack))
theorem pref (p : Pr) (lsid : BitVec 7) (imm : BitVec 6) : Statement (.pref p lsid imm) :=
  word rfl ((decodeOp_at (L_row ..) (L_col ..)).trans (congrArg some unL0_pack))
theorem cpy (p : Pr) (lsid : BitVec 7) : Statement (.cpy p lsid) :=
  word rfl ((decodeOp_at (A_row ..) (A_col ..)).trans (congrArg some unA_pack))
theorem cpys (p : Pr) (lsid : BitVec 7) : Statement (.cpys p lsid) :=
  word rfl ((decodeOp_at (A_row ..) (A_col ..)).trans (congrArg some unA_pack))
theorem cpyr (p : Pr) (lsid : BitVec 7) (mode : BitVec 3) (x3 : BitVec 3) : Statement (.cpyr p lsid mode x3) :=
  word rfl ((decodeOp_at (A_row ..) (A_col ..)).trans (congrArg some unAMX_pack))
theorem cpyb (p : Pr) (lsid : BitVec 7) : Statement (.cpyb p lsid) :=
  word rfl ((decodeOp_at (A_row ..) (A_col ..)).trans (congrArg some unA_pack))
theorem cpyq (p : Pr) (lsid : BitVec 7) (t : Target) : Statement (.cpyq p lsid t) :=
  word rfl ((decodeOp_at (A_row ..) (A_col ..)).trans (congrArg some unAT_pack))
theorem cwaita (p : Pr) (lsid : BitVec 7) (t : Target) : Statement (.cwaita p lsid t) :=
  word rfl ((decodeOp_at (A_row ..) (A_col ..)).trans (congrArg some unAT_pack))
theorem cwaitl (p : Pr) (lsid : BitVec 7) (t : Target) : Statement (.cwaitl p lsid t) :=
  word rfl ((decodeOp_at (A_row ..) (A_col ..)).trans (congrArg some unAT_pack))
theorem cfind (p : Pr) (lsid : BitVec 7) (t : Target) : Statement (.cfind p lsid t) :=
  word rfl ((decodeOp_at (A_row ..) (A_col ..)).trans (congrArg some unAT_pack))
theorem ctclr (p : Pr) (lsid : BitVec 7) : Statement (.ctclr p lsid) :=
  word rfl ((decodeOp_at (A_row ..) (A_col ..)).trans (congrArg some unA_pack))
theorem mwait (p : Pr) (lsid : BitVec 7) (t : Target) : Statement (.mwait p lsid t) :=
  word rfl ((decodeOp_at (A_row ..) (A_col ..)).trans (congrArg some unAT_pack))
theorem spush (p : Pr) (lsid : BitVec 7) (port : BitVec 2) : Statement (.spush p lsid port) :=
  word rfl ((decodeOp_at (A_row ..) (A_col ..)).trans (congrArg some unAN_pack))
theorem spop (p : Pr) (lsid : BitVec 7) (port : BitVec 2) (t : Target) : Statement (.spop p lsid port t) :=
  word rfl ((decodeOp_at (A_row ..) (A_col ..)).trans (congrArg some unANT_pack))
theorem speek (p : Pr) (lsid : BitVec 7) (port : BitVec 2) (t : Target) : Statement (.speek p lsid port t) :=
  word rfl ((decodeOp_at (A_row ..) (A_col ..)).trans (congrArg some unANT_pack))
theorem seos (p : Pr) (lsid : BitVec 7) (mode : BitVec 3) (port : BitVec 2) : Statement (.seos p lsid mode port) :=
  word rfl ((decodeOp_at (A_row ..) (A_col ..)).trans (congrArg some unAMN_pack))
theorem sstat (p : Pr) (lsid : BitVec 7) (mode : BitVec 3) (port : BitVec 2) (t : Target) : Statement (.sstat p lsid mode port t) :=
  word rfl ((decodeOp_at (A_row ..) (A_col ..)).trans (congrArg some unAMNT_pack))
theorem bload (p : Pr) (lsid : BitVec 7) (arr : BitVec 2) : Statement (.bload p lsid arr) :=
  word rfl ((decodeOp_at (A_row ..) (A_col ..)).trans (congrArg some unAR_pack))
theorem bswap (p : Pr) (lsid : BitVec 7) (arr : BitVec 2) (arr2 : BitVec 2) : Statement (.bswap p lsid arr arr2) :=
  word rfl ((decodeOp_at (A_row ..) (A_col ..)).trans (congrArg some unARR_pack))
theorem bclr (p : Pr) (lsid : BitVec 7) (arr : BitVec 2) : Statement (.bclr p lsid arr) :=
  word rfl ((decodeOp_at (A_row ..) (A_col ..)).trans (congrArg some unAR_pack))
theorem mma (p : Pr) (lsid : BitVec 7) (arr : BitVec 2) (acc : BitVec 2) : Statement (.mma p lsid arr acc) :=
  word rfl ((decodeOp_at (A_row ..) (A_col ..)).trans (congrArg some unARR_pack))
theorem mmat (p : Pr) (lsid : BitVec 7) (arr : BitVec 2) (acc : BitVec 2) : Statement (.mmat p lsid arr acc) :=
  word rfl ((decodeOp_at (A_row ..) (A_col ..)).trans (congrArg some unARR_pack))
theorem mmaa (p : Pr) (lsid : BitVec 7) (arr : BitVec 2) (acc : BitVec 2) : Statement (.mmaa p lsid arr acc) :=
  word rfl ((decodeOp_at (A_row ..) (A_col ..)).trans (congrArg some unARR_pack))
theorem accz (p : Pr) (lsid : BitVec 7) (acc : BitVec 2) : Statement (.accz p lsid acc) :=
  word rfl ((decodeOp_at (A_row ..) (A_col ..)).trans (congrArg some unAN_pack))
theorem accrd (p : Pr) (lsid : BitVec 7) (acc : BitVec 2) (t : Target) : Statement (.accrd p lsid acc t) :=
  word rfl ((decodeOp_at (A_row ..) (A_col ..)).trans (congrArg some unANT_pack))
theorem accwr (p : Pr) (lsid : BitVec 7) (acc : BitVec 2) : Statement (.accwr p lsid acc) :=
  word rfl ((decodeOp_at (A_row ..) (A_col ..)).trans (congrArg some unAN_pack))
theorem accst (p : Pr) (lsid : BitVec 7) (acc : BitVec 2) : Statement (.accst p lsid acc) :=
  word rfl ((decodeOp_at (A_row ..) (A_col ..)).trans (congrArg some unAN_pack))
theorem accstat (p : Pr) (lsid : BitVec 7) (acc : BitVec 2) : Statement (.accstat p lsid acc) :=
  word rfl ((decodeOp_at (A_row ..) (A_col ..)).trans (congrArg some unAN_pack))
theorem accscl (p : Pr) (lsid : BitVec 7) (mode : BitVec 3) (acc : BitVec 2) : Statement (.accscl p lsid mode acc) :=
  word rfl ((decodeOp_at (A_row ..) (A_col ..)).trans (congrArg some unAMN_pack))
theorem msync (p : Pr) (lsid : BitVec 7) (t : Target) : Statement (.msync p lsid t) :=
  word rfl ((decodeOp_at (A_row ..) (A_col ..)).trans (congrArg some unAT_pack))
theorem dec (p : Pr) (lsid : BitVec 7) : Statement (.dec p lsid) :=
  word rfl ((decodeOp_at (A_row ..) (A_col ..)).trans (congrArg some unA_pack))
theorem spawn (p : Pr) (lsid : BitVec 7) : Statement (.spawn p lsid) :=
  word rfl ((decodeOp_at (A_row ..) (A_col ..)).trans (congrArg some unA_pack))
theorem send (p : Pr) (lsid : BitVec 7) : Statement (.send p lsid) :=
  word rfl ((decodeOp_at (A_row ..) (A_col ..)).trans (congrArg some unA_pack))
theorem bind_ (p : Pr) (lsid : BitVec 7) : Statement (.bind_ p lsid) :=
  word rfl ((decodeOp_at (A_row ..) (A_col ..)).trans (congrArg some unA_pack))
theorem unbind (p : Pr) (lsid : BitVec 7) : Statement (.unbind p lsid) :=
  word rfl ((decodeOp_at (A_row ..) (A_col ..)).trans (congrArg some unA_pack))
theorem ropejoin (p : Pr) (lsid : BitVec 7) (t : Target) : Statement (.ropejoin p lsid t) :=
  word rfl ((decodeOp_at (A_row ..) (A_col ..)).trans (congrArg some unAT_pack))
theorem ropeleave (p : Pr) (lsid : BitVec 7) : Statement (.ropeleave p lsid) :=
  word rfl ((decodeOp_at (A_row ..) (A_col ..)).trans (congrArg some unA_pack))
theorem ropearr (p : Pr) (lsid : BitVec 7) : Statement (.ropearr p lsid) :=
  word rfl ((decodeOp_at (A_row ..) (A_col ..)).trans (congrArg some unA_pack))
theorem ropewait (p : Pr) (lsid : BitVec 7) (t : Target) : Statement (.ropewait p lsid t) :=
  word rfl ((decodeOp_at (A_row ..) (A_col ..)).trans (congrArg some unAT_pack))
theorem ropesz (p : Pr) (lsid : BitVec 7) (t : Target) : Statement (.ropesz p lsid t) :=
  word rfl ((decodeOp_at (A_row ..) (A_col ..)).trans (congrArg some unAT_pack))
theorem csrr (p : Pr) (num : BitVec 12) (t : Target) : Statement (.csrr p num t) :=
  word rfl ((decodeOp_at (I_row ..) (I_col ..)).trans (congrArg some unICsr_pack))
theorem csrw (p : Pr) (num : BitVec 12) (t : Target) : Statement (.csrw p num t) :=
  word rfl ((decodeOp_at (I_row ..) (I_col ..)).trans (congrArg some unICsr_pack))
theorem csrs (p : Pr) (num : BitVec 12) (t : Target) : Statement (.csrs p num t) :=
  word rfl ((decodeOp_at (I_row ..) (I_col ..)).trans (congrArg some unICsr_pack))
theorem csrc (p : Pr) (num : BitVec 12) (t : Target) : Statement (.csrc p num t) :=
  word rfl ((decodeOp_at (I_row ..) (I_col ..)).trans (congrArg some unICsr_pack))
theorem rand (p : Pr) (u : Target) (t : Target) : Statement (.rand p u t) :=
  word rfl ((decodeOp_at (G_row ..) (G_col ..)).trans (congrArg some unG_pack))
theorem time_ (p : Pr) (u : Target) (t : Target) : Statement (.time_ p u t) :=
  word rfl ((decodeOp_at (G_row ..) (G_col ..)).trans (congrArg some unG_pack))
theorem ispois (p : Pr) (u : Target) (t : Target) : Statement (.ispois p u t) :=
  word rfl ((decodeOp_at (G_row ..) (G_col ..)).trans (congrArg some unG_pack))
theorem chkl (p : Pr) (u : Target) (t : Target) : Statement (.chkl p u t) :=
  word rfl ((decodeOp_at (G_row ..) (G_col ..)).trans (congrArg some unG_pack))
theorem pmark (p : Pr) (u : Target) (t : Target) : Statement (.pmark p u t) :=
  word rfl ((decodeOp_at (G_row ..) (G_col ..)).trans (congrArg some unG_pack))
theorem pitchFetch (tile : Nat) : Statement (.pitchFetch tile) := event rfl
theorem pitchExhaustion (tile : Nat) : Statement (.pitchExhaustion tile) := event rfl
theorem immediateAccessComplete (tile : Nat) : Statement (.immediateAccessComplete tile) := event rfl
theorem syncAccessArrive (tile : Nat) : Statement (.syncAccessArrive tile) := event rfl
theorem retryListBusyResend (tile : Nat) : Statement (.retryListBusyResend tile) := event rfl
theorem memoryResponse (tile slot : Nat) : Statement (.memoryResponse tile slot) := event rfl
theorem uncorrectableError (site : ErrorSite) : Statement (.uncorrectableError site) := event rfl
theorem watchdogExpiry (tile : Nat) : Statement (.watchdogExpiry tile) := event rfl
theorem waitWithdrawal (tile : Nat) : Statement (.waitWithdrawal tile) := event rfl
theorem commitChecks (tile : Nat) : Statement (.commitChecks tile) := event rfl
theorem handover (tile : Nat) : Statement (.handover tile) := event rfl
theorem publicationStep2 (pub k : Nat) : Statement (.publicationStep2 pub k) := event rfl
theorem publicationStep3 (pub : Nat) : Statement (.publicationStep3 pub) := event rfl
theorem taskRetired (pub : Nat) : Statement (.taskRetired pub) := event rfl
theorem twinDigestCompare (inst idx : Nat) : Statement (.twinDigestCompare inst idx) := event rfl
theorem decrementApply (k : Nat) : Statement (.decrementApply k) := event rfl
theorem placement (die : Nat) (reports : Bool) : Statement (.placement die reports) := event rfl
theorem crossDiePlacement (die : Nat) : Statement (.crossDiePlacement die) := event rfl
theorem taskRunnable (tile : Nat) (inst idx : Nat) : Statement (.taskRunnable tile inst idx) := event rfl
theorem taskStart (tile : Nat) : Statement (.taskStart tile) := event rfl
theorem copyElementTranslate (copy : Nat) : Statement (.copyElementTranslate copy) := event rfl
theorem copyElementComplete (copy elem : Nat) : Statement (.copyElementComplete copy elem) := event rfl
theorem copyStampWrite (copy : Nat) : Statement (.copyStampWrite copy) := event rfl
theorem copyComplete (copy : Nat) : Statement (.copyComplete copy) := event rfl
theorem reductionApply (pub k : Nat) : Statement (.reductionApply pub k) := event rfl
theorem orderedContributionArrive (k : Nat) : Statement (.orderedContributionArrive k) := event rfl
theorem orderedBusyResend (k : Nat) : Statement (.orderedBusyResend k) := event rfl
theorem streamPacketArrive (tile port : Nat) (good : Bool) : Statement (.streamPacketArrive tile port good) := event rfl
theorem streamAcknowledge (tile port : Nat) : Statement (.streamAcknowledge tile port) := event rfl
theorem streamResendRequest (tile port : Nat) : Statement (.streamResendRequest tile port) := event rfl
theorem matrixOpStart (tile : Nat) : Statement (.matrixOpStart tile) := event rfl
theorem matrixOpComplete (tile k : Nat) : Statement (.matrixOpComplete tile k) := event rfl
theorem armedMmaRow (tile k : Nat) : Statement (.armedMmaRow tile k) := event rfl
theorem faultRecordHeldWrite (ctx : BitVec 32) : Statement (.faultRecordHeldWrite ctx) := event rfl
theorem ringPoll (ctx : BitVec 32) (queue : Nat) : Statement (.ringPoll ctx queue) := event rfl
theorem launchNotify (ctx : BitVec 32) (queue : Nat) : Statement (.launchNotify ctx queue) := event rfl
theorem instanceCreate (k : Nat) : Statement (.instanceCreate k) := event rfl
theorem messageAccept (k : Nat) : Statement (.messageAccept k) := event rfl
theorem handlerDelivery (ctx : BitVec 32) (mbox : Nat) : Statement (.handlerDelivery ctx mbox) := event rfl
theorem mailboxOverflow (k : Nat) : Statement (.mailboxOverflow k) := event rfl
theorem ropeArrival (k : Nat) : Statement (.ropeArrival k) := event rfl
theorem svcLog (tile : Nat) : Statement (.svcLog tile) := event rfl
theorem svcTlbinv (tile : Nat) : Statement (.svcTlbinv tile) := event rfl
theorem svcResume (tile : Nat) : Statement (.svcResume tile) := event rfl
theorem svcMigrate (tile : Nat) : Statement (.svcMigrate tile) := event rfl
theorem invalidationComplete (k : Nat) : Statement (.invalidationComplete k) := event rfl
theorem translationWalk (tile : Nat) (ctx : BitVec 32) (va : BitVec 64) : Statement (.translationWalk tile ctx va) := event rfl
theorem quiescenceWave (ctx : BitVec 32) : Statement (.quiescenceWave ctx) := event rfl
theorem wearIntervalEnd (tile : Nat) : Statement (.wearIntervalEnd tile) := event rfl
theorem monitorSample (tile : Nat) (bti : List Nat) (rates : List Nat) : Statement (.monitorSample tile bti rates) := event rfl
theorem drainedTimeout (tile : Nat) : Statement (.drainedTimeout tile) := event rfl
theorem infieldTestStart (cluster : Nat) : Statement (.infieldTestStart cluster) := event rfl
theorem infieldTestResult (cluster : Nat) (failed : BitVec 16) (shared : Bool) : Statement (.infieldTestResult cluster failed shared) := event rfl
theorem clusterRetire (cluster : Nat) (spareFailed : BitVec 16) : Statement (.clusterRetire cluster spareFailed) := event rfl
theorem lifetimeRecordWrite : Statement .lifetimeRecordWrite := event rfl
theorem drainComplete (k : Nat) : Statement (.drainComplete k) := event rfl
theorem spillPlaceFreed (tile : Nat) : Statement (.spillPlaceFreed tile) := event rfl
theorem thermalThreshold (cluster : Nat) (celsius : Nat) : Statement (.thermalThreshold cluster celsius) := event rfl
theorem powerCapWindow (watts : Nat) (lowered : List Nat) : Statement (.powerCapWindow watts lowered) := event rfl
theorem clusterClockGate (cluster : Nat) : Statement (.clusterClockGate cluster) := event rfl
theorem ctxCreate (port session : Nat) : Statement (.ctxCreate port session) := event rfl
theorem ctxDestroy (port session : Nat) : Statement (.ctxDestroy port session) := event rfl
theorem ctxSet (port session : Nat) : Statement (.ctxSet port session) := event rfl
theorem sliceAssign (port session : Nat) : Statement (.sliceAssign port session) := event rfl
theorem qcbSet (port session : Nat) : Statement (.qcbSet port session) := event rfl
theorem hostTlbinv (port session : Nat) : Statement (.hostTlbinv port session) := event rfl
theorem drainFor (port session : Nat) : Statement (.drainFor port session) := event rfl
theorem restore (port session : Nat) (margin : Nat) : Statement (.restore port session margin) := event rfl
theorem traceSet (port session : Nat) : Statement (.traceSet port session) := event rfl
theorem tableRegion (port session : Nat) : Statement (.tableRegion port session) := event rfl
theorem counterRead (port session : Nat) : Statement (.counterRead port session) := event rfl
theorem podAttach (port session : Nat) : Statement (.podAttach port session) := event rfl
theorem attest (port session : Nat) : Statement (.attest port session) := event rfl
theorem hostRead (port session : Nat) (addr : BitVec 64) (len : Nat) : Statement (.hostRead port session addr len) := event rfl
theorem hostWrite (port session : Nat) (addr : BitVec 64) (bytes : List Byte) : Statement (.hostWrite port session addr bytes) := event rfl
theorem peerAccess (port : Nat) (addr : BitVec 64) (req : PeerPacket) : Statement (.peerAccess port addr req) := event rfl
theorem getVersion (side : SpdmEnd) : Statement (.getVersion side) := event rfl
theorem getCapabilities (side : SpdmEnd) : Statement (.getCapabilities side) := event rfl
theorem negotiateAlgorithms (offer : SpdmOffer) : Statement (.negotiateAlgorithms offer) := event rfl
theorem getDigests (side : SpdmEnd) : Statement (.getDigests side) := event rfl
theorem getCertificate (side : SpdmEnd) : Statement (.getCertificate side) := event rfl
theorem challenge (side : SpdmEnd) (nonce : BitVec 256) : Statement (.challenge side nonce) := event rfl
theorem getMeasurements (side : SpdmEnd) (nonce : BitVec 256) : Statement (.getMeasurements side nonce) := event rfl
theorem keyExchange (side : SpdmEnd) : Statement (.keyExchange side) := event rfl
theorem finish (side : SpdmEnd) (session : Nat) (good : Bool) : Statement (.finish side session good) := event rfl
theorem keyUpdate (side : SpdmEnd) (session : Nat) (good : Bool) : Statement (.keyUpdate side session good) := event rfl
theorem endSession (side : SpdmEnd) (session : Nat) : Statement (.endSession side session) := event rfl
theorem lockPort (port : PortSel) (session : Nat) : Statement (.lockPort port session) := event rfl
theorem startPort (port : PortSel) (session : Nat) : Statement (.startPort port session) := event rfl
theorem stopPort (port : PortSel) : Statement (.stopPort port) := event rfl
theorem portConfigChange (port : PortSel) (change : PortChange) : Statement (.portConfigChange port change) := event rfl
theorem linkReplay (port : PortSel) (what : ReplayOf) (failed : Bool) : Statement (.linkReplay port what failed) := event rfl
theorem linkReset (port : PortSel) : Statement (.linkReset port) := event rfl
theorem supplyGood : Statement .supplyGood := event rfl
theorem managementReset : Statement .managementReset := event rfl
theorem microcodeLoad (version : Nat) (digest : BitVec 256) (weights : Option (BitVec 128)) (good : Bool) : Statement (.microcodeLoad version digest weights good) := event rfl
theorem debugToken (good : Bool) : Statement (.debugToken good) := event rfl
theorem freeze : Statement .freeze := event rfl
theorem frzNAssert (cycles : Nat) : Statement (.frzNAssert cycles) := event rfl
theorem powerCapSet (watts : Nat) : Statement (.powerCapSet watts) := event rfl
theorem powerFailure : Statement .powerFailure := event rfl
theorem strayDecrementAnswer (k : Nat) : Statement (.strayDecrementAnswer k) := event rfl

end Sys2Proof.Laws.Reads
end

