-- ==== Sys2Proof/Tests/Slice0.lean ====
section
/-! SUPPORT. The author's tests: ill-formed terms refused, words written out bit by bit, single steps with results worked out by
hand from the manual, and for every statement a state and operands that meet its hypotheses. -/

namespace Sys2Proof.Tests

open Machine

/-! ## Small states -/

/-- Reset, with a root table at 0x4000 of HBM4 for context 0, whose first entry names a table at 0x8000, whose first entry maps the
first 64 GiB of HBM4 at address 0 with every permission (16 R333-R337). The replay table of the worked draw of 07 stands at 0xC000. -/
def world : State :=
  { State.reset with
    mem := { cells := [(0x4000, 0x01), (0x4003, 0x02), (0x8000, 0x3F), (0x8001, 0x07), (0xC003, 0x80), (0xC007, 0xC0)] }
    ctxs := [{ resetCtx0 with root := some { frame := 1, aper := 0 } }] }

/-- An instruction alone in the window of tile 0, a token in every operand position. -/
def placed (i : Instr) : State := world.withFetchWord 32 ((encode i).getD 0).toNat

/-- The same with given tokens, and with a changed run. -/
def given (i : Instr) (l r p : Option Token) (f : Run → Run := id) : State :=
  (placed i).modRun 0 fun q => f { q with pitch := q.pitch.map fun w => { w with slots := [{ left := l, right := r, pred := p }] } }

def sc (n : Nat) : Option Token := some { val := .scalar (BitVec.ofNat 64 n) }
def vc (n : Nat) : Option Token := some { val := .vector (BitVec.ofNat 2048 n) }
def pd (b : Bool) : Option Token := some { val := .pred b }
def nl : Option Token := some { val := .null }

/-- The focused slot of a state. -/
def envOf (s : State) : Env :=
  s.env?.getD { s := s, t := 0, r := runFor s.mem 0, p := pitchFor 0, k := 0, slot := {} }

/-- Whether the focused slot holds what the instruction needs to fire. -/
def armed (i : Instr) (s : State) : Bool :=
  match s.env? with
  | some e => e.slot.status == .waiting && (sigOf i).ready e.slot && (sigOf i).matches e.slot && !(sigOf i).hasNull e.slot
  | none => false

theorem env_of {s : State} (h : s.env?.isSome = true) : s.env? = some (envOf s) := by
  unfold envOf
  cases hs : s.env? with
  | none => simp [hs] at h
  | some e => rfl

/-- A state that is armed fires. -/
theorem fires {i : Instr} {s : State} (h : armed i s = true) : Fires i s (envOf s) := by
  unfold armed at h
  unfold envOf
  cases hs : s.env? with
  | none => simp [hs] at h
  | some e =>
    simp only [hs, Bool.and_eq_true, beq_iff_eq, Bool.not_eq_true'] at h
    obtain ⟨⟨⟨h1, h2⟩, h3⟩, h4⟩ := h
    exact ⟨hs, h1, h2, h3, h4⟩

/-- An instruction that fires in a state, with a condition on its slot: the form of most hypotheses. -/
def Meets (i : Instr) (s : State) (c : Env → Prop) : Prop := Fires i s (envOf s) ∧ c (envOf s)

/-- It answers a next state. -/
def goesOn (o : Host.Outcome State Fault Refusal) : Bool :=
  match o with
  | .next _ => true
  | .fault _ => false
  | .refused _ => false

/-! ## Hypotheses met: encoding and the step -/

theorem witness_DecodeEncode : (Instr.vadd .onTrue .bf16 (.to .right 127) (.to .left 0)).wf = true ∧
    encode (.vadd .onTrue .bf16 (.to .right 127) (.to .left 0)) = some 0x6046FE80 := by decide

theorem witness_EncodeDecode : decode 0x20000087 = .ok (.add .always .none (.to .left 7)) := rfl

theorem witness_StepRunsDecoded_default : (placed (.nop .always)).agenda = [] ∧
    ((placed (.nop .always)).tick 1).goes ((placed (.nop .always)).tick 1).focus = true ∧
    ((placed (.nop .always)).tick 1).env?.isSome = true ∧
    (envOf ((placed (.nop .always)).tick 1)).p.words[(envOf ((placed (.nop .always)).tick 1)).k]? = some 0x0C000000 ∧
    decode 0x0C000000 = .ok (.nop .always) :=
  ⟨by decide, by decide, by decide, by decide, rfl⟩

/-- A turn of the agenda that names the slot. -/
def turnSlot : State := { placed (.nop .always) with agenda := [⟨5, .slot 0 0⟩] }

theorem witness_StepRunsDecoded_slot : (({ turnSlot with agenda := [] } : State).tick 5).clocked 0 = true ∧
    ((({ turnSlot with agenda := [] } : State).tick 5).aim 0 0).env?.isSome = true := by decide

theorem witness_StepRunsDecoded_event : (({ world with agenda := [] } : State).tick 3).admits (.pitchFetch 0) = true := by decide

theorem witness_StepKeepsMemory : world.mem.wf = true ∧ goesOn (step (placed (.nop .always))) = true := by decide

theorem witness_InstructionFrame : (encode (.nop .always)).isSome = true ∧ (placed (.nop .always)).lines = [] ∧
    (placed (.nop .always)).env?.isSome = true ∧ goesOn (exec (.nop .always) (placed (.nop .always))) = true := by decide

theorem witness_InstructionFrame_reads : (Spec.accessOf (envOf (placed (.nop .always))) (.nop .always)).isNone = true ∧
    Spec.readsOf (envOf (placed (.nop .always))) (.nop .always) [] := ⟨by decide, .inl rfl⟩

/-! ## Hypotheses met: firing -/

theorem witness_FiringRule_empty : (given (.add .always .none .none) (sc 1) none none).env?.isSome = true ∧
    (envOf (given (.add .always .none .none) (sc 1) none none)).slot.status = .waiting ∧
    (sigOf (.add .always .none .none)).ready (envOf (given (.add .always .none .none) (sc 1) none none)).slot = false := by decide

theorem witness_FiringRule_mismatch : (given (.add .onTrue .none .none) (sc 1) (sc 2) (pd false)).env?.isSome = true ∧
    (sigOf (.add .onTrue .none .none)).ready (envOf (given (.add .onTrue .none .none) (sc 1) (sc 2) (pd false))).slot = true ∧
    (sigOf (.add .onTrue .none .none)).matches (envOf (given (.add .onTrue .none .none) (sc 1) (sc 2) (pd false))).slot = false := by
  decide

theorem witness_FiringRule_null : (given (.writeg 63) nl none none).env?.isSome = true ∧
    (sigOf (.writeg 63)).ready (envOf (given (.writeg 63) nl none none)).slot = true ∧
    (sigOf (.writeg 63)).matches (envOf (given (.writeg 63) nl none none)).slot = true ∧
    (sigOf (.writeg 63)).hasNull (envOf (given (.writeg 63) nl none none)).slot = true := by decide

/-- A slot that has fired. -/
def firedSlot : State :=
  (placed (.nop .always)).modRun 0 fun q => { q with pitch := q.pitch.map fun w => { w with slots := [{ status := .fired }] } }

theorem witness_FiringRule_again : firedSlot.env?.isSome = true ∧ (envOf firedSlot).slot.status ≠ .waiting ∧
    (envOf firedSlot).slot.status ≠ .pending := by decide

theorem witness_FiringRule_delivery : (pitchFor 0x20000087).slots[(0 : BitVec 7).toNat]?.isSome = true ∧
    ((pitchFor 0x20000087).slots.all fun sl => sl.status == .waiting && !sl.holds .pred && sl.holds .left) = true := by decide

/-! ## Hypotheses met: structure, exits, scalar instructions -/

theorem witness_StructureResults : Meets (.mov .onFalse .none .none) (given (.mov .onFalse .none .none) (vc 3) none (pd false))
    (fun e => (Spec.structure_ e (.mov .onFalse .none .none)).isSome = true) := ⟨fires (by decide), by decide⟩

theorem witness_StructureResults_illegal : Meets (.illegal .always) (placed (.illegal .always)) fun _ => True :=
  ⟨fires (by decide), trivial⟩

theorem witness_ExitsAndServices : Meets (.br .onTrue 7 0x40000) (given (.br .onTrue 7 0x40000) none none (pd true))
    (fun e => (Spec.exitOf e (.br .onTrue 7 0x40000)).isSome = true) := ⟨fires (by decide), by decide⟩

theorem witness_ExitsAndServices_trap : Fires (.trap .always 0x1FFF) (placed (.trap .always 0x1FFF)) (envOf (placed (.trap .always 0x1FFF))) ∧
    Fires (.break_ .always 0) (placed (.break_ .always 0)) (envOf (placed (.break_ .always 0))) :=
  ⟨fires (by decide), fires (by decide)⟩

theorem witness_ExitsAndServices_log : Meets (.svc .always 0x001 .none) (placed (.svc .always 0x001 .none)) fun _ => True :=
  ⟨fires (by decide), trivial⟩

theorem witness_ExitsAndServices_system : Meets (.svc .always 0x102 .none) (placed (.svc .always 0x102 .none))
    (fun e => (0x102 : BitVec 13) ∈ ([0x100, 0x101, 0x102] : List (BitVec 13)) ∧ e.ctx = 0 ∧ e.r.twin = none) :=
  ⟨fires (by decide), by decide⟩

theorem witness_ExitsAndServices_unknown : Meets (.svc .always 0x103 .none) (placed (.svc .always 0x103 .none))
    (fun _ => (0x103 : BitVec 13) ∉ ([0x001, 0x100, 0x101, 0x102] : List (BitVec 13))) := ⟨fires (by decide), by decide⟩

theorem witness_ExitsAndServices_other : Meets (.svc .always 0x100 .none)
    (given (.svc .always 0x100 .none) (sc 0) (sc 0) none fun q => { q with ctx := 7 }) (fun e => e.ctx ≠ 0) :=
  ⟨fires (by decide), by decide⟩

theorem witness_ExitsAndServices_twin : Meets (.svc .always 0x100 .none)
    (given (.svc .always 0x100 .none) (sc 0) (sc 0) none fun q => { q with twin := some 1 }) (fun e => e.ctx = 0 ∧ e.r.twin ≠ none) :=
  ⟨fires (by decide), by decide⟩

theorem witness_ScalarArithmetic : Meets (.lea .onTrue .none .none) (given (.lea .onTrue .none .none) (sc 1) (sc (2 ^ 64 - 1)) (pd true))
    (fun _ => (Spec.arith (.lea .onTrue .none .none)).isSome = true) := ⟨fires (by decide), rfl⟩

theorem witness_ScalarArithmetic_unary : Meets (.bfi .none .none) (given (.bfi .none .none) (sc 1) (sc 2) (sc 0x4000))
    (fun _ => (Spec.unary (.bfi .none .none)).isSome = true ∧ (Instr.bfi .none .none).wf = true) := ⟨fires (by decide), rfl, rfl⟩

theorem witness_ScalarArithmetic_immediate : Meets (.sari .always 63 .none) (given (.sari .always 63 .none) (sc (2 ^ 63)) none none)
    (fun _ => (Spec.immediate (.sari .always 63 .none)).isSome = true) := ⟨fires (by decide), rfl⟩

theorem witness_Division : Meets (.rem_ .always .none .none) (given (.rem_ .always .none .none) (sc (2 ^ 63)) (sc (2 ^ 64 - 1)) none)
    (fun _ => (Spec.division (.rem_ .always .none .none)).isSome = true) := ⟨fires (by decide), rfl⟩

theorem witness_ScalarCompare : Meets (.tlti .always 0x1000 .none) (given (.tlti .always 0x1000 .none) (sc 5) none none)
    (fun _ => (Spec.compare (.tlti .always 0x1000 .none)).isSome = true) := ⟨fires (by decide), rfl⟩

theorem witness_ScalarFloat : Meets (.ffma .none .none) (given (.ffma .none .none) (sc 0x3F800000) (sc 0x40000000) (sc 0))
    (fun e => (Spec.floatOp (rndOf e.r.frnd) (.ffma .none .none)).isSome = true) := ⟨fires (by decide), rfl⟩

theorem witness_ScalarFloat_fcvt : Meets (.fcvt .always .e5m2 .i64 .none) (given (.fcvt .always .e5m2 .i64 .none) (sc 3) none none)
    (fun _ => (Instr.fcvt .always .e5m2 .i64 .none).wf = true) := ⟨fires (by decide), rfl⟩

theorem witness_FloatOrder_minMax : Fires (.fmin .always .none .none) (given (.fmin .always .none .none) (sc 0x7FC00000) (sc 0) none)
      (envOf (given (.fmin .always .none .none) (sc 0x7FC00000) (sc 0) none)) ∧
    Fires (.fmax .always .none .none) (given (.fmax .always .none .none) (sc 0x80000000) (sc 0) none)
      (envOf (given (.fmax .always .none .none) (sc 0x80000000) (sc 0) none)) := ⟨fires (by decide), fires (by decide)⟩

theorem witness_FloatOrder_compare : Fires (.feq .always .none .none) (placed (.feq .always .none .none)) (envOf (placed (.feq .always .none .none))) ∧
    Fires (.flt .always .none .none) (given (.flt .always .none .none) (sc 0x7FC00000) (sc 0) none)
      (envOf (given (.flt .always .none .none) (sc 0x7FC00000) (sc 0) none)) ∧
    Fires (.fle .always .none .none) (placed (.fle .always .none .none)) (envOf (placed (.fle .always .none .none))) ∧
    Fires (.fclass .always .none .none) (placed (.fclass .always .none .none)) (envOf (placed (.fclass .always .none .none))) :=
  ⟨fires (by decide), fires (by decide), fires (by decide), fires (by decide)⟩

/-! ## Hypotheses met: vectors, sampling, registers -/

theorem witness_VectorLanes_one : Meets (.vclz .always .n8 .none .none) (placed (.vclz .always .n8 .none .none))
    (fun e => (Spec.lanes1 (rndOf e.r.frnd) (.vclz .always .n8 .none .none)).isSome = true) := ⟨fires (by decide), rfl⟩

theorem witness_VectorLanes_two : Meets (.vldexp .onTrue .f16 .none .none) (placed (.vldexp .onTrue .f16 .none .none))
    (fun e => (Spec.lanes2 (rndOf e.r.frnd) (.vldexp .onTrue .f16 .none .none)).isSome = true) := ⟨fires (by decide), rfl⟩

theorem witness_VectorLanes_three : Meets (.vfms .bf16 .none .none) (given (.vfms .bf16 .none .none) (vc 1) (vc 2) (vc 3))
    (fun e => (Spec.lanes3 (rndOf e.r.frnd) (.vfms .bf16 .none .none)).isSome = true ∧ (Instr.vfms .bf16 .none .none).wf = true) :=
  ⟨fires (by decide), rfl, rfl⟩

theorem witness_VectorMoves : Meets (.vzip .always .i64 .none .none) (placed (.vzip .always .i64 .none .none))
    (fun e => (Spec.moved e (.vzip .always .i64 .none .none)).isSome = true ∧ (Instr.vzip .always .i64 .none .none).wf = true) :=
  ⟨fires (by decide), rfl, rfl⟩

theorem witness_VectorMoves_convert : Meets (.vcvtt .always .i8 .f32 .none) (placed (.vcvtt .always .i8 .f32 .none))
    (fun e => (Spec.converts e (.vcvtt .always .i8 .f32 .none)).isSome = true ∧ (Instr.vcvtt .always .i8 .f32 .none).wf = true) :=
  ⟨fires (by decide), rfl, rfl⟩

theorem witness_VectorScalars : Meets (.vdotf .always .e4m3 .none .none) (placed (.vdotf .always .e4m3 .none .none))
    (fun e => (Spec.reduction e (.vdotf .always .e4m3 .none .none)).isSome = true) := ⟨fires (by decide), rfl⟩

theorem witness_VectorScalars_pack : Meets (.vpack6 .always .none .none) (given (.vpack6 .always .none .none) (vc 1) (sc 0x3F80) none)
    (fun e => (Spec.packing e (.vpack6 .always .none .none)).isSome = true) := ⟨fires (by decide), rfl⟩

theorem witness_Sampling : Meets (.vdraw .always .bf16 .none .none) (given (.vdraw .always .bf16 .none .none) (vc 1) (sc 1) none)
    (fun e => (Spec.sampling e (.vdraw .always .bf16 .none .none)).isSome = true ∧ e.r.rngmode = false) :=
  ⟨fires (by decide), rfl, by decide⟩

theorem witness_TimeAndRegisters : Fires (.time_ .always .none .none) (placed (.time_ .always .none .none)) (envOf (placed (.time_ .always .none .none))) ∧
    Fires (.ispois .always .none .none) (placed (.ispois .always .none .none)) (envOf (placed (.ispois .always .none .none))) ∧
    Fires (.pmark .always .none .none) (placed (.pmark .always .none .none)) (envOf (placed (.pmark .always .none .none))) ∧
    Fires (.csrr .always 0xFFF .none) (placed (.csrr .always 0xFFF .none)) (envOf (placed (.csrr .always 0xFFF .none))) ∧
    Fires (.csrw .always 0x023 .none) (placed (.csrw .always 0x023 .none)) (envOf (placed (.csrw .always 0x023 .none))) ∧
    Fires (.csrs .always 0x024 .none) (placed (.csrs .always 0x024 .none)) (envOf (placed (.csrs .always 0x024 .none))) ∧
    Fires (.csrc .always 0 .none) (placed (.csrc .always 0 .none)) (envOf (placed (.csrc .always 0 .none))) :=
  ⟨fires (by decide), fires (by decide), fires (by decide), fires (by decide), fires (by decide), fires (by decide), fires (by decide)⟩

/-! ## Hypotheses met: memory -/

/-- An access that passes its checks, with a condition on the parts found. -/
def passes (o : Except FaultInfo (List Bound)) (c : List Bound → Bool) : Bool :=
  match o with
  | .ok bs => c bs
  | .error _ => false

/-- An access that fails with a code. -/
def failsWith (o : Except FaultInfo (List Bound)) (code : Nat) : Bool :=
  match o with
  | .ok _ => false
  | .error f => f.code == code

theorem witness_Loads : Meets (.ldd .always 5 0x3F .none) (given (.ldd .always 5 0x3F .none) (sc 0x1008) none none)
    (fun e => (Spec.loads e (.ldd .always 5 0x3F .none)).isSome = true ∧
      passes (e.access { align := 8, r := true } [(0x1000, 8)]) (fun bs => !e.behindLower 5 bs && !e.held false bs) = true) :=
  ⟨fires (by decide), rfl, by decide⟩

theorem witness_Loads_gather : Meets (.ldvx .always 0 .none) (given (.ldvx .always 0 .none) (sc Config.localBase) (vc 0) none)
    (fun e => (Spec.loads e (.ldvx .always 0 .none)).isSome = true ∧
      passes (e.access { align := 4, r := true } (List.replicate 64 (Config.localBase, 4)))
        (fun bs => !e.behindLower 0 bs && !e.held false bs) = true) := ⟨fires (by decide), rfl, by decide⟩

theorem witness_Loads_own : (0x107F : Nat) % 128 + 1 ≤ 128 ∧ 0 < 1 := by decide

theorem witness_Loads_ahead : world.mem.wf = true ∧ (15 : Nat) < 16 ∧
    ({ slot := 0, loc := 0x4000, data := 7, pois := false } : SectorRead).loc + 16 ≤ 0x4010 := by decide

theorem witness_Stores : Meets (.std .onTrue 127 0x4000) (given (.std .onTrue 127 0x4000) (sc 0x5000) (sc 7) (pd true))
    (fun e => (Spec.stores e (.std .onTrue 127 0x4000)).isSome = true ∧
      passes (e.access { align := 8, w := true } [(0x1000, 8)]) (fun bs => !e.held true bs) = true) := ⟨fires (by decide), rfl, by decide⟩

theorem witness_Stores_shadow : (placed (.nop .always)).run? 0 ≠ none ∧
    ({ va := 0x1078, loc := 0x1078, bytes := List.replicate 8 1, local_ := false } : StorePiece).loc % 128 + 8 ≤ 128 := by decide

theorem witness_Stores_pad : world.mem.wf = true ∧ world.lines = [] ∧
    ({ va := 0, loc := padLoc 0 0xFFFFF, bytes := [1], local_ := true } : StorePiece).local_ = true := by decide

theorem witness_AccessFaults_load : Meets (.ldw .always 0 0 .none) (given (.ldw .always 0 0 .none) (sc 2) none none)
    (fun e => (Spec.loads e (.ldw .always 0 0 .none)).isSome = true ∧
      failsWith (e.access { align := 4, r := true } [(2, 4)]) 0x16 = true ∧ (0x16 : Nat) ≠ fcWait) :=
  ⟨fires (by decide), rfl, by decide⟩

theorem witness_AccessFaults_store : Meets (.stv .always 0 0) (given (.stv .always 0 0) (sc (2 ^ 56 - 16)) (vc 0) none)
    (fun e => (Spec.stores e (.stv .always 0 0)).isSome = true ∧
      failsWith (e.access { align := 16, w := true } [(2 ^ 56 - 16, 256)]) 0x15 = true) := ⟨fires (by decide), rfl, by decide⟩

theorem witness_AccessFaults_immediate : Meets (.cas 0 0 .none) (given (.cas 0 0 .none) (sc (2 ^ 37)) (sc 1) (sc 2))
    (fun e => (Spec.immediateOf e (.cas 0 0 .none)).isSome = true ∧ e.r.twin = none ∧
      failsWith (e.access { align := 8, r := true, w := true, noHost := true, rap := true } [(2 ^ 37, 8)]) fcNotMapped = true) :=
  ⟨fires (by decide), rfl, by decide⟩

theorem witness_AccessFaults_commit : Meets (.redo .always 0) (given (.redo .always 0) (sc Config.localBase) (sc 1) none)
    (fun e => (Spec.commits e (.redo .always 0)).isSome = true ∧
      failsWith (e.access { align := 16, w := true, noLocal := true, noHost := true } [(Config.localBase, 16)]) fcAperture = true) :=
  ⟨fires (by decide), rfl, by decide⟩

theorem witness_AccessFaults_flush : Meets (.flushl .always 0 0) (given (.flushl .always 0 0) (sc (2 ^ 37 + 5)) none none)
    (fun e => failsWith (e.access { align := 1 } [(Spec.addrS e 0 / 128 * 128, 128)]) fcNotMapped = true) :=
  ⟨fires (by decide), by decide⟩

theorem witness_AccessFaults_wait : Meets (.mwait .always 0 .none) (given (.mwait .always 0 .none) (sc 4) (sc 1) none)
    (fun e => e.p.waits = [] ∧ failsWith (e.access { align := 8, r := true } [(4, 8)]) 0x16 = true) := ⟨fires (by decide), by decide⟩

theorem witness_AccessFaults_canonical : (isCanonical ((2 ^ 56 - 1 + 0) % 2 ^ 64) = true) ∧
    isCanonical ((2 ^ 56 - 1 + 1) % 2 ^ 64) = false ∧ isLocal ((2 ^ 56 - 1 + 1) % 2 ^ 64) = false := by decide

theorem witness_AccessFaults_aligned : (isCanonical ((4 + 0) % 2 ^ 64) = true) ∧ 4 % ({ align := 8 } : Need).align ≠ 0 := by decide

/-- A page under MIGRATE: its translations are withheld. -/
def withholding : State :=
  { world with pkg := { world.pkg with
    invs := [{ ctx := 0, kind := 0, start := 0, units := 2 ^ 22, shadow := true, owner := .migrate 0 0x73F 0xF3F 0x8000 }] } }

theorem witness_AccessFaults_local : (Config.localBase % 8 = 0 ∧ isLocal Config.localBase = true ∧
      ((List.range 8).all fun k => isCanonical ((Config.localBase + k) % 2 ^ 64) || isLocal ((Config.localBase + k) % 2 ^ 64)) = true) ∧
    isLocal 0x1000 = false ∧ withholding.withheld 0 0x1000 = true ∧ world.withheld 0 0x1000 = false ∧ world.withheld 0 (0x1000 + 8 - 1) = false ∧
    (match partsOf world (some 0) 0 [(0x1000, 8)] 0 with | ps => (world.checkParts 0 { align := 8, r := true } ps).isNone) = true ∧
    (match partsOf world (some 0) 0 [(2 ^ 40, 8)] 0 with | ps => (world.checkParts 0 { align := 8, r := true } ps).isSome) = true := by decide

/-- A part whose walk failed, one whose leaf gives no permission, one whose leaf names an absent aperture. -/
def unmapped : Part := { va := 0, n := 8, off := 0, leaf := some (.error 0) }
def guarded : Part := { va := 0, n := 8, off := 0, leaf := some (.ok { leaf := 1, level := 3 }) }
def absent : Part := { va := 0, n := 8, off := 0, leaf := some (.ok { leaf := 0x3807, level := 3 }) }

theorem witness_AccessFaults_parts : (([unmapped].findSome? Part.notMapped).isSome = true) ∧
    (([guarded].findSome? Part.notMapped) = none ∧ ([guarded].findSome? (Part.perm world 0 { align := 8, r := true })).isSome = true) ∧
    (([absent].findSome? Part.notMapped) = none ∧ ([absent].findSome? (Part.perm world 0 { align := 8, r := true })) = none ∧
      ([absent].findSome? (Part.aperture world 0 { align := 8, r := true })).isSome = true) := by decide

/-- A part whose leaf is readable and not SYNC, one of peer 3 that is SYNC and not RAP. -/
def unsynced : Part := { va := 0, n := 8, off := 0, leaf := some (.ok { leaf := 0x707, level := 3 }) }
def remote : Part := { va := 0, n := 8, off := 0, leaf := some (.ok { leaf := 0x717 + 3 * 2 ^ 11 + 3 * 2 ^ 14, level := 3 }) }
def synced : Need := { align := 8, r := true, sync := true, rap := true }

theorem witness_AccessFaults_sync : ([unsynced].findSome? Part.notMapped) = none ∧ ([unsynced].findSome? (Part.perm world 0 synced)) = none ∧
    ([unsynced].findSome? (Part.aperture world 0 synced)) = none ∧ ([unsynced].findSome? (Part.notSync synced)).isSome = true ∧
    ([unsynced].findSome? (Part.notSync { align := 8, r := true })) = none ∧ ([unsynced].findSome? (Part.denied { align := 8, r := true })) = none := by
  decide

theorem witness_AccessFaults_leaf : unsynced.leaf = some (.ok { leaf := 0x707, level := 3 }) ∧ leafR 0x707 = true ∧
    guarded.leaf = some (.ok { leaf := 1, level := 3 }) ∧ leafR 1 = false ∧ unmapped.leaf = some (.error 0) ∧
    ({ va := 0, n := 8, off := 0, leaf := none } : Part).leaf = none := ⟨rfl, by decide, rfl, by decide, rfl, rfl⟩

theorem witness_ImmediateFires : Meets (.amoi .always 3 1 false .none) (given (.amoi .always 3 1 false .none) (sc 0x1000) (sc 1) none)
    (fun e => (Spec.immediateOf e (.amoi .always 3 1 false .none)).isSome = true ∧ e.r.twin = none ∧
      passes (e.access { align := 8, r := true, w := true, noHost := true, rap := true } [(0x1000, 8)])
        (fun bs => !bs.isEmpty && !e.held true bs) = true) := ⟨fires (by decide), rfl, by decide⟩

theorem witness_ImmediateFires_sync : Meets (.sstv .always 3 0) (given (.sstv .always 3 0) (sc (Config.localBase + 128)) (vc 1) none)
    (fun e => (Spec.immediateOf e (.sstv .always 3 0)).isSome = true ∧ e.r.twin = none ∧
      passes (e.access { align := 128, w := true, noHost := true, sync := true, rap := true } [(Config.localBase + 128, 128)])
        (fun bs => !bs.isEmpty && !e.held true bs) = true) := ⟨fires (by decide), rfl, by decide⟩

theorem witness_ImmediateFires_twin : Meets (.cas 0 1 .none) (given (.cas 0 1 .none) (sc 0) (sc 1) (sc 2) fun q => { q with twin := some 0 })
    (fun e => (Spec.immediateOf e (.cas 0 1 .none)).isSome = true ∧ e.r.twin ≠ none) := ⟨fires (by decide), rfl, by decide⟩

theorem witness_CommitEntriesAndFences : Meets (.sst .always 9 3) (given (.sst .always 9 3) (sc 0x1000) (sc 5) none)
    (fun e => (Spec.commits e (.sst .always 9 3)).isSome = true ∧
      passes (e.access { align := 8, w := true, noLocal := true, noHost := true, sync := true } [(0x1000, 8)]) (fun _ => true) = true) :=
  ⟨fires (by decide), rfl, by decide⟩

/-- A copy of the task in the window, nothing translated yet. -/
def oneCopy : Copy := { id := 0, tile := 0, ctx := 0, inst := 0, idx := 0, desc := { kind := .cpy, src := 0, dst := 0x2000, n := 8 } }

def withCopy (s : State) : State := { s with fab := { s.fab with copies := [oneCopy] } }

theorem witness_CommitEntriesAndFences_free : Meets (.fence .always 0 4) (placed (.fence .always 0 4))
    (fun e => (placed (.fence .always 0 4)).copiesOf e.t e.r = []) := ⟨fires (by decide), by decide⟩

theorem witness_CommitEntriesAndFences_waits : Meets (.fence .always 0 0) (withCopy (placed (.fence .always 0 0)))
    (fun e => ((withCopy (placed (.fence .always 0 0))).copiesOf e.t e.r).any (fun c => !e.fenced 0 c) = true) :=
  ⟨fires (by decide), by decide⟩

theorem witness_CommitEntriesAndFences_flush : Meets (.flushl .always 0 0x7F) (given (.flushl .always 0 0x7F) (sc 0x1000) none none)
    (fun e => passes (e.access { align := 1 } [(Spec.addrS e 0x7F / 128 * 128, 128)]) (fun _ => true) = true) :=
  ⟨fires (by decide), by decide⟩

theorem witness_CommitEntriesAndFences_pref : Meets (.pref .always 0 0x20) (placed (.pref .always 0 0x20)) fun _ => True :=
  ⟨fires (by decide), trivial⟩

theorem witness_CommitEntriesAndFences_reached : Meets (.mwait .always 0 .none) (given (.mwait .always 0 .none) (sc 0x8000) (sc 0x73F) none)
    (fun e => e.p.waits = [] ∧ passes (e.access { align := 8, r := true } [(0x8000, 8)]) (fun bs => !e.held false bs &&
      decide (e.b.toNat ≤ leNat (e.s.readBounds e.t bs).1)) = true) := ⟨fires (by decide), by decide⟩

theorem witness_CommitEntriesAndFences_below : Meets (.mwait .always 0 .none) (given (.mwait .always 0 .none) (sc 0x8000) (sc 0x740) none)
    (fun e => e.p.waits = [] ∧ passes (e.access { align := 8, r := true } [(0x8000, 8)]) (fun bs => !e.held false bs &&
      decide (leNat (e.s.readBounds e.t bs).1 % 2 ^ 64 < e.b.toNat)) = true) := ⟨fires (by decide), by decide⟩

/-- The first page of peer 3 at 64 GiB: an MWAIT there, with a capability record that holds opcode 0xC9 (OPS bit 41) or not. -/
def waitsAt (ops : BitVec 64) (s : State) : State :=
  { (s.store 0x8008 (toBytes (0x73F + 3 * 2 ^ 11 + 3 * 2 ^ 14) 8) false) with pkg := { s.pkg with
      peers := [{ pkg := 3, ports := 1, rev := 0, encl := 0, ops := ops, redt := 0, mbox := true, rdec := true }] } }
def farWait (ops : BitVec 64) : State := waitsAt ops (given (.mwait .always 0 .none) (sc (2 ^ 36)) (sc 0) none)

theorem witness_CommitEntriesAndFences_lacks : Meets (.mwait .always 0 .none) (farWait 0)
      (fun e => e.p.waits = [] ∧ passes (e.access { align := 8, r := true } [(2 ^ 36, 8)]) (fun bs => !e.held false bs &&
        bs.all fun x => (farWait 0).mwaitLacks x.loc) = true) ∧
    Meets (.mwait .always 0 .none) (farWait (1 <<< 41))
      (fun e => e.p.waits = [] ∧ passes (e.access { align := 8, r := true } [(2 ^ 36, 8)]) (fun bs => !e.held false bs &&
        bs.all fun x => !(farWait (1 <<< 41)).mwaitLacks x.loc && locPkg x.loc != 0) = true) :=
  ⟨⟨fires (by decide), by decide⟩, ⟨fires (by decide), by decide⟩⟩

theorem witness_CommitEntriesAndFences_examined : ({ slot := 0, loc := 0x8000, t := 5 } : MemWait).hit = none ∧ locSpace 0x8000 ≠ spPad ∧
    ({ slot := 0, loc := 0x8000, t := 5, hit := some (7, false) } : MemWait).hit = some (7, false) := by decide

/-! ## Hypotheses met: copies, tags and streams -/

/-- A descriptor from its first four lanes and lane 5 (11 R236). -/
def descriptor (src dst len ctl : Nat) : Option Token := vc (src + 2 ^ 64 * dst + 2 ^ 128 * len + 2 ^ 320 * ctl)

theorem witness_CopiesAndTags_issued : Meets (.cpy .always 4) (given (.cpy .always 4) (descriptor 0x1000 0x2000 64 63) none none)
    (fun e => (Spec.copies (.cpy .always 4)).isSome = true ∧ descBad .cpy e.va = false ∧ e.portsBad e.va = false ∧
      descMisaligned e.va = none ∧ descNonCanon .cpy e.va = none ∧ (e.r.twin.isSome || e.r.revocableOnly) = false ∧
      e.r.ctagpend.getLsbD (qTag e.va) = false) := ⟨fires (by decide), rfl, by decide +kernel⟩

theorem witness_CopiesAndTags_bad : Meets (.cpy .always 4) (given (.cpy .always 4) (descriptor 0x1000 0x2000 65 0) none none)
    (fun e => descBad .cpy e.va = true) := ⟨fires (by decide), by decide +kernel⟩

theorem witness_CopiesAndTags_misaligned : Meets (.cpy .always 4) (given (.cpy .always 4) (descriptor 0x1008 0x2000 64 0) none none)
    (fun e => descBad .cpy e.va = false ∧ e.portsBad e.va = false ∧ (descMisaligned e.va).isSome = true) := ⟨fires (by decide), by decide +kernel⟩

theorem witness_CopiesAndTags_nonCanonical : Meets (.cpy .always 4) (given (.cpy .always 4) (descriptor 0x1000 (2 ^ 56) 64 0) none none)
    (fun e => descBad .cpy e.va = false ∧ e.portsBad e.va = false ∧ descMisaligned e.va = none ∧
      (descNonCanon .cpy e.va).isSome = true) := ⟨fires (by decide), by decide +kernel⟩

theorem witness_CopiesAndTags_twin : Meets (.cpy .always 4)
    (given (.cpy .always 4) (descriptor 0x1000 0x2000 64 0) none none fun q => { q with twin := some 0 })
    (fun e => descBad .cpy e.va = false ∧ e.portsBad e.va = false ∧ descMisaligned e.va = none ∧ descNonCanon .cpy e.va = none ∧
      (descOf .cpy .cpy e.va).irrevocable e.t = true ∧ e.r.twin.isSome = true) := ⟨fires (by decide), by decide +kernel⟩

theorem witness_CopiesAndTags_pending : Meets (.cpy .always 4)
    (given (.cpy .always 4) (descriptor 0x1000 0x2000 64 63) none none fun q => { q with ctagpend := 1 <<< 63 })
    (fun e => descBad .cpy e.va = false ∧ e.portsBad e.va = false ∧ descMisaligned e.va = none ∧ descNonCanon .cpy e.va = none ∧
      (e.r.twin.isSome || e.r.revocableOnly) = false ∧ e.r.ctagpend.getLsbD (qTag e.va) = true) := ⟨fires (by decide), by decide +kernel⟩

theorem witness_CopiesAndTags_any : Meets (.cwaita .always 0 .none) (given (.cwaita .always 0 .none) (sc 0) none none)
      (fun e => e.a = 0) ∧
    Meets (.cwaita .always 0 .none) (given (.cwaita .always 0 .none) (sc 1) none none) (fun e => e.a ≠ 0 ∧ e.r.ctags &&& e.a = 0) ∧
    Meets (.cwaita .always 0 .none) (given (.cwaita .always 0 .none) (sc (2 ^ 63)) none none fun q => { q with ctags := 1 <<< 63 })
      (fun e => e.r.ctags &&& e.a ≠ 0) :=
  ⟨⟨fires (by decide), by decide⟩, ⟨fires (by decide), by decide⟩, ⟨fires (by decide), by decide⟩⟩

theorem witness_CopiesAndTags_all : Meets (.cwaitl .always 0 .none) (given (.cwaitl .always 0 .none) (sc 0) none none)
      (fun e => e.r.ctags &&& e.a = e.a) ∧
    Meets (.cwaitl .always 0 .none) (given (.cwaitl .always 0 .none) (sc 3) none none) (fun e => e.r.ctags &&& e.a ≠ e.a) :=
  ⟨⟨fires (by decide), by decide⟩, ⟨fires (by decide), by decide⟩⟩

theorem witness_CopiesAndTags_others : Meets (.cfind .always 0 .none) (placed (.cfind .always 0 .none)) (fun _ => True) ∧
    Meets (.cpyq .always 0 .none) (given (.cpyq .always 0 .none) (sc 63) none none) (fun _ => True) ∧
    Meets (.ctclr .always 0) (placed (.ctclr .always 0)) (fun _ => True) :=
  ⟨⟨fires (by decide), trivial⟩, ⟨fires (by decide), trivial⟩, ⟨fires (by decide), trivial⟩⟩

/-- Output port 3 bound to input port 0 of record 1, with a given queue. -/
def bound (q : List Packet) (r : Run) : Run := { r with out := [{}, {}, {}, { bound := true, peer := 1, queue := q }] }

/-- Input port 1 of the task bound, with a given queue. -/
def fed (q : List Packet) (ended : Bool) (s : State) : State :=
  { s with fab := { s.fab with inPorts := [{ inst := 0, idx := 0, port := 1, fanin := 1, producers := [1], queue := q, ended := ended }] } }

theorem witness_StreamPorts_push : Meets (.spush .always 0 0) (given (.spush .always 0 0) (vc 1) (sc 0) none)
      (fun e => (e.r.outPort 0).bound = false) ∧
    Meets (.spush .always 0 3) (given (.spush .always 0 3) (vc 1) (sc 0) none (bound []))
      (fun e => (e.r.outPort 3).bound = true ∧ (e.r.outPort 3).hasRoom (e.p.reserved 3) = true) ∧
    Meets (.spush .always 0 3) (given (.spush .always 0 3) (vc 1) (sc 0) none (bound (List.replicate 8 { payload := 0 })))
      (fun e => (e.r.outPort 3).bound = true ∧ (e.r.outPort 3).hasRoom (e.p.reserved 3) = false) :=
  ⟨⟨fires (by decide), by decide⟩, ⟨fires (by decide), by decide⟩, ⟨fires (by decide), by decide⟩⟩

theorem witness_StreamPorts_end : Meets (.seos .always 0 1 0) (placed (.seos .always 0 1 0)) (fun e => (e.r.outPort 0).bound = false) ∧
    Meets (.seos .always 0 0 3) (given (.seos .always 0 0 3) none none none (bound []))
      (fun e => (e.r.outPort 3).bound = true ∧ (e.r.outPort 3).hasRoom (e.p.reserved 3) = true) ∧
    Meets (.seos .always 0 0 3) (given (.seos .always 0 0 3) none none none (bound (List.replicate 8 { payload := 0 })))
      (fun e => (e.r.outPort 3).bound = true ∧ (e.r.outPort 3).hasRoom (e.p.reserved 3) = false) :=
  ⟨⟨fires (by decide), by decide⟩, ⟨fires (by decide), by decide⟩, ⟨fires (by decide), by decide⟩⟩

theorem witness_StreamPorts_pop : Meets (.spop .always 0 1 .none) (placed (.spop .always 0 1 .none)) (fun e => e.inPort? 1 = none) ∧
    Meets (.spop .always 0 1 .none) (fed [{ payload := 5 }] false (placed (.spop .always 0 1 .none)))
      (fun e => e.position 1 = some 0 ∧ ((e.inPort? 1).bind fun y => y.queue[0]?).isSome = true) ∧
    Meets (.spop .always 0 1 .none) (fed [] true (placed (.spop .always 0 1 .none)))
      (fun e => e.position 1 = some 0 ∧ (e.inPort? 1).map (fun y => (y.queue[0]?, y.ended)) = some (none, true)) ∧
    Meets (.spop .always 0 1 .none) (fed [] false (placed (.spop .always 0 1 .none)))
      (fun e => e.position 1 = some 0 ∧ (e.inPort? 1).map (fun y => (y.queue[0]?, y.ended)) = some (none, false)) :=
  ⟨⟨fires (by decide), by decide⟩, ⟨fires (by decide), by decide⟩, ⟨fires (by decide), by decide⟩, ⟨fires (by decide), by decide⟩⟩

theorem witness_StreamPorts_peek : Meets (.speek .always 0 1 .none) (placed (.speek .always 0 1 .none)) (fun e => e.inPort? 1 = none) ∧
    Meets (.speek .always 0 1 .none) (fed [{ payload := 5 }] false (placed (.speek .always 0 1 .none)))
      (fun e => e.position 1 = some 0 ∧ ((e.inPort? 1).bind fun y => y.queue[0]?).isSome = true) ∧
    Meets (.speek .always 0 1 .none) (fed [] false (placed (.speek .always 0 1 .none)))
      (fun e => e.position 1 = some 0 ∧ (e.inPort? 1).map (fun y => (y.queue[0]?, y.ended)) = some (none, false)) ∧
    Meets (.speek .always 0 1 .none) (fed [] true (placed (.speek .always 0 1 .none)))
      (fun e => e.position 1 = some 0 ∧ (e.inPort? 1).map (fun y => (y.queue[0]?, y.ended)) = some (none, true)) ∧
    Meets (.sstat .always 0 1 0 .none) (placed (.sstat .always 0 1 0 .none)) (fun _ => True) :=
  ⟨⟨fires (by decide), by decide⟩, ⟨fires (by decide), by decide⟩, ⟨fires (by decide), by decide⟩, ⟨fires (by decide), by decide⟩,
    ⟨fires (by decide), trivial⟩⟩

/-- A SPOP or SPEEK in slot 1 behind a predicated SPOP of its port whose predicate has not come. -/
def behindPop (i : Instr) : State :=
  (fed [{ payload := 5 }] false (placed i)).modRun 0 fun q => { q with pitch := q.pitch.map fun w =>
    { w with words := [((encode (.spop .onTrue 0 1 .none)).getD 0), (encode i).getD 0], slots := [{}, {}] } }

theorem witness_StreamPorts_behind : ((behindPop (.spop .always 1 1 .none)).aim 0 1).env?.isSome = true ∧
    Meets (.spop .always 1 1 .none) ((behindPop (.spop .always 1 1 .none)).aim 0 1)
      (fun e => (e.inPort? 1).isSome = true ∧ e.position 1 = none) ∧
    Meets (.speek .always 1 1 .none) ((behindPop (.speek .always 1 1 .none)).aim 0 1)
      (fun e => (e.inPort? 1).isSome = true ∧ e.position 1 = none) :=
  ⟨by decide, ⟨fires (by decide), by decide⟩, ⟨fires (by decide), by decide⟩⟩

/-! ## Hypotheses met: matrix and graph instructions -/

theorem witness_MatrixInstructions : Meets (.mma .always 2 3 3) (given (.mma .always 2 3 3) (sc 0) (sc 0) none)
    (fun e => (Spec.matrix e (.mma .always 2 3 3)).isSome = true) := ⟨fires (by decide), rfl⟩

/-- An outstanding ACCZ of accumulator 2 on tile 0. -/
def withJob (s : State) : State :=
  s.modTile 0 fun v => { v with jobs := [{ op := .accz 2, fmta := 4, scalep := 0, bandp := 0, pitch := 0, slot := 0, lsid := 0, exit := 0 }] }

theorem witness_MatrixInstructions_accrd : Meets (.accrd .always 0 2 .none) (given (.accrd .always 0 2 .none) (sc 0xFF) none none)
      (fun e => (e.s.tile e.t).jobs = []) ∧
    Meets (.accrd .always 0 2 .none) (withJob (given (.accrd .always 0 2 .none) (sc 0) none none))
      (fun e => (e.s.tile e.t).jobs.any (fun j => j.op.accs.contains 2) = true) :=
  ⟨⟨fires (by decide), by decide⟩, ⟨fires (by decide), by decide⟩⟩

theorem witness_MatrixInstructions_msync : Meets (.msync .always 0 .none) (placed (.msync .always 0 .none))
      (fun e => (e.s.tile e.t).jobs = []) ∧
    Meets (.msync .always 0 .none) (withJob (placed (.msync .always 0 .none))) (fun e => (e.s.tile e.t).jobs ≠ []) :=
  ⟨⟨fires (by decide), by decide⟩, ⟨fires (by decide), by decide⟩⟩

/-- An instance of two records, number 0. -/
def oneInst : Inst := { id := 0, ctx := 0, templ := 0, tag := 0, die := 0, nrec := 2, recs := [{}, {}] }

def withInst (s : State) : State := { s with insts := [oneInst] }

theorem witness_GraphInstructions_dec : Meets (.dec .always 0) (withInst (given (.dec .always 0) (sc (2 ^ 24 + 1)) (sc 0) none))
      (fun e => e.decBad e.a e.b = false ∧ e.b.toNat % 256 = 0) ∧
    Meets (.dec .always 0) (withInst (given (.dec .always 0) (sc (2 ^ 24 + 2)) (sc 0) none)) (fun e => e.decBad e.a e.b = true) ∧
    Meets (.dec .always 0) (withInst (given (.dec .always 0) (sc 1) (sc 0) none)) (fun e => e.a.toNat / 2 ^ 24 % 64 = 0) ∧
    Meets (.dec .always 0) (withInst (given (.dec .always 0) (sc (2 ^ 32 + 2 ^ 24)) (sc 0) none)) (fun e => 2 ^ 32 ≤ e.a.toNat) ∧
    Meets (.dec .always 0) (withInst (given (.dec .always 0) (sc (2 ^ 24 + 3 * 2 ^ 30)) (sc 128) none))
      (fun e => e.decBad e.a e.b = false ∧ e.b.toNat % 256 ≠ 0) :=
  ⟨⟨fires (by decide), by decide⟩, ⟨fires (by decide), by decide⟩, ⟨fires (by decide), by decide⟩, ⟨fires (by decide), by decide⟩,
    ⟨fires (by decide), by decide⟩⟩

theorem witness_GraphInstructions_spawn : Meets (.spawn .always 0) (given (.spawn .always 0) (vc (256 + 2 ^ 64)) none none)
      (fun e => leZeros (e.va.setWidth 256) = true ∧ (leTempl (e.va.setWidth 256)).toNat % 256 = 0 ∧
        (leRename (e.va.setWidth 256) = 1 ∨ (leRename (e.va.setWidth 256)).toNat % 8 = 0)) ∧
    Meets (.spawn .always 0) (given (.spawn .always 0) (vc (2 ^ 255)) none none) (fun e => leZeros (e.va.setWidth 256) = false) :=
  ⟨⟨fires (by decide), by decide +kernel⟩, ⟨fires (by decide), by decide +kernel⟩⟩

theorem witness_GraphInstructions_send : Meets (.send .always 0) (given (.send .always 0) (vc 1) (sc 0) none) (fun e => e.sendBad e.b = false) ∧
    Meets (.send .always 0) (given (.send .always 0) (vc 1) (sc (2 ^ 63)) none) (fun e => e.sendBad e.b = true) :=
  ⟨⟨fires (by decide), by decide⟩, ⟨fires (by decide), by decide⟩⟩

theorem witness_GraphInstructions_bind : Meets (.bind_ .always 0) (given (.bind_ .always 0) (sc 256) (sc (2 ^ 43 - 1)) none)
      (fun e => e.b.toNat < 2 ^ 43 ∧ e.a.toNat % 256 = 0) ∧
    Meets (.bind_ .always 0) (given (.bind_ .always 0) (sc 256) (sc (2 ^ 43)) none) (fun e => 2 ^ 43 ≤ e.b.toNat) ∧
    Meets (.bind_ .always 0) (given (.bind_ .always 0) (sc 255) (sc 0) none) (fun e => e.b.toNat < 2 ^ 43 ∧ e.a.toNat % 256 ≠ 0) ∧
    Meets (.unbind .always 0) (given (.unbind .always 0) (sc 255) none none) (fun e => e.a.toNat < 256) ∧
    Meets (.unbind .always 0) (given (.unbind .always 0) (sc 256) none none) (fun e => 256 ≤ e.a.toNat) :=
  ⟨⟨fires (by decide), by decide⟩, ⟨fires (by decide), by decide⟩, ⟨fires (by decide), by decide⟩, ⟨fires (by decide), by decide⟩,
    ⟨fires (by decide), by decide⟩⟩

theorem witness_GraphInstructions_ropes : Meets (.ropejoin .always 0 .none) (withInst (given (.ropejoin .always 0 .none) (sc (2 ^ 32 - 1)) (sc 1) none))
      (fun e => e.r.twin = none ∧ e.member e.b = some 1 ∧ e.a.toNat < 2 ^ 32) ∧
    Meets (.ropewait .always 0 .none) (given (.ropewait .always 0 .none) (sc 5) none none) (fun e => e.r.twin = none ∧ e.a.toNat < 2 ^ 32) ∧
    Meets (.ropeleave .always 0) (withInst (given (.ropeleave .always 0) (sc 5) (sc (2 ^ 24)) none))
      (fun e => e.member e.b = some 0 ∧ e.a.toNat < 2 ^ 32) ∧
    Meets (.ropearr .always 0) (given (.ropearr .always 0) (sc 5) none none) (fun e => e.a.toNat < 2 ^ 32) ∧
    Meets (.ropearr .always 0) (given (.ropearr .always 0) (sc (2 ^ 32)) none none) (fun e => 2 ^ 32 ≤ e.a.toNat) ∧
    Meets (.ropesz .always 0 .none) (given (.ropesz .always 0 .none) (sc 5) none none) (fun e => e.a.toNat < 2 ^ 32) :=
  ⟨⟨fires (by decide), by decide⟩, ⟨fires (by decide), by decide⟩, ⟨fires (by decide), by decide⟩, ⟨fires (by decide), by decide⟩,
    ⟨fires (by decide), by decide⟩, ⟨fires (by decide), by decide⟩⟩

/-! ## Hypotheses met: faults, fetch, exhaustion, belay -/

/-- The run of tile 0. -/
def runOf (s : State) : Run := (s.run? 0).getD (runFor s.mem 0)

theorem run_of {s : State} (h : (s.run? 0).isSome = true) : s.run? 0 = some (runOf s) := by
  unfold runOf
  cases hs : s.run? 0 with
  | none => simp [hs] at h
  | some r => rfl

/-- A task of context 0 on tile 0 in a phase. -/
def task (ph : Phase) (f : Run → Run := id) (s : State := placed (.nop .always)) : State := s.modRun 0 fun r => f { r with phase := ph }

/-- A change of its pitch. -/
def onPitch (f : Pitch → Pitch) (r : Run) : Run := { r with pitch := r.pitch.map f }

theorem witness_TakesFault : ((task .fire).run? 0).isSome = true ∧ (runOf (task .fire)).twin = none ∧
    ((task .fire).ctx? (runOf (task .fire)).ctx).isSome = true ∧ (runOf (task .fire)).pitch.isSome = true := by decide

theorem witness_ReturnsFromFault : (runOf (task (.stalled 0 .pitch false))).phase = .stalled 0 .pitch false ∧
    (runOf (task (.stalled 0 .pitch false))).pitch.isSome = true ∧
    (runOf (task (.stalled 1 .checks true))).phase = .stalled 1 .checks true ∧
    (runOf (task (.stalled 2 .watchdog true))).phase = .stalled 2 .watchdog true := by decide

theorem witness_RecordLayout : (0xFFFF : Nat) < 2 ^ 16 ∧ 255 < 2 ^ 8 ∧
    ({ code := 0xFFFF, cause := 255, slot := 255, lsid := 255, exit := 255, prior := some 16 } : RecSpec).prior = some 16 := by decide

/-- A pitch of one DONE at 0x10000: the mark in byte 15 of its header, the word 0x14000000 behind it (03 R56). -/
def library : State :=
  { world with mem := { cells := world.mem.cells ++ [(0x1000F, 0xC9), (0x10013, 0x14)] } }

/-- A task that is to fetch at an address. -/
def fetching (a : BitVec 64) : State :=
  task .fetch (fun r => { r with next := a, pitch := none, fetchMem := library.mem }) (library.withFetchWord 32 0)

theorem witness_PitchFetch : (runOf (fetching 0x10000)).phase = .fetch ∧ (runOf (fetching 0x10000)).watchdogDue = false ∧
    (fetching 0x10000).migrating 0 0x10000 = false ∧ (fetching 0x10000).lines = [] ∧
    (match ((fetching 0x10000).fetchPitch 0 (runOf (fetching 0x10000)) 0x10000).1 with
      | .ok x => x.2 == [0x14000000]
      | .error _ => false) = true := by decide

theorem witness_PitchFetch_fails : (runOf (fetching 0x20000)).phase = .fetch ∧
    (match ((fetching 0x20000).fetchPitch 0 (runOf (fetching 0x20000)) 0x20000).1 with
      | .ok _ => false
      | .error f => f.f.code == fcIllegalPitch) = true := by decide

/-- An exhausted pitch. -/
def spent (f : Pitch → Pitch) : State := task .fire (onPitch fun p => f { p with idle := [0], slots := [{ status := .fired }] })
def pitchOf (s : State) : Pitch := (runOf s).pitch.getD (pitchFor 0)

theorem witness_ExhaustionFaults : (pitchOf (spent id)).exhausted = true ∧ (runOf (spent id)).phase = .fire ∧
    (runOf (spent id)).watchdogDue = false ∧ (pitchOf (spent id)).doubleSlot = none ∧
    (pitchOf (spent id)).slotFault ((spent id).tile 0) (runOf (spent id)) = none ∧ (pitchOf (spent id)).exits = [] := by decide

theorem witness_ExhaustionFaults_double : (pitchOf (spent fun p => { p with doubles := [0] })).exhausted = true ∧
    (pitchOf (spent fun p => { p with doubles := [0] })).doubleSlot = some 0 := by decide

/-- A pitch whose slot 0 has raised a fault, one with two exits, one with an exit and a register write that never fired. -/
def faulty : State := spent fun p => { p with faults := [(0, { code := 0x16 })] }
def twoExits : State := spent fun p => { p with exits := [(0, 0, .commit), (0, 0, .abort)] }
def unresolved : State := spent fun p => { p with words := [0x03000000], slots := [{}], exits := [(0, 0, .commit)] }

theorem witness_ExhaustionFaults_slot : (pitchOf faulty).exhausted = true ∧ (pitchOf faulty).doubleSlot = none ∧
    (pitchOf faulty).slotFault (faulty.tile 0) (runOf faulty) = some (0, { code := 0x16 }) := by decide

theorem witness_ExhaustionFaults_exits : (pitchOf twoExits).exhausted = true ∧ (pitchOf twoExits).doubleSlot = none ∧
    (pitchOf twoExits).slotFault (twoExits.tile 0) (runOf twoExits) = none ∧ 2 ≤ (pitchOf twoExits).exits.length := by decide

theorem witness_ExhaustionFaults_unresolved : (pitchOf unresolved).exhausted = true ∧ (pitchOf unresolved).doubleSlot = none ∧
    (pitchOf unresolved).slotFault (unresolved.tile 0) (runOf unresolved) = none ∧ (pitchOf unresolved).exits.length = 1 ∧
    unresolvedSlot (pitchOf unresolved) = some 0 := by decide

/-- A pitch that writes g5 and v3 and leaves by a CALL. -/
def calling : State := spent fun p =>
  { p with exits := [(0, 2, .call 0x100)], effects := [(0, .writeG 5 { v := 7 }), (0, .writeV 3 { v := 9 })] }

theorem witness_Belay : (pitchOf calling).exhausted = true ∧ (pitchOf calling).verdict (calling.tile 0) (runOf calling) = .proceed ∧
    calling.belayRoom 0 (runOf calling) (pitchOf calling) = true ∧ calling.belayFault 0 (runOf calling) (pitchOf calling) = none ∧
    (pitchOf calling).imm = none ∧ (pitchOf calling).svcs = [] ∧ (pitchOf calling).traps = [] ∧ (runOf calling).matFault = none ∧
    (pitchOf calling).exits = [(0, 2, .call 0x100)] ∧ (runOf calling).twin = none ∧ calling.fab.copies = [] ∧
    63 < (runOf calling).g.length := by decide

/-- The same pitch leaving by DONE. -/
def done : State := spent fun p => { p with exits := [(0, 0, .commit)] }

theorem witness_Belay_done : (pitchOf done).exhausted = true ∧ (pitchOf done).verdict (done.tile 0) (runOf done) = .proceed ∧
    done.belayRoom 0 (runOf done) (pitchOf done) = true ∧ done.belayFault 0 (runOf done) (pitchOf done) = none := by decide

/-- What a spent pitch of tile 0 meets to belay. -/
def spentPasses (s : State) : Bool :=
  (pitchOf s).exhausted && !(runOf s).watchdogDue && (match (pitchOf s).verdict (s.tile 0) (runOf s) with | .proceed => true | _ => false) &&
    s.belayRoom 0 (runOf s) (pitchOf s) && (s.belayFault 0 (runOf s) (pitchOf s)).isNone

/-- The pitch of `calling`, which also sets FRND; one with a TRAP; one that aborts. -/
def setting : State := spent fun p => { p with exits := [(0, 2, .goto 0x100)], effects := [(0, .csr .write 0x023 3)], flags := 0x10 }
def trapping : State := spent fun p => { p with exits := [(0, 2, .goto 0x100)], traps := [(0, true, 7)] }
def aborting : State := withInst (spent fun p => { p with exits := [(0, 2, .abort)] })

theorem witness_Belay_csr : spentPasses setting = true ∧ (0x023 : Nat) ≠ 0x010 ∧
    (Spec.csrBefore (runOf setting) (pitchOf setting) 0x023).isSome = true ∧ (pitchOf setting).effects.length = 1 := by decide

theorem witness_Belay_trap : spentPasses trapping = true ∧ (pitchOf trapping).traps ≠ [] ∧ (pitchOf trapping).imm = none ∧
    (pitchOf trapping).svcs = [] ∧ (runOf trapping).matFault = none := by decide

theorem witness_Belay_abort : spentPasses aborting = true ∧ (pitchOf aborting).exits = [(0, 2, .abort)] ∧
    (aborting.rec? (runOf aborting).inst (runOf aborting).idx).isSome = true := by decide

/-- A pitch with a LOG service, its argument poisoned or not, whose status is written to g5. -/
def calls (b : Bool) : State := spent fun p =>
  { p with
    words := [0, 0]
    slots := [{ status := .fired }, { status := .fired }]
    idle := [0, 1]
    exits := [(0, 2, .goto 0x100)]
    svcs := [{ slot := 0, num := 1, l := 0, r := 0, pois := b, resPois := b, target := .to .left 1 }]
    effects := [(1, .writeG 5 { v := 0 })] }

theorem witness_Belay_service : spentPasses (calls false) = true ∧ ((pitchOf (calls false)).svcs[0]?).map (fun c => (c.slot, c.pois)) = some (0, false) ∧
    spentPasses (calls true) = true ∧ ((pitchOf (calls true)).svcs[0]?).map (fun c => (c.slot, c.pois)) = some (0, true) ∧
    (pitchOf (calls true)).imm = none ∧ (pitchOf (calls true)).exits = [(0, 2, .goto 0x100)] ∧ 5 < (runOf (calls true)).g.length := by decide

/-- Its service under way. -/
def inService : State := (calls false).modRun 0 fun r => { r with phase := .services 0 }

theorem witness_Belay_status : (runOf inService).phase = .services 0 ∧ (pitchOf inService).svcs.length = 0 + 1 ∧
    ((pitchOf inService).svcs[0]?).map (fun c => c.target) = some (.to .left 1) ∧ (pitchOf inService).exits = [(0, 2, .goto 0x100)] := by decide

/-- A pitch that stores a byte of a new line, in a task with 8,192 shadow lines. -/
def fullShadow : State :=
  (spent fun p => { p with
    exits := [(0, 2, .goto 0x100)]
    effects := [(0, .store 0 [{ va := 0x2000, loc := 0x2000, bytes := [1], local_ := false }] false)] }).modRun 0 fun r =>
      { r with shadow := List.replicate 8192 { loc := 0x1000, va := 0x1000, data := 0, mask := 1, pois := 0 } }

theorem witness_Belay_overflow : (pitchOf fullShadow).newLines (runOf fullShadow) = (pitchOf fullShadow).devicePieces ∧
    (pitchOf fullShadow).devicePieces.map (fun x => (x.key, x.slot)) = [(lineKey 0x2000, 0)] ∧
    8192 < (runOf fullShadow).shadow.length + 1 ∧ (pitchOf fullShadow).exhausted = true ∧
    (match (pitchOf fullShadow).verdict (fullShadow.tile 0) (runOf fullShadow) with | .proceed => true | _ => false) = true := by
  have h : (runOf fullShadow).shadow = List.replicate 8192 { loc := 0x1000, va := 0x1000, data := 0, mask := 1, pois := 0 } := rfl
  have k : (pitchOf fullShadow).devicePieces.all (fun x => x.key != lineKey 0x1000) = true := by decide
  refine ⟨?_, by decide, by rw [h, List.length_replicate]; decide, by decide, by decide⟩
  unfold Pitch.newLines
  rw [h]
  refine List.filter_eq_self.2 fun x hx => ?_
  have := List.all_eq_true.1 k x hx
  rw [List.any_replicate, if_neg (by decide)]
  show (!(lineKey 0x1000 == x.key)) = true
  rw [BEq.comm]
  exact this

/-! ## Hypotheses met: immediate-class accesses, the watchdog, errors -/

/-- A pitch whose immediate-class access is out. -/
def access (op : ImmOp) (loc : Nat) (st : ImmState) (f : State → State := id) : State :=
  f (task (.imm st) (onPitch fun p => { p with imm := some { slot := 0, lsid := 0, op := op, va := BitVec.ofNat 64 loc, loc := loc,
                                                             local_ := false, targets := [], opcode := 0xAF } }))

theorem canonical_world : Canonical world := by decide

theorem witness_SynchronisedEvents : (runOf (access (.sync .produce false 5) 0x1000 .sent)).phase = .imm .sent ∧
    ((runOf (access (.sync .produce false 5) 0x1000 .sent)).syncOp.map fun x => x.2.1) = some .produce ∧
    (access (.sync .produce false 5) 0x1000 .sent).linkDown 0x1000 = false ∧
    (access (.sync .produce false 5) 0x1000 .sent).fab.retry = [] ∧ Canonical (access (.sync .produce false 5) 0x1000 .sent) ∧
    (access (.sync .produce false 5) 0x1000 .sent).lines = [] ∧ 0x1000 % 128 + 8 ≤ 128 ∧
    ((access (.sync .produce false 5) 0x1000 .sent).line (lineKey 0x1000)).allows .produce = true := by decide

theorem witness_SynchronisedEvents_waits : ((runOf (access (.sync .readfull true 0) 0x1000 .sent)).syncOp.map fun x => x.2.1) = some .readfull ∧
    ((access (.sync .readfull true 0) 0x1000 .sent).line (lineKey 0x1000)).allows .readfull = false ∧
    (access (.sync .readfull true 0) 0x1000 .sent).retryRoom (lineKey 0x1000) = true := by decide

theorem witness_SynchronisedEvents_resent : (runOf (access (.sync .readfull true 0) 0x1000 .busy)).phase = .imm .busy := by decide

/-- Where the retry list of a bank and the overflow list of its die are full, no entry finds room: the condition of a busy answer. -/
theorem witness_SynchronisedEvents_busy (s : State) (h : bankOf (lineKey 0x1000 * 128) = some 32) (h1 : 256 ≤ s.bankWaits 32)
    (h2 : Config.overflowEntries ≤ s.overflowed 0) : s.retryRoom (lineKey 0x1000) = false := by
  unfold State.retryRoom
  rw [h]
  simp only [Bool.or_eq_false_iff, decide_eq_false_iff_not, Nat.not_lt]
  exact ⟨h1, h2⟩

theorem witness_SynchronisedEvents_withdrawn :
    (runOf (access (.sync .readfull true 0) 0x1000 .waiting fun s => s.modRun 0 fun r => { r with watchdogDue := true })).watchdogDue = true ∧
    (runOf (access (.sync .readfull true 0) 0x1000 .waiting fun s => s.modRun 0 fun r => { r with watchdogDue := true })).phase =
      .imm .waiting := by decide

theorem witness_SynchronisedEvents_service :
    (runOf (access (.sync .readfull true 0) 0x1000 .waiting fun s => s.modRun 0 fun r => { r with dogInService := true })).dogInService = true := by
  decide

theorem witness_ImmediateEvents : (runOf (access (.amo .add false 8 1) 0x1000 .waiting)).phase = .imm .waiting ∧
    ImmState.waiting.open = true ∧ ((pitchOf (access (.amo .add false 8 1) 0x1000 .waiting)).imm.map fun a => a.peer) = some none ∧
    (access (.amo .add false 8 1) 0x1000 .waiting).linkDown 0x1000 = false ∧ Canonical (access (.amo .add false 8 1) 0x1000 .waiting) ∧
    (access (.amo .add false 8 1) 0x1000 .waiting).lines = [] := by decide

theorem witness_ImmediateEvents_float : ((pitchOf (access (.amof .add 1) 0x1000 .sent)).imm.map fun a => a.op) = some (.amof .add 1) ∧
    Canonical (access (.amof .add 1) 0x1000 .sent) := by decide

theorem witness_ImmediateEvents_cas :
    ((pitchOf (access (.cas 4 0x01 7 false) 0x4000 .sent)).imm.map fun a => a.op) = some (.cas 4 0x01 7 false) ∧
    (access (.cas 4 0x01 7 false) 0x4000 .sent).mem.value 0x4000 4 = 0x02000001 ∧
    (access (.cas 4 0x02000001 7 false) 0x4000 .sent).mem.value 0x4000 4 = (0x02000001 : BitVec 64).toNat % 2 ^ (8 * 4) := by decide

/-- A performed access in a pitch with one branch. -/
def performed : State :=
  (access (.amo .add false 8 1) 0x1000 (.done none)).modRun 0 (onPitch fun p => { p with exits := [(0, 0, .goto 0x40)] })

theorem witness_ImmediateEvents_belays : (runOf performed).phase = .imm (.done none) ∧ (pitchOf performed).imm.isSome = true ∧
    (pitchOf performed).exits = [(0, 0, .goto 0x40)] ∧ (pitchOf performed).traps = [] ∧ (runOf performed).matFault = none := by decide

/-- An LDD whose data has not come back. -/
def pendingLoad : State :=
  (given (.ldd .always 0 0 .none) (sc 0x8000) none none).modRun 0
    (onPitch fun p => { p with slots := [{ left := sc 0x8000, status := .pending }], idle := [0] })

theorem witness_ImmediateEvents_response : (runOf pendingLoad).phase = .fire ∧ (pitchOf pendingLoad).awaiting 0 = true ∧
    (pitchOf pendingLoad).words = [0xA6000000] ∧ Spec.awaitsData (.ldd .always 0 0 .none) = true ∧
    goesOn (exec (.ldd .always 0 0 .none) (pendingLoad.aim 0 0)) = true := by decide

theorem witness_ImmediateEvents_response_word : decode 0xA6000000 = .ok (.ldd .always 0 0 .none) := rfl

theorem witness_ImmediateEvents_load : passes ((envOf (pendingLoad.aim 0 0)).access { align := 8, r := true } [(0x8000, 8)])
    (fun bs => !(envOf (pendingLoad.aim 0 0)).behindLower 0 bs && !(envOf (pendingLoad.aim 0 0)).held false bs) = true ∧
    (envOf (pendingLoad.aim 0 0)).slot.status = .pending ∧ (Spec.loads (envOf (pendingLoad.aim 0 0)) (.ldd .always 0 0 .none)).isSome = true ∧
    pendingLoad.lines = [] ∧ (envOf (pendingLoad.aim 0 0)).pois = false := by decide

/-- An MWAIT whose word has reached its threshold. -/
def hitWait : State :=
  (given (.mwait .always 0 .none) (sc 0x8000) (sc 5) none).modRun 0 (onPitch fun p =>
    { p with slots := [{ left := sc 0x8000, right := sc 5, status := .pending }]
             waits := [{ slot := 0, loc := 0x8000, t := 5, hit := some (7, false) }] })

theorem witness_ImmediateEvents_wait : ((hitWait.aim 0 0).env?).isSome = true ∧
    (sigOf (.mwait .always 0 .none)).ready (envOf (hitWait.aim 0 0)).slot = true ∧
    ((envOf (hitWait.aim 0 0)).p.waits.find? fun x => x.slot == 0).map (fun m => m.hit) = some (some (7, false)) ∧
    (envOf (hitWait.aim 0 0)).p.words[0]? = encode (.mwait .always 0 .none) := by decide

/-- An LDV of 256 bytes that has not fired. -/
def wideLoad : State := given (.ldv .always 0 0 .none) (sc 0x8000) none none

theorem witness_ImmediateEvents_ahead : ((wideLoad.aim 0 0).env?).isSome = true ∧ (envOf (wideLoad.aim 0 0)).slot.status = .waiting ∧
    passes ((envOf (wideLoad.aim 0 0)).access { align := 16, r := true } [(0x8000, 256)]) (fun bs =>
      !(envOf (wideLoad.aim 0 0)).behindLower 0 bs && !(envOf (wideLoad.aim 0 0)).held false bs &&
        decide (2 ≤ ((boundSectors bs).filter fun o => !((envOf (wideLoad.aim 0 0)).p.earlyOf 0).any fun x => x.loc == o).length)) = true ∧
    (envOf (wideLoad.aim 0 0)).p.words[0]? = encode (.ldv .always 0 0 .none) := by decide

/-- A task of record 0 whose watchdog has expired. -/
def expired (irr : Bool) : State := withInst (task .fetch fun r => { r with watchdogDue := true, irrevocable := irr })

/-- The cycle after the expiry. -/
def late (irr : Bool) : State := { expired irr with cycle := 1 }

theorem witness_Watchdog : (runOf (late true)).dogNow = true ∧ (runOf (late true)).dogBefore (late true).cycle = true ∧
    (late true).fab.retry = [] ∧ (runOf (late true)).irrevocable = true ∧ (runOf (late true)).twin = none ∧
    ((late true).dies[tileDie 0]?).isSome = true := by decide

theorem witness_Watchdog_revocable : (runOf (late false)).dogNow = true ∧ (runOf (late false)).irrevocable = false ∧
    (runOf (late false)).dogBefore (late false).cycle = true ∧
    ((late false).rec? 0 0).map (fun x => decide (x.dogs < 2)) = some true := by decide

/-- In the cycle of the expiry, or while nothing has expired, the event does nothing. -/
theorem witness_Watchdog_waits : (runOf (expired true)).dogBefore (expired true).cycle = false ∧ (runOf (task .fetch)).dogNow = false := by decide

theorem witness_UncorrectableErrors : ((placed (.nop .always)).run? 0).isSome = true ∧ (runOf (placed (.nop .always))).pitch.isSome = true ∧
    ((withInst world).inst? 0).map (fun i => i.lost) = some false ∧ world.inService 0 = true ∧ (world.cluster 0).retire ≠ .retired := by
  decide

/-- Record 0 of an instance whose image of one record stands at 0x10000. -/
theorem witness_UncorrectableErrors_record : ((withInst world).inst? 0).isSome = true ∧
    ((withInst world).rec? 0 0).map (fun x => (x.spilled, decide (x.st ≠ .killed), decide (x.st ≠ .retired))) = some (false, true, true) ∧
    (match (withInst world).recWords oneInst.ctx oneInst.templ 0 with | .ok _ => true | .error _ => false) = true ∧
    (withInst world).lines = [] := by decide

/-! ## Hypotheses met: the end of a task, its publication -/

/-- A committing task of record 0. -/
def committing (f : Run → Run) : State := withInst (task .committing fun r => f { r with pitch := none })

theorem witness_CommitChecksAndTwins : (runOf (committing id)).phase = .committing ∧ (runOf (committing id)).checked = false ∧
    (runOf (committing id)).twin = none ∧ (runOf (committing id)).watchdogDue = false ∧ (runOf (committing id)).matFault = none ∧
    (committing id).waitsDone 0 (runOf (committing id)) = true ∧ (runOf (committing id)).refusal = none ∧
    (runOf (committing id)).commit = [] ∧
    (match (committing id).successorsOf (runOf (committing id)) with
      | .ok l => l.all fun x => sucScope x.1 != 3
      | .error _ => false) = true := by decide

theorem witness_CommitChecksAndTwins_refused :
    (runOf (committing fun r => { r with ctlPois := true, irrevocable := true })).refusal.isSome = true ∧
    (runOf (committing fun r => { r with ctlPois := true, irrevocable := true })).irrevocable = true ∧
    (runOf (committing fun r => { r with ctlPois := true })).refusal.isSome = true ∧
    ((committing fun r => { r with ctlPois := true }).rec? 0 0).isSome = true ∧
    (committing fun r => { r with ctlPois := true }).waitsDone 0 (runOf (committing fun r => { r with ctlPois := true })) = true := by
  decide

theorem witness_CommitChecksAndTwins_poison :
    ({ loc := 0, va := 0, data := 0, mask := 0, pois := 0x80 } : ShadowLine).pois ≠ 0 := by decide

/-- Two twins of record 0 in TWIN-WAIT on tiles 0 and 1, the second with given shadow lines. -/
def twins (l : List ShadowLine) : State :=
  let a := { runOf (committing id) with twin := some 0, phase := .twinWait }
  ((committing id).setRun 0 a).setRun 1 { a with twin := some 1, shadow := l }

theorem witness_CommitChecksAndTwins_twins : ((twins []).twinAt 0 0 0).map (fun x => x.1) = some 0 ∧
    ((twins []).twinAt 0 0 1).map (fun x => x.1) = some 1 ∧ (twins []).twinAt 0 0 2 = none ∧ (0 : Nat) ≠ 1 ∧
    ((twins []).twinAt 0 0 0).map (fun x => x.2.shadow) = ((twins []).twinAt 0 0 1).map (fun x => x.2.shadow) ∧
    ((twins []).twinAt 0 0 0).map (fun x => x.2.commit) = ((twins []).twinAt 0 0 1).map (fun x => x.2.commit) := by decide

theorem witness_CommitChecksAndTwins_differ :
    ((twins [{ loc := 0x1000, va := 0x1000, data := 1, mask := 1, pois := 0 }]).twinAt 0 0 0).map (fun x => x.2.digest) ≠
      ((twins [{ loc := 0x1000, va := 0x1000, data := 1, mask := 1, pois := 0 }]).twinAt 0 0 1).map fun x => x.2.digest := by
  decide +kernel

/-- A task whose commit checks have passed, with one shadow line. -/
def checked : State := committing fun r =>
  { r with checked := true, shadow := [{ loc := 0x1000, va := 0x1000, data := 0x1234, mask := 3, pois := 0 }] }

theorem witness_Handover : (runOf checked).phase = .committing ∧ (runOf checked).checked = true ∧ (runOf checked).watchdogDue = false ∧
    (runOf checked).claims = [] ∧ (match checked.successorsOf (runOf checked) with | .ok _ => true | .error _ => false) = true ∧
    (checked.tile 0).queue = [] ∧ (checked.tile 0).state ≠ .drained := by decide +kernel

/-- A publication. -/
def onePub : Pub := { id := 4, ctx := 0, inst := 0, idx := 0, tile := 0, home := oneInst }
def publishing (p : Pub) : State := withInst { world with fab := { world.fab with pubs := [p] } }

theorem witness_Publication_reduction :
    ((publishing { onePub with reds := [(0x4000, .redInt .add false 8 1)] }).pub? 4).map (fun p => p.reds[0]?) =
      some (some (0x4000, .redInt .add false 8 1)) ∧
    (publishing { onePub with reds := [(0x4000, .redInt .add false 8 1)] }).linkDown 0x4000 = false ∧
    (Spec.reductionOf (.redInt .add false 8 1)).isSome = true ∧
    Canonical (publishing { onePub with reds := [(0x4000, .redInt .add false 8 1)] }) := by decide

/-- A publication whose stores mark bytes 0, 1 and 127 of the line at 0x1000. -/
def storing : Pub :=
  { onePub with stores := ({ runOf checked with
      shadow := [{ loc := 0x1000, va := 0x1000, data := 0x56 * 2 ^ 1016 + 0x1234, mask := 2 ^ 127 + 3, pois := 0 }] } : Run).linesOut }

theorem witness_Publication_sector : ((publishing storing).pub? 4).map (fun p => p.sectorsLeft) = some [(0, 0), (0, 7)] ∧
    storing.reds = [] ∧ storing.stores.map (fun x => x.left) = [[0, 7]] ∧ (publishing storing).linkDown 0x1000 = false ∧
    Canonical (publishing storing) := by decide +kernel

/-- A sector is written alone: bytes 0 and 1, and not byte 127 of the same line (12 R259, R263). -/
theorem test_sector_alone :
    (match execReductionApply 4 0 (publishing storing) with
      | .next u => (u.mem.value 0x1000 2, u.mem.value 0x107F 1, (u.pub? 4).map fun p => p.sectorsLeft)
      | .fault _ => (0, 0, none)
      | .refused _ => (0, 0, none)) = (0x1234, 0, some [(0, 7)]) := by decide +kernel

theorem witness_Publication_step2 : ((publishing { onePub with rels := [(0x20, 120, false, 5)] }).pub? 4).map (fun p => p.step) = some 1 ∧
    (publishing { onePub with rels := [(0x20, 120, false, 5)] }).step1Done { onePub with rels := [(0x20, 120, false, 5)] } = true ∧
    (publishing { onePub with rels := [(0x20, 120, false, 5)] }).linkDown (128 * 0x20) = false ∧
    (publishing { onePub with rels := [(0x20, 120, false, 5)] }).fab.retry = [] ∧ 120 + 8 ≤ 128 ∧
    Canonical (publishing { onePub with rels := [(0x20, 120, false, 5)] }) := by decide

theorem witness_Publication_no_release : ((publishing onePub).pub? 4).map (fun p => (p.step, p.rels.length)) = some (1, 0) ∧
    (publishing onePub).step1Done onePub = true := by decide

/-- An entry of a commit set. -/
def entry (op : CommitOp) : CommitEntry := { op := op, pitch := 0, exit := 0, slot := 0, lsid := 0, opcode := 0xE0, sub := 0 }

theorem witness_Publication_step3 : ((publishing { onePub with step := 2, graph := [entry (.dec 0x01000001 0)] }).pub? 4).map (fun p => p.step) = some 2 ∧
    ((publishing { onePub with step := 2, graph := [entry (.dec 0x01000001 0)] }).inst? 0).isSome = true ∧ sucScope 0x01000001 = 0 ∧
    ((publishing { onePub with step := 2, graph := [entry (.spawn 0)] }).inst? 0).isSome = true ∧
    ((publishing { onePub with step := 2, graph := [entry (.send 0 0)] }).inst? 0).isSome = true := by decide

theorem witness_Publication_retired : ((publishing { onePub with step := 3 }).pub? 4).map (fun p => p.step) = some 3 ∧
    (publishing { onePub with step := 3 }).step3Done { onePub with step := 3 } = true ∧
    ((publishing { onePub with step := 3 }).inst? 0).isSome = true ∧ oneInst.recs[onePub.idx]?.isSome = true := by decide

/-- An ordered contribution at the first cell of 0x3000, whose next number is 0. -/
def contributing (q : BitVec 32) (busy : Bool) (f : Fabric → Fabric := id) : State :=
  { world with fab := f { world.fab with arriving := [{ loc := 0x3000, q := q, op := .redo 0x3F800000, pois := false, busy := busy }] } }

theorem witness_Publication_ordered : ((contributing 0 false).fab.arriving[0]?).map (fun c => (c.busy, c.q)) = some (false, 0) ∧
    (contributing 0 false).linkDown 0x3000 = false ∧ (0 : BitVec 32) = BitVec.ofNat 32 ((contributing 0 false).mem.value (0x3000 + 8) 4) ∧
    (contributing 0 false).fab.held = [] ∧ Canonical (contributing 0 false) := by decide

theorem witness_Publication_early : ((5 : BitVec 32) - (contributing 5 false).cellNext
      { loc := 0x3000, q := 5, op := .redo 0x3F800000, pois := false }).toNat ≠ 0 ∧
    ((5 : BitVec 32) - (contributing 5 false).cellNext { loc := 0x3000, q := 5, op := .redo 0x3F800000, pois := false }).toNat < 2 ^ 31 ∧
    (contributing 5 false).fab.held = [] ∧ (contributing 5 false).heldAt (cellBank 0x3000) < 1024 := by decide

/-- 1,024 early contributions held at one bank. -/
def manyHeld : List Contribution := List.replicate 1024 { loc := 0x3000, q := 9, op := .redo 0, pois := false }

theorem witness_Publication_full : 1024 ≤ (contributing 5 false fun f => { f with held := manyHeld }).heldAt (cellBank 0x3000) := by
  decide +kernel

theorem witness_Publication_stale : 2 ^ 31 ≤ ((0xFFFFFFFF : BitVec 32) - (contributing 0xFFFFFFFF false).cellNext
      { loc := 0x3000, q := 0xFFFFFFFF, op := .redo 0x3F800000, pois := false }).toNat := by decide

theorem witness_Publication_busy : ((contributing 5 true).fab.arriving[0]?).map (fun c => c.busy) = some true := by decide

theorem witness_Publication_present : absentLoc 0x4000 = false ∧ absentLoc (128 * 0x20 + 120) = false ∧
    (publishing onePub).lines = [] := by decide

/-! ## Hypotheses met: the dispatcher -/

/-- Record 0 PENDING with CYCLIM 20 and a pin, blocked since a cycle. -/
def pendingRec (pin : Nat) (blocked : Option Nat) : State :=
  { world with cycle := 1000, insts := [{ oneInst with recs := [{ st := .pending, words := [0, BitVec.ofNat 64 (20 * 2 ^ 16 + pin * 2 ^ 22)], blocked := blocked }] }] }

def candidate : Cand := { ctx := 0, inst := 0, idx := 0, twin := none, level := 0, member := false, since := 0, weight := 64 }

theorem witness_Placement : (pendingRec 3 none).checkDie 0 (pendingRec 3 none).insts = pendingRec 3 none ∧
    (pendingRec 3 none).service 0 = [candidate] ∧
    (pendingRec 3 none).bestTile candidate ((pendingRec 3 none).eligibles candidate (dieTiles 0)) = some 32 ∧
    ((pendingRec 3 none).inst? 0).isSome = true ∧ ((pendingRec 3 none).rec? 0 0).map (fun x => x.st) = some .pending :=
  ⟨rfl, by decide +kernel, by decide +kernel, by decide, by decide⟩

theorem witness_Placement_across : (pendingRec 17 (some 744)).checkDie 0 (pendingRec 17 (some 744)).insts = pendingRec 17 (some 744) ∧
    (pendingRec 17 (some 744)).service 0 = [candidate] ∧ (pendingRec 17 (some 744)).crosses 0 candidate = true ∧
    (pendingRec 17 (some 744)).bestTile candidate ((pendingRec 17 (some 744)).eligibles candidate (otherTiles 0)) = some 272 :=
  ⟨rfl, by decide +kernel, by decide +kernel, by decide +kernel⟩

/-- Two records PENDING, the first pinned to a cluster of another die. -/
def twoPending : State :=
  { world with
    cycle := 1000
    insts := [{ oneInst with recs := [(17, 5), (3, 6)].map fun x =>
      { st := .pending, words := [0, BitVec.ofNat 64 (20 * 2 ^ 16 + x.1 * 2 ^ 22)], since := x.2 } }] }

theorem witness_Placement_second : twoPending.checkDie 0 twoPending.insts = twoPending ∧
    twoPending.service 0 = [{ candidate with since := 5 }, { candidate with idx := 1, since := 6 }] ∧
    twoPending.eligibles { candidate with since := 5 } (dieTiles 0) = [] ∧
    twoPending.bestTile { candidate with idx := 1, since := 6 }
      (twoPending.eligibles { candidate with idx := 1, since := 6 } (dieTiles 0)) = some 32 :=
  ⟨rfl, by decide +kernel, by decide +kernel, by decide +kernel⟩

theorem witness_Placement_stays : (pendingRec 17 (some 745)).checkDie 0 (pendingRec 17 (some 745)).insts = pendingRec 17 (some 745) ∧
    (∀ k ∈ (pendingRec 17 (some 745)).service 0, (pendingRec 17 (some 745)).crosses 0 k = false) ∧
    (pendingRec 17 (some 745)).rec? 0 0 ≠ none ∧ 744 + 256 ≤ (pendingRec 17 (some 744)).cycle :=
  ⟨rfl, by decide +kernel, by decide +kernel, by decide⟩

/-- Record 0 in the placed queue of tile 0, which runs nothing. -/
def queued (runnable : Bool) : State :=
  (withInst world).modTile 0 fun v => { v with run := none, queue := [{ ctx := 0, inst := 0, idx := 0, issued := true, runnable := runnable }] }

theorem witness_Placement_runnable :
    ((queued false).tile 0).queue.find? (fun p => p.inst == 0 && p.idx == 0 && !p.runnable) = some { ctx := 0, inst := 0, idx := 0, issued := true } ∧
    (queued false).prefetchesOf 0 { ctx := 0, inst := 0, idx := 0, issued := true } = [] := by decide

theorem witness_Placement_start : (queued true).run? 0 = none ∧
    (queued true).nextEntry ((queued true).tile 0).queue = some { ctx := 0, inst := 0, idx := 0, issued := true, runnable := true } ∧
    ((queued true).inst? 0).isSome = true ∧ ((queued true).rec? 0 0).isSome = true := by decide

/-! ## Hypotheses met: graph memory, messages, rings -/

/-- A decrement of 2 under way to record 0, whose counter and generation are given. -/
def decrementing (counter gen : Nat) : State :=
  { world with
    insts := [{ oneInst with recs := [{ counter := BitVec.ofNat 32 counter, gen := gen }] }]
    fab := { world.fab with decs := [{ ctx := 0, target := .slot 0 0 1 0 0, amt := 2 }] } }

theorem witness_GraphMemory_decrement : ((decrementing 3 1).rec? 0 0).map (fun x => (x.gen, x.st, decide (2 < x.counter.toNat))) = some (1, .waiting, true) ∧
    ((decrementing 2 1).rec? 0 0).map (fun x => (x.gen, x.st, decide (2 = x.counter.toNat ∧ x.counter ≠ 0), x.spilled)) =
      some (1, .waiting, true, false) ∧
    ((decrementing 2 0).rec? 0 0).map (fun x => decide (x.gen ≠ 1)) = some true ∧
    ((decrementing 2 0).fab.decs[0]?).map (fun d => d.answered) = some false ∧ ((decrementing 2 0).dies[0]?).isSome = true := by decide

theorem witness_GraphMemory_stray :
    (({ world with fab := { world.fab with decs := [{ ctx := 0, target := .remote 5 64 64 9, amt := 1, answered := true }] } } : State).fab.decs[0]?).map
      (fun d => (d.answered, d.target)) = some (true, .remote 5 64 64 9) := by decide

/-- Peer 3, which takes decrements and messages. -/
def withPeer (s : State) : State :=
  { s with pkg := { s.pkg with peers := [{ pkg := 3, ports := 1, rev := 0, encl := 0, ops := 0, redt := 0, mbox := true, rdec := true }] } }

/-- A peer's decrement whose context does not exist here. -/
def peerDec : Decrement := { ctx := 9, target := .remote 0 64 64 9, amt := 1, port := some 15 }

theorem witness_GraphMemory_refused : world.pkg.id.toNat = 0 ∧ peerDec.answered = false ∧ world.linkDown peerDec.way = false ∧
    world.ctx? peerDec.ctx = none ∧ peerDec.port = some 15 ∧
    ({ world with fab := { world.fab with decs := [peerDec] } } : State).fab.decs[0]? = some peerDec :=
  ⟨by decide, by decide, by decide, by decide, by decide, rfl⟩

theorem witness_AccessFaults_denied : ([remote].findSome? Part.notMapped) = none ∧ ([remote].findSome? (Part.perm (withPeer world) 0 synced)) = none ∧
    ([remote].findSome? (Part.aperture (withPeer world) 0 synced)) = none ∧ ([remote].findSome? (Part.notSync synced)) = none ∧
    ([remote].findSome? (Part.denied synced)).isSome = true := by decide

theorem witness_GraphMemory_remote :
    (withPeer { world with fab := { world.fab with decs := [{ ctx := 0, target := .remote 3 64 64 9, amt := 1 }] } }).linkDown (locOf spHbm (3 + 1) 0 0) = false ∧
    3 ≠ world.pkg.id.toNat ∧ ((withPeer world).peer? 3).map (fun p => p.rdec) = some true := by decide

/-- Two arrivals of one tile at one rope. -/
def arrivals : State :=
  { world with
    ropes := [{ key := 7, ctx := 0, members := [{ inst := 0, idx := 0, b := 0, a := 0 }] }]
    fab := { world.fab with ropeArr := [{ tile := 0, ctx := 0, key := 7, inst := 0, idx := 0, n := 1 }] } }

theorem witness_GraphMemory_rope : (arrivals.fab.ropeArr[0]?).isSome = true ∧ (arrivals.ropes[0]?).map (fun x => x.key) = some 7 := by decide

/-- A spawn of a template of one record that has passed its check. -/
def spawning : State :=
  { world with
    ctxs := [{ resetCtx0 with root := some { frame := 1, aper := 0 }, templates := [{ templ := 0x10000, loc := 0x10000, nrec := 1 }] }]
    fab := { world.fab with creations := [{ ctx := 0, templ := 0x10000, rename := 0, tag := 5, prio := 0, origin := .spawn }] } }

def spawned : Creation := { ctx := 0, templ := 0x10000, rename := 0, tag := 5, prio := 0, origin := .spawn }
def spawnInfo : TemplInfo := { templ := 0x10000, loc := 0x10000, nrec := 1 }

theorem witness_GraphMemory_create : spawning.fab.creations[0]? = some spawned ∧ spawning.verdictOf 0 0x10000 = (spawning, .ok spawnInfo) ∧
    spawnInfo.bad = none ∧ spawning.insts = [] ∧ 0 < spawnInfo.k ∧ spawning.liveInst 0 0x10000 5 = none ∧
    spawning.newRecs spawned spawnInfo = .ok [List.replicate 32 0] ∧
    (State.buildInst (State.verifyTables { spawning with fab := { spawning.fab with creations := spawning.fab.creations.eraseIdx 0 } } spawned
      spawnInfo) spawned spawnInfo
      (List.replicate spawnInfo.nbuf 0) [List.replicate 32 0]).isSome = true :=
  ⟨by decide, rfl, rfl, by decide, by decide, by decide, rfl, by decide +kernel⟩

/-- A message under way to mailbox 3. -/
def sending (waiting : Bool) : State :=
  { world with cycle := 2 ^ 20, fab := { world.fab with msgs := [{ ctx := 0, mbox := 3, words := 5, waiting := waiting }] } }

theorem witness_MessagesAndRings_accept : ((sending false).fab.msgs[0]?).map (fun m => m.pkg) = some none ∧
    ((sending false).ctx? 0).map (fun c => decide ((c.mbox 3).held.length < 32)) = some true := by decide

theorem witness_MessagesAndRings_overflow : (sending true).fab.msgs[0]? = some { ctx := 0, mbox := 3, words := 5, waiting := true } ∧
    0 + 2 ^ 20 ≤ (sending true).cycle := ⟨rfl, Nat.le_refl _⟩

/-- The message of `sending` with its mailbox full, for a context that does not exist, and for peer 3. -/
def crowded : State :=
  { sending false with ctxs := (sending false).ctxs.map fun c => { c with mboxes := [(3, { bound := true, held := List.replicate 32 (0, 0) })] } }

theorem witness_MessagesAndRings_alone (k : Message) (h : (sending false).fab.msgs[0]? = some k) :
    (∀ x ∈ (sending false).fab.msgs.take 0, x.inOrder k = true → x.waiting = true) ∧
      ∀ x ∈ (sending false).fab.msgs, x.waitsBefore k = false := by
  cases h; decide

theorem witness_MessagesAndRings_pressed : (crowded.ctx? 0).isSome = true ∧ crowded.acceptMessage 0 3 5 = none ∧
    (crowded.fab.msgs[0]?).map (fun m => (m.waiting, m.pkg)) = some (false, none) := by decide

theorem witness_MessagesAndRings_stray : (sending false).ctx? 9 = none ∧ ((sending false).dies[3 % 4]?).isSome = true := by decide

/-- A peer's message for a context that does not exist, one that has been reported, and a BIND under way. -/
def peerMsg : Message := { ctx := 9, mbox := 3, words := 5, port := some 15 }
def strayMail : State := { world with fab := { world.fab with msgs := [peerMsg, { peerMsg with ctx := 0, mbox := 4, waiting := true, reported := true }] } }
def binding : MboxBind := { ctx := 0, mbox := 3, bind := some (0x10000, 3), pub := 4 }
def binding2 : State := { strayMail with fab := { strayMail.fab with binds := [{ binding with mbox := 4 }, binding, { binding with bind := none, pub := 5 }] } }

theorem witness_MessagesAndRings_refused : strayMail.fab.msgs[0]? = some peerMsg ∧ peerMsg.pkg = none ∧ strayMail.ctx? peerMsg.ctx = none ∧
    peerMsg.port = some 15 ∧ (∀ x ∈ strayMail.fab.msgs, x.waitsBefore peerMsg = false) ∧
    (strayMail.fab.msgs[1]?).map (fun m => m.reported) = some true :=
  ⟨rfl, by decide, by decide, by decide, by decide, by decide⟩

theorem witness_MessagesAndRings_binds : binding2.fab.msgs.length ≤ 3 ∧ binding2.fab.binds[3 - binding2.fab.msgs.length]? = some binding ∧
    (∀ x ∈ binding2.fab.binds.take (3 - binding2.fab.msgs.length), x.ctx = binding.ctx → x.mbox = binding.mbox → x.pub ≠ binding.pub) ∧
    (binding2.fab.binds[4 - binding2.fab.msgs.length]?).map (fun b => b.bind) = some none ∧
    (∀ x ∈ binding2.fab.binds.take 2, x.ctx = (0 : BitVec 32) → x.mbox = 3 → x.pub ≠ 5) := by decide

theorem witness_MessagesAndRings_remote : ((withPeer world).peer? 3).map (fun p => p.mbox) = some true ∧
    (withPeer world).linkDown ({ ctx := 0, mbox := 3, words := 5, ctl := 4 * 2 ^ 32 } : Message).way = false := by decide

/-- Mailbox 3 bound, with a held message. -/
def delivering : State :=
  { spawning with
    fab := world.fab
    ctxs := spawning.ctxs.map fun c => { c with mboxes := [(3, { bound := true, htempl := 0x10000, held := [(9, 5)] })] } }

theorem witness_MessagesAndRings_deliver : (delivering.ctx? 0).map (fun c => (delivering.deliverable c 3, (c.mbox 3).held, (c.mbox 3).hrec)) =
      some (true, [(9, 5)], 0) ∧ delivering.verdictOf 0 0x10000 = (delivering, .ok spawnInfo) ∧ 0 < spawnInfo.nrec :=
  ⟨by decide +kernel, rfl, by decide⟩

/-- Words in memory. -/
def withWords (l : Nat) (ws : List Nat) (s : State) : State := s.store l (ws.flatMap fun w => toBytes w 8) false

/-- A ring of 16 entries at 0xB000, its control block at 0xA000 (13 R271). -/
def ring (kind tail : Nat) : State := withWords 0xA000 [0xB000, 4 + 2 ^ 5 * kind + 2 ^ 7 + 2 ^ 8, tail, 3, 0, 0, 0, 0] world
def inCtx (f : Ctx → Ctx) (s : State) : State := { s with ctxs := s.ctxs.map f }

def launchRing : State := inCtx (fun c => { c with launch := [(2, { va := 0xA000 })] }) (ring 0 1)
def faultRing : State :=
  inCtx (fun c => { c with faultQ := some { va := 0xA000 }, heldRecs := [{ bits := 5, stall := true, seq := 0 }] }) (ring 1 0)

def qcb (kind tail : Nat) : Qcb :=
  { loc := 0xA000, base := 0xB000, ctl := BitVec.ofNat 64 (4 + 2 ^ 5 * kind + 2 ^ 7 + 2 ^ 8), tail := BitVec.ofNat 64 tail, vec := 3, head := 0
    drops := 0, rest := 0 }

theorem witness_MessagesAndRings_launch : (launchRing.ctx? 0).map (fun c => c.launch.find? fun x => x.1 == 2) = some (some (2, { va := 0xA000 })) ∧
    launchRing.launching 0 2 = false ∧ launchRing.viewRing 0 qLaunch (some { va := 0xA000 }) = .ready (qcb 0 1) ∧ (qcb 0 1).used ≠ 0 ∧
    launchRing.entryLoc 0 (qcb 0 1) 32 (qcb 0 1).head = .ok 0xB000 ∧
    (launchRing.tally 0 0 fun c => { c with sent := c.sent + 1 }).entryFault 0 (BitVec.ofNat 256 (launchRing.mem.value 0xB000 32)) = none ∧
    (qcb 0 1).notify = true :=
  ⟨by decide, by decide, by decide, by decide, rfl, by decide, by decide⟩

theorem witness_MessagesAndRings_record : (faultRing.ctx? 0).map (fun c => c.heldRecs.length) = some 1 ∧
    faultRing.viewRing 0 qFault (some { va := 0xA000 }) = .ready (qcb 1 0) ∧ (qcb 1 0).mbv = false ∧ (qcb 1 0).en = true ∧ (qcb 1 0).full = false ∧
    faultRing.entryLoc 0 (qcb 1 0) 64 (qcb 1 0).tail = .ok 0xB000 ∧ Canonical faultRing ∧ (qcb 1 0).loc + 64 ≤ 0xB000 :=
  ⟨by decide, by decide, by decide, by decide, by decide, rfl, by decide, by decide⟩

theorem witness_MessagesAndRings_notify : (qcb 1 0).notify = true ∧ faultRing.carries (.chrolu 0) = true ∧
    ((faultRing.modPort (.chrolu 0) fun x => { x with lock := .error }).modPort (.chrolu 1) fun x => { x with waiting := true }).carries (.chrolu 0) = false ∧
    ((faultRing.modPort (.chrolu 0) fun x => { x with lock := .error }).modPort (.chrolu 1) fun x => { x with waiting := true }).carries (.chrolu 1) = false ∧
    (faultRing.lines.all fun x => x.2.chk == 0) = true := by decide

/-- Context 0 at rest, one task made and retired, one entry taken. -/
def waved (w : Option (Counts × Bool)) : State :=
  inCtx (fun c => { c with counts := [{ created := 1, retired := 1, sent := 1, received := 1 }, {}, {}, {}], wave := w }) world

theorem witness_MessagesAndRings_wave : ((waved none).ctx? 0).map (fun c => c.wave) = some none ∧
    (((waved (some ({ created := 1, retired := 1, sent := 1, received := 1 }, false))).ctx? 0).map fun c =>
      decide (c.wave = some ((waved (some ({ created := 1, retired := 1, sent := 1, received := 1 }, false))).totals c, false)) &&
        ((waved none).totals c).balanced) = some true ∧
    (((waved (some ({ created := 1, retired := 1, sent := 1, received := 1 }, true))).ctx? 0).map fun c =>
      decide (c.wave = some ((waved (some ({ created := 1, retired := 1, sent := 1, received := 1 }, true))).totals c, true))) = some true := by
  decide

/-! ## Hypotheses met: copies, streams, the matrix unit -/

/-- A change of the copy of the task in the window. -/
def copying (f : Copy → Copy) : State :=
  let s := withInst (placed (.nop .always))
  { s with fab := { s.fab with copies := [f oneCopy] } }

theorem witness_CopyEvents_translate : oneCopy.live = true ∧ oneCopy.next < oneCopy.desc.n ∧ oneCopy.desc.sin = none ∧
    oneCopy.desc.kind ≠ .prefetch ∧ (copying id).elemLocs oneCopy 0 = .ok (0, 0x2000) ∧ (copying id).lines = [] :=
  ⟨by decide, by decide, rfl, by decide, rfl, by decide⟩

/-- A copy whose second element lies outside the mapped memory. -/
def outside : Copy := { oneCopy with next := 1, desc := { oneCopy.desc with src := 2 ^ 40 } }

theorem witness_CopyEvents_stall : outside.live = true ∧ outside.next < outside.desc.n ∧ outside.desc.sin = none ∧
    (match (copying fun _ => outside).elemLocs outside outside.next with | .error f => f.code != 0 | .ok _ => false) = true ∧
    outside.prog < outside.next := by decide

def flying : Elem := { n := 0, got := true, data := 7, pois := false, loc := 0x2000 }

theorem witness_CopyEvents_complete :
    (copying fun c => { c with next := 1, fly := [flying] }).behindMatrix { oneCopy with next := 1, fly := [flying] } 0x2000 16 true = false ∧
    (copying fun c => { c with next := 1, fly := [flying] }).linkDown 0x2000 = false ∧ locSpace 0x2000 ≠ spPad ∧
    Canonical (copying fun c => { c with next := 1, fly := [flying] }) := by decide

/-- The copies of one ordered CPYR from HBM4 to bank memory, of an SIN copy and of an SOUT copy. -/
def ofKind (k : CopyKind) (dst : BitVec 64) (f : CopyDesc → CopyDesc := id) : Copy :=
  { oneCopy with desc := f { kind := k, src := 0, dst := dst, n := 8 } }

/-- A second page, of bank memory, at 64 GiB. -/
def banked (c : Copy) : State :=
  let s := withWords 0x8008 [0x173F] (copying fun _ => c)
  { s with ctxs := s.ctxs.map fun x => { x with bank := (List.range 128).map fun b => (b, 0xFFFFFF) } }

theorem witness_CopyEvents_bank : (banked (ofKind (.cpyr .add .i32) (2 ^ 36))).elemLocs (ofKind (.cpyr .add .i32) (2 ^ 36)) 0 =
    .ok (0, locOf spBank 0 0 0) := rfl

/-- A line of an ordered one, a SIN copy with a sector at hand, and its port. -/
def ordered : Copy := ofKind (.cpyr .add .i32) (2 ^ 36) fun d => { d with ord := true }
def fromPort (part : List (BitVec 128 × Bool)) : Copy := { ofKind .cpy 0x2000 fun d => { d with sin := some 1 } with inPart := part }

theorem witness_CopyEvents_line : (match (banked ordered).lineLocs ordered ((List.range 8).map fun i => ordered.next + i) with
      | .ok l => l.length == 8
      | .error _ => false) = true ∧ ordered.live = true ∧ ordered.desc.ord = true := by decide +kernel

theorem witness_CopyEvents_sector : (fromPort [(5, false)]).live = true ∧ (fromPort [(5, false)]).inPart = [(5, false)] ∧
    (copying fun _ => fromPort [(5, false)]).elemDst (fromPort [(5, false)]) 0 = .ok 0x2000 := ⟨by decide, rfl, rfl⟩

theorem witness_CopyEvents_packet :
    ((fed [{ payload := 5 }] false (copying fun _ => fromPort [])).inPort? 0 0 1).map (fun q => (q.queue.map fun k => (k.abort, k.eot), q.ended)) = some ([(false, false)], false) ∧
    ((fed [] true (copying fun _ => fromPort [])).inPort? 0 0 1).map (fun q => (q.queue.length, q.ended)) = some (0, true) ∧
    ((fed [{ payload := 5 }] false (copying fun _ => fromPort [])).copyRun (fromPort [])).map (fun r => r.popping 1) = some false ∧
    (((fed [{ payload := 5 }] false (copying fun _ => fromPort [])).inPort? 0 0 1).map fun q =>
      (fed [{ payload := 5 }] false (copying fun _ => fromPort [])).keepRoom 0 q) = some true := by decide

/-- An element whose source is to be read, and one whose data is there, at a location. -/
def unread : Elem := { n := 0, loc := 0x2000, src := 0 }
def atLoc (l : Nat) : Elem := { n := 0, loc := l, src := 0, got := true, data := 7 }
def flies (c : Copy) (e : Elem) : Copy := { c with next := 1, fly := [e] }

theorem witness_CopyEvents_read : (copying fun c => flies c unread).behindMatrix (flies oneCopy unread) 0 16 false = false ∧
    (copying fun c => flies c unread).linkDown 0 = false ∧ locPkg 0 = 0 ∧ (copying fun c => flies c unread).lines = [] ∧
    (flies oneCopy unread).fly[0]? = some unread ∧ unread.got = false ∧
    0 ∈ clusterTiles (tileCluster (ofKind .cpyb 0 fun d => { d with tmask := 1 }).tile) ∧ (1 : BitVec 16).getLsbD (tileIndex 0) = true := by decide

/-- A CPYB that names no tile. -/
def toNone : Copy := flies (ofKind .cpyb 0) unread

theorem witness_CopyEvents_nowhere : toNone.named = [] ∧ toNone.desc.kind = .cpyb ∧ toNone.stall = .no ∧ toNone.fly[0]? = some unread ∧
    (copying fun _ => toNone).behindMatrix toNone 0 16 false = false ∧ (copying fun _ => toNone).linkDown 0 = false ∧
    (copying fun _ => toNone).lines = [] ∧ (flies (ofKind .cpyb 0 fun d => { d with tmask := 1 }) unread).named ≠ [] := by decide

/-- Copies into the scratchpad, into bank memory, to a tile of the cluster, and into output port 3. -/
def toPad : Copy := flies (ofKind .cpy (BitVec.ofNat 64 Config.localBase)) (atLoc (padLoc 0 0))
def toBank : Copy := flies (ofKind (.cpyr .add .i32) (2 ^ 36)) (atLoc (locOf spBank 0 0 0))
def toTile : Copy := flies (ofKind .cpyb 0 fun d => { d with tmask := 1 }) (atLoc (padLoc 0 0))

theorem witness_CopyEvents_pad : (copying fun _ => toPad).behindMatrix toPad (padLoc 0 0) 16 true = false ∧
    toPad.undecided (atLoc (padLoc 0 0)) = false ∧ locSpace (padLoc 0 0) = spPad ∧ (copying fun _ => toPad).linkDown (padLoc 0 0) = false ∧
    ({ toPad with fly := [] } : Copy).lineOver 0 (toPad.padLine 0 0) = false ∧
    ({ toPad with prog := 8, fly := [] } : Copy).lineOver 0 (toPad.padLine 0 0) = true ∧ Canonical (copying fun _ => toPad) := by decide

theorem witness_CopyEvents_reduce : (copying fun _ => toBank).behindMatrix toBank (locOf spBank 0 0 0) 16 true = false ∧
    absentLoc (locOf spBank 0 0 0) = false ∧ (copying fun _ => toBank).linkDown (locOf spBank 0 0 0) = false ∧ toBank.desc.ord = false := by decide

theorem witness_CopyEvents_broadcast : (copying fun _ => toTile).takesBroadcast toTile (locCtx (padLoc 0 0)) = true ∧
    (copying fun _ => { toTile with ctx := 9 }).takesBroadcast { toTile with ctx := 9 } (locCtx (padLoc 0 0)) = false := by decide

/-- A copy into output port 3 of the task, and that port. -/
def toPort (n : Nat) : Copy := { ofKind .cpy 0 fun d => { d with sout := some 3, n := n } with next := 1, fly := [atLoc portLoc] }
def intoPort (n : Nat) : State := (copying fun _ => toPort n).modRun 0 fun r => { r with out := [{}, {}, {}, { bound := true, peer := 1 }] }

theorem witness_CopyEvents_port : (intoPort 8).behindMatrix (toPort 8) portLoc 16 true = false ∧ (intoPort 8).linkDown portLoc = false ∧
    ((intoPort 8).copyRun (toPort 8)).isSome = true ∧ (toPort 8).part.length + 1 < 8 ∧ 0 + 1 < (toPort 8).desc.n ∧
    ((runOf (intoPort 1)).outPort 3).hasRoom 0 = true ∧ (toPort 1).desc.n ≤ 0 + 1 ∧ 3 < (runOf (intoPort 1)).out.length := by decide

/-- The copy with every element moved. -/
def movedCopy (stampDone : Bool) : Copy :=
  { oneCopy with next := 8, prog := 8, stampDone := stampDone, desc := { oneCopy.desc with stamp := some (0x3000, 7), tag := some 5 } }

theorem witness_CopyEvents_stamp : (movedCopy false).moved = true ∧
    (copying fun _ => movedCopy false).streamLoc 0 0 0x3000 true = .ok 0x3000 ∧ absentLoc 0x3000 = false ∧
    Canonical (copying fun _ => movedCopy false) ∧ (copying fun _ => movedCopy false).behindMatrix (movedCopy false) 0x3000 8 true = false :=
  ⟨by decide, rfl, by decide, by decide, by decide⟩

theorem witness_CopyEvents_over : (movedCopy true).moved = true ∧ (movedCopy true).done = false ∧
    ((copying fun _ => movedCopy true).copyRun (movedCopy true)).map (fun r => (r.twin, (movedCopy true).portClear r)) = some (none, true) := by
  decide

/-- Output port 3 of the task bound to input port 0 of record 1, with a packet, and the port that takes it. -/
def streaming (f : OutPort → OutPort) : State :=
  let s := ({ withInst (placed (.nop .always)) with insts := [{ oneInst with recs := [{ st := .running }, { st := .running }] }] } : State).modRun 0
    fun r => { r with out := [{}, {}, {}, f { bound := true, peer := 1 }] }
  { s with fab := { s.fab with inPorts := [{ inst := 0, idx := 1, port := 0, fanin := 1, producers := [0] }] } }

theorem witness_StreamEvents_arrive : (streaming fun o => { o with queue := [{ payload := 5 }] }).circuit
      (runOf (streaming fun o => { o with queue := [{ payload := 5 }] })) { bound := true, peer := 1, queue := [{ payload := 5 }] } = true ∧
    ((streaming fun o => { o with queue := [{ payload := 5 }] }).inPort? 0 1 0).map (fun q => (q.queue.length, q.expect 0)) = some (0, (0, 0)) ∧
    (0 : BitVec 32).ult 0 = false ∧ (streaming fun o => { o with queue := [{ payload := 5 }] }).runsOf 0 1 = [] ∧ 3 < (runOf (streaming fun o => o)).out.length := by decide

theorem witness_StreamEvents_acknowledge :
    ((runOf (streaming fun o => { o with unacked := [{ payload := 5 }], acks := 1 })).outPort 3).acks ≠ 0 ∧
    (runOf (streaming fun o => { o with unacked := [{ payload := 5 }], acks := 1 })).twin = none := by decide

theorem witness_StreamEvents_resend :
    ((runOf (streaming fun o => { o with unacked := [{ payload := 5 }], resend := some 0 })).outPort 3).resend = some 0 ∧
    ∀ k ∈ ((runOf (streaming fun o => { o with unacked := [{ payload := 5 }], resend := some 0 })).outPort 3).unacked, k.reads = [] := by
  decide

/-- An operation of the matrix unit of tile 0. -/
def jobOf (op : MatOp) (started : Bool) : MatJob :=
  { op := op, fmta := 4, scalep := 0, bandp := 0, pitch := 0, slot := 0, lsid := 0, exit := 0, started := started }
def unit (op : MatOp) (started : Bool) : State := (placed (.nop .always)).modTile 0 fun v => { v with jobs := [jobOf op started] }

theorem witness_MatrixEvents_start : ((unit (.accz 2) false).tile 0).nextJob = some 0 ∧ ((unit (.accz 2) false).tile 0).free 0 (.accz 2) = true ∧
    ((unit (.accz 2) false).tile 0).pathsHeld + (MatOp.accz 2).paths ≤ 2 ∧
    ∀ x ∈ ((unit (.accz 2) false).tile 0).jobs, x.op.port = none := by decide

theorem witness_MatrixEvents_complete : ((unit (.accz 3) true).tile 0).jobs[0]? = some (jobOf (.accz 3) true) ∧
    ((unit (.bclr 3) true).tile 0).jobs[0]? = some (jobOf (.bclr 3) true) ∧
    ((unit (.bswap 0 3) true).tile 0).jobs[0]? = some (jobOf (.bswap 0 3) true) ∧ (unit (.accz 3) true).fab.retry = [] ∧
    (runOf (unit (.accz 3) true)).twin = none ∧ (jobOf (.accz 3) true).matched = false := by decide

/-- An operation of tile 0 may be performed. -/
theorem witness_MatrixEvents_completes (op : MatOp) : Spec.completes (unit op true) 0 0 (jobOf op true) :=
  ⟨by decide, rfl, rfl, rfl, fun _ => rfl, fun r h => by cases h; rfl⟩

/-- A stream-fed MMA whose stream has ended. -/
def endedJob : MatJob := { jobOf (.mma 0 0 0x0400000000000000 0) true with ended := true }
def endedUnit : State := (placed (.nop .always)).modTile 0 fun v => { v with jobs := [endedJob] }

theorem witness_MatrixEvents_stream : endedJob.op.port.isSome = true ∧ ∀ p, (endedUnit.tile 0).feeding p = none := by
  have h : (endedUnit.tile 0).jobs = [endedJob] := rfl
  refine ⟨rfl, fun p => ?_⟩
  have k : endedJob.ended = true := rfl
  simp [Tile.feeding, h, k]

/-- An MMA of one row under way, fed from input port 1, which holds a packet; the same with 16 packets kept, and a packet it may not take. -/
def fedJob : MatJob := jobOf (.mma 0 0 0x0C00000000000000 0) true
def fedUnit (kept : List Packet) : State :=
  let s := fed [{ payload := 5, fmt := 6 }] false ((placed (.nop .always)).modTile 0 fun v => { v with jobs := [fedJob] })
  { s with fab := { s.fab with inPorts := s.fab.inPorts.map fun q => { q with kept := kept } } }

theorem witness_MatrixEvents_fed : ((fedUnit []).tile 0).feeding 1 = some (0, fedJob) ∧ (runOf (fedUnit [])).popping 1 = false ∧
    ((fedUnit []).inPort? 0 0 1).map (fun q => (q.queue.length, (fedUnit []).keepRoom 0 q)) = some (1, true) ∧
    ((fedUnit (List.replicate 16 { payload := 5 })).inPort? 0 0 1).map
      (fun q => (fedUnit (List.replicate 16 { payload := 5 })).keepRoom 0 q) = some false ∧
    fedJob.op.takes 6 = true ∧ (6 : Nat) ∉ [0, 4, 5] ∧ fedJob.op.takes 7 = false ∧ fedJob.half = none ∧ (fedUnit []).lines = [] := by
  decide +kernel

theorem witness_MatrixEvents_kinds : awStrm 0 = false ∧ 1 < (jobOf (.mmat 0 0 0x0020000000000000 0) true).aFmt 0x0020000000000000 ∧
    (unit (.accst 0 0) true).lines = [] := by decide

/-- An armed MMA of one row of I8 at offset 0, with its output at 0x1000, and the lines of its row full. -/
def armedRow (full : Bool) : State :=
  let s := unit (.mmaa 0 0 (2 * 2 ^ 52) 0x1000) true
  { s with lines := if full then [(lineKey (padLoc 0 0), { full := true })] else [] }

theorem witness_MatrixEvents_armed : ((armedRow true).tile 0).jobs[0]? = some (jobOf (.mmaa 0 0 (2 * 2 ^ 52) 0x1000) true) ∧
    ((armedRow true).tile 0).pathsHeld < 2 ∧ (armedRow true).fab.retry = [] ∧ (runOf (armedRow true)).twin = none ∧
    (armedRow true).allFull true (padLines 0 0 128) = true ∧ (armedRow false).allFull true (padLines 0 0 128) = false ∧
    (armedRow true).allFull false (padLines 0 0x1000 512) = true ∧ (0x1000 : BitVec 64).getLsbD 44 = false ∧ Canonical (armedRow true) := by
  decide

/-! ## Hypotheses met: services and translations -/

/-- The task of tile 0 performs a service. -/
def serving (num : BitVec 13) (l r : BitVec 64) (s : State := placed (.nop .always)) : State :=
  task (.services 0) (onPitch fun p => { p with svcs := [{ slot := 0, num := num, l := l, r := r, pois := false, target := .none }] }) s

/-- A service of tile 0 with the log ring at 0xA000. -/
def logging (tail : Nat) : State :=
  inCtx (fun c => { c with logQ := some { va := 0xA000 } })
    (serving 0x001 7 9 (withWords 0xA000 [0xB000, 4 + 2 ^ 5 * 2 + 2 ^ 7 + 2 ^ 8, tail, 3, 0, 0, 0, 0] (placed (.nop .always))))

theorem witness_Services_log : ((logging 0).service? 0 0x001).isSome = true ∧ (runOf (logging 0)).ctx = 0 ∧
    (logging 0).viewRing 0 qLog (some { va := 0xA000 }) = .ready (qcb 2 0) ∧ (qcb 2 0).full = false ∧
    (logging 0).entryLoc 0 (qcb 2 0) 16 (qcb 2 0).tail = .ok 0xB000 ∧
    (logging 16).viewRing 0 qLog (some { va := 0xA000 }) = .ready (qcb 2 16) ∧ (qcb 2 16).full = true :=
  ⟨by decide, by decide, by decide, by decide, rfl, by decide, by decide⟩

/-- A RESUME of record 1, an unplaceable report. -/
def resuming (n r : BitVec 64) : State :=
  inCtx (fun c => { c with await := [{ seq := 1, code := 0x15, of := .unplaceable 0 0 }] }) (withInst (serving 0x101 n r))

theorem witness_Services_resume : ((resuming 1 4).service? 0 0x101).map (fun x => decide (bitsAt x.2.r 2 30 ≠ 0)) = some true ∧
    ((resuming 1 0).service? 0 0x101).map (fun x => (bitsAt x.2.r 2 30, BitVec.ofNat 32 (bitsAt x.2.r 32 32), x.2.l.toNat)) = some (0, 0, 1) ∧
    (resuming 1 0).allows { seq := 1, code := 0x15, of := .unplaceable 0 0 } (actionOf 0) = true ∧
    (resuming 1 3).allows { seq := 1, code := 0x15, of := .unplaceable 0 0 } (actionOf 3) = false ∧
    ((resuming 2 0).service? 0 0x101).map (fun x => x.2.l.toNat) = some 2 := by decide

theorem witness_Services_tlbinv : ((serving 0x100 0 0).service? 0 0x100).isSome = true ∧ (serving 0x100 0 0).invalidating 0 = false ∧
    ((serving 0x100 0 0).invalidation 0 0 (.svc 0)).isSome = true ∧
    (serving 0x100 0 (2 ^ 35)).invalidation 0 (2 ^ 35) (.svc 0) = none := by decide

/-- A MIGRATE of the page of `world` to the same frame of DDR-5, its descriptor at 0x6000. -/
def migrating (new : Nat) : State := serving 0x102 0x6000 0 (withWords 0x6000 [0, 0, 0x8000, new] (placed (.nop .always)))

/-- The descriptor that a task reads at an address, none where the read fails. -/
def readDesc (s : State) (a : BitVec 64) : Option (BitVec 256) := (s.migDesc 0 (runOf s) a).toOption

theorem witness_Services_migrate : ((migrating 0xF3F).service? 0 0x102).map (fun x => x.2.r) = some 0 ∧
    (readDesc (migrating 0xF3F) 0x6000).bind ((migrating 0xF3F).migration 0) =
      some { ctx := 0, kind := 0, start := 0, units := 2 ^ 22, shadow := true, owner := .migrate 0 0x73F 0xF3F 0x8000 } ∧
    (readDesc (migrating 0xE3F) 0x6000).map (fun d => (migrating 0xE3F).migration 0 d) = some none ∧
    (match (migrating 0xF3F).migDesc 0 (runOf (migrating 0xF3F)) 0x6008 with | .error f => f.code != 0 | .ok _ => false) = true := by
  decide +kernel

/-- A second MIGRATE of that page while the first is under way (log entry 71). -/
def twice : State :=
  let s := migrating 0xF3F
  { s with pkg := { s.pkg with invs := [{ ctx := 0, kind := 0, start := 0, units := 2 ^ 22, shadow := true, owner := .migrate 1 0x73F 0xF3F 0x8000 }] } }

theorem witness_Services_waits : (readDesc (migrating 0xF3F) 0x6000).map (migrating 0xF3F).migWaits = some false ∧
    twice.migWaits (BitVec.ofNat 256 (2 ^ 128 * 0x8000 + 2 ^ 192 * 0xF3F)) = true ∧
    (match twice.migDesc 0 (runOf twice) 0x6000 with | .error f => f.code | .ok _ => 1) = 0 :=
  ⟨by decide +kernel, by decide +kernel, by decide +kernel⟩

theorem witness_Translations : isCanonical (0 : BitVec 64).toNat = true ∧ world.migrating 0 0 = false ∧ world.tlbHit 0 0 0 = none ∧
    world.tlbHit (l2Unit (tileCluster 0)) 0 0 = none ∧ world.walk (some (tileDie 0)) 0 0 = .ok { leaf := 0x73F, level := 1 } ∧
    world.walk (some (tileDie 0)) 0 (2 ^ 40) = .error 1 :=
  ⟨by decide, by decide, by decide, by decide, rfl, rfl⟩

theorem witness_Translations_hit :
    ({ world with pkg := { world.pkg with tlb := [{ unit := 0, ctx := 0, va := 0, leaf := 0x73F, level := 1 }] } } : State).tlbHit 0 0 0x1234 =
      some { leaf := 0x73F, level := 1 } := by decide

/-- An invalidation under way that waits for what is given. -/
def invalidating (o : InvFor) (h : List Holder) : State :=
  let s := withCopy world
  { s with
    pkg := { s.pkg with invs := [{ ctx := 0, kind := 0, start := 0, units := 1, shadow := true, owner := o, holders := h }] }
    fab := { s.fab with copies := [{ oneCopy with fly := [flying] }] } }

theorem witness_Translations_complete : ((invalidating (.svc 0) []).pkg.invs[0]?).map (fun v => (v.owner, v.holders)) = some (.svc 0, []) ∧
    (invalidating (.svc 0) []).canReport (.svc 0) = true ∧
    ((invalidating (.svc 0) [.elem 0 0]).pkg.invs[0]?).map (fun v => v.holders.all ((invalidating (.svc 0) [.elem 0 0]).freed v)) = some false := by
  decide

/-- A MIGRATE out of a frame of peer 3, whose one link is down. -/
def farFrame : Invalidation :=
  { ctx := 0, kind := 0, start := 0, units := 1, shadow := true, owner := .migrate 0 (0x73F + 3 * 2 ^ 11 + 3 * 2 ^ 14) 0xF3F 0x8000 }

theorem witness_Translations_down : (withPeer (world.modPort (.ualink 0) fun x => { x with lock := .error })).frameDown farFrame = true ∧
    (withPeer world).frameDown farFrame = false ∧ absentLoc (locOf spHbm 1 0 (2 ^ 39)) = true ∧ absentLoc 0x1000 = false := by decide

/-! ## Hypotheses met: wear, tests, clocks -/

/-- The end of the first interval of tile 0, busy for 5 cycles with context 0, and a time 2^26 cycles after reset. -/
def worn : State := ({ world with cycle := 2 ^ 20 } : State).modTile 0 fun v => { v with busy := [(0, 0, 5)] }

theorem witness_WearAndClocks_interval : (worn.tile 0).state ≠ .retired ∧ kvGet 0 worn.pkg.wearMarks 0 = 0 ∧
    (0 + 1) * 2 ^ 20 ≤ worn.cycle - (worn.cluster (tileCluster 0)).stopped ∧
    (worn.tile 0).busy.filter (fun x => x.1 == 0 && x.2.1 == 0) = [(0, 0, 5)] ∧ (worn.ctx? 0).isSome = true := by decide

theorem witness_WearAndClocks_frame : (∀ c ∈ worn.ctxs, c.wquota = 0) ∧
    ({ worn.tile 0 with busy := [], life := 2 ^ 20 } : Tile).aged (worn.origin 0) = worn.origin 0 := by decide

theorem witness_WearAndClocks_sample : (world.tile 0).sampledAt + 2 ^ 26 ≤
      ({ world with cycle := 2 ^ 26 } : State).cycle - (({ world with cycle := 2 ^ 26 } : State).cluster (tileCluster 0)).stopped ∧
    ([1, 2, 3, 4, 5, 6] : List Nat).length = 6 ∧
    world.cycle - (world.cluster (tileCluster 0)).stopped < (world.tile 0).sampledAt + 2 ^ 26 ∧ 3 ∈ [3] ∧ 3 < 68 := by decide

theorem witness_WearAndClocks :
    world.cycle - (world.cluster (tileCluster 0)).stopped < (kvGet 0 world.pkg.wearMarks 0 + 1) * 2 ^ 20 ∧ world.cycle < (world.tile 0).drainedAt + 2 ^ 30 ∧
    (({ world with cycle := 2 ^ 30 } : State).modTile 0 fun v => { v with state := .drained }).tile 0 = { world.tile 0 with state := .drained } ∧
    (world.tile 0).run = none ∧ ([2560, 2550, 2570, 2580] : List Nat).length = 4 := by decide

theorem witness_WearAndClocks_gate : world.idleCluster 3 = true ∧ (world.cluster 3).inTest = false ∧
    (world.cluster 3).idleSince + 2 ^ 16 ≤ ({ world with cycle := 2 ^ 16 } : State).cycle ∧ world.cycle < (world.cluster 3).idleSince + 2 ^ 16 := by decide

theorem witness_TestsAndRetirement : world.inService 0 = true ∧ (world.cluster 0).inTest = false ∧ (world.cluster 0).retire = .no ∧
    world.idleCluster 0 = true ∧ (placed (.nop .always)).inService 0 = true ∧ (placed (.nop .always)).idleCluster 0 = false ∧
    ((placed (.nop .always)).cluster 0).testDue = false ∧ ((placed (.nop .always)).cluster 0).lastPass + 2 ^ 32 ≤
      ({ placed (.nop .always) with cycle := 2 ^ 32 } : State).cycle ∧
    (placed (.nop .always)).cycle < ((placed (.nop .always)).cluster 0).lastPass + 2 ^ 32 := by decide

theorem witness_TestsAndRetirement_result : ((world.modCluster 0 fun c => { c with inTest := true }).cluster 0).inTest = true ∧
    0 ∈ clusterTiles 0 ∧ (1 : BitVec 17).getLsbD (tileIndex 0) = true ∧ (world.tile 0).state = .normal ∧
    ∀ t ∈ clusterTiles 0, (world.modCluster 0 fun c => { c with inTest := true }).origin t =
      ((world.modCluster 0 fun c => { c with inTest := true }).tile t).state := by decide

theorem witness_TestsAndRetirement_retire : ((world.modCluster 0 fun c => { c with retire := .byCount }).cluster 0).retire = .byCount ∧
    (world.modCluster 0 fun c => { c with retire := .byCount }).noRuns 0 = true ∧
    ((placed (.nop .always)).modCluster 0 fun c => { c with retire := .byCount }).noRuns 0 = false ∧
    ((world.modCluster 0 fun c => { c with retire := .shared }).cluster 0).retire = .shared := by decide

/-! ## Hypotheses met: the host and peers -/

/-- Reset over, its status word told (20 R404). -/
def told : State := { world with pkg := { world.pkg with statusDue := [] } }

/-- The command area of port 0 with one command in its ring (19 R388). -/
def commanded (cmd : List Nat) : State :=
  withWords (areaBase 0 + 0x1000) cmd
    (withWords (areaBase 0) [areaBase 0 + 0x1000, 4 + 2 ^ 8, 1, 0, 0, 0, 0, 0, areaBase 0 + 0x2000, 4 + 2 ^ 5 * 2 + 2 ^ 8, 0, 0, 0, 0, 0, 0] told)

/-- The command at its head. -/
def headOf (cmd : List Nat) : Cmd := (((commanded cmd).tendRings 0).headCmd 0).getD { index := 0, words := [] }

theorem witness_HostCommands : (((commanded [3, 64 + 64 * 2 ^ 16]).tendRings 0).headCmd 0).isSome = true ∧ (headOf [3, 64 + 64 * 2 ^ 16]).code = 3 ∧
    (CmdShape.malformed { code := 3, named := true, ops := [0x7FFFFF, allBits] } (headOf [3, 64 + 64 * 2 ^ 16])) = false ∧
    ((commanded [3, 64 + 64 * 2 ^ 16]).tendRings 0).commands 0 0 { code := 3, named := true, ops := [0x7FFFFF, allBits] }
      (headOf [3, 64 + 64 * 2 ^ 16]) = true ∧
    (Spec.commandEffect ((commanded [3, 64 + 64 * 2 ^ 16]).tendRings 0) (headOf [3, 64 + 64 * 2 ^ 16]) (.ctxSet 0 0)).isSome = true := by
  decide +kernel

theorem witness_HostCommands_port : told.carries (.chrolu 0) = true ∧ (0 : Nat) < 2 ∧
    (told.modPort (.chrolu 0) fun x => { x with lock := .error }).carries (.chrolu 0) = false ∧
    (((commanded [3, 64 + 64 * 2 ^ 16]).tendRings 0).lines.all fun x => x.2.chk == 0) = true := by decide +kernel

theorem witness_HostCommands_malformed : (headOf [3 + 2 ^ 8, 0]).code = 3 ∧
    (CmdShape.malformed { code := 3, named := true, ops := [0x7FFFFF, allBits] } (headOf [3 + 2 ^ 8, 0])) = true := by decide +kernel

theorem witness_HostCommands_refused : (headOf [3 + 9 * 2 ^ 32, 0]).code = 3 ∧
    (CmdShape.malformed { code := 3, named := true, ops := [0x7FFFFF, allBits] } (headOf [3 + 9 * 2 ^ 32, 0])) = false ∧
    ((commanded [3 + 9 * 2 ^ 32, 0]).tendRings 0).commands 0 0 { code := 3, named := true, ops := [0x7FFFFF, allBits] }
      (headOf [3 + 9 * 2 ^ 32, 0]) = false := by decide +kernel

theorem witness_HostCommands_begins : (headOf [6, 0, 0]).code = 6 ∧
    (CmdShape.malformed { code := 6, named := false, ops := [allBits, 0x0FFFFFF7FFFFFFFF] } (headOf [6, 0, 0])) = false ∧
    (Spec.commandBegins ((commanded [6, 0, 0]).tendRings 0) (headOf [6, 0, 0]) (.hostTlbinv 0 0)).isSome = true ∧
    (headOf [6, 0, 0]).code ≠ 7 := by decide +kernel

/-- A drain of logical cluster 0 for a context. -/
def draining (ctx : BitVec 32) (irr : Bool) : State :=
  let s := withWords (areaBase 0) [areaBase 0 + 0x1000, 4 + 2 ^ 8, 0, 0, 0, 0, 0, 0, areaBase 0 + 0x2000, 4 + 2 ^ 5 * 2 + 2 ^ 8, 0, 0, 0, 0, 0, 0]
    (task (if irr then .stalled 0 .checks true else .fetch) fun r => { r with irrevocable := irr })
  { s with pkg := { s.pkg with drains := [{ ctx := ctx, mask := 1, port := 0, index := 5 }] } }

theorem witness_HostCommands_drain :
    ((draining 7 true).foreignTiles { ctx := 7, mask := 1, port := 0, index := 5 }).map (fun x => (x.1, x.2.stuck)) = [(0, true)] ∧
    ((draining 7 true).completionRoom 0).isSome = true ∧
    ((draining 7 false).foreignTiles { ctx := 7, mask := 1, port := 0, index := 5 }).map (fun x => (x.1, x.2.stuck)) = [(0, false)] := by
  decide +kernel

theorem witness_ContextLife : (wordAt [5, 0, 0, 0] 0).setWidth 32 ≠ (0 : BitVec 32) := by decide

/-- Context 7 with bank memory, a larder with a line written in it, a rope, a parked decrement and a creation. -/
def doomed : State :=
  let s := (world.store (locOf spBank 0 7 0) [1] true).store 0x1000 [2] false
  { s with
    ctxs := [resetCtx0, { id := 7, larder := 0x1000, lardlen := 64 }]
    ropes := [{ key := 7, ctx := 7, members := [] }]
    fab := { s.fab with
      parked := [{ ctx := 7, target := .slot 0 0 1 0 0, amt := 2 }]
      creations := [{ ctx := 7, templ := 0x10000, rename := 0, tag := 5, prio := 0, origin := .spawn }] } }

theorem witness_ContextLife_destroy : doomed.fab.retry = [] ∧ (doomed.ctx? 7).map doomed.linesHeld = some [lineKey 0x1000] ∧
    locSpace (locOf spBank 0 7 0) = spBank ∧ locPkg (locOf spBank 0 7 0) = 0 ∧ locCtx (locOf spBank 0 7 0) = (7 : BitVec 32).toNat ∧
    doomed.mem.read (locOf spBank 0 7 0) = 1 ∧ (doomed.line (lineKey (locOf spBank 0 7 0))).pois = true :=
  ⟨by decide, by decide +kernel, by decide, by decide, by decide, by decide, by decide⟩

/-- The larder of a protected context over 0x1000. -/
def guardedCtx : State := { world with ctxs := world.ctxs ++ [{ id := 7, prot := true, session := 3, larder := 0x1000, lardlen := 64 }] }

theorem witness_HostMemory : world.carries (.chrolu 0) = true ∧ (0x1000 : BitVec 64).toNat % 128 + 64 ≤ 128 ∧ world.lines = [] ∧
    world.hostLoc 0 0x1000 = some 0x1000 ∧ world.foreign 0 0 0x1000 = false ∧ world.hostLoc 0 (BitVec.ofNat 64 (3 * 2 ^ 61)) = none ∧
    guardedCtx.hostLoc 0 0x1000 = some 0x1000 ∧ guardedCtx.foreign 0 0 0x1000 = true ∧ Canonical world := by decide

theorem witness_HostMemory_lines : (guardedCtx.foreignOwner 0 0 0x1000).map (fun c => c.id) = some 7 ∧
    (cutLines (0x1040 : BitVec 64).toNat 200 201).all (fun x =>
      (world.hostLoc 0 (BitVec.ofNat 64 x.1)).any fun l => !world.foreign 0 0 l) = true := by decide

theorem witness_HostMemory_error : (world.modPort (.chrolu 1) fun x => { x with lock := .error }).carries (.chrolu 1) = false := by decide

theorem witness_PeerRequests : world.carries (.ualink 15) = true ∧ world.peerLoc 0 0x1000 = some 0x1000 ∧ world.peerLoc 0 (2 ^ 52) = none ∧
    0x1000 % 8 = 0 ∧ world.lines = [] ∧ (world.ctx? 0).isSome = true ∧ Canonical world ∧
    (world.modPort (.ualink 15) fun x => { x with lock := .error }).carries (.ualink 15) = false := by decide

/-- UALink port 15 awaits packet 1 of each channel. -/
def awaiting1 : State := world.modPort (.ualink 15) fun x => { x with expected := [1, 1, 1, 1] }

theorem witness_PeerRequests_sequence : (world.port (.ualink 15)).expects 0 = 0 ∧ (world.port (.ualink 15)).expects 1 = 0 ∧
    (world.port (.ualink 15)).expects 2 = 0 ∧ (awaiting1.port (.ualink 15)).expects (peerChan (.read 0 8)) = 1 ∧ 15 < 16 ∧
    awaiting1.carries (.ualink 15) = true ∧ world.peerLoc 0 0x1000 = some 0x1000 ∧ 0x1000 % 16 = 0 ∧ (world.ctx? 9).isNone = true ∧
    world.passLink 15 0 = (world.passLink 15 0).gotPoison 0 0x1000 false ∧ Canonical (world.passLink 15 0) :=
  ⟨by decide, by decide, by decide, by decide, by decide, by decide, by decide, by decide, by decide, rfl, by decide⟩

/-! ## Hypotheses met: sessions, ports, the package -/

/-- The exchange on UALink port 15 as far as given. -/
def talking (a b c : Bool) : State :=
  { world with pkg := { world.pkg with conns := [{ side := .answers (.ualink 15), version := a, caps := b, algs := if c then some {} else none }] } }

/-- An offer on it that holds the package's suite. -/
def offering : SpdmOffer := { side := .answers (.ualink 15) }

theorem witness_SessionsAndPorts_exchange : realEnd (.answers (.ualink 15)) = true ∧ realEnd (.asks 15) = true ∧
    ((talking true false false).conn (.answers (.ualink 15))).version = true ∧
    ((talking true true false).conn offering.side).caps = true ∧ offering.hash = true ∧ offering.sign = true ∧ offering.exchange = true ∧
    offering.aead = true ∧ ({ offering with aead := false } : SpdmOffer).aead = false ∧
    ((talking true true true).conn (.answers (.ualink 15))).algs.isSome = true ∧ (talking true true true).pkg.sessions.length < 64 ∧
    (world.conn (.asks 15)).version = false ∧ (world.conn (.asks 15)).caps = false ∧ (world.conn (.asks 15)).algs = none := by
  decide

/-- Session 5 of UALink port 15. -/
def session5 (finished : Bool) (f : Port → Port) : State :=
  let s := world.modPort (.ualink 15) f
  { s with pkg := { s.pkg with sessions := [{ id := 5, side := .answers (.ualink 15), finished := finished }] } }

theorem witness_SessionsAndPorts_session : (session5 false id).session? (.answers (.ualink 15)) 5 = some { id := 5, side := .answers (.ualink 15) } ∧
    (session5 true id).session? (.answers (.ualink 15)) 5 = some { id := 5, side := .answers (.ualink 15), finished := true } ∧
    ((session5 true fun x => { x with session := some 5 }).failLocked 5).pkg.ports =
      [(portKey (.ualink 15), (session5 true fun x => { x with session := some 5 }).port (.ualink 15))] := by decide

theorem witness_SessionsAndPorts_lock : ((session5 true id).port (.ualink 15)).lock = .unlocked ∧
    ((session5 true fun x => { x with lock := .locked, session := some 5 }).port (.ualink 15)).lock ≠ .unlocked ∧
    (session5 true fun x => { x with lock := .locked, session := some 5 }).modesLegal (.ualink 15) = true ∧
    ((session5 true fun x => { x with lock := .locked, session := some 5 }).port (.ualink 15)).session = some 5 ∧
    ((session5 true fun x => { x with lock := .error }).port (.ualink 15)).lock = .error ∧
    (((session5 true id).port (.ualink 15)).changed (.peerId 3)) ≠ (session5 true id).port (.ualink 15) := by decide

theorem witness_SessionsAndPorts_replay : (session5 true id).carries (.ualink 15) = true ∧ realPort (.ualink 15) = true ∧
    (session5 true fun x => { x with lock := .error }).carries (.ualink 15) = false ∧
    (ReplayOf.arrived 2 true) = .arrived 2 true ∧ (ReplayOf.asked 2 7) = .asked 2 7 ∧ 3 ≤ ((session5 true fun x => { x with replays := 3 }).port (.ualink 15)).replays ∧
    ((session5 true fun x => { x with replays := 2 }).port (.ualink 15)).replays < 3 := by decide

theorem witness_SessionsAndPorts_stop : (∃ x ∈ (session5 true fun x => { x with lock := .error }).pkg.sessions, x.finished = true) ∧
    (∀ x ∈ (session5 false fun x => { x with lock := .error }).pkg.sessions, x.finished = false) := by decide

/-- A decommissioned package. -/
theorem witness_PackageEvents_decommissioned : ({ world.pkg with lcs := 3 } : Pkg).lcs = 3 := by decide

theorem witness_EventsComplete : world.pkg.lcs ≠ 3 ∧ world.pkg.power ≠ .off ∧ world.pkg.rollback ≤ 5 ∧ world.pkg.lcs = 1 ∧
    (1200 : Nat) ≤ 2300 ∧ world.foreign 0 0 0x1000 = false ∧ world.hostLoc 0 0x1000 = some 0x1000 ∧ world.lines = [] ∧
    ((envOf (pendingLoad.aim 0 0)).access { align := 8, r := true } [(0x8000, 8)]).toOption.map (fun bs =>
      bs.map fun b => locPkg b.loc) = some [0] := by decide

theorem witness_PackageEvents : world.pkg.power ≠ .off ∧ ({ world.pkg with power := .off } : Pkg).power = .off ∧ world.pkg.rollback ≤ 0 ∧
    (0 : Nat) < ({ world.pkg with rollback := 1 } : Pkg).rollback ∧ world.pkg.lcs = 1 ∧ ({ world.pkg with lcs := 2 } : Pkg).lcs = 2 ∧
    world.pkg.power = .on ∧ locSpace 0x1000 ≠ spHost ∧ locPkg 0x1000 = 0 ∧ locSpace (locOf spHost 0 0 0x1000) = spHost ∧
    locPkg (locOf spHbm 4 0 0) ≠ 0 := by decide

/-! ## Ill-formed terms are refused (04 R84-R86, R90) -/

theorem test_wf_widths : (Instr.sext .always .n16 .none .none).wf = false ∧ (Instr.sext .always .i16 .none .none).wf = true ∧
    (Instr.zext .always .i16 .none .none).wf = false ∧ (Instr.zext .always .n16 .none .none).wf = true := by decide

theorem test_wf_shifts : (Instr.shli .always 64 .none).wf = false ∧ (Instr.shri .always 64 .none).wf = false ∧
    (Instr.sari .always 64 .none).wf = false ∧ (Instr.sari .always 63 .none).wf = true := by decide

theorem test_wf_conversions : (Instr.fcvt .always .i32 .i64 .none).wf = false ∧ (Instr.fcvt .always .f32 .f32 .none).wf = false ∧
    (Instr.fcvt .always .f32 .i16 .none).wf = false ∧ (Instr.vcvtf .always .f6 .f32 .none).wf = false ∧
    (Instr.vcvtf .always .f32 .f32 .none).wf = false ∧ (Instr.vcvtt .always .f32 .f32 .none).wf = false ∧
    (Instr.vcvtt .always .i8 .i8 .none).wf = false := by decide

theorem test_wf_laneTypes : (Instr.vadd .always .e4m3 .none .none).wf = false ∧ (Instr.vfma .i32 .none .none).wf = false ∧
    (Instr.vand .always .f32 .none .none).wf = false ∧ (Instr.vsel .f6 .none .none).wf = false ∧
    (Instr.vdotf .always .i16 .none .none).wf = false ∧ (Instr.vrand .always .bf16 .none .none).wf = false ∧
    (Instr.vdraw .always .f16 .none .none).wf = false := by decide

theorem test_wf_sync : (Instr.sld .always 0 3 .none).wf = false ∧ (Instr.sldv .always 0 2 .none).wf = false ∧
    (Instr.sst .always 0 5).wf = false ∧ (Instr.sstv .always 0 5).wf = false := by decide

theorem test_wf_atomics : (Instr.amoi .always 0 7 false .none).wf = false ∧ (Instr.amow .always 0 4 true .none).wf = false ∧
    (Instr.amof .always 0 1 .none).wf = false ∧ (Instr.cas 0 2 .none).wf = false := by decide

theorem test_wf_reductions : (Instr.redi .always 0 1 false).wf = false ∧ (Instr.redw .always 0 0 true).wf = false ∧
    (Instr.redf .always 0 2).wf = false ∧ (Instr.redb .always 0 4 0).wf = false ∧ (Instr.cpyr .always 0 4 0).wf = false ∧
    (Instr.redb .always 0 4 3).wf = true := by decide

theorem test_wf_others : (Instr.fence .always 0 5).wf = false ∧ (Instr.seos .always 0 2 0).wf = false ∧
    (Instr.sstat .always 0 2 0 .none).wf = false ∧ (Instr.accscl .always 0 2 0).wf = false := by decide

/-! ## Words written out bit by bit from 04 R81-R88: opcode, then the fields of the format -/

theorem test_decode_structure : decode 0b00000000_00_0000_000000000_000000000 = .ok (.illegal .always) ∧
    decode 0b00000010_000101_10_0000001_11_1111111 = .ok (.readv 5 (.to .right 1) (.to .pred 127)) ∧
    decode 0b00000011_111111_000000000000000000 = .ok (.writeg 63) ∧
    decode 0b00001000_01_1111111111111_01_0000000 = .ok (.consth .onTrue 0x1FFF (.to .left 0)) ∧
    decode 0b00001011_10_0000_00_0000000_10_0000011 = .ok (.gate .onFalse .none (.to .right 3)) := ⟨rfl, rfl, rfl, rfl, rfl⟩

theorem test_decode_exits : decode 0b00010000_00_111_1000000000000000000 = .ok (.br .always 7 0x40000) ∧
    decode 0b00010011_10_101_0_000000000000000000 = .ok (.calli .onFalse 5) ∧
    decode 0b00010100_00_111_0000000000000000000 = .ok (.done_ .always 7) ∧
    decode 0b00011000_00_0000100000010_01_0000110 = .ok (.svc .always 0x102 (.to .left 6)) := ⟨rfl, rfl, rfl, rfl⟩

theorem test_decode_scalar : decode 0b00100001_00_0000_01_0000001_10_0000010 = .ok (.sub .always (.to .left 1) (.to .right 2)) ∧
    decode 0b00111001_01_1000_00_0000000_01_0000100 = .ok (.sext .onTrue .i16 .none (.to .left 4)) ∧
    decode 0b01000100_00_0000000111111_01_0000001 = .ok (.sari .always 63 (.to .left 1)) ∧
    decode 0b01011010_00_0010_00000_1101_01_0000001 = .ok (.fcvt .always .f16 .i64 (.to .left 1)) ∧
    decode 0b01000100_00_0000001000000_01_0000001 = .error .illegalEncoding := ⟨rfl, rfl, rfl, rfl, rfl⟩

theorem test_decode_vector : decode 0b01101011_00_1001_00_0000000_01_0000010 = .ok (.vadds .always .i8 .none (.to .left 2)) ∧
    decode 0b10000010_00_1001_00000_0001_01_0000101 = .ok (.vcvtt .always .i8 .bf16 (.to .left 5)) ∧
    decode 0x81040085 = .ok (.vcvtf .always .bf16 .f32 (.to .left 5)) ∧
    decode 0b10010111_00_0001_00_0000000_01_0000100 = .ok (.vdraw .always .bf16 .none (.to .left 4)) := ⟨rfl, rfl, rfl, rfl⟩

theorem test_decode_memory : decode 0b10100000_00_1111111_111111_01_0000000 = .ok (.ldb .always 127 0x3F (.to .left 0)) ∧
    decode 0b10101110_00_0000001_100000000000000 = .ok (.stvx 1 0x4000) ∧ decode 0xB3006283 = .ok (.amoi .always 0 6 true (.to .left 3)) ∧
    decode 0xBA008200 = .ok (.redb .always 1 0 1) ∧ decode 0xBD000400 = .ok (.fence .always 0 2) ∧
    decode 0xB3005283 = .ok (.amoi .always 0 5 true (.to .left 3)) ∧ decode 0xB3004283 = .error .illegalEncoding :=
  ⟨rfl, rfl, rfl, rfl, rfl, rfl, rfl⟩

theorem test_decode_copies : decode 0xC0000000 = .ok (.cpy .always 0) ∧ decode 0xC6000083 = .ok (.cwaitl .always 0 (.to .left 3)) ∧
    decode 0xC9008085 = .ok (.mwait .always 1 (.to .left 5)) ∧ decode 0xCD001600 = .ok (.seos .always 0 1 3) ∧
    decode 0b11001110_10_0000011_001_010_01_0000001 = .ok (.sstat .onFalse 3 1 2 (.to .left 1)) := ⟨rfl, rfl, rfl, rfl, rfl⟩

theorem test_decode_matrix : decode 0xD3019400 = .ok (.mma .always 3 1 2) ∧ decode 0xD7000286 = .ok (.accrd .always 0 1 (.to .left 6)) ∧
    decode 0xD1000600 = .ok (.bswap .always 0 0 3) ∧ decode 0b11011011_01_0000000_001_010_000000000 = .ok (.accscl .onTrue 0 1 2) :=
  ⟨rfl, rfl, rfl, rfl⟩

theorem test_decode_graph : decode 0b11100000_00_1000000_000_000_000000000 = .ok (.dec .always 64) ∧
    decode 0b11100101_00_0000001_000_000_01_0000001 = .ok (.ropejoin .always 1 (.to .left 1)) ∧
    decode 0b11100000_00_1000000_000_001_000000000 = .error .illegalEncoding := ⟨rfl, rfl, rfl⟩

theorem test_decode_registers : decode 0b11110001_01_0_000000100100_01_0000010 = .ok (.csrw .onTrue 0x024 (.to .left 2)) ∧
    decode 0b11110110_00_0000_00_0000000_01_0000010 = .ok (.ispois .always .none (.to .left 2)) ∧
    decode 0b11111000_00_0000_000000000_000000000 = .ok (.pmark .always .none .none) ∧
    decode 0b11110110_11_0000_00_0000000_01_0000010 = .error .illegalEncoding ∧
    decode 0b00001101_00_0000_000000000_000000000 = .error .illegalOpcode := ⟨rfl, rfl, rfl, rfl, rfl⟩

/-! ## One instruction, its result worked out in the manual -/

/-- The left operand of slot 1 after the instruction of slot 0, which targets it, has fired. -/
def result (i : Instr) (l r p : Option Token) (f : Run → Run := id) : Option Token :=
  match exec i ((placed i).modRun 0 fun q => f { q with pitch := q.pitch.map fun w =>
      { w with words := w.words ++ [0], slots := [{ left := l, right := r, pred := p }, {}] } }) with
  | .next u => ((u.run? 0).bind Run.pitch).bind fun w => w.slots[1]?.bind Slot.left
  | .fault _ => none
  | .refused _ => none

/-- Its flags. -/
def flagsOf (i : Instr) (l r p : Option Token) (f : Run → Run := id) : Option (BitVec 5) :=
  match exec i (given i l r p f) with
  | .next u => ((u.run? 0).bind Run.pitch).map Pitch.flags
  | .fault _ => none
  | .refused _ => none

/-- A target of every test. -/
def slot1 : Target := .to .left 1

/-- 06 R125: the table of divisions. -/
theorem test_division : result (.div .always .none slot1) (sc (2 ^ 64 - 7)) (sc 2) none = sc (2 ^ 64 - 3) ∧
    result (.rem_ .always .none slot1) (sc (2 ^ 64 - 7)) (sc 2) none = sc (2 ^ 64 - 1) ∧
    result (.div .always .none slot1) (sc (2 ^ 63)) (sc (2 ^ 64 - 1)) none = sc (2 ^ 63) ∧
    result (.divu .always .none slot1) (sc 5) (sc 0) none = sc (2 ^ 64 - 1) ∧
    result (.remu .always .none slot1) (sc (2 ^ 63)) (sc (2 ^ 64 - 1)) none = sc (2 ^ 63) := by decide +kernel

/-- 06 R119: the pieces of the constant that the manual builds. -/
theorem test_consth : result (.consth .always 0x068A slot1) (sc 0x12) none none = sc 0x2468A := by decide +kernel

/-- 06 R131: the conversions the manual works out, with their flags (OF and NX are bits 2 and 0, NV bit 4: R37). -/
theorem test_fcvt : result (.fcvt .always .e4m3 .f32 slot1) (sc 0x43FA0000) none none = sc 0x7E ∧
    result (.fcvt .always .i32 .f32 slot1) (sc 0xC0200000) none none = sc (2 ^ 64 - 2) ∧
    result (.fcvt .always .i32 .f32 slot1) (sc 0xC0200000) none none (fun q => { q with frnd := 4 }) = sc (2 ^ 64 - 3) ∧
    result (.fcvt .always .f32 .i32 slot1) (sc 0x1000001) none none = sc 0x4B800000 := by decide +kernel

/-- The lanes of a vector of 32-bit words. -/
def words32 (l : List Nat) : Nat := l.foldr (fun w n => w + 2 ^ 32 * n) 0

/-- 07 R139: the clamp of NaN, -3, 5 and -0. -/
theorem test_vclamp : (result (.vclamp .f32 .none slot1) (vc (words32 [0x7FC00001, 0xC0400000, 0x40A00000, 0x80000000])) (vc 0)
      (vc (words32 [0x3F800000, 0x3F800000, 0x3F800000, 0x3F800000]))).map (fun t => match t.val with
        | .vector v => v.toNat % 2 ^ 128 | .scalar _ => 0 | .pred _ => 0 | .null => 0) =
      some (words32 [0x7FC00000, 0, 0x3F800000, 0]) := by decide +kernel

/-- 07 R143: VEXT with 66 on F32 lanes returns lane 2. -/
theorem test_vext : result (.vext .always .f32 .none slot1) (vc (words32 [1, 2, 3])) (sc 66) none = sc 3 := by decide +kernel

/-- 07 R151, R152: the worked draw: of 3, 1, 2, 3 and then -∞ with s = 1 and word 0x80000000 the pair is (2.75, 2), and merged with
(1.25, 70) and word 0xC0000000 it is (4, 70). -/
theorem test_vdraw : result (.vdraw .always .f32 .none slot1)
      (vc (words32 ([0x40400000, 0x3F800000, 0x40000000, 0x40400000] ++ List.replicate 60 0xFF800000))) (sc 0x000000013F800000) none
      (fun q => { q with rngmode := true, rngtab := 0xC000, rngctr := 0 }) = sc 0x4030000000000002 := by decide +kernel

theorem test_vdrawm : result (.vdrawm .always .none slot1) (sc 0x4030000000000002) (sc 0x3FA0000000000046) none
    (fun q => { q with rngmode := true, rngtab := 0xC000, rngctr := 1 }) = sc 0x4080000000000046 := by decide +kernel

/-- 07 R151: a negative s raises NV and gives (0, none). -/
theorem test_vdraw_negative : flagsOf (.vdraw .always .f32 .none .none) (vc 0) (sc 0x00000001BF800000) none
    (fun q => { q with rngmode := true, rngtab := 0xC000, rngctr := 0 }) = some 0x10 := by decide +kernel

/-- 10 R213: a load sees little-endian bytes: the first entry of the root table of `world` is 0x02000001. -/
theorem test_load : result (.ldwu .always 0 0 slot1) (sc 0x4000) none none = sc 0x02000001 ∧
    result (.ldb .always 0 1 slot1) (sc 0xC002) none none = sc (2 ^ 64 - 128) := by decide +kernel

/-- 06 R119, R117: SEL sends r to its first target on true and a null on false, with the poison of both operands. -/
theorem test_sel : result (.sel .always .none slot1) (some { val := .pred true, pois := true }) (sc 2) none = some { val := .scalar 2, pois := true } ∧
    result (.sel .always .none slot1) (pd false) (sc 2) none = nl := by decide +kernel

/-- A step at reset runs the one instruction placed: it fires and its slot is done. -/
theorem test_step : (match step (placed (.nop .always)) with
    | .next u => ((u.run? 0).bind Run.pitch).map fun w => w.slots.map Slot.status
    | .fault _ => none
    | .refused _ => none) = some [.fired] := by decide +kernel

end Sys2Proof.Tests
end

section
/-! The family 04_encoding: O1 and O2. The way from instruction to word and back is the family Reads; the way from word to instruction
and back is shown in three layers: a word is its fields in order (`packG_fields` and its like), a reader puts every field it reads into
the instruction and refuses what it does not read unless it is zero (`Exact`), and each opcode has the reader of its format or none
(`Column`). -/

namespace Sys2Proof.Encoding

/-! ## The codes of a field determine its bits -/

theorem code_of_prOf {b : BitVec 2} {p : Pr} (h : prOf b = some p) : p.code = b := by
  have all : ∀ b : BitVec 2, ∀ p ∈ prOf b, p.code = b := by decide
  exact all b p h

theorem code_of_typeOf {b : BitVec 4} {x : ElemType} (h : typeOf b = some x) : x.code = b := by
  have all : ∀ b : BitVec 4, ∀ x ∈ typeOf b, x.code = b := by decide
  exact all b x h

theorem code_of_targetOf {b : BitVec 9} {t : Target} (h : targetOf b = some t) : t.code = b := by
  have hb : b.extractLsb' 7 2 ++ b.extractLsb' 0 7 = b :=
    (BitVec.extractLsb'_append_extractLsb'_eq_extractLsb' rfl).trans BitVec.extractLsb'_eq_self
  have hpos : ∀ q : BitVec 2, q = 0 ∨ q = 1 ∨ q = 2 ∨ q = 3 := by decide
  unfold targetOf at h
  rcases hpos (b.extractLsb' 7 2) with hq | hq | hq | hq
  all_goals
    rw [hq] at h hb
    rw [← hb]
  · obtain ⟨hslot, rfl⟩ : b.extractLsb' 0 7 = 0 ∧ Target.none = t := by simpa using h
    rw [hslot]
    rfl
  · obtain rfl : Target.to .left _ = t := by simpa using h
    rfl
  · obtain rfl : Target.to .right _ = t := by simpa using h
    rfl
  · obtain rfl : Target.to .pred _ = t := by simpa using h
    rfl

/-! ## Fields side by side, and fields that are zero -/

/-- Two neighbouring fields of a word make one field. -/
theorem field_append {v : Nat} (x : BitVec v) (k n m : Nat) :
    x.extractLsb' (k + m) n ++ x.extractLsb' k m = x.extractLsb' k (n + m) :=
  BitVec.extractLsb'_append_extractLsb'_eq_extractLsb' rfl

/-- A field whose high part is zero is that zero beside its low part. -/
theorem zero_append_low {v : Nat} {x : BitVec v} {k n m : Nat} (h : x.extractLsb' (k + m) n = 0#n) :
    0#n ++ x.extractLsb' k m = x.extractLsb' k (n + m) := by
  rw [← h, field_append]

theorem zero_append_two {x : BitVec 3} (h : x.extractLsb' 2 1 = 0) : 0#1 ++ x.extractLsb' 0 2 = x :=
  (zero_append_low h).trans BitVec.extractLsb'_eq_self

theorem zero_append_flag {x : BitVec 3} (h : x.extractLsb' 1 2 = 0) : 0#2 ++ BitVec.ofBool (x.getLsbD 0) = x := by
  revert x
  decide

/-- A field inside a zero field is zero. -/
theorem field_zero {v : Nat} {x : BitVec v} {n : Nat} (h : x.extractLsb' 0 n = 0#n) (i k : Nat) (hik : i + k ≤ n) :
    x.extractLsb' i k = 0#k := by
  have h' := congrArg (BitVec.extractLsb' i k) h
  rwa [BitVec.extractLsb'_extractLsb'_of_le hik, BitVec.extractLsb'_zero] at h'

theorem fT0_of_zero {w : Word} (h : w.extractLsb' 0 9 = 0) : fT0 w = some .none := by
  rw [fT0, h]
  rfl

theorem fT1_of_zero {w : Word} (h : w.extractLsb' 9 9 = 0) : fT1 w = some .none := by
  rw [fT1, h]
  rfl

/-! ## A word is its fields in order, format by format -/

section Formats
variable {w : Word} {p : Pr} {u t : Target}

theorem packG_fields (hp : fPr w = some p) (hu : fT1 w = some u) (ht : fT0 w = some t) : packG (fOp w) p (fX w) u t = w := by
  rw [packG, code_of_prOf hp, code_of_targetOf hu, code_of_targetOf ht, fOp, fX]
  iterate 4 rw [BitVec.extractLsb'_append_extractLsb'_eq_extractLsb' (by decide)]
  exact BitVec.extractLsb'_eq_self

theorem packC_fields {d s : ElemType} (hp : fPr w = some p) (hd : typeOf (fX w) = some d) (hs : typeOf (w.extractLsb' 9 4) = some s)
    (hz : w.extractLsb' 13 5 = 0#5) (ht : fT0 w = some t) : packC (fOp w) p d s t = w := by
  rw [packC, code_of_prOf hp, code_of_typeOf hd, code_of_typeOf hs, code_of_targetOf ht, fOp, fX, ← hz]
  iterate 5 rw [BitVec.extractLsb'_append_extractLsb'_eq_extractLsb' (by decide)]
  exact BitVec.extractLsb'_eq_self

theorem packI_fields (hp : fPr w = some p) (ht : fT0 w = some t) : packI (fOp w) p (fImm13 w) t = w := by
  rw [packI, code_of_prOf hp, code_of_targetOf ht, fOp, fImm13]
  iterate 3 rw [BitVec.extractLsb'_append_extractLsb'_eq_extractLsb' (by decide)]
  exact BitVec.extractLsb'_eq_self

theorem packL_fields (hp : fPr w = some p) (ht : fT0 w = some t) : packL (fOp w) p (fLsid w) (w.extractLsb' 9 6) t = w := by
  rw [packL, code_of_prOf hp, code_of_targetOf ht, fOp, fLsid]
  iterate 4 rw [BitVec.extractLsb'_append_extractLsb'_eq_extractLsb' (by decide)]
  exact BitVec.extractLsb'_eq_self

theorem packS_fields (hp : fPr w = some p) : packS (fOp w) p (fLsid w) (w.extractLsb' 0 15) = w := by
  rw [packS, code_of_prOf hp, fOp, fLsid]
  iterate 3 rw [BitVec.extractLsb'_append_extractLsb'_eq_extractLsb' (by decide)]
  exact BitVec.extractLsb'_eq_self

theorem packA_fields (hp : fPr w = some p) (ht : fT0 w = some t) : packA (fOp w) p (fLsid w) (fMode w) (fX3 w) t = w := by
  rw [packA, code_of_prOf hp, code_of_targetOf ht, fOp, fLsid, fMode, fX3]
  iterate 5 rw [BitVec.extractLsb'_append_extractLsb'_eq_extractLsb' (by decide)]
  exact BitVec.extractLsb'_eq_self

theorem packE_fields (hp : fPr w = some p) : packE (fOp w) p (fExit w) (w.extractLsb' 0 19) = w := by
  rw [packE, code_of_prOf hp, fOp, fExit]
  iterate 3 rw [BitVec.extractLsb'_append_extractLsb'_eq_extractLsb' (by decide)]
  exact BitVec.extractLsb'_eq_self

theorem packR_fields (hu : fT1 w = some u) (ht : fT0 w = some t) : packR (fOp w) (w.extractLsb' 18 6) u t = w := by
  rw [packR, code_of_targetOf hu, code_of_targetOf ht, fOp]
  iterate 3 rw [BitVec.extractLsb'_append_extractLsb'_eq_extractLsb' (by decide)]
  exact BitVec.extractLsb'_eq_self

theorem packW_fields (hz : w.extractLsb' 0 18 = 0#18) : packW (fOp w) (w.extractLsb' 18 6) = w := by
  rw [packW, fOp, ← hz]
  iterate 2 rw [BitVec.extractLsb'_append_extractLsb'_eq_extractLsb' (by decide)]
  exact BitVec.extractLsb'_eq_self

end Formats

/-! ## The readers lose no bit

Each lemma takes what `encode` does with the instructions of the reader: the packer of the format, under the opcode. -/

/-- Every instruction that `read` finds in a word of opcode `op` has that word as its encoding. -/
def Exact (op : BitVec 8) (read : Word → Option Instr) : Prop :=
  ∀ w i, fOp w = op → read w = some i → encode i = some w

theorem when_eq_some {b : Bool} {a : Option Instr} {i : Instr} : when b a = some i ↔ b = true ∧ a = some i := by
  cases b <;> simp [when]

section Readers
variable {op : BitVec 8}

theorem unGF_exact {x : BitVec 4} {k : Pr → Target → Target → Instr}
    (hk : ∀ p u t, encode (k p u t) = some (packG op p x u t)) : Exact op (unGF x k) := by
  rintro w i rfl h
  simp only [unGF] at h
  split at h
  next p u t hp hu ht =>
    obtain ⟨rfl, rfl⟩ : fX w = x ∧ k p u t = i := by simpa [when_eq_some] using h
    rw [hk, packG_fields hp hu ht]
  next => cases h

theorem unG_exact {k : Pr → Target → Target → Instr}
    (hk : ∀ p u t, encode (k p u t) = some (packG op p 0 u t)) : Exact op (unG k) :=
  unGF_exact hk

theorem unGX_exact {k : Pr → ElemType → Target → Target → Instr}
    (hk : ∀ p x u t, encode (k p x u t) = some (packG op p (ElemType.code x) u t)) : Exact op (unGX k) := by
  rintro w i rfl h
  simp only [unGX] at h
  split at h
  next p x u t hp hx hu ht =>
    cases h
    rw [hk, code_of_typeOf hx, packG_fields hp hu ht]
  next => cases h

theorem unGT_exact {k : Target → Target → Instr}
    (hk : ∀ u t, encode (k u t) = some (packG op .always 0 u t)) : Exact op (unGT k) := by
  rintro w i rfl h
  simp only [unGT] at h
  split at h
  next u t hp hu ht =>
    obtain ⟨hx, rfl⟩ : fX w = 0 ∧ k u t = i := by simpa [when_eq_some] using h
    rw [hk, ← hx, packG_fields hp hu ht]
  next => cases h

theorem unGTX_exact {k : ElemType → Target → Target → Instr}
    (hk : ∀ x u t, encode (k x u t) = some (packG op .always (ElemType.code x) u t)) : Exact op (unGTX k) := by
  rintro w i rfl h
  simp only [unGTX] at h
  split at h
  next x u t hp hx hu ht =>
    cases h
    rw [hk, code_of_typeOf hx, packG_fields hp hu ht]
  next => cases h

theorem unG0_exact {k : Pr → Instr}
    (hk : ∀ p, encode (k p) = some (packG op p 0 .none .none)) : Exact op (unG0 k) := by
  rintro w i rfl h
  simp only [unG0] at h
  split at h
  next p hp =>
    obtain ⟨hz, rfl⟩ : w.extractLsb' 0 22 = 0 ∧ k p = i := by simpa [when_eq_some] using h
    have hx : fX w = 0 := field_zero hz 18 4 (by decide)
    rw [hk, ← hx, packG_fields hp (fT1_of_zero (field_zero hz 9 9 (by decide))) (fT0_of_zero (field_zero hz 0 9 (by decide)))]
  next => cases h

theorem unGExit_exact {k : Pr → BitVec 3 → Instr}
    (hk : ∀ p e, encode (k p e) = some (packG op p (e ++ 0#1) .none .none)) : Exact op (unGExit k) := by
  rintro w i rfl h
  simp only [unGExit] at h
  split at h
  next p hp =>
    obtain ⟨hz, rfl⟩ : w.extractLsb' 0 19 = 0 ∧ k p (fExit w) = i := by simpa [when_eq_some] using h
    have hx : fExit w ++ 0#1 = fX w := by
      rw [← field_zero hz 18 1 (by decide)]
      exact field_append w 18 3 1
    rw [hk, hx, packG_fields hp (fT1_of_zero (field_zero hz 9 9 (by decide))) (fT0_of_zero (field_zero hz 0 9 (by decide)))]
  next => cases h

theorem unEDone_exact {k : Pr → BitVec 3 → Instr}
    (hk : ∀ p e, encode (k p e) = some (packE op p e 0)) : Exact op (unEDone k) := by
  rintro w i rfl h
  simp only [unEDone, unGExit] at h
  split at h
  next p hp =>
    obtain ⟨hz, rfl⟩ : w.extractLsb' 0 19 = 0 ∧ k p (fExit w) = i := by simpa [when_eq_some] using h
    rw [hk, ← hz, packE_fields hp]
  next => cases h

theorem unE_exact {k : Pr → BitVec 3 → BitVec 19 → Instr}
    (hk : ∀ p e o, encode (k p e o) = some (packE op p e o)) : Exact op (unE k) := by
  rintro w i rfl h
  simp only [unE] at h
  split at h
  next p hp =>
    cases h
    rw [hk, packE_fields hp]
  next => cases h

theorem unGConv_exact {k : Pr → ElemType → ElemType → Target → Instr}
    (hk : ∀ p d s t, encode (k p d s t) = some (packC op p d s t)) : Exact op (unGConv k) := by
  rintro w i rfl h
  simp only [unGConv] at h
  split at h
  next p d s t hp hd hs ht =>
    obtain ⟨hz, rfl⟩ : w.extractLsb' 13 5 = 0 ∧ k p d s t = i := by simpa [when_eq_some] using h
    rw [hk, packC_fields hp hd hs hz ht]
  next => cases h

theorem unI_exact {k : Pr → BitVec 13 → Target → Instr}
    (hk : ∀ p n t, encode (k p n t) = some (packI op p n t)) : Exact op (unI k) := by
  rintro w i rfl h
  simp only [unI] at h
  split at h
  next p t hp ht =>
    cases h
    rw [hk, packI_fields hp ht]
  next => cases h

theorem unICode_exact {k : Pr → BitVec 13 → Instr}
    (hk : ∀ p n, encode (k p n) = some (packI op p n .none)) : Exact op (unICode k) := by
  rintro w i rfl h
  simp only [unICode] at h
  split at h
  next p hp =>
    obtain ⟨hz, rfl⟩ : w.extractLsb' 0 9 = 0 ∧ k p (fImm13 w) = i := by simpa [when_eq_some] using h
    rw [hk, packI_fields hp (fT0_of_zero hz)]
  next => cases h

theorem unICsr_exact {k : Pr → BitVec 12 → Target → Instr}
    (hk : ∀ p n t, encode (k p n t) = some (packI op p (0#1 ++ n) t)) : Exact op (unICsr k) := by
  rintro w i rfl h
  simp only [unICsr] at h
  split at h
  next p t hp ht =>
    obtain ⟨hz, rfl⟩ : w.extractLsb' 21 1 = 0 ∧ k p (w.extractLsb' 9 12) t = i := by simpa [when_eq_some] using h
    have hn : 0#1 ++ w.extractLsb' 9 12 = fImm13 w := zero_append_low hz
    rw [hk, hn, packI_fields hp ht]
  next => cases h

theorem unR6_exact {k : BitVec 6 → Target → Target → Instr}
    (hk : ∀ r u t, encode (k r u t) = some (packR op r u t)) : Exact op (unR6 k) := by
  rintro w i rfl h
  simp only [unR6] at h
  split at h
  next u t hu ht =>
    cases h
    rw [hk, packR_fields hu ht]
  next => cases h

theorem unR5_exact {k : BitVec 5 → Target → Target → Instr}
    (hk : ∀ r u t, encode (k r u t) = some (packR op (0#1 ++ r) u t)) : Exact op (unR5 k) := by
  rintro w i rfl h
  simp only [unR5] at h
  split at h
  next u t hu ht =>
    obtain ⟨hz, rfl⟩ : w.extractLsb' 23 1 = 0 ∧ k (w.extractLsb' 18 5) u t = i := by simpa [when_eq_some] using h
    have hr : 0#1 ++ w.extractLsb' 18 5 = w.extractLsb' 18 6 := zero_append_low hz
    rw [hk, hr, packR_fields hu ht]
  next => cases h

theorem unW6_exact {k : BitVec 6 → Instr}
    (hk : ∀ r, encode (k r) = some (packW op r)) : Exact op (unW6 k) := by
  rintro w i rfl h
  obtain ⟨hz, rfl⟩ : w.extractLsb' 0 18 = 0 ∧ k (w.extractLsb' 18 6) = i := by simpa [unW6, when_eq_some] using h
  rw [hk, packW_fields hz]

theorem unW5_exact {k : BitVec 5 → Instr}
    (hk : ∀ r, encode (k r) = some (packW op (0#1 ++ r))) : Exact op (unW5 k) := by
  rintro w i rfl h
  obtain ⟨⟨htop, hz⟩, rfl⟩ : (w.extractLsb' 23 1 = 0 ∧ w.extractLsb' 0 18 = 0) ∧ k (w.extractLsb' 18 5) = i := by
    simpa [unW5, when_eq_some] using h
  have hr : 0#1 ++ w.extractLsb' 18 5 = w.extractLsb' 18 6 := zero_append_low htop
  rw [hk, hr, packW_fields hz]

theorem unL_exact {k : Pr → BitVec 7 → BitVec 6 → Target → Instr}
    (hk : ∀ p l n t, encode (k p l n t) = some (packL op p l n t)) : Exact op (unL k) := by
  rintro w i rfl h
  simp only [unL] at h
  split at h
  next p t hp ht =>
    cases h
    rw [hk, packL_fields hp ht]
  next => cases h

theorem unL0_exact {k : Pr → BitVec 7 → BitVec 6 → Instr}
    (hk : ∀ p l n, encode (k p l n) = some (packL op p l n .none)) : Exact op (unL0 k) := by
  rintro w i rfl h
  simp only [unL0] at h
  split at h
  next p hp =>
    obtain ⟨hz, rfl⟩ : w.extractLsb' 0 9 = 0 ∧ k p (fLsid w) (w.extractLsb' 9 6) = i := by simpa [when_eq_some] using h
    rw [hk, packL_fields hp (fT0_of_zero hz)]
  next => cases h

theorem unLX_exact {k : Pr → BitVec 7 → Target → Instr}
    (hk : ∀ p l t, encode (k p l t) = some (packL op p l 0 t)) : Exact op (unLX k) := by
  rintro w i rfl h
  simp only [unLX] at h
  split at h
  next p t hp ht =>
    obtain ⟨hz, rfl⟩ : w.extractLsb' 9 6 = 0 ∧ k p (fLsid w) t = i := by simpa [when_eq_some] using h
    rw [hk, ← hz, packL_fields hp ht]
  next => cases h

theorem unS_exact {k : Pr → BitVec 7 → BitVec 15 → Instr}
    (hk : ∀ p l n, encode (k p l n) = some (packS op p l n)) : Exact op (unS k) := by
  rintro w i rfl h
  simp only [unS] at h
  split at h
  next p hp =>
    cases h
    rw [hk, packS_fields hp]
  next => cases h

theorem unST_exact {k : BitVec 7 → BitVec 15 → Instr}
    (hk : ∀ l n, encode (k l n) = some (packS op .always l n)) : Exact op (unST k) := by
  rintro w i rfl h
  simp only [unST] at h
  split at h
  next hp =>
    cases h
    rw [hk, packS_fields hp]
  next => cases h

/-! ### Format A: what a reader accepts of mode, x3 and target is all that its instruction's word holds there -/

theorem unAll_exact {k : Pr → BitVec 7 → BitVec 3 → BitVec 3 → Target → Option Instr}
    (hk : ∀ p l m x t i, k p l m x t = some i → encode i = some (packA op p l m x t)) : Exact op (unAll k) := by
  rintro w i rfl h
  simp only [unAll] at h
  split at h
  next p t hp ht => rw [hk _ _ _ _ _ _ h, packA_fields hp ht]
  next => cases h

theorem unAT_exact {k : Pr → BitVec 7 → Target → Instr}
    (hk : ∀ p l t, encode (k p l t) = some (packA op p l 0 0 t)) : Exact op (unAT k) :=
  unAll_exact fun p l m x t i h => by
    obtain ⟨⟨rfl, rfl⟩, rfl⟩ : (m = 0 ∧ x = 0) ∧ k p l t = i := by simpa [when_eq_some] using h
    exact hk _ _ _

theorem unA_exact {k : Pr → BitVec 7 → Instr}
    (hk : ∀ p l, encode (k p l) = some (packA op p l 0 0 .none)) : Exact op (unA k) :=
  unAll_exact fun p l m x t i h => by
    obtain ⟨⟨⟨rfl, rfl⟩, rfl⟩, rfl⟩ : ((m = 0 ∧ x = 0) ∧ t = .none) ∧ k p l = i := by simpa [when_eq_some] using h
    exact hk _ _

theorem unAMT_exact {k : Pr → BitVec 7 → BitVec 3 → Target → Instr}
    (hk : ∀ p l m t, encode (k p l m t) = some (packA op p l m 0 t)) : Exact op (unAMT k) :=
  unAll_exact fun p l m x t i h => by
    obtain ⟨rfl, rfl⟩ : x = 0 ∧ k p l m t = i := by simpa [when_eq_some] using h
    exact hk _ _ _ _

theorem unAM_exact {k : Pr → BitVec 7 → BitVec 3 → Instr}
    (hk : ∀ p l m, encode (k p l m) = some (packA op p l m 0 .none)) : Exact op (unAM k) :=
  unAll_exact fun p l m x t i h => by
    obtain ⟨⟨rfl, rfl⟩, rfl⟩ : (x = 0 ∧ t = .none) ∧ k p l m = i := by simpa [when_eq_some] using h
    exact hk _ _ _

theorem unAMUT_exact {k : Pr → BitVec 7 → BitVec 3 → Bool → Target → Instr}
    (hk : ∀ p l m b t, encode (k p l m b t) = some (packA op p l m (0#2 ++ BitVec.ofBool b) t)) : Exact op (unAMUT k) :=
  unAll_exact fun p l m x t i h => by
    obtain ⟨hx, rfl⟩ : x.extractLsb' 1 2 = 0 ∧ k p l m (x.getLsbD 0) t = i := by simpa [when_eq_some] using h
    rw [hk, zero_append_flag hx]

theorem unAMU_exact {k : Pr → BitVec 7 → BitVec 3 → Bool → Instr}
    (hk : ∀ p l m b, encode (k p l m b) = some (packA op p l m (0#2 ++ BitVec.ofBool b) .none)) : Exact op (unAMU k) :=
  unAll_exact fun p l m x t i h => by
    obtain ⟨⟨hx, rfl⟩, rfl⟩ : (x.extractLsb' 1 2 = 0 ∧ t = .none) ∧ k p l m (x.getLsbD 0) = i := by simpa [when_eq_some] using h
    rw [hk, zero_append_flag hx]

theorem unATern_exact {k : BitVec 7 → BitVec 3 → Target → Instr}
    (hk : ∀ l m t, encode (k l m t) = some (packA op .always l m 0 t)) : Exact op (unATern k) :=
  unAll_exact fun p l m x t i h => by
    obtain ⟨⟨rfl, rfl⟩, rfl⟩ : (p = .always ∧ x = 0) ∧ k l m t = i := by simpa [when_eq_some] using h
    exact hk _ _ _

theorem unAMX_exact {k : Pr → BitVec 7 → BitVec 3 → BitVec 3 → Instr}
    (hk : ∀ p l m x, encode (k p l m x) = some (packA op p l m x .none)) : Exact op (unAMX k) :=
  unAll_exact fun p l m x t i h => by
    obtain ⟨rfl, rfl⟩ : t = .none ∧ k p l m x = i := by simpa [when_eq_some] using h
    exact hk _ _ _ _

theorem unAX_exact {k : Pr → BitVec 7 → BitVec 3 → Instr}
    (hk : ∀ p l x, encode (k p l x) = some (packA op p l 0 x .none)) : Exact op (unAX k) :=
  unAll_exact fun p l m x t i h => by
    obtain ⟨⟨rfl, rfl⟩, rfl⟩ : (m = 0 ∧ t = .none) ∧ k p l x = i := by simpa [when_eq_some] using h
    exact hk _ _ _

theorem unAN_exact {k : Pr → BitVec 7 → BitVec 2 → Instr}
    (hk : ∀ p l n, encode (k p l n) = some (packA op p l 0 (0#1 ++ n) .none)) : Exact op (unAN k) :=
  unAll_exact fun p l m x t i h => by
    obtain ⟨⟨⟨rfl, hx⟩, rfl⟩, rfl⟩ : ((m = 0 ∧ x.extractLsb' 2 1 = 0) ∧ t = .none) ∧ k p l (x.extractLsb' 0 2) = i := by
      simpa [when_eq_some] using h
    rw [hk, zero_append_two hx]

theorem unANT_exact {k : Pr → BitVec 7 → BitVec 2 → Target → Instr}
    (hk : ∀ p l n t, encode (k p l n t) = some (packA op p l 0 (0#1 ++ n) t)) : Exact op (unANT k) :=
  unAll_exact fun p l m x t i h => by
    obtain ⟨⟨rfl, hx⟩, rfl⟩ : (m = 0 ∧ x.extractLsb' 2 1 = 0) ∧ k p l (x.extractLsb' 0 2) t = i := by simpa [when_eq_some] using h
    rw [hk, zero_append_two hx]

theorem unAMN_exact {k : Pr → BitVec 7 → BitVec 3 → BitVec 2 → Instr}
    (hk : ∀ p l m n, encode (k p l m n) = some (packA op p l m (0#1 ++ n) .none)) : Exact op (unAMN k) :=
  unAll_exact fun p l m x t i h => by
    obtain ⟨⟨hx, rfl⟩, rfl⟩ : (x.extractLsb' 2 1 = 0 ∧ t = .none) ∧ k p l m (x.extractLsb' 0 2) = i := by
      simpa [when_eq_some] using h
    rw [hk, zero_append_two hx]

theorem unAMNT_exact {k : Pr → BitVec 7 → BitVec 3 → BitVec 2 → Target → Instr}
    (hk : ∀ p l m n t, encode (k p l m n t) = some (packA op p l m (0#1 ++ n) t)) : Exact op (unAMNT k) :=
  unAll_exact fun p l m x t i h => by
    obtain ⟨hx, rfl⟩ : x.extractLsb' 2 1 = 0 ∧ k p l m (x.extractLsb' 0 2) t = i := by simpa [when_eq_some] using h
    rw [hk, zero_append_two hx]

theorem unAR_exact {k : Pr → BitVec 7 → BitVec 2 → Instr}
    (hk : ∀ p l a, encode (k p l a) = some (packA op p l (0#1 ++ a) 0 .none)) : Exact op (unAR k) :=
  unAll_exact fun p l m x t i h => by
    obtain ⟨⟨⟨hm, rfl⟩, rfl⟩, rfl⟩ : ((m.extractLsb' 2 1 = 0 ∧ x = 0) ∧ t = .none) ∧ k p l (m.extractLsb' 0 2) = i := by
      simpa [when_eq_some] using h
    rw [hk, zero_append_two hm]

theorem unARR_exact {k : Pr → BitVec 7 → BitVec 2 → BitVec 2 → Instr}
    (hk : ∀ p l a b, encode (k p l a b) = some (packA op p l (0#1 ++ a) (0#1 ++ b) .none)) : Exact op (unARR k) :=
  unAll_exact fun p l m x t i h => by
    obtain ⟨⟨⟨hm, hx⟩, rfl⟩, rfl⟩ : ((m.extractLsb' 2 1 = 0 ∧ x.extractLsb' 2 1 = 0) ∧ t = .none) ∧
        k p l (m.extractLsb' 0 2) (x.extractLsb' 0 2) = i := by
      simpa [when_eq_some] using h
    rw [hk, zero_append_two hm, zero_append_two hx]

end Readers

/-! ## The opcode map loses no bit, and leaves out just the reserved opcodes -/

/-- The reserved opcodes (04 R87). -/
def reservedOpcodes : List Nat :=
  [0x0D, 0x0E, 0x0F, 0x19, 0x1A, 0x1B, 0x1C, 0x1D, 0x1E, 0x1F, 0x4F, 0x9C, 0x9D, 0x9E, 0x9F, 0xCF,
    0xDD, 0xDE, 0xDF, 0xEA, 0xEB, 0xEC, 0xED, 0xEE, 0xEF, 0xF9, 0xFA, 0xFB, 0xFC, 0xFD, 0xFE, 0xFF]

/-- What the map must hold for opcode `op`: nothing just when the opcode is reserved, else a reader that loses no bit. -/
structure Column (op : Nat) (column : Word → Option (Option Instr)) : Prop where
  exact : ∀ w i, fOp w = BitVec.ofNat 8 op → column w = some (some i) → encode i = some w
  none_iff : ∀ w, column w = none ↔ op ∈ reservedOpcodes

theorem Column.reserved {op : Nat} (h : op ∈ reservedOpcodes := by decide) : Column op fun _ => none :=
  ⟨fun _ _ _ hread => (nomatch hread), fun _ => ⟨fun _ => h, fun _ => rfl⟩⟩

theorem Column.assigned {op : Nat} {read : Word → Option Instr} (hread : Exact (BitVec.ofNat 8 op) read)
    (h : op ∉ reservedOpcodes := by decide) : Column op fun w => some (read w) :=
  ⟨fun w i hop hi => hread w i hop (Option.some.inj hi), fun _ => ⟨nofun, fun hres => absurd hres h⟩⟩

/-- The sixteen opcodes of row `hi` of the map. -/
def Row (hi : Nat) (row : Word → Nat → Option (Option Instr)) : Prop :=
  ∀ lo < 16, Column (16 * hi + lo) fun w => row w lo

theorem decodeRow0_columns : Row 0x0 decodeRow0
  | 0x0, _ | 0xC, _ => .assigned (unG0_exact fun _ => rfl)
  | 0x1, _ => .assigned (unR6_exact fun _ _ _ => rfl)
  | 0x2, _ => .assigned (unR5_exact fun _ _ _ => rfl)
  | 0x3, _ => .assigned (unW6_exact fun _ => rfl)
  | 0x4, _ => .assigned (unW5_exact fun _ => rfl)
  | 0x5, _ | 0x6, _ | 0xA, _ | 0xB, _ => .assigned (unG_exact fun _ _ _ => rfl)
  | 0x7, _ | 0x8, _ | 0x9, _ => .assigned (unI_exact fun _ _ _ => rfl)
  | 0xD, _ | 0xE, _ | 0xF, _ => .reserved
  | _ + 16, hlo => absurd hlo (by omega)

theorem decodeRow1_columns : Row 0x1 decodeRow1
  | 0x0, _ | 0x2, _ => .assigned (unE_exact fun _ _ _ => rfl)
  | 0x1, _ | 0x3, _ | 0x5, _ => .assigned (unGExit_exact fun _ _ => rfl)
  | 0x4, _ => .assigned (unEDone_exact fun _ _ => rfl)
  | 0x6, _ | 0x7, _ => .assigned (unICode_exact fun _ _ => rfl)
  | 0x8, _ => .assigned (unI_exact fun _ _ _ => rfl)
  | 0x9, _ | 0xA, _ | 0xB, _ | 0xC, _ | 0xD, _ | 0xE, _ | 0xF, _ => .reserved
  | _ + 16, hlo => absurd hlo (by omega)

theorem decodeRow2_columns : Row 0x2 decodeRow2
  | 0x0, _ | 0x1, _ | 0x2, _ | 0x3, _ | 0x4, _ | 0x5, _ | 0x6, _ | 0x7, _ | 0x8, _ | 0x9, _ | 0xA, _ | 0xB, _
  | 0xC, _ | 0xD, _ | 0xE, _ | 0xF, _ => .assigned (unG_exact fun _ _ _ => rfl)
  | _ + 16, hlo => absurd hlo (by omega)

theorem decodeRow3_columns : Row 0x3 decodeRow3
  | 0x0, _ | 0x1, _ | 0x2, _ | 0x3, _ | 0x4, _ | 0x5, _ | 0x6, _ | 0x7, _ | 0x8, _ | 0xB, _ | 0xD, _ =>
    .assigned (unG_exact fun _ _ _ => rfl)
  | 0x9, _ | 0xA, _ => .assigned (unGX_exact fun _ _ _ _ => rfl)
  | 0xC, _ => .assigned (unGT_exact fun _ _ => rfl)
  | 0xE, _ | 0xF, _ => .assigned (unI_exact fun _ _ _ => rfl)
  | _ + 16, hlo => absurd hlo (by omega)

theorem decodeRow4_columns : Row 0x4 decodeRow4
  | 0x0, _ | 0x1, _ | 0x2, _ | 0x3, _ | 0x4, _ | 0xB, _ | 0xC, _ | 0xD, _ | 0xE, _ => .assigned (unI_exact fun _ _ _ => rfl)
  | 0x5, _ | 0x6, _ | 0x7, _ | 0x8, _ | 0x9, _ | 0xA, _ => .assigned (unG_exact fun _ _ _ => rfl)
  | 0xF, _ => .reserved
  | _ + 16, hlo => absurd hlo (by omega)

theorem decodeRow5_columns : Row 0x5 decodeRow5
  | 0x0, _ | 0x1, _ | 0x2, _ | 0x4, _ | 0x5, _ | 0x6, _ | 0x7, _ | 0x8, _ | 0x9, _ | 0xB, _ | 0xC, _ | 0xD, _
  | 0xE, _ | 0xF, _ => .assigned (unG_exact fun _ _ _ => rfl)
  | 0x3, _ => .assigned (unGT_exact fun _ _ => rfl)
  | 0xA, _ => .assigned (unGConv_exact fun _ _ _ _ => rfl)
  | _ + 16, hlo => absurd hlo (by omega)

theorem decodeRow6_columns : Row 0x6 decodeRow6
  | 0x0, _ | 0x1, _ | 0x2, _ | 0x5, _ | 0x7, _ | 0x8, _ | 0x9, _ | 0xA, _ | 0xB, _ | 0xC, _ | 0xD, _ | 0xE, _
  | 0xF, _ => .assigned (unGX_exact fun _ _ _ _ => rfl)
  | 0x3, _ | 0x4, _ => .assigned (unGTX_exact fun _ _ _ => rfl)
  | 0x6, _ => .assigned (unG_exact fun _ _ _ => rfl)
  | _ + 16, hlo => absurd hlo (by omega)

theorem decodeRow7_columns : Row 0x7 decodeRow7
  | 0x0, _ | 0x1, _ | 0x2, _ | 0x3, _ | 0x4, _ | 0x5, _ | 0x8, _ | 0x9, _ | 0xA, _ => .assigned (unGX_exact fun _ _ _ _ => rfl)
  | 0x6, _ | 0x7, _ => .assigned (unGTX_exact fun _ _ _ => rfl)
  | 0xB, _ | 0xC, _ | 0xD, _ | 0xE, _ | 0xF, _ => .assigned (unG_exact fun _ _ _ => rfl)
  | _ + 16, hlo => absurd hlo (by omega)

theorem decodeRow8_columns : Row 0x8 decodeRow8
  | 0x0, _ | 0x7, _ | 0x8, _ | 0x9, _ | 0xA, _ | 0xB, _ | 0xC, _ | 0xD, _ | 0xE, _ | 0xF, _ =>
    .assigned (unGX_exact fun _ _ _ _ => rfl)
  | 0x1, _ | 0x2, _ => .assigned (unGConv_exact fun _ _ _ _ => rfl)
  | 0x3, _ | 0x4, _ | 0x5, _ | 0x6, _ => .assigned (unGF_exact fun _ _ _ => rfl)
  | _ + 16, hlo => absurd hlo (by omega)

theorem decodeRow9_columns : Row 0x9 decodeRow9
  | 0x0, _ | 0x1, _ | 0x2, _ | 0x3, _ | 0x4, _ | 0x5, _ | 0x6, _ | 0x7, _ | 0x9, _ | 0xA, _ | 0xB, _ =>
    .assigned (unGX_exact fun _ _ _ _ => rfl)
  | 0x8, _ => .assigned (unG_exact fun _ _ _ => rfl)
  | 0xC, _ | 0xD, _ | 0xE, _ | 0xF, _ => .reserved
  | _ + 16, hlo => absurd hlo (by omega)

theorem decodeRowA_columns : Row 0xA decodeRowA
  | 0x0, _ | 0x1, _ | 0x2, _ | 0x3, _ | 0x4, _ | 0x5, _ | 0x6, _ | 0xB, _ => .assigned (unL_exact fun _ _ _ _ => rfl)
  | 0x7, _ | 0x8, _ | 0x9, _ | 0xA, _ | 0xC, _ => .assigned (unS_exact fun _ _ _ => rfl)
  | 0xD, _ => .assigned (unLX_exact fun _ _ _ => rfl)
  | 0xE, _ => .assigned (unST_exact fun _ _ => rfl)
  | 0xF, _ => .assigned (unAMT_exact fun _ _ _ _ => rfl)
  | _ + 16, hlo => absurd hlo (by omega)

theorem decodeRowB_columns : Row 0xB decodeRowB
  | 0x0, _ | 0x2, _ | 0x9, _ => .assigned (unAM_exact fun _ _ _ => rfl)
  | 0x1, _ | 0x5, _ => .assigned (unAMT_exact fun _ _ _ _ => rfl)
  | 0x3, _ | 0x4, _ => .assigned (unAMUT_exact fun _ _ _ _ _ => rfl)
  | 0x6, _ => .assigned (unATern_exact fun _ _ _ => rfl)
  | 0x7, _ | 0x8, _ => .assigned (unAMU_exact fun _ _ _ _ => rfl)
  | 0xA, _ => .assigned (unAMX_exact fun _ _ _ _ => rfl)
  | 0xB, _ | 0xC, _ => .assigned (unA_exact fun _ _ => rfl)
  | 0xD, _ => .assigned (unAX_exact fun _ _ _ => rfl)
  | 0xE, _ => .assigned (unS_exact fun _ _ _ => rfl)
  | 0xF, _ => .assigned (unL0_exact fun _ _ _ => rfl)
  | _ + 16, hlo => absurd hlo (by omega)

theorem decodeRowC_columns : Row 0xC decodeRowC
  | 0x0, _ | 0x1, _ | 0x3, _ | 0x8, _ => .assigned (unA_exact fun _ _ => rfl)
  | 0x2, _ => .assigned (unAMX_exact fun _ _ _ _ => rfl)
  | 0x4, _ | 0x5, _ | 0x6, _ | 0x7, _ | 0x9, _ => .assigned (unAT_exact fun _ _ _ => rfl)
  | 0xA, _ => .assigned (unAN_exact fun _ _ _ => rfl)
  | 0xB, _ | 0xC, _ => .assigned (unANT_exact fun _ _ _ _ => rfl)
  | 0xD, _ => .assigned (unAMN_exact fun _ _ _ _ => rfl)
  | 0xE, _ => .assigned (unAMNT_exact fun _ _ _ _ _ => rfl)
  | 0xF, _ => .reserved
  | _ + 16, hlo => absurd hlo (by omega)

theorem decodeRowD_columns : Row 0xD decodeRowD
  | 0x0, _ | 0x2, _ => .assigned (unAR_exact fun _ _ _ => rfl)
  | 0x1, _ | 0x3, _ | 0x4, _ | 0x5, _ => .assigned (unARR_exact fun _ _ _ _ => rfl)
  | 0x6, _ | 0x8, _ | 0x9, _ | 0xA, _ => .assigned (unAN_exact fun _ _ _ => rfl)
  | 0x7, _ => .assigned (unANT_exact fun _ _ _ _ => rfl)
  | 0xB, _ => .assigned (unAMN_exact fun _ _ _ _ => rfl)
  | 0xC, _ => .assigned (unAT_exact fun _ _ _ => rfl)
  | 0xD, _ | 0xE, _ | 0xF, _ => .reserved
  | _ + 16, hlo => absurd hlo (by omega)

theorem decodeRowE_columns : Row 0xE decodeRowE
  | 0x0, _ | 0x1, _ | 0x2, _ | 0x3, _ | 0x4, _ | 0x6, _ | 0x7, _ => .assigned (unA_exact fun _ _ => rfl)
  | 0x5, _ | 0x8, _ | 0x9, _ => .assigned (unAT_exact fun _ _ _ => rfl)
  | 0xA, _ | 0xB, _ | 0xC, _ | 0xD, _ | 0xE, _ | 0xF, _ => .reserved
  | _ + 16, hlo => absurd hlo (by omega)

theorem decodeRowF_columns : Row 0xF decodeRowF
  | 0x0, _ | 0x1, _ | 0x2, _ | 0x3, _ => .assigned (unICsr_exact fun _ _ _ => rfl)
  | 0x4, _ | 0x5, _ | 0x6, _ | 0x7, _ | 0x8, _ => .assigned (unG_exact fun _ _ _ => rfl)
  | 0x9, _ | 0xA, _ | 0xB, _ | 0xC, _ | 0xD, _ | 0xE, _ | 0xF, _ => .reserved
  | _ + 16, hlo => absurd hlo (by omega)

/-- The row of the opcode map that bits 31-28 choose (04 R87). -/
def rowOf (hi : Nat) (w : Word) (lo : Nat) : Option (Option Instr) :=
  match hi with
  | 0x0 => decodeRow0 w lo
  | 0x1 => decodeRow1 w lo
  | 0x2 => decodeRow2 w lo
  | 0x3 => decodeRow3 w lo
  | 0x4 => decodeRow4 w lo
  | 0x5 => decodeRow5 w lo
  | 0x6 => decodeRow6 w lo
  | 0x7 => decodeRow7 w lo
  | 0x8 => decodeRow8 w lo
  | 0x9 => decodeRow9 w lo
  | 0xA => decodeRowA w lo
  | 0xB => decodeRowB w lo
  | 0xC => decodeRowC w lo
  | 0xD => decodeRowD w lo
  | 0xE => decodeRowE w lo
  | _ => decodeRowF w lo

theorem decodeOp_eq_rowOf (w : Word) : decodeOp w = rowOf (w.extractLsb' 28 4).toNat w (w.extractLsb' 24 4).toNat :=
  Laws.Reads.decodeOp_at rfl rfl

theorem rowOf_columns : ∀ hi < 16, Row hi (rowOf hi)
  | 0x0, _ => decodeRow0_columns
  | 0x1, _ => decodeRow1_columns
  | 0x2, _ => decodeRow2_columns
  | 0x3, _ => decodeRow3_columns
  | 0x4, _ => decodeRow4_columns
  | 0x5, _ => decodeRow5_columns
  | 0x6, _ => decodeRow6_columns
  | 0x7, _ => decodeRow7_columns
  | 0x8, _ => decodeRow8_columns
  | 0x9, _ => decodeRow9_columns
  | 0xA, _ => decodeRowA_columns
  | 0xB, _ => decodeRowB_columns
  | 0xC, _ => decodeRowC_columns
  | 0xD, _ => decodeRowD_columns
  | 0xE, _ => decodeRowE_columns
  | 0xF, _ => decodeRowF_columns
  | _ + 16, hhi => absurd hhi (by omega)

theorem row_col_eq_opcode (w : Word) : 16 * (w.extractLsb' 28 4).toNat + (w.extractLsb' 24 4).toNat = w.toNat / 2 ^ 24 := by
  have hw := w.isLt
  simp only [BitVec.extractLsb'_toNat, Nat.shiftRight_eq_div_pow]
  omega

/-- The map at the opcode of a word, bits 31-24. -/
theorem decodeOp_column (w : Word) : ∃ column, decodeOp w = column w ∧ Column (w.toNat / 2 ^ 24) column := by
  refine ⟨fun v => rowOf (w.extractLsb' 28 4).toNat v (w.extractLsb' 24 4).toNat, decodeOp_eq_rowOf w, ?_⟩
  rw [← row_col_eq_opcode]
  exact rowOf_columns _ (BitVec.isLt _) _ (BitVec.isLt _)

theorem fOp_eq_ofNat (w : Word) : fOp w = BitVec.ofNat 8 (w.toNat / 2 ^ 24) := by
  apply BitVec.eq_of_toNat_eq
  rw [fOp, BitVec.extractLsb'_toNat, Nat.shiftRight_eq_div_pow, BitVec.toNat_ofNat]

theorem encode_of_decodeOp {w : Word} {i : Instr} (h : decodeOp w = some (some i)) : encode i = some w := by
  obtain ⟨column, hmap, hcol⟩ := decodeOp_column w
  exact hcol.exact w i (fOp_eq_ofNat w) (hmap ▸ h)

theorem decodeOp_eq_none_iff (w : Word) : decodeOp w = none ↔ w.toNat / 2 ^ 24 ∈ reservedOpcodes := by
  obtain ⟨column, hmap, hcol⟩ := decodeOp_column w
  rw [hmap]
  exact hcol.none_iff w

/-! ## What the decoder answers -/

theorem decode_eq_ok_iff {w : Word} {i : Instr} : decode w = .ok i ↔ decodeOp w = some (some i) ∧ i.wf = true := by
  unfold decode
  split
  next h => simp [h]
  next h => simp [h]
  next j h =>
    by_cases hwf : j.wf
    · simp only [hwf, h, if_true, Except.ok.injEq, Option.some.injEq]
      exact ⟨fun hji => ⟨hji, hji ▸ hwf⟩, And.left⟩
    · simp only [hwf, h, Bool.false_eq_true, if_false, Option.some.injEq, reduceCtorEq, false_iff]
      exact fun ⟨hji, hi⟩ => hwf (hji ▸ hi)

theorem decode_eq_illegalOpcode_iff {w : Word} : decode w = .error .illegalOpcode ↔ decodeOp w = none := by
  unfold decode
  split
  next h => simp [h]
  next h => simp [h]
  next j h => by_cases hwf : j.wf <;> simp [h, hwf]

end Sys2Proof.Encoding

namespace Sys2Proof.Laws.Reads

/-- The family Reads, gathered: one lemma for each constructor, in the order of the table of operations and events. -/
theorem decodeOp_of_encode : ∀ i : Instr, Statement i :=
  fun i => Instr.casesOn i
    illegal readg readv writeg writev mov null const_ consth pcrel sel gate nop br bri call_ calli done_ abort trap break_ svc
    add sub mul mulh mulhu div divu rem_ remu and_ or_ xor_ andn shl shr sar ror min_ max_ minu maxu abs_ clz ctz popc sext zext
    bfx bfi lea addi andi ori xori shli shri sari teq tne tlt tle tltu tleu teqi tnei tlti tlei fadd fsub fmul ffma fdiv fsqrt
    fmin fmax fabs fneg fcvt fclass feq flt fle frnd vadd vsub vmul vfma vfms vdiv vsqrt vmin vmax vabs vneg vadds vsubs vmulh
    vand vor vxor vshl vshr vsar vpopc vclz vsel vclamp vceq vclt vcle vexp2 vlog2 vrcp vrsq vtanh vrnd vcvtf vcvtt vpack4
    vunpk4 vpack6 vunpk6 vbcast vins vext vshuf vrot viota vredsum vredmax vredmin vredand vredor vargmax vscan vdotf vmaskpop
    vrand vdraw vdrawm vldexp vzip vunzip ldb ldbu ldh ldhu ldw ldwu ldd stb sth stw std ldv stv ldvx stvx sld sst sldv sstv
    amoi amow amof cas redi redw redf redb redo drawm fence flushl pref cpy cpys cpyr cpyb cpyq cwaita cwaitl cfind ctclr mwait
    spush spop speek seos sstat bload bswap bclr mma mmat mmaa accz accrd accwr accst accstat accscl msync dec spawn send bind_
    unbind ropejoin ropeleave ropearr ropewait ropesz csrr csrw csrs csrc rand time_ ispois chkl pmark pitchFetch
    pitchExhaustion immediateAccessComplete syncAccessArrive retryListBusyResend memoryResponse uncorrectableError
    watchdogExpiry waitWithdrawal commitChecks handover publicationStep2 publicationStep3 taskRetired twinDigestCompare
    decrementApply placement crossDiePlacement taskRunnable taskStart copyElementTranslate copyElementComplete copyStampWrite
    copyComplete reductionApply orderedContributionArrive orderedBusyResend streamPacketArrive streamAcknowledge
    streamResendRequest matrixOpStart matrixOpComplete armedMmaRow faultRecordHeldWrite ringPoll launchNotify instanceCreate
    messageAccept handlerDelivery mailboxOverflow ropeArrival svcLog svcTlbinv svcResume svcMigrate invalidationComplete
    translationWalk quiescenceWave wearIntervalEnd monitorSample drainedTimeout infieldTestStart infieldTestResult clusterRetire
    lifetimeRecordWrite drainComplete spillPlaceFreed thermalThreshold powerCapWindow clusterClockGate ctxCreate ctxDestroy
    ctxSet sliceAssign qcbSet hostTlbinv drainFor restore traceSet tableRegion counterRead podAttach attest hostRead hostWrite
    peerAccess getVersion getCapabilities negotiateAlgorithms getDigests getCertificate challenge getMeasurements keyExchange
    finish keyUpdate endSession lockPort startPort stopPort portConfigChange linkReplay linkReset supplyGood managementReset
    microcodeLoad debugToken freeze frzNAssert powerCapSet powerFailure strayDecrementAnswer

end Sys2Proof.Laws.Reads

namespace Sys2Proof.Encoding

/-- Settles O1: the word of an instruction reads as the instruction, which check 4 then accepts. -/
theorem decodeEncode : Obligations.DecodeEncode := by
  intro i w hwf hw
  exact decode_eq_ok_iff.2 ⟨Laws.Reads.decodeOp_of_encode i w hw, hwf⟩

/-- Settles O2: no reader of the opcode map loses a bit of the word, and the map leaves out just the reserved opcodes. -/
theorem encodeDecode : Obligations.EncodeDecode := by
  refine ⟨fun w i h => ?_, fun w => decode_eq_illegalOpcode_iff.trans (decodeOp_eq_none_iff w)⟩
  obtain ⟨hop, hwf⟩ := decode_eq_ok_iff.1 h
  exact ⟨hwf, encode_of_decodeOp hop⟩

end Sys2Proof.Encoding
end

section
/-! The family 05_register_catalogue: O21. An instruction that fires and reads no memory leaves `after` of its answer (`fire_done`); what
is left is what each of the seven answers is, and where a register number leads. -/

namespace Sys2Proof.Registers

open Machine Laws

/-! ## Time and poison (06 R134) -/

/-- The time base that a firing instruction sees is the one of the state it fires in. -/
theorem env_time {i : Instr} {s : State} {e : Env} (h : Fires i s e) : e.s.time = BitVec.ofNat 64 (s.cycle / 17) := by
  rw [(env_state h.1).1]
  rfl

theorem exec_time {p : Pr} {u t : Target} {s : State} {e : Env} (h : Fires (.time_ p u t) s e) :
    exec (.time_ p u t) s = .next (after (.time_ p u t) e (gives e (.scalar (BitVec.ofNat 64 (s.cycle / 17))))) := by
  rw [← env_time h]
  exact fire_done h rfl rfl

/-- ISPOIS consumes a poisoned token and sends an unpoisoned one. -/
theorem exec_ispois {p : Pr} {u t : Target} {s : State} {e : Env} (h : Fires (.ispois p u t) s e) :
    exec (.ispois p u t) s =
      .next (after (.ispois p u t) e { out0 := some (.pred e.left.pois), out1 := some (.pred e.left.pois), pois := false }) :=
  fire_done h rfl rfl

theorem exec_pmark {p : Pr} {u t : Target} {s : State} {e : Env} (h : Fires (.pmark p u t) s e) :
    exec (.pmark p u t) s = .next (after (.pmark p u t) e
      { gives e (.scalar (BitVec.ofNat 64 (s.cycle / 17))) with
        effects := [.mark (BitVec.ofNat 32 e.a.toNat) (BitVec.ofNat 64 (s.cycle / 17))] }) := by
  rw [← env_time h, BitVec.ofNat_toNat]
  exact fire_done h rfl rfl

/-! ## Control-register instructions (05 R102, R108; 06 R132) -/

theorem exec_csrr {p : Pr} {n : BitVec 12} {t : Target} {s : State} {e : Env} (h : Fires (.csrr p n t) s e) :
    exec (.csrr p n t) s = .next (after (.csrr p n t) e { out0 := some (.scalar (e.csr n)) }) :=
  fire_done h rfl rfl

/-- CSRW, CSRS and CSRC differ in the change they ask for alone. -/
theorem fire_csrChange {i : Instr} {op : CsrOp} {n : BitVec 12} {s : State} {e : Env} (h : Fires i s e) :
    fire i (fun e => e.csrChange op n) s =
      .next (after i e { out0 := some (.scalar (e.csr n)), effects := [.csr op n e.a], ctl := e.left.pois }) :=
  fire_done h rfl rfl

/-! ## The registers by number (05 R108-R116) -/

/-- The numbers that the catalogue gives a register. -/
def catalogued : List Nat :=
  [0x000, 0x001, 0x002, 0x003, 0x004, 0x005, 0x006, 0x007, 0x008, 0x010, 0x011, 0x020, 0x021, 0x022, 0x023, 0x024,
   0x030, 0x031, 0x032, 0x033, 0x040, 0x041, 0x042, 0x043, 0x050]

/-- A reserved number reads 0, whichever it is. -/
theorem csr_of_reserved (e : Env) {n : BitVec 12} (h : n.toNat ∉ catalogued) : e.csr n = 0 := by
  unfold Env.csr
  split
  case h_26 => rfl
  all_goals
    rename_i hn
    exact absurd (hn ▸ by decide) h

theorem csr_ctx (e : Env) : e.csr 0x003 = e.r.ctx.setWidth 64 := rfl
theorem csr_ctags (e : Env) : e.csr 0x010 = e.p.snap.ctags := rfl
theorem csr_frnd (e : Env) : e.csr 0x023 = e.r.frnd.setWidth 64 := rfl
theorem csr_fflags (e : Env) : e.csr 0x024 = e.r.fflags.setWidth 64 := rfl
theorem csr_rngctr (e : Env) : e.csr 0x031 = e.r.rngctr := rfl
theorem csr_time (e : Env) : e.csr 0x041 = e.p.snap.time := rfl

/-- Settles O21: each of the seven instructions that fires leaves its answer, with the registers read by number. -/
theorem timeAndRegisters : Obligations.TimeAndRegisters :=
  ⟨⟨fun _ _ _ _ _ => exec_time, fun _ _ _ _ _ => exec_ispois, fun _ _ _ _ _ => exec_pmark⟩,
   fun _ _ _ _ _ => exec_csrr,
   fun _ _ _ _ _ => fire_csrChange, fun _ _ _ _ _ => fire_csrChange, fun _ _ _ _ _ => fire_csrChange,
   fun e => ⟨csr_frnd e, csr_fflags e, csr_rngctr e, csr_ctags e, csr_time e, csr_ctx e, csr_of_reserved e (by decide)⟩⟩

end Sys2Proof.Registers
end

section
/-! The family 06_scalar_instructions, structure and integers: O10, O12, O13 and O14. An instruction that fires sends what its function
of the operands gives (`fire_result`, `fire_scalar`); what is left is that each function on bit vectors is the arithmetic of the rule. -/

namespace Sys2Proof.Scalar

open Machine Laws

/-! ## What a firing instruction sends -/

section Sends

variable {i : Instr} {s : State} {e : Env}

theorem fire_result {act : Env → Reply} {v : TokVal} (h : Fires i s e) (ha : act e = e.result v) :
    fire i act s = .next (after i e (gives e v)) :=
  fire_done h ha rfl

theorem fire_scalar {act : Env → Reply} {v r : BitVec 64} (h : Fires i s e) (ha : act e = e.scalar v) (hv : v = r) :
    fire i act s = .next (after i e (gives e (.scalar r))) :=
  fire_result h (hv ▸ ha)

end Sends

/-! ## The integer that a 64-bit result holds (06 R124) -/

theorem wrap64_toInt (a : BitVec 64) : Spec.wrap64 a.toInt = a := BitVec.ofInt_toInt

theorem wrap64_natCast (n : Nat) : Spec.wrap64 n = BitVec.ofNat 64 n := BitVec.ofInt_natCast 64 n

theorem wrap64_add (x y : Int) : Spec.wrap64 (x + y) = Spec.wrap64 x + Spec.wrap64 y := BitVec.ofInt_add x y

theorem add_eq (a b : BitVec 64) : a + b = Spec.wrap64 (a.toInt + b.toInt) := by
  rw [wrap64_add, wrap64_toInt, wrap64_toInt]

theorem sub_eq (a b : BitVec 64) : a - b = Spec.wrap64 (a.toInt - b.toInt) :=
  BitVec.eq_of_toInt_eq (by rw [BitVec.toInt_sub, Spec.wrap64, BitVec.toInt_ofInt])

theorem mul_eq (a b : BitVec 64) : a * b = Spec.wrap64 (a.toInt * b.toInt) :=
  BitVec.eq_of_toInt_eq (by rw [BitVec.toInt_mul, Spec.wrap64, BitVec.toInt_ofInt])

/-- Bits [127:64] of an integer kept in 128 bits. -/
theorem extract_high64 (x : Int) : (BitVec.ofInt 128 x).extractLsb' 64 64 = Spec.high64 x := by
  apply BitVec.eq_of_toNat_eq
  simp only [Spec.high64, BitVec.extractLsb'_toNat, BitVec.toNat_ofInt, Nat.shiftRight_eq_div_pow]
  omega

theorem mulHiS_eq (a b : BitVec 64) : mulHiS a b = Spec.high64 (a.toInt * b.toInt) := by
  rw [← extract_high64, BitVec.ofInt_mul]
  rfl

theorem mulHiU_eq (a b : BitVec 64) : mulHiU a b = Spec.high64 (a.toNat * b.toNat : Nat) := by
  rw [← extract_high64, BitVec.ofInt_natCast, BitVec.ofNat_mul, BitVec.ofNat_toNat, BitVec.ofNat_toNat]
  rfl

theorem shiftLeft_eq (a : BitVec 64) (n : Nat) : a <<< n = Spec.wrap64 (a.toNat * 2 ^ n : Nat) := by
  rw [wrap64_natCast]
  exact BitVec.eq_of_toNat_eq (by rw [BitVec.toNat_shiftLeft, Nat.shiftLeft_eq, BitVec.toNat_ofNat])

theorem ushiftRight_eq (a : BitVec 64) (n : Nat) : a >>> n = BitVec.ofNat 64 (a.toNat / 2 ^ n) := by
  apply BitVec.eq_of_toNat_eq
  rw [BitVec.toNat_ushiftRight, Nat.shiftRight_eq_div_pow, BitVec.toNat_ofNat,
    Nat.mod_eq_of_lt (Nat.lt_of_le_of_lt (Nat.div_le_self _ _) a.isLt)]

theorem sshiftRight_eq (a : BitVec 64) (n : Nat) : a.sshiftRight n = Spec.wrap64 (a.toInt / 2 ^ n) := by
  rw [BitVec.sshiftRight, Int.shiftRight_eq_div_pow]
  norm_cast

/-- The two shifted parts of a rotation share no bit, so that their sum is their union. -/
theorem ror_eq (a b : BitVec 64) : a.rotateRight (shCount b) =
    Spec.wrap64 (a.toNat / 2 ^ (b.toNat % 64) + a.toNat * 2 ^ (64 - b.toNat % 64) : Nat) := by
  have hk : b.toNat % 64 < 64 := Nat.mod_lt _ (by decide)
  rw [shCount, BitVec.rotateRight_def, Nat.mod_mod]
  generalize b.toNat % 64 = k at hk
  rw [Nat.cast_add, wrap64_add, ← shiftLeft_eq, wrap64_natCast, ← ushiftRight_eq, BitVec.add_eq_or_of_and_eq_zero]
  ext j hj
  by_cases hl : j < 64 - k
  · simp [hl]
  · simp [show a.getLsbD (k + j) = false from BitVec.getLsbD_of_ge _ _ (by omega)]

theorem ite_slt (a b x y : BitVec 64) : (if b.slt a then x else y) = if a.toInt ≤ b.toInt then y else x := by
  simp only [BitVec.slt_iff_toInt_lt, ← not_le, ite_not]

theorem ite_ult (a b x y : BitVec 64) : (if b.ult a then x else y) = if a.toNat ≤ b.toNat then y else x := by
  simp only [BitVec.ult_iff_toNat_lt, ← not_le, ite_not]

/-- Of two values that compare equal either may be taken. -/
theorem ite_le_swap {α : Type} [LinearOrder α] {f : BitVec 64 → α} (hf : Function.Injective f) (a b : BitVec 64) :
    (if f b ≤ f a then a else b) = if f a ≤ f b then b else a := by
  split_ifs with hba hab hab
  · exact hf (le_antisymm hab hba)
  · rfl
  · rfl
  · exact absurd (le_of_not_ge hba) hab

theorem maxS_eq (a b : BitVec 64) : maxS a b = if a.toInt ≤ b.toInt then b else a :=
  (ite_slt b a b a).trans (ite_le_swap (fun _ _ => BitVec.eq_of_toInt_eq) a b)

theorem maxU_eq (a b : BitVec 64) : maxU a b = if a.toNat ≤ b.toNat then b else a :=
  (ite_ult b a b a).trans (ite_le_swap (fun _ _ => BitVec.eq_of_toNat_eq) a b)

theorem lea_eq (a b : BitVec 64) : a + b <<< 7 = Spec.wrap64 (a.toNat + 128 * b.toNat : Nat) := by
  rw [Nat.cast_add, wrap64_add, mul_comm, show (128 : Nat) = 2 ^ 7 from rfl, ← shiftLeft_eq, wrap64_natCast,
    BitVec.ofNat_toNat, BitVec.setWidth_eq]

theorem exec_arith {i : Instr} {f : BitVec 64 → BitVec 64 → BitVec 64} {s : State} {e : Env} (hf : Spec.arith i = some f)
    (h : Fires i s e) : exec i s = .next (after i e (gives e (.scalar (f e.a e.b)))) := by
  cases i with
  | add => cases hf; exact fire_scalar h rfl (add_eq _ _)
  | sub => cases hf; exact fire_scalar h rfl (sub_eq _ _)
  | mul => cases hf; exact fire_scalar h rfl (mul_eq _ _)
  | mulh => cases hf; exact fire_scalar h rfl (mulHiS_eq _ _)
  | mulhu => cases hf; exact fire_scalar h rfl (mulHiU_eq _ _)
  | and_ | or_ | xor_ | andn => cases hf; exact fire_scalar h rfl rfl
  | shl => cases hf; exact fire_scalar h rfl (shiftLeft_eq _ _)
  | shr => cases hf; exact fire_scalar h rfl (ushiftRight_eq _ _)
  | sar => cases hf; exact fire_scalar h rfl (sshiftRight_eq _ _)
  | ror => cases hf; exact fire_scalar h rfl (ror_eq _ _)
  | min_ => cases hf; exact fire_scalar h rfl (ite_slt _ _ _ _)
  | max_ => cases hf; exact fire_scalar h rfl (maxS_eq _ _)
  | minu => cases hf; exact fire_scalar h rfl (ite_ult _ _ _ _)
  | maxu => cases hf; exact fire_scalar h rfl (maxU_eq _ _)
  | lea => cases hf; exact fire_scalar h rfl (lea_eq _ _)
  | _ => cases hf

/-! ## Immediates (06 R127) -/

theorem signExtend_eq (imm : BitVec 13) : imm.signExtend 64 = Spec.wrap64 imm.toInt := rfl

theorem toInt_signExtend (imm : BitVec 13) : (imm.signExtend 64).toInt = imm.toInt :=
  BitVec.toInt_signExtend_of_le (by decide)

theorem addi_eq (a : BitVec 64) (imm : BitVec 13) : a + imm.signExtend 64 = Spec.wrap64 (a.toInt + imm.toInt) := by
  rw [add_eq, toInt_signExtend]

theorem exec_immediate {i : Instr} {f : BitVec 64 → BitVec 64} {s : State} {e : Env} (hf : Spec.immediate i = some f)
    (h : Fires i s e) : exec i s = .next (after i e (gives e (.scalar (f e.a)))) := by
  cases i with
  | addi => cases hf; exact fire_scalar h rfl (addi_eq _ _)
  | andi | ori | xori => cases hf; exact fire_scalar h rfl rfl
  | shli => cases hf; exact fire_scalar h rfl (shiftLeft_eq _ _)
  | shri => cases hf; exact fire_scalar h rfl (ushiftRight_eq _ _)
  | sari => cases hf; exact fire_scalar h rfl (sshiftRight_eq _ _)
  | _ => cases hf

/-! ## Division (06 R125) -/

theorem divS_eq (a b : BitVec 64) :
    divS a b = if b = 0 then 0xFFFF_FFFF_FFFF_FFFF else Spec.wrap64 (a.toInt.tdiv b.toInt) := by
  have hq : a.sdiv b = Spec.wrap64 (a.toInt.tdiv b.toInt) :=
    BitVec.eq_of_toInt_eq (by rw [BitVec.toInt_sdiv, Spec.wrap64, BitVec.toInt_ofInt])
  rw [divS, hq]
  rfl

theorem divU_eq (a b : BitVec 64) :
    divU a b = if b = 0 then 0xFFFF_FFFF_FFFF_FFFF else BitVec.ofNat 64 (a.toNat / b.toNat) := by
  have hq : a / b = BitVec.ofNat 64 (a.toNat / b.toNat) := by rw [← BitVec.toNat_udiv, BitVec.ofNat_toNat, BitVec.setWidth_eq]
  rw [divU, hq]
  rfl

theorem remS_eq (a b : BitVec 64) :
    remS a b = if b = 0 then a else Spec.wrap64 (a.toInt - b.toInt * a.toInt.tdiv b.toInt) := by
  have hr : a.srem b = Spec.wrap64 (a.toInt - b.toInt * a.toInt.tdiv b.toInt) := by
    rw [← Int.tmod_def, ← BitVec.toInt_srem, wrap64_toInt]
  rw [remS, hr]

theorem remU_eq (a b : BitVec 64) :
    remU a b = if b = 0 then a else BitVec.ofNat 64 (a.toNat - b.toNat * (a.toNat / b.toNat)) := by
  have hr : a % b = BitVec.ofNat 64 (a.toNat - b.toNat * (a.toNat / b.toNat)) := by
    rw [← Nat.mod_def, ← BitVec.toNat_umod, BitVec.ofNat_toNat, BitVec.setWidth_eq]
  rw [remU, hr]

theorem exec_division {i : Instr} {f : BitVec 64 → BitVec 64 → BitVec 64} {s : State} {e : Env} (hf : Spec.division i = some f)
    (h : Fires i s e) : exec i s = .next (after i e (gives e (.scalar (f e.a e.b)))) := by
  cases i with
  | div => cases hf; exact fire_scalar h rfl (divS_eq _ _)
  | divu => cases hf; exact fire_scalar h rfl (divU_eq _ _)
  | rem_ => cases hf; exact fire_scalar h rfl (remS_eq _ _)
  | remu => cases hf; exact fire_scalar h rfl (remU_eq _ _)
  | _ => cases hf

/-- Settles O13: the quotients and remainders of bit vectors are those of the integers they hold; the two overflow cases are closed. -/
theorem division : Obligations.Division := by
  refine ⟨fun _ _ _ _ => exec_division, fun p u t f hf => ?_, fun p u t f hf => ?_⟩
  · cases hf; decide
  · cases hf; decide

/-! ## Compares (06 R128) -/

theorem eq_signExtend_iff (a : BitVec 64) (imm : BitVec 13) : a = imm.signExtend 64 ↔ a.toInt = imm.toInt := by
  rw [← BitVec.toInt_inj, toInt_signExtend]

theorem slt_signExtend_iff (a : BitVec 64) (imm : BitVec 13) : a.slt (imm.signExtend 64) = true ↔ a.toInt < imm.toInt := by
  rw [BitVec.slt_iff_toInt_lt, toInt_signExtend]

theorem sle_signExtend_iff (a : BitVec 64) (imm : BitVec 13) : a.sle (imm.signExtend 64) = true ↔ a.toInt ≤ imm.toInt := by
  rw [BitVec.sle_iff_toInt_le, toInt_signExtend]

/-- Settles O14: each compare sends the truth value of a decidable relation, which is the relation of the rule. -/
theorem scalarCompare : Obligations.ScalarCompare := by
  intro i f s e hf h
  cases i with
  | teq => cases hf; exact ⟨_, fire_result h rfl, beq_iff_eq⟩
  | tne => cases hf; exact ⟨_, fire_result h rfl, bne_iff_ne⟩
  | tlt => cases hf; exact ⟨_, fire_result h rfl, BitVec.slt_iff_toInt_lt⟩
  | tle => cases hf; exact ⟨_, fire_result h rfl, BitVec.sle_iff_toInt_le⟩
  | tltu => cases hf; exact ⟨_, fire_result h rfl, decide_eq_true_iff⟩
  | tleu => cases hf; exact ⟨_, fire_result h rfl, decide_eq_true_iff⟩
  | teqi => cases hf; exact ⟨_, fire_result h rfl, beq_iff_eq.trans (eq_signExtend_iff _ _)⟩
  | tnei => cases hf; exact ⟨_, fire_result h rfl, bne_iff_ne.trans (not_congr (eq_signExtend_iff _ _))⟩
  | tlti => cases hf; exact ⟨_, fire_result h rfl, slt_signExtend_iff _ _⟩
  | tlei => cases hf; exact ⟨_, fire_result h rfl, sle_signExtend_iff _ _⟩
  | _ => cases hf

/-! ## Bits and bit fields (06 R126) -/

theorem absS_eq (a : BitVec 64) : absS a = Spec.wrap64 a.toInt.natAbs := by
  unfold absS
  split
  next hneg =>
    have hneg : a.toInt < 0 := BitVec.slt_iff_toInt_lt.1 hneg
    rw [Int.ofNat_natAbs_of_nonpos hneg.le, Spec.wrap64, BitVec.ofInt_neg, BitVec.ofInt_toInt]
  next hpos =>
    have hpos : ¬ a.toInt < 0 := fun h => hpos (BitVec.slt_iff_toInt_lt.2 h)
    rw [Int.natAbs_of_nonneg (not_lt.1 hpos), wrap64_toInt]

/-- The leading zeros of a number of w bits stand above its highest set bit. -/
theorem clzNat_spec {w n : Nat} (hn : n < 2 ^ w) :
    clzNat w n ≤ w ∧ (∀ k, k < clzNat w n → n.testBit (w - 1 - k) = false) ∧
      (clzNat w n < w → n.testBit (w - 1 - clzNat w n) = true) := by
  unfold clzNat
  by_cases h0 : n = 0
  · simp [h0]
  · have hlog : n.log2 < w := (Nat.log2_lt h0).2 hn
    rw [if_neg h0]
    refine ⟨by omega, fun k hk => ?_, fun _ => ?_⟩
    · exact Nat.testBit_lt_two_pow ((Nat.log2_lt h0).1 (by omega))
    · rw [show w - 1 - (w - 1 - n.log2) = n.log2 by omega, Nat.testBit_log2 h0]

theorem ctzFrom_spec (k n : Nat) :
    ctzFrom k n ≤ k ∧ (∀ j, j < ctzFrom k n → n.testBit j = false) ∧ (ctzFrom k n < k → n.testBit (ctzFrom k n) = true) := by
  induction k generalizing n with
  | zero => simp [ctzFrom]
  | succ k ih =>
    obtain ⟨hle, hlow, hbit⟩ := ih (n / 2)
    rw [ctzFrom]
    split
    next hodd => simp [Nat.testBit_zero, hodd]
    next heven =>
      rw [Nat.add_comm 1]
      refine ⟨by omega, fun j hj => ?_, fun hlt => ?_⟩
      · cases j with
        | zero => simpa using heven
        | succ j => rw [Nat.testBit_succ, hlow j (by omega)]
      · rw [Nat.testBit_succ, hbit (by omega)]

theorem popNat_eq (k n : Nat) : popNat k n = ((List.range k).filter n.testBit).length := by
  induction k generalizing n with
  | zero => rfl
  | succ k ih =>
    have hshift : (n.testBit ∘ Nat.succ) = (n / 2).testBit := funext fun j => Nat.testBit_succ n j
    rw [popNat, ih, List.range_succ_eq_map, List.filter_cons, List.filter_map, hshift, Nat.testBit_zero]
    rcases Nat.mod_two_eq_zero_or_one n with h | h <;> simp [h, Nat.add_comm]

theorem popNat_le (k n : Nat) : popNat k n ≤ k := by
  rw [popNat_eq]
  exact (List.length_filter_le _ _).trans (List.length_range ..).le

theorem toInt_setWidth_eq_lowSigned (a : BitVec 64) {n : Nat} (hn : 0 < n) : (a.setWidth n).toInt = Spec.lowSigned n a := by
  rw [BitVec.toInt_eq_toNat_cond, BitVec.toNat_setWidth, Spec.lowSigned]
  have hpow : 2 ^ n = 2 * 2 ^ (n - 1) := by rw [← Nat.pow_succ', Nat.succ_eq_add_one, Nat.sub_add_cancel hn]
  simp only [show 2 * (a.toNat % 2 ^ n) < 2 ^ n ↔ a.toNat % 2 ^ n < 2 ^ (n - 1) by omega]

theorem sextBy_eq (a : BitVec 64) {x : ElemType} (hx : (x == .i32 || x == .i16 || x == .i8) = true) :
    sextBy x a = Spec.wrap64 (Spec.lowSigned (Spec.keptBits x) a) := by
  cases x with
  | i32 | i16 | i8 => rw [Spec.keptBits, ← toInt_setWidth_eq_lowSigned a (by decide)]; rfl
  | _ => cases hx

theorem toNat_zextBy (a : BitVec 64) {x : ElemType} (hx : (x == .n32 || x == .n16 || x == .n8) = true) :
    (zextBy x a).toNat = a.toNat % 2 ^ Spec.keptBits x := by
  cases x with
  | n32 | n16 | n8 => simp [zextBy, Spec.keptBits]; omega
  | _ => cases hx

theorem toNat_ones {n : Nat} (hn : n ≤ 64) : (ones n).toNat = 2 ^ n - 1 := by
  have hpow : 2 ^ n ≤ 2 ^ 64 := Nat.pow_le_pow_right (by decide) hn
  have hpos : 0 < 2 ^ n := Nat.two_pow_pos n
  rw [ones, BitVec.toNat_ofNat, Nat.mod_eq_of_lt (by omega)]

theorem getLsbD_ones {n : Nat} (hn : n ≤ 64) (k : Nat) : (ones n).getLsbD k = decide (k < n) := by
  rw [← BitVec.testBit_toNat, toNat_ones hn, Nat.testBit_two_pow_sub_one]

theorem bfLen_eq (c : BitVec 64) : bfLen c = min (c.toNat / 256 % 128) 64 := rfl

theorem bfLen_le (c : BitVec 64) : bfLen c ≤ 64 := min_le_right _ _

theorem toNat_bfExtract (a c : BitVec 64) :
    (bfExtract a c).toNat = a.toNat / 2 ^ (c.toNat % 64) % 2 ^ min (c.toNat / 256 % 128) 64 := by
  rw [bfExtract, BitVec.toNat_and, toNat_ones (bfLen_le c), Nat.and_two_pow_sub_one_eq_mod, BitVec.toNat_ushiftRight,
    Nat.shiftRight_eq_div_pow, bfLen_eq, bfPos]

theorem getLsbD_bfInsert (a b c : BitVec 64) {k : Nat} (hk : k < 64) :
    (bfInsert a b c).getLsbD k =
      if bfPos c ≤ k ∧ k < bfPos c + bfLen c then b.getLsbD (k - bfPos c) else a.getLsbD k := by
  have hmask : ((ones (bfLen c)) <<< bfPos c).getLsbD k = decide (bfPos c ≤ k ∧ k < bfPos c + bfLen c) := by
    rw [BitVec.getLsbD_shiftLeft, getLsbD_ones (bfLen_le c)]
    simp only [hk, decide_true, Bool.true_and, ← decide_not, ← Bool.decide_and, decide_eq_decide]
    omega
  rw [bfInsert, BitVec.getLsbD_or, BitVec.getLsbD_and, BitVec.getLsbD_and, BitVec.getLsbD_not, hmask, BitVec.getLsbD_shiftLeft]
  by_cases hin : bfPos c ≤ k ∧ k < bfPos c + bfLen c
  · simp [hin, hk]
  · simp [hin, hk]

/-- A count of at most 64 is what its 64-bit word holds. -/
theorem toNat_ofNat_of_le {n : Nat} (hn : n ≤ 64) : (BitVec.ofNat 64 n).toNat = n :=
  Nat.mod_eq_of_lt (by omega)

theorem exec_unary {i : Instr} {f : BitVec 64 → BitVec 64 → BitVec 64 → BitVec 64 → Prop} {s : State} {e : Env}
    (hf : Spec.unary i = some f) (hwf : i.wf = true) (h : Fires i s e) :
    ∃ r, exec i s = .next (after i e (gives e (.scalar r))) ∧ f e.a e.b e.c r := by
  cases i with
  | abs_ => cases hf; exact ⟨_, fire_result h rfl, absS_eq _⟩
  | clz =>
    cases hf
    refine ⟨_, fire_result h rfl, ?_⟩
    have hspec := clzNat_spec e.a.isLt
    simp only [toNat_ofNat_of_le hspec.1]
    exact hspec
  | ctz =>
    cases hf
    refine ⟨_, fire_result h rfl, ?_⟩
    have hspec := ctzFrom_spec 64 e.a.toNat
    simp only [toNat_ofNat_of_le hspec.1]
    exact hspec
  | popc => cases hf; exact ⟨_, fire_result h rfl, (toNat_ofNat_of_le (popNat_le _ _)).trans (popNat_eq _ _)⟩
  | sext => cases hf; exact ⟨_, fire_result h rfl, sextBy_eq _ hwf⟩
  | zext => cases hf; exact ⟨_, fire_result h rfl, toNat_zextBy _ hwf⟩
  | bfx => cases hf; exact ⟨_, fire_result h rfl, toNat_bfExtract _ _⟩
  | bfi => cases hf; exact ⟨_, fire_result h rfl, fun k hk => getLsbD_bfInsert _ _ _ hk⟩
  | _ => cases hf

/-- Settles O12: each function of two operands, of one, and of an immediate is the arithmetic of its rule. -/
theorem scalarArithmetic : Obligations.ScalarArithmetic :=
  ⟨fun _ _ _ _ => exec_arith, fun _ _ _ _ => exec_unary, fun _ _ _ _ => exec_immediate⟩

/-! ## Structure instructions (06 R119; 04 R89) -/

/-- CONSTH shifts in the 13 bits of its immediate. -/
theorem consth_eq (a : BitVec 64) (imm : BitVec 13) :
    a <<< 13 ||| imm.setWidth 64 = Spec.wrap64 (a.toNat * 8192 + imm.toNat : Nat) := by
  have hdisj : a <<< 13 &&& imm.setWidth 64 = 0#64 := by
    ext j hj
    by_cases hl : j < 13
    · simp [hl]
    · simp [show imm.getLsbD j = false from BitVec.getLsbD_of_ge _ _ (by omega)]
  rw [← BitVec.add_eq_or_of_and_eq_zero _ _ hdisj, Nat.cast_add, wrap64_add, show 8192 = 2 ^ 13 from rfl, ← shiftLeft_eq,
    wrap64_natCast, BitVec.ofNat_toNat]

/-- PCREL counts its immediate in slots of 16 bytes. -/
theorem pcrel_eq (a : BitVec 64) (imm : BitVec 13) :
    a + imm.signExtend 64 <<< 4 = Spec.wrap64 (a.toInt + 16 * imm.toInt) := by
  have hshift : imm.signExtend 64 <<< 4 = Spec.wrap64 (16 * imm.toInt) := by
    rw [BitVec.shiftLeft_eq_mul_twoPow, mul_eq, toInt_signExtend, mul_comm]
    rfl
  rw [wrap64_add, wrap64_toInt, hshift]

theorem exec_sel {p : Pr} {u t : Target} {s : State} {e : Env} (h : Fires (.sel p u t) s e) :
    exec (.sel p u t) s = .next (after (.sel p u t) e
      { gives e e.right.val with
        out0 := some (if e.left.val = .pred true then e.right.val else .null)
        out1 := some (if e.left.val = .pred true then .null else e.right.val) }) := by
  refine fire_done h ?_ rfl
  by_cases hp : e.left.val = .pred true
  · simp [hp, gives]
  · simp [hp, gives]

theorem exec_structure {i : Instr} {a : Act} {s : State} {e : Env} (h : Fires i s e) (ha : Spec.structure_ e i = some a) :
    exec i s = .next (after i e a) := by
  cases i with
  | readg | readv | writeg | writev | mov | null | const_ | gate | nop => cases ha; exact fire_done h rfl rfl
  | consth => cases ha; exact fire_scalar h rfl (consth_eq _ _)
  | pcrel => cases ha; exact fire_scalar h rfl (pcrel_eq _ _)
  | sel => cases ha; exact exec_sel h
  | _ => cases ha

/-- ILLEGAL_OPCODE concerns no access, so no walk is reported on. -/
theorem exec_illegal {p : Pr} {s : State} {e : Env} (h : Fires (.illegal p) s e) :
    exec (.illegal p) s = .next (raises e { code := 0x01 }) :=
  fire_fault (act := fun _ => faultOf fcIllegalOpcode) (f := { code := 0x01 }) h rfl (by decide)

/-- Settles O10: each structure instruction answers what the table says, and ILLEGAL a fault. -/
theorem structureResults : Obligations.StructureResults :=
  ⟨fun _ _ _ _ => exec_structure, fun _ _ _ => exec_illegal⟩

end Sys2Proof.Scalar
end

section
/-! The family 06_scalar_instructions, F32: O15 and O16. A rounded F32 result fits in 32 bits, and the value of a code rounds to a code
without a flag. -/

namespace Sys2Proof.Scalar

open Machine Laws

/-! ## F32 codes and their values (02 R28, R29) -/

/-- The sign of an F32 code. -/
def f32Sign (c : Nat) : Bool := c / 2 ^ 31 % 2 == 1

/-- An F32 code by its exponent field: infinities and NaN, zeros and subnormals, normal numbers. -/
theorem value_fmtF32 (c : Nat) : fmtF32.value c =
    if c / 2 ^ 23 % 256 = 255 then if c % 2 ^ 23 = 0 then .inf (f32Sign c) else .nan
    else if c / 2 ^ 23 % 256 = 0 then .fin (f32Sign c) (c % 2 ^ 23) (-149)
    else .fin (f32Sign c) (2 ^ 23 + c % 2 ^ 23) ((c / 2 ^ 23 % 256 : Nat) - 150) := by
  have hieee : (fmtF32.special == .ieee && c / 2 ^ fmtF32.mbits % 2 ^ fmtF32.ebits == 2 ^ fmtF32.ebits - 1) =
      (c / 2 ^ 23 % 256 == 255) := rfl
  have he4m3 : (fmtF32.special == .e4m3) = false := rfl
  have hzero : (fmtF32.special == .finite) = false := rfl
  have hexp : ((c / 2 ^ fmtF32.mbits % 2 ^ fmtF32.ebits : Nat) : Int) - fmtF32.bias - fmtF32.mbits =
      (c / 2 ^ 23 % 256 : Nat) - 150 := Int.sub_sub _ 127 23
  simp only [Fmt.value, hieee, he4m3, hzero, hexp, Bool.false_and, Bool.not_false, Bool.and_true, beq_iff_eq, Bool.false_eq_true,
    if_false]
  rfl

/-! ## Rounding to F32 (02 R35) -/

theorem signed_fmtF32_lt (neg : Bool) {c : Nat} (hc : c < 2 ^ 31) : fmtF32.signed neg c < 2 ^ 32 := by
  have hbit : fmtF32.signBit = 2 ^ 31 := rfl
  rw [Fmt.signed, hbit]
  split <;> omega

theorem overflow_fmtF32_lt (mode : Rnd) (neg : Bool) : fmtF32.overflow mode neg < 2 ^ 31 := by
  cases mode <;> cases neg <;> decide

/-- The exponent of the last place to which R35 rounds m × 2^e in F32. -/
def f32Quantum (m : Nat) (e : Int) : Int := (if e + m.log2 < -126 then -126 else e + m.log2) - 23

/-- The magnitude code that rounding at that place reaches, before a look at overflow. -/
def f32Code (mode : Rnd) (neg : Bool) (m : Nat) (e : Int) : Nat :=
  let d := splitAt m e (f32Quantum m e)
  (f32Quantum m e + 149).toNat * 2 ^ 23 + if roundsUp mode neg d.1 d.2.1 d.2.2 then d.1 + 1 else d.1

/-- R35 in F32, which has a code for every zero. -/
theorem round_fmtF32 (mode : Rnd) (neg : Bool) {m : Nat} (e : Int) (h0 : m ≠ 0) :
    fmtF32.round mode neg m e =
      if f32Code mode neg m e > fmtF32.maxCode then (fmtF32.signed neg (fmtF32.overflow mode neg), flagOF ||| flagNX)
      else (fmtF32.signed neg (f32Code mode neg m e),
        if (splitAt m e (f32Quantum m e)).2.1 = 0 then 0
        else flagNX ||| if f32Code mode neg m e < 2 ^ fmtF32.mbits then flagUF else 0) := by
  have hquantum : (if e + m.log2 < 1 - (fmtF32.bias : Int) then 1 - (fmtF32.bias : Int) else e + m.log2) - (fmtF32.mbits : Int) =
      f32Quantum m e := rfl
  have hexp : f32Quantum m e + (fmtF32.mbits : Int) + (fmtF32.bias : Int) - 1 = f32Quantum m e + 149 := by
    simp only [fmtF32]
    omega
  have hcode : ((f32Quantum m e + 149).toNat * 2 ^ fmtF32.mbits +
      if roundsUp mode neg (splitAt m e (f32Quantum m e)).1 (splitAt m e (f32Quantum m e)).2.1 (splitAt m e (f32Quantum m e)).2.2
      then (splitAt m e (f32Quantum m e)).1 + 1 else (splitAt m e (f32Quantum m e)).1) = f32Code mode neg m e := rfl
  have hzero : (fmtF32.special == Special.finite) = false := rfl
  simp only [Fmt.round, if_neg h0, hquantum, hexp, hcode, hzero, Bool.false_and, Bool.false_eq_true, if_false]
  split_ifs <;> rfl

theorem round_fmtF32_lt (mode : Rnd) (neg : Bool) (m : Nat) (e : Int) : (fmtF32.round mode neg m e).1 < 2 ^ 32 := by
  by_cases h0 : m = 0
  · subst h0
    exact signed_fmtF32_lt neg (by decide)
  rw [round_fmtF32 mode neg e h0]
  split
  next => exact signed_fmtF32_lt neg (overflow_fmtF32_lt mode neg)
  next hmax => exact signed_fmtF32_lt neg (Nat.lt_of_le_of_lt (Nat.le_of_not_gt hmax) (by decide))

theorem roundVal_fmtF32_lt (mode : Rnd) (v : Val) : (fmtF32.roundVal mode v).1 < 2 ^ 32 := by
  cases v with
  | nan => exact (by decide : fmtF32.nanCode < 2 ^ 32)
  | inf neg => exact signed_fmtF32_lt neg (by decide)
  | fin neg m e => exact round_fmtF32_lt mode neg m e

/-- A magnitude of 24 bits on the F32 grid, normalized or at its lowest exponent, is rounded to itself: its quantum is its own
exponent. -/
theorem round_fmtF32_exact (mode : Rnd) (neg : Bool) {m : Nat} {e : Int} (hm : m < 2 ^ 24) (hmin : -149 ≤ e) (hmax : e ≤ 104)
    (hgrid : 2 ^ 23 ≤ m ∨ e = -149) : (fmtF32.round mode neg m e).2 = 0 := by
  by_cases h0 : m = 0
  · simp [Fmt.round, h0]
  have hlog : m.log2 < 24 := (Nat.log2_lt h0).2 hm
  have hquantum : f32Quantum m e = e := by
    unfold f32Quantum
    rcases hgrid with hnorm | hsub
    · have : m.log2 = 23 := (Nat.log2_eq_iff h0).2 ⟨hnorm, hm⟩
      split <;> omega
    · split <;> omega
  have hsplit : splitAt m e e = (m, 0, 0) := by simp [splitAt]
  have hup : roundsUp mode neg m 0 0 = false := by cases mode <;> simp [roundsUp]
  have hcode : f32Code mode neg m e = (e + 149).toNat * 2 ^ 23 + m := by simp [f32Code, hquantum, hsplit, hup]
  have hmaxCode : fmtF32.maxCode = 255 * 2 ^ 23 - 1 := rfl
  rw [round_fmtF32 mode neg e h0, if_neg (by omega), hquantum, hsplit]
  rfl

/-- The value of a code raises no flag when it is rounded back. -/
theorem roundVal_value_flags (mode : Rnd) (c : Nat) : (fmtF32.roundVal mode (fmtF32.value c)).2 = 0 := by
  have hm : c % 2 ^ 23 < 2 ^ 23 := Nat.mod_lt _ (by decide)
  have he : c / 2 ^ 23 % 256 < 256 := Nat.mod_lt _ (by decide)
  rw [value_fmtF32]
  split_ifs with htop hinf hsub
  · rfl
  · rfl
  · exact round_fmtF32_exact mode _ (by omega) (by omega) (by omega) (.inr rfl)
  · exact round_fmtF32_exact mode _ (by omega) (by omega) (by omega) (.inl (by omega))

/-! ## Arithmetic and conversion (06 R129, R131) -/

section Arithmetic

variable {i : Instr} {s : State} {e : Env}

theorem fire_float {act : Env → Reply} {x : Res} (h : Fires i s e) (ha : act e = e.scalarF (f32Res e.rnd x)) :
    ∃ c fl, (c, fl) = fmtF32.finish (rndOf e.r.frnd) x ∧
      fire i act s = .next (after i e (givesF e (.scalar (BitVec.ofNat 64 c)) fl)) ∧ c < 2 ^ 32 :=
  ⟨_, _, rfl, fire_done h ha rfl, roundVal_fmtF32_lt _ _⟩

theorem exec_float {f : Val → Val → Val → Res} (hf : Spec.floatOp (rndOf e.r.frnd) i = some f) (h : Fires i s e) :
    ∃ c fl, (c, fl) = fmtF32.finish (rndOf e.r.frnd) (f (Spec.f32 e.a) (Spec.f32 e.b) (Spec.f32 e.c)) ∧
      exec i s = .next (after i e (givesF e (.scalar (BitVec.ofNat 64 c)) fl)) ∧ c < 2 ^ 32 := by
  cases i with
  | fadd | fsub | fmul | ffma | fdiv | fsqrt | fabs | fneg | frnd => cases hf; exact fire_float h rfl
  | _ => cases hf

end Arithmetic

/-- Settles O15: an F32 instruction answers the rounding of its exact result, FCVT its converted lane. -/
theorem scalarFloat : Obligations.ScalarFloat :=
  ⟨fun _ _ _ _ => exec_float, fun _ _ _ _ _ _ _ h => fire_done h rfl rfl⟩

/-! ## Order (06 R129, R130) -/

theorem minMax_eq_or (max : Bool) (a b : Val) : Val.minMax max a b = a ∨ Val.minMax max a b = b := by
  unfold Val.minMax
  split_ifs <;> simp

theorem min_eq (a b : Val) : Val.minMax false a b = if a.isNan then b else if b.isNan then a
    else if Spec.notAbove a b then a else b := by
  simp [Val.minMax, Spec.notAbove, ← Bool.not_eq_true]

theorem max_eq (a b : Val) : Val.minMax true a b = if a.isNan then b else if b.isNan then a
    else if Spec.notAbove b a then a else b := by
  simp [Val.minMax, Spec.notAbove, ← Bool.not_eq_true]

theorem f32Res_exact {mode : Rnd} {v : Val} (h : (fmtF32.roundVal mode v).2 = 0) :
    f32Res mode (v, 0) = (BitVec.ofNat 64 (fmtF32.roundVal mode v).1, 0) := by
  simp [f32Res, Fmt.finish, h]

section Order

variable {i : Instr} {s : State} {e : Env}

/-- FMIN and FMAX round one of their operands, which is exact. -/
theorem fire_minMax {act : Env → Reply} {max : Bool} {r : Val} (h : Fires i s e)
    (ha : act e = e.scalarF (f32Res e.rnd (Val.minMax max (Spec.f32 e.a) (Spec.f32 e.b), 0)))
    (hr : Val.minMax max (Spec.f32 e.a) (Spec.f32 e.b) = r) :
    fire i act s = .next (after i e (givesF e (.scalar (BitVec.ofNat 64 (fmtF32.roundVal (rndOf e.r.frnd) r).1)) 0)) := by
  have hflags : (fmtF32.roundVal e.rnd r).2 = 0 := by
    rcases minMax_eq_or max (Spec.f32 e.a) (Spec.f32 e.b) with ho | ho
    · exact (hr.symm.trans ho) ▸ roundVal_value_flags _ _
    · exact (hr.symm.trans ho) ▸ roundVal_value_flags _ _
  refine fire_done h (ha.trans ?_) rfl
  rw [hr, f32Res_exact hflags]
  rfl

/-- FLT and FLE raise NV for a NaN operand alone. -/
theorem fire_cmp {act : Env → Reply} {a b : Val} {orEq r : Bool} (h : Fires i s e) (ha : act e = e.predF (Val.cmp orEq a b))
    (hr : (a.lt b || (orEq && a.eq b)) = r) :
    fire i act s =
      .next (after i e (if a.isNan || b.isNan then givesF e (.pred false) flagNV else gives e (.pred r))) := by
  subst hr
  by_cases hn : (a.isNan || b.isNan) = true
  · rw [Val.cmp, if_pos hn] at ha
    rw [if_pos hn]
    exact fire_done h ha rfl
  · rw [Val.cmp, if_neg hn] at ha
    rw [if_neg hn]
    exact fire_done h ha rfl

end Order

theorem fclassBit_eq (c : Nat) : fclassBit c = Spec.classBit (fmtF32.value c) := by
  have hm : c % 2 ^ 23 < 8388608 := Nat.mod_lt _ (by decide)
  rw [value_fmtF32]
  unfold fclassBit f32Sign
  generalize (c / 2 ^ 31 % 2 == 1) = neg
  generalize c / 2 ^ 23 % 256 = x
  generalize c % 2 ^ 23 = m at hm
  by_cases htop : x = 255
  · by_cases h0 : m = 0 <;> simp [Spec.classBit, htop, h0]
  by_cases hsub : x = 0
  · by_cases h0 : m = 0 <;> simp [Spec.classBit, hsub, h0, hm]
  · simp [Spec.classBit, htop, hsub]

/-- Settles O16: minimum and maximum take one operand in the order of R130, the compares raise NV as R129 says, and the class bit
follows from the exponent field. -/
theorem floatOrder : Obligations.FloatOrder :=
  ⟨fun _ _ _ _ _ h => ⟨_, fire_minMax h rfl (min_eq _ _), rfl⟩,
   fun _ _ _ _ _ h => ⟨_, fire_minMax h rfl (max_eq _ _), rfl⟩,
   fun _ _ _ _ _ h => fire_result h rfl,
   fun _ _ _ _ _ h => fire_cmp h rfl (Bool.or_false _),
   fun _ _ _ _ _ h => fire_cmp h rfl rfl,
   fun _ _ _ _ _ h => fire_scalar h rfl (congrArg (fun k => BitVec.ofNat 64 (2 ^ k)) (fclassBit_eq _))⟩

end Sys2Proof.Scalar
end

section
/-! The family 07_vector_instructions: O17, O18, O19 and O20. A vector is the list of its lanes over their places (`lanesOf_eq_map`), a
list of lanes is read back place by place (`lane_ofLanes`), and a lane-wise instruction is a function of the place (`fire_lanes`). -/

namespace Sys2Proof.Vector

open Machine Laws

/-! ## Lanes of a vector (02 R24; 07 R135) -/

theorem tyWidth_pos (x : ElemType) : 0 < tyWidth x := by cases x <;> decide

theorem tyLanes_pos (x : ElemType) : 0 < tyLanes x := by cases x <;> decide

/-- A lane lies within the 2048 bits. -/
theorem lane_within {x : ElemType} {k : Nat} (hk : k < tyLanes x) : tyWidth x * k + tyWidth x ≤ 2048 :=
  calc tyWidth x * k + tyWidth x = tyWidth x * (k + 1) := rfl
    _ ≤ tyWidth x * tyLanes x := Nat.mul_le_mul_left _ hk
    _ ≤ 2048 := Nat.mul_div_le _ _

theorem lane_lt (w : Nat) (v : BitVec 2048) (k : Nat) : Spec.lane w v k < 2 ^ w := Nat.mod_lt _ (Nat.two_pow_pos w)

@[simp] theorem lane_mod (w : Nat) (v : BitVec 2048) (k : Nat) : Spec.lane w v k % 2 ^ w = Spec.lane w v k := Nat.mod_mod _ _

theorem lanesOf_eq_map (x : ElemType) (v : BitVec 2048) :
    lanesOf x v = (List.range (tyLanes x)).map (Spec.lane (tyWidth x) v) := rfl

@[simp] theorem length_lanesOf (x : ElemType) (v : BitVec 2048) : (lanesOf x v).length = tyLanes x := by
  rw [lanesOf_eq_map, List.length_map, List.length_range]

theorem zipWith_lanesOf {α : Type} (f : Nat → Nat → α) (x : ElemType) (v u : BitVec 2048) :
    List.zipWith f (lanesOf x v) (lanesOf x u) =
      (List.range (tyLanes x)).map fun k => f (Spec.lane (tyWidth x) v k) (Spec.lane (tyWidth x) u k) := by
  rw [lanesOf_eq_map, lanesOf_eq_map, List.zipWith_map, List.zipWith_self]

theorem laneAt_range_map (f : Nat → Nat) {n k : Nat} (hk : k < n) : laneAt ((List.range n).map f) k = f k := by
  simp [laneAt, hk]

theorem laneAt_of_length_le {l : List Nat} {k : Nat} (hk : l.length ≤ k) : laneAt l k = 0 := by
  simp [laneAt, hk]

theorem laneAt_lanesOf {x : ElemType} (v : BitVec 2048) {k : Nat} (hk : k < tyLanes x) :
    laneAt (lanesOf x v) k = Spec.lane (tyWidth x) v k := laneAt_range_map _ hk

/-- Lanes joined to a number are found at their places; the places past the last hold zero. -/
theorem joinLanes_lane (w : Nat) (l : List Nat) (k : Nat) : joinLanes w l / 2 ^ (w * k) % 2 ^ w = laneAt l k % 2 ^ w := by
  induction l generalizing k with
  | nil => simp [joinLanes, laneAt]
  | cons c rest ih =>
    cases k with
    | zero => simp [joinLanes, laneAt]
    | succ k =>
      have hrest : joinLanes w (c :: rest) / 2 ^ w = joinLanes w rest := by
        rw [joinLanes, Nat.add_mul_div_left _ _ (Nat.two_pow_pos w), Nat.div_eq_of_lt (Nat.mod_lt _ (Nat.two_pow_pos w)), Nat.zero_add]
      rw [Nat.mul_succ, Nat.add_comm, Nat.pow_add, ← Nat.div_div_eq_div_mul, hrest, ih]
      rfl

/-- A field of a number is found in as many bits of it as the field reaches. -/
theorem toNat_ofNat_field {n w o : Nat} (v : Nat) (hfit : o + w ≤ n) :
    (BitVec.ofNat n v).toNat / 2 ^ o % 2 ^ w = v / 2 ^ o % 2 ^ w := by
  have hpow : 2 ^ n = 2 ^ o * 2 ^ (n - o) := by rw [← Nat.pow_add, Nat.add_sub_cancel' (Nat.le_of_add_right_le hfit)]
  rw [BitVec.toNat_ofNat, hpow, Nat.mod_mul_right_div_self, Nat.mod_mod_of_dvd _ (Nat.pow_dvd_pow 2 (by omega))]

theorem lane_ofLanes {x : ElemType} (l : List Nat) {k : Nat} (hk : k < tyLanes x) :
    Spec.lane (tyWidth x) (ofLanes x l) k = laneAt l k % 2 ^ tyWidth x := by
  rw [Spec.lane, ofLanes, toNat_ofNat_field _ (lane_within hk), joinLanes_lane]

/-! ## Lanes computed with flags (02 R37) -/

theorem orFlags_zero {α : Type} (l : List α) : orFlags (l.map fun _ => 0) = 0 := by
  induction l with
  | nil => rfl
  | cons _ _ ih => simpa [orFlags] using ih

theorem gather_range (x : ElemType) (n : Nat) (F : Nat → Nat × Flags) :
    gather x ((List.range n).map F) =
      (ofLanes x ((List.range n).map fun k => (F k).1), Spec.orOf n fun k => (F k).2) := by
  rw [gather, List.map_map, List.map_map]
  rfl

/-- Lanes that raise no flag. -/
theorem vector_eq_vectorF (e : Env) (x : ElemType) (l : List Nat) :
    e.vector (ofLanes x l) = e.vectorF (gather x (l.map fun c => (c, 0))) := by
  have hlanes : l.map (Prod.fst ∘ fun c => (c, (0 : Flags))) = l := List.map_id l
  rw [gather, List.map_map, List.map_map, hlanes, Function.comp_def, orFlags_zero]
  rfl

/-- Two results that fill a lane of w bits alike and raise the same flags. -/
def SameLane (w : Nat) (p q : Nat × Flags) : Prop := p.1 % 2 ^ w = q.1 % 2 ^ w ∧ p.2 = q.2

theorem SameLane.of_eq {w : Nat} {p q : Nat × Flags} (h : p = q) : SameLane w p q := by
  subst h
  exact ⟨rfl, rfl⟩

/-- The instruction answers the vector whose lane k is filled with G k, and the flags of all lanes. -/
def SendsLanes (i : Instr) (s : State) (e : Env) (x : ElemType) (G : Nat → Nat × Flags) : Prop :=
  ∃ r, exec i s = .next (after i e (givesF e (.vector r) (Spec.orOf (tyLanes x) fun k => (G k).2))) ∧
    ∀ k, k < tyLanes x → Spec.lane (tyWidth x) r k = (G k).1 % 2 ^ tyWidth x

section Lanewise

variable {i : Instr} {x : ElemType} {s : State} {e : Env}

theorem fire_lanes {act : Env → Reply} {F G : Nat → Nat × Flags} (h : Fires i s e) (hx : exec i s = fire i act s)
    (ha : act e = e.vectorF (gather x ((List.range (tyLanes x)).map F))) (hG : ∀ k, SameLane (tyWidth x) (F k) (G k)) :
    SendsLanes i s e x G := by
  have hflags : (fun k => (F k).2) = fun k => (G k).2 := funext fun k => (hG k).2
  rw [gather_range, hflags] at ha
  refine ⟨_, hx.trans (fire_done h ha rfl), fun k hk => ?_⟩
  rw [lane_ofLanes _ hk, laneAt_range_map _ hk, (hG k).1]

theorem fire_lanes1 {y : ElemType} {act : Env → Reply} {F f G : Nat → Nat × Flags} (h : Fires i s e)
    (hf : some (x, G) = some (y, f)) (hx : exec i s = fire i act s)
    (ha : act e = e.vectorF (gather x ((lanesOf x e.va).map F))) (hG : ∀ a, SameLane (tyWidth x) (F a) (G a)) :
    SendsLanes i s e y fun k => f (Spec.lane (tyWidth y) e.va k) := by
  cases hf
  rw [lanesOf_eq_map, List.map_map] at ha
  exact fire_lanes h hx ha fun _ => hG _

theorem fire_lanes2 {y : ElemType} {act : Env → Reply} {F f G : Nat → Nat → Nat × Flags} (h : Fires i s e)
    (hf : some (x, G) = some (y, f)) (hx : exec i s = fire i act s)
    (ha : act e = e.vectorF (gather x (List.zipWith F (lanesOf x e.va) (lanesOf x e.vb))))
    (hG : ∀ a b, a < 2 ^ tyWidth x → SameLane (tyWidth x) (F a b) (G a b)) :
    SendsLanes i s e y fun k => f (Spec.lane (tyWidth y) e.va k) (Spec.lane (tyWidth y) e.vb k) := by
  cases hf
  rw [zipWith_lanesOf] at ha
  exact fire_lanes h hx ha fun _ => hG _ _ (lane_lt _ _ _)

theorem fire_lanes3 {y : ElemType} {act : Env → Reply} {F f G : Nat → Nat → Nat → Nat × Flags} (h : Fires i s e)
    (hf : some (x, G) = some (y, f)) (hx : exec i s = fire i act s)
    (ha : act e = e.vectorF (gather x (List.zipWith (fun ab c => F ab.1 ab.2 c)
      (List.zip (lanesOf x e.va) (lanesOf x e.vb)) (lanesOf x e.vc))))
    (hG : ∀ a b c, SameLane (tyWidth x) (F a b c) (G a b c)) :
    SendsLanes i s e y fun k =>
      f (Spec.lane (tyWidth y) e.va k) (Spec.lane (tyWidth y) e.vb k) (Spec.lane (tyWidth y) e.vc k) := by
  cases hf
  rw [lanesOf_eq_map, lanesOf_eq_map, lanesOf_eq_map, List.zip_map', List.zipWith_map, List.zipWith_self] at ha
  exact fire_lanes h hx ha fun _ => hG _ _ _

theorem vector_map (f : Nat → Nat) (l : List Nat) :
    e.vector (ofLanes x (l.map f)) = e.vectorF (gather x (l.map fun a => (f a, 0))) := by
  rw [vector_eq_vectorF, List.map_map]
  rfl

theorem vector_zipWith (f : Nat → Nat → Nat) (l m : List Nat) :
    e.vector (ofLanes x (List.zipWith f l m)) = e.vectorF (gather x (List.zipWith (fun a b => (f a b, 0)) l m)) := by
  rw [vector_eq_vectorF, List.map_zipWith]

end Lanewise

/-! ## Lane-wise functions (07 R138-R140) -/

section Functions

variable (x : ElemType) (m : Rnd)

theorem arith1_eq_byType (ff : Rnd → Val → Res) (fi : Int → Int) (a : Nat) :
    arith1 x m ff fi a = Spec.byType x m (fun v => ff m (v a)) fun n => fi (n a) := by
  unfold arith1 Spec.byType
  cases fmtOf x <;> rfl

theorem arith2_eq_byType (ff : Rnd → Val → Val → Res) (fi : Int → Int → Int) (a b : Nat) :
    arith2 x m ff fi a b = Spec.byType x m (fun v => ff m (v a) (v b)) fun n => fi (n a) (n b) := by
  unfold arith2 Spec.byType
  cases fmtOf x <;> rfl

theorem arith3_eq_byType (ff : Rnd → Val → Val → Val → Res) (a b c : Nat) :
    arith3 x m ff a b c = Spec.byType x m (fun v => ff m (v a) (v b) (v c)) fun _ => 0 := by
  unfold arith3 Spec.byType
  cases fmtOf x with
  | some f => rfl
  | none => simp [Spec.wrapTo]

theorem abs_eq_natAbs (n : Int) : (if n < 0 then -n else n) = n.natAbs := by
  split <;> omega

theorem arith1_abs (a : Nat) : arith1 x m (fun _ v => (v.abs, 0)) (fun n => if n < 0 then -n else n) a =
    Spec.byType x m (fun v => ((v a).abs, 0)) fun n => (n a).natAbs := by
  simp only [arith1_eq_byType, abs_eq_natAbs]

theorem laneCmp_eq (orEq : Bool) (a b : Nat) : laneCmp orEq x a b =
    if (tyValue x a).isNan || (tyValue x b).isNan then (0, flagNV)
    else (Spec.mask x ((tyValue x a).lt (tyValue x b) || (orEq && (tyValue x a).eq (tyValue x b))), 0) := by
  unfold laneCmp Val.cmp
  split <;> rfl

/-- An integer that a lane holds without wrapping, and one that wraps once. -/
theorem wrapTo_natCast {w n : Nat} (hn : n < 2 ^ w) : Spec.wrapTo w n = n := by
  rw [Spec.wrapTo, Int.emod_eq_of_lt (Int.natCast_nonneg n) (Int.ofNat_lt.2 hn), Int.toNat_natCast]

theorem wrapTo_sub {w m n : Nat} (hmn : m < n) (hn : n ≤ 2 ^ w) : Spec.wrapTo w ((m : Int) - n) = m + (2 ^ w - n) := by
  rw [Spec.wrapTo, ← Int.add_emod_right]
  generalize 2 ^ w = t at hn
  rw [Int.emod_eq_of_lt (by omega) (by omega)]
  omega

/-- The bits that come in on the left of a shifted lane are those of the quotient of its signed value. -/
theorem laneSar_eq {a : Nat} (b : Nat) (ha : a < 2 ^ tyWidth x) : laneSar x a b = Spec.wrapTo (tyWidth x)
    ((if 2 ^ (tyWidth x - 1) ≤ a then (a : Int) - (2 ^ tyWidth x : Nat) else a) / 2 ^ (b % tyWidth x)) := by
  have hw := tyWidth_pos x
  have hk : b % tyWidth x < tyWidth x := Nat.mod_lt _ hw
  simp only [laneSar]
  generalize b % tyWidth x = k at hk
  generalize tyWidth x = w at ha hw hk
  have hhalf : 2 ^ w = 2 ^ (w - 1) * 2 := by rw [← Nat.pow_succ, Nat.succ_eq_add_one, Nat.sub_add_cancel hw]
  have hsplit : 2 ^ w = 2 ^ (w - k) * 2 ^ k := by rw [← Nat.pow_add, Nat.sub_add_cancel hk.le]
  by_cases htop : 2 ^ (w - 1) ≤ a
  · have hbit : a / 2 ^ (w - 1) % 2 = 1 := by rw [Nat.div_eq_of_lt_le (k := 1) (by omega) (by omega)]
    have hdiv : ((a : Int) - (2 ^ w : Nat)) / 2 ^ k = (a / 2 ^ k : Nat) - (2 ^ (w - k) : Nat) := by
      rw [hsplit, Nat.cast_mul, Nat.cast_pow 2 k, Nat.cast_ofNat, Int.sub_mul_ediv_right _ _ (by positivity)]
      norm_cast
    have hquot : a / 2 ^ k < 2 ^ (w - k) := (Nat.div_lt_iff_lt_mul (Nat.two_pow_pos k)).2 (hsplit ▸ ha)
    rw [if_pos htop, if_pos hbit, hdiv, wrapTo_sub hquot (Nat.pow_le_pow_right (by decide) (Nat.sub_le w k))]
  · have hbit : a / 2 ^ (w - 1) = 0 := Nat.div_eq_of_lt (by omega)
    have hdiv : (a : Int) / 2 ^ k = (a / 2 ^ k : Nat) := by norm_cast
    rw [if_neg htop, hbit, if_neg (by decide), hdiv, wrapTo_natCast (Nat.lt_of_le_of_lt (Nat.div_le_self _ _) ha)]
    rfl

end Functions

/-! ## Lane-wise instructions -/

section Lanes

variable {i : Instr} {x : ElemType} {s : State} {e : Env}

theorem exec_lanes1 {f : Nat → Nat × Flags} (hf : Spec.lanes1 (rndOf e.r.frnd) i = some (x, f)) (h : Fires i s e) :
    SendsLanes i s e x fun k => f (Spec.lane (tyWidth x) e.va k) := by
  cases i with
  | vabs => exact fire_lanes1 h hf rfl rfl fun _ => .of_eq (arith1_abs _ _ _)
  | vneg | vrnd => exact fire_lanes1 h hf rfl rfl fun _ => .of_eq (arith1_eq_byType _ _ _ _ _)
  | vsqrt | vexp2 | vlog2 | vrcp | vrsq | vtanh => exact fire_lanes1 h hf rfl rfl fun _ => .of_eq rfl
  | vpopc | vclz => exact fire_lanes1 h hf rfl (vector_map _ _) fun _ => .of_eq rfl
  | _ => cases hf

theorem exec_lanes2 {f : Nat → Nat → Nat × Flags} (hf : Spec.lanes2 (rndOf e.r.frnd) i = some (x, f)) (h : Fires i s e) :
    SendsLanes i s e x fun k => f (Spec.lane (tyWidth x) e.va k) (Spec.lane (tyWidth x) e.vb k) := by
  cases i with
  | vadd | vsub | vmul | vdiv => exact fire_lanes2 h hf rfl rfl fun _ _ _ => .of_eq (arith2_eq_byType _ _ _ _ _ _)
  | vmin | vmax | vadds | vsubs | vmulh | vand | vor | vxor | vshr =>
    exact fire_lanes2 h hf rfl (vector_zipWith _ _ _) fun _ _ _ => .of_eq rfl
  | vshl => exact fire_lanes2 h hf rfl (vector_zipWith _ _ _) fun _ _ _ => ⟨Nat.mod_mod _ _, rfl⟩
  | vsar =>
    exact fire_lanes2 h hf rfl (vector_zipWith _ _ _) fun _ b ha => .of_eq (congrArg (Prod.mk · 0) (laneSar_eq _ b ha))
  | vceq | vldexp => exact fire_lanes2 h hf rfl rfl fun _ _ _ => .of_eq rfl
  | vclt =>
    exact fire_lanes2 h hf rfl rfl fun _ _ _ => .of_eq ((laneCmp_eq _ _ _ _).trans (by simp only [Bool.false_and, Bool.or_false]))
  | vcle => exact fire_lanes2 h hf rfl rfl fun _ _ _ => .of_eq (laneCmp_eq _ _ _ _)
  | _ => cases hf

theorem exec_lanes3 {f : Nat → Nat → Nat → Nat × Flags} (hf : Spec.lanes3 (rndOf e.r.frnd) i = some (x, f)) (h : Fires i s e) :
    SendsLanes i s e x fun k =>
      f (Spec.lane (tyWidth x) e.va k) (Spec.lane (tyWidth x) e.vb k) (Spec.lane (tyWidth x) e.vc k) := by
  cases i with
  | vfma | vfms => exact fire_lanes3 h hf rfl rfl fun _ _ _ => .of_eq (arith3_eq_byType _ _ _ _ _ _)
  | vsel | vclamp => exact fire_lanes3 h hf rfl rfl fun _ _ _ => .of_eq rfl
  | _ => cases hf

end Lanes

/-- Settles O17: each lane-wise instruction fills lane k with a function of the lanes k of its operands. -/
theorem vectorLanes : Obligations.VectorLanes :=
  ⟨fun _ _ _ _ _ => exec_lanes1, fun _ _ _ _ _ => exec_lanes2, fun _ _ _ _ _ hf _ => exec_lanes3 hf⟩

/-! ## Permutes (07 R143, R150) -/

theorem laneAt_replicate (c : Nat) {n k : Nat} (hk : k < n) : laneAt (List.replicate n c) k = c := by
  simp [laneAt, hk]

theorem laneAt_append (l m : List Nat) (k : Nat) :
    laneAt (l ++ m) k = if k < l.length then laneAt l k else laneAt m (k - l.length) := by
  simp only [laneAt, List.getElem?_append]
  split <;> rfl

theorem laneAt_take (l : List Nat) {n k : Nat} (hk : k < n) : laneAt (l.take n) k = laneAt l k := by
  simp [laneAt, hk]

theorem laneAt_drop (l : List Nat) (n k : Nat) : laneAt (l.drop n) k = laneAt l (n + k) := by
  simp [laneAt]

theorem laneAt_interleave {l m : List Nat} (hlen : l.length = m.length) (k : Nat) :
    laneAt (interleave l m) k = if k % 2 = 0 then laneAt l (k / 2) else laneAt m (k / 2) := by
  induction l generalizing m k with
  | nil =>
    cases m with
    | nil => simp [interleave, laneAt]
    | cons b m => cases hlen
  | cons a l ih =>
    cases m with
    | nil => cases hlen
    | cons b m =>
      match k with
      | 0 => rfl
      | 1 => rfl
      | k + 2 =>
        rw [Nat.add_mod_right, Nat.add_div_right k (by decide)]
        exact ih (Nat.succ.inj hlen) k

theorem laneAt_evens : ∀ (l : List Nat) (k : Nat), laneAt (evens l) k = laneAt l (2 * k)
  | [], _ => rfl
  | [_], 0 => rfl
  | [_], _ + 1 => rfl
  | _ :: _ :: _, 0 => rfl
  | _ :: _ :: rest, k + 1 => laneAt_evens rest k

theorem laneAt_odds : ∀ (l : List Nat) (k : Nat), laneAt (odds l) k = laneAt l (2 * k + 1)
  | [], _ => rfl
  | [_], _ => rfl
  | _ :: _ :: _, 0 => rfl
  | _ :: _ :: rest, k + 1 => laneAt_odds rest k

/-- The types of the set ALL have a lane beside each lane. -/
theorem tyLanes_even {x : ElemType} (hx : x.isAll = true) : tyLanes x % 2 = 0 := by
  cases x with
  | f6 => cases hx
  | _ => rfl

/-- The instruction answers a vector of the lanes f k to T0 and one of the lanes g k to T1. -/
def SendsMoved (i : Instr) (s : State) (e : Env) (x : ElemType) (f g : Nat → Nat) : Prop :=
  ∃ r q, exec i s = .next (after i e { out0 := some (.vector r), out1 := some (.vector q), pois := e.pois }) ∧
    ∀ k, k < tyLanes x → Spec.lane (tyWidth x) r k = f k ∧ Spec.lane (tyWidth x) q k = g k

section Moves

variable {i : Instr} {x : ElemType} {s : State} {e : Env}

theorem fire_moved {act : Env → Reply} {l m : List Nat} {f g : Nat → Nat} (h : Fires i s e) (hx : exec i s = fire i act s)
    (ha : act e = .done { out0 := some (.vector (ofLanes x l)), out1 := some (.vector (ofLanes x m)), pois := e.pois })
    (hl : ∀ k, k < tyLanes x → laneAt l k % 2 ^ tyWidth x = f k) (hm : ∀ k, k < tyLanes x → laneAt m k % 2 ^ tyWidth x = g k) :
    SendsMoved i s e x f g :=
  ⟨_, _, hx.trans (fire_done h ha rfl), fun k hk => ⟨(lane_ofLanes l hk).trans (hl k hk), (lane_ofLanes m hk).trans (hm k hk)⟩⟩

/-- An instruction that sends the same vector to both targets. -/
theorem fire_moved_both {act : Env → Reply} {l : List Nat} {f : Nat → Nat} (h : Fires i s e) (hx : exec i s = fire i act s)
    (ha : act e = e.vector (ofLanes x l)) (hl : ∀ k, k < tyLanes x → laneAt l k % 2 ^ tyWidth x = f k) :
    SendsMoved i s e x f f :=
  fire_moved h hx ha hl hl

theorem laneAt_vins (e : Env) (k : Nat) (hk : k < tyLanes x) :
    laneAt (e.b.toNat :: (lanesOf x e.va).dropLast) k % 2 ^ tyWidth x =
      if k = 0 then e.b.toNat % 2 ^ tyWidth x else Spec.lane (tyWidth x) e.va (k - 1) := by
  cases k with
  | zero => rfl
  | succ k =>
    have hshift : laneAt (e.b.toNat :: (lanesOf x e.va).dropLast) (k + 1) = laneAt (lanesOf x e.va) k := by
      simp only [laneAt, List.getElem?_cons_succ, List.getElem?_dropLast, length_lanesOf]
      rw [if_pos (by omega)]
    rw [hshift, laneAt_lanesOf _ (by omega), lane_mod]
    rfl

theorem laneAt_permute (v : BitVec 2048) {f : Nat → Nat} {k : Nat} (hk : k < tyLanes x) (hf : f k < tyLanes x) :
    laneAt ((List.range (tyLanes x)).map fun j => laneAt (lanesOf x v) (f j)) k % 2 ^ tyWidth x = Spec.lane (tyWidth x) v (f k) := by
  rw [laneAt_range_map _ hk, laneAt_lanesOf _ hf, lane_mod]

/-- A half of VZIP, the halves of its operands given by what they hold. -/
theorem laneAt_zip {v u : BitVec 2048} {l m : List Nat} {o k : Nat} (hlen : l.length = m.length) (hk : o + k / 2 < tyLanes x)
    (hl : laneAt l (k / 2) = laneAt (lanesOf x v) (o + k / 2)) (hm : laneAt m (k / 2) = laneAt (lanesOf x u) (o + k / 2)) :
    laneAt (interleave l m) k % 2 ^ tyWidth x =
      if k % 2 = 0 then Spec.lane (tyWidth x) v (o + k / 2) else Spec.lane (tyWidth x) u (o + k / 2) := by
  rw [laneAt_interleave hlen, hl, hm, laneAt_lanesOf _ hk, laneAt_lanesOf _ hk]
  split <;> exact lane_mod _ _ _

theorem laneAt_two_vectors (v u : BitVec 2048) {k : Nat} (hk : k < 2 * tyLanes x) :
    laneAt (lanesOf x v ++ lanesOf x u) k % 2 ^ tyWidth x =
      if k < tyLanes x then Spec.lane (tyWidth x) v k else Spec.lane (tyWidth x) u (k - tyLanes x) := by
  rw [laneAt_append, length_lanesOf]
  split
  next hlt => rw [laneAt_lanesOf _ hlt, lane_mod]
  next hge => rw [laneAt_lanesOf _ (by omega), lane_mod]

theorem exec_moved {f g : Nat → Nat} (hf : Spec.moved e i = some (x, f, g)) (hwf : i.wf = true) (h : Fires i s e) :
    SendsMoved i s e x f g := by
  cases i with
  | vbcast => cases hf; exact fire_moved_both h rfl rfl fun k hk => by rw [laneAt_replicate _ hk]
  | viota => cases hf; exact fire_moved_both h rfl rfl fun k hk => by rw [laneAt_range_map _ hk]
  | vins => cases hf; exact fire_moved_both h rfl rfl (laneAt_vins e)
  | vshuf =>
    cases hf
    exact fire_moved_both h rfl rfl fun k hk => by rw [laneAt_permute _ hk (Nat.mod_lt _ (tyLanes_pos x)), laneAt_lanesOf _ hk]
  | vrot => cases hf; exact fire_moved_both h rfl rfl fun k hk => laneAt_permute _ hk (Nat.mod_lt _ (tyLanes_pos x))
  | vzip =>
    cases hf
    have heven := tyLanes_even hwf
    refine fire_moved h rfl rfl (fun k hk => ?_) fun k hk => ?_
    · rw [laneAt_zip (o := 0) (v := e.va) (u := e.vb) (by simp) (by omega)]
      · simp
      · rw [laneAt_take _ (by omega), Nat.zero_add]
      · rw [laneAt_take _ (by omega), Nat.zero_add]
    · exact laneAt_zip (by simp) (by omega) (laneAt_drop _ _ _) (laneAt_drop _ _ _)
  | vunzip =>
    cases hf
    refine fire_moved h rfl rfl (fun k hk => ?_) fun k hk => ?_
    · rw [laneAt_evens, laneAt_two_vectors _ _ (by omega)]
    · rw [laneAt_odds, laneAt_two_vectors _ _ (by omega)]
  | _ => cases hf

/-! ## Conversions (07 R141) -/

/-- Only the lanes that both vectors have are computed. -/
theorem convertVec_eq (d src : ElemType) (fmode imode : Rnd) (v : BitVec 2048) :
    convertVec d src fmode imode v = gather d ((List.range (min (tyLanes src) (tyLanes d))).map fun k =>
      convert d src fmode imode (Spec.lane (tyWidth src) v k)) := by
  rw [convertVec, lanesOf_eq_map, ← List.map_take, List.take_range, List.map_map, min_eq_left (min_le_left _ _)]
  rfl

/-- The instruction answers the vector whose lanes are those of its operand under f, as far as both types have them, and zero
beyond, with the flags of the lanes computed. -/
def SendsConverted (i : Instr) (s : State) (e : Env) (d src : ElemType) (f : Nat → Nat × Flags) : Prop :=
  ∃ r, exec i s = .next (after i e (givesF e (.vector r)
    (Spec.orOf (min (tyLanes src) (tyLanes d)) fun k => (f (Spec.lane (tyWidth src) e.va k)).2))) ∧
    ∀ k, k < tyLanes d → Spec.lane (tyWidth d) r k =
      if k < tyLanes src then (f (Spec.lane (tyWidth src) e.va k)).1 % 2 ^ tyWidth d else 0

theorem fire_convert {act : Env → Reply} {d src : ElemType} {fmode imode : Rnd} (h : Fires i s e) (hx : exec i s = fire i act s)
    (ha : act e = e.vectorF (convertVec d src fmode imode e.va)) : SendsConverted i s e d src (convert d src fmode imode) := by
  rw [convertVec_eq, gather_range] at ha
  refine ⟨_, hx.trans (fire_done h ha rfl), fun k hk => ?_⟩
  rw [lane_ofLanes _ hk]
  split
  next hsrc => rw [laneAt_range_map _ (lt_min hsrc hk)]
  next hsrc =>
    rw [laneAt_of_length_le, Nat.zero_mod]
    rw [List.length_map, List.length_range]
    exact (min_le_left _ _).trans (not_lt.1 hsrc)

theorem exec_converts {d src : ElemType} {f : Nat → Nat × Flags} (hf : Spec.converts e i = some (d, src, f)) (h : Fires i s e) :
    SendsConverted i s e d src f := by
  cases i with
  | vcvtf | vcvtt => cases hf; exact fire_convert h rfl rfl
  | _ => cases hf

end Moves

/-- Settles O18: each list of lanes that a permute builds is read place by place; a conversion fills the lanes both types have. -/
theorem vectorMoves : Obligations.VectorMoves :=
  ⟨fun _ _ _ _ _ _ => exec_moved, fun _ _ _ _ _ _ hf _ => exec_converts hf⟩

/-! ## Reductions and packings (07 R142-R146; 06 R134) -/

section Scalars

variable {i : Instr} {s : State} {e : Env}

/-- The set lanes of a mask are counted by their places. -/
theorem length_filter_lanesOf (p : Nat → Bool) (x : ElemType) (v : BitVec 2048) :
    ((lanesOf x v).filter p).length = ((List.range (tyLanes x)).filter fun k => p (Spec.lane (tyWidth x) v k)).length := by
  rw [lanesOf_eq_map, List.filter_map, List.length_map]
  rfl

theorem fire_scalarF {act : Env → Reply} {y r : BitVec 64 × Flags} (h : Fires i s e) (hr : some y = some r)
    (ha : act e = e.scalarF y) : fire i act s = .next (after i e (givesF e (.scalar r.1) r.2)) := by
  cases hr
  exact fire_done h ha rfl

theorem fire_vectorF {act : Env → Reply} {y r : BitVec 2048 × Flags} (h : Fires i s e) (hr : some y = some r)
    (ha : act e = e.vectorF y) : fire i act s = .next (after i e (givesF e (.vector r.1) r.2)) := by
  cases hr
  exact fire_done h ha rfl

theorem exec_reduction {r : BitVec 64 × Flags} (hr : Spec.reduction e i = some r) (h : Fires i s e) :
    exec i s = .next (after i e (givesF e (.scalar r.1) r.2)) := by
  cases i with
  | vext p x =>
    exact fire_scalarF h hr (congrArg (fun c => e.scalar (tyPlace x c)) (laneAt_lanesOf _ (Nat.mod_lt _ (tyLanes_pos x))))
  | vmaskpop p x =>
    exact fire_scalarF h hr (congrArg (fun n => e.scalar (BitVec.ofNat 64 n)) (length_filter_lanesOf (· != 0) x e.va))
  | vredsum | vredmax | vredmin | vredand | vredor | vargmax | vdotf | chkl => exact fire_scalarF h hr rfl
  | _ => cases hr

theorem exec_packing {r : BitVec 2048 × Flags} (hr : Spec.packing e i = some r) (h : Fires i s e) :
    exec i s = .next (after i e (givesF e (.vector r.1) r.2)) := by
  cases i with
  | vpack4 | vunpk4 | vpack6 | vunpk6 | vscan => exact fire_vectorF h hr rfl
  | _ => cases hr

end Scalars

/-- Settles O19: each reduction sends its scalar, each packing its vector; VEXT and VMASKPOP read their lanes by place. -/
theorem vectorScalars : Obligations.VectorScalars :=
  ⟨fun _ _ _ _ => exec_reduction, fun _ _ _ _ => exec_packing⟩

/-! ## Sampling (07 R147-R152; 06 R134) -/

/-- The next n uniforms of the task's stream, from the place of the focused slot on. -/
def uniformsAt (e : Env) (n : Nat) : List Nat :=
  (List.range n).map fun k => (uniformKeyed e.r.rngkey e.r.tag e.r.idx (e.uniformBase + BitVec.ofNat 64 k)).toNat

@[simp] theorem length_uniformsAt (e : Env) (n : Nat) : (uniformsAt e n).length = n := by simp [uniformsAt]

theorem getElem?_uniformsAt (e : Env) {n k : Nat} (hk : k < n) : (uniformsAt e n)[k]? =
    some (uniformKeyed e.r.rngkey e.r.tag e.r.idx (e.uniformBase + BitVec.ofNat 64 k)).toNat := by
  simp [uniformsAt, hk]

theorem withUniforms_keyed {e : Env} (hr : e.r.rngmode = false) (n : Nat) (f : Draws → Reply) :
    e.withUniforms n f = f { us := uniformsAt e n } := by
  rw [Env.withUniforms, hr]
  rfl

/-- Uniforms of the generator carry no poison and read no line. -/
theorem drawn_keyed (e : Env) (us : List Nat) (v : TokVal) (fl : Flags) : e.drawn { us := us } v fl = .done (givesF e v fl) := by
  simp only [Env.drawn, Bool.or_false]
  rfl

section Sampling

variable {i : Instr} {s : State} {e : Env}

theorem fire_sampling {act : Env → Reply} {n m : Nat} {d : Draws → Reply} {f g : List Nat → TokVal × Flags} (h : Fires i s e)
    (hf : some (m, g) = some (n, f)) (hr : e.r.rngmode = false) (ha : act e = e.withUniforms m d)
    (hd : d { us := uniformsAt e m } = e.drawn { us := uniformsAt e m } (g (uniformsAt e m)).1 (g (uniformsAt e m)).2) :
    fire i act s = .next (after i e (givesF e (f (uniformsAt e n)).1 (f (uniformsAt e n)).2)) := by
  cases hf
  rw [withUniforms_keyed hr, hd, drawn_keyed] at ha
  exact fire_done h ha rfl

/-- Two uniforms as one scalar. -/
theorem joinLanes_uniforms (e : Env) : joinLanes 32 (uniformsAt e 2) =
    (uniformsAt e 2).headD 0 % 2 ^ 32 + 2 ^ 32 * ((uniformsAt e 2).tail.headD 0 % 2 ^ 32) := rfl

theorem exec_sampling {n : Nat} {f : List Nat → TokVal × Flags} (hf : Spec.sampling e i = some (n, f))
    (hr : e.r.rngmode = false) (h : Fires i s e) :
    exec i s = .next (after i e (givesF e (f (uniformsAt e n)).1 (f (uniformsAt e n)).2)) := by
  cases i with
  | vrand | vdraw | vdrawm => exact fire_sampling h hf hr rfl rfl
  | rand => exact fire_sampling h hf hr rfl (by rw [joinLanes_uniforms])
  | _ => cases hf

end Sampling

/-- Settles O20: with RNGMODE 0 the uniforms are those of the generator from the place of the slot on. -/
theorem sampling : Obligations.Sampling :=
  fun _ n _ _ e hf hr h => ⟨uniformsAt e n, exec_sampling hf hr h, length_uniformsAt e n, fun _ => getElem?_uniformsAt e⟩

end Sys2Proof.Vector
end

section
/-! The family 08_matrix, instructions: O29. An operation is asked for in one way whatever it is; ACCRD and MSYNC look at the jobs of
their tile and either wait or answer. -/

namespace Sys2Proof.MatrixUnit

open Machine Laws

section Fires

variable {i : Instr} {s : State} {e : Env}

theorem fire_wait {act : Env → Reply} (h : Fires i s e) (ha : act e = .wait) : fire i act s = .next (Spec.awaits e) :=
  fire_reply h ha (fun _ => nofun)

/-- An instruction of the unit asks for its operation at belay, whatever the operation is. -/
theorem fire_matrix {act : Env → Reply} {lsid l : BitVec 7} {x op : MatOp} {c' c : Bool} (h : Fires i s e)
    (hm : some (lsid, x, c') = some (l, op, c)) (ha : act e = Env.matrix lsid x c') :
    fire i act s = .next (after i e { effects := [.matrix l.toNat op], ctl := c }) := by
  cases hm
  exact fire_done h ha rfl

theorem exec_matrix {l : BitVec 7} {op : MatOp} {c : Bool} (hm : Spec.matrix e i = some (l, op, c)) (h : Fires i s e) :
    exec i s = .next (after i e { effects := [.matrix l.toNat op], ctl := c }) := by
  cases i with
  | bload | bswap | bclr | mma | mmat | mmaa | accz | accwr | accst | accstat | accscl => exact fire_matrix h hm rfl
  | _ => cases hm

theorem env_tile (h : Fires i s e) : e.s.tile e.t = s.tile e.t := by rw [(env_state h.1).1]

end Fires

/-- The row that a row word names (08 R176). -/
theorem rwRow_eq (w : BitVec 64) : rwRow w = w.toNat % 128 := congrArg (· % 128) (Nat.div_one _)

/-- Half a row as a quotient of the row. -/
theorem half_eq (x : BitVec 4096) (b : Bool) :
    x.extractLsb' (if b then 2048 else 0) 2048 = BitVec.ofNat 2048 (x.toNat / 2 ^ (if b then 2048 else 0)) := by
  rw [BitVec.extractLsb', Nat.shiftRight_eq_div_pow]

theorem any_accs_iff (l : List MatJob) (a : Nat) :
    (l.any fun j => j.op.accs.contains a) = true ↔ ∃ j ∈ l, a ∈ j.op.accs := by
  simp

theorem exec_accrd_busy {p : Pr} {l : BitVec 7} {a : BitVec 2} {t : Target} {s : State} {e : Env} (h : Fires (.accrd p l a t) s e)
    (hj : ∃ j ∈ (s.tile e.t).jobs, a.toNat ∈ j.op.accs) : exec (.accrd p l a t) s = .next (Spec.awaits e) := by
  rw [← env_tile h, ← any_accs_iff] at hj
  exact fire_wait h (if_pos hj)

theorem exec_accrd_idle {p : Pr} {l : BitVec 7} {a : BitVec 2} {t : Target} {s : State} {e : Env} {row : AccRow}
    (h : Fires (.accrd p l a t) s e) (hj : ∀ j ∈ (s.tile e.t).jobs, a.toNat ∉ j.op.accs)
    (hrow : row = (s.tile e.t).accRow a.toNat (e.a.toNat % 128)) :
    exec (.accrd p l a t) s = .next (after (.accrd p l a t) e
      { out0 := some (.vector (BitVec.ofNat 2048 (row.bits.toNat / 2 ^ (if e.a.getLsbD 7 then 2048 else 0))))
        pois := e.pois || row.pois, effects := [.rowWord e.a], ctl := e.left.pois }) := by
  rw [← env_tile h] at hj hrow
  have hidle : ¬ ((e.s.tile e.t).jobs.any fun j => j.op.accs.contains a.toNat) = true := by
    rw [any_accs_iff]
    exact fun ⟨j, hmem, hacc⟩ => hj j hmem hacc
  rw [hrow, ← rwRow_eq, ← half_eq]
  exact fire_done h (if_neg hidle) rfl

theorem exec_msync_busy {p : Pr} {l : BitVec 7} {t : Target} {s : State} {e : Env} (h : Fires (.msync p l t) s e)
    (hj : (s.tile e.t).jobs ≠ []) : exec (.msync p l t) s = .next (Spec.awaits e) := by
  rw [← env_tile h, ← List.isEmpty_eq_false_iff] at hj
  exact fire_wait h (by simp only [hj, Bool.false_eq_true, if_false])

theorem exec_msync_idle {p : Pr} {l : BitVec 7} {t : Target} {s : State} {e : Env} (h : Fires (.msync p l t) s e)
    (hj : (s.tile e.t).jobs = []) :
    exec (.msync p l t) s = .next (after (.msync p l t) e { out0 := some (.scalar (s.tile e.t).summary) }) := by
  rw [← env_tile h] at hj ⊢
  exact fire_done h (if_pos (List.isEmpty_iff.2 hj)) rfl

/-- Settles O29: every operation is asked for at belay; ACCRD and MSYNC wait while a job stands in their way, and answer else. -/
theorem matrixInstructions : Obligations.MatrixInstructions :=
  ⟨fun _ _ _ _ _ _ => exec_matrix,
   fun _ _ _ _ _ _ h => ⟨exec_accrd_busy h, fun hj => ⟨_, rfl, exec_accrd_idle h hj rfl⟩⟩,
   fun _ _ _ _ _ h => ⟨exec_msync_busy h, exec_msync_idle h⟩⟩

end Sys2Proof.MatrixUnit
end

section
/-! The family 08_matrix, the state of the unit: what is read back from arrays, accumulator rows and lines after a change of them, and
what a job's reading of the scratchpad and its leaving of the unit change. -/

namespace Sys2Proof.MatrixUnit

open Machine Laws

/-! ## Arrays and accumulator rows (08 R154, R155) -/

theorem array_setArray (v : Tile) (w : WArray) (a : Nat) {b : Nat} (hb : b < 4) :
    (v.setArray a w).array b = if b = a then w else v.array b := by
  simp [Tile.setArray, Tile.array, hb]

theorem accRow_setAccRow (v : Tile) (x : AccRow) (a b : Nat) {c d : Nat} (hc : c < 128) (hd : d < 128) :
    (v.setAccRow a c x).accRow b d = if b = a ∧ d = c then x else v.accRow b d := by
  have hkey : 128 * b + d = 128 * a + c ↔ b = a ∧ d = c := by omega
  rw [Tile.accRow, Tile.setAccRow, kvGet_kvPut]
  simp only [hkey]
  rfl

/-- Keys taken out of a list by a test of the key read as the default. -/
theorem kvGet_filter_key {α : Type} (d : α) (p : Nat → Bool) (l : List (Nat × α)) (k : Nat) :
    kvGet d (l.filter fun x => p x.1) k = if p k then kvGet d l k else d := by
  induction l with
  | nil => simp [kvGet]
  | cons x rest ih =>
    obtain ⟨i, v⟩ := x
    by_cases hp : p i = true
    · by_cases hi : i = k
      · simp [kvGet, hi ▸ hp, hi]
      · simp [kvGet, hp, hi, ih]
    · by_cases hi : i = k
      · simp [hp, ih, hi ▸ hp]
      · simp [kvGet, hp, hi, ih]

theorem accRow_clearAcc (v : Tile) (a b : Nat) {c : Nat} (hc : c < 128) :
    (v.clearAcc a).accRow b c = if b = a then {} else v.accRow b c := by
  have hkey : (128 * b + c) / 128 = b := by omega
  rw [Tile.accRow, Tile.clearAcc, kvGet_filter_key _ (fun i => i / 128 != a), hkey]
  by_cases hb : b = a <;> simp [hb, Tile.accRow]

/-! ## Words of an accumulator row (08 R155) -/

/-- A row joined from words holds each at its place. -/
theorem accWord_joinLanes (l : List Nat) (p : Bool) {k : Nat} (hk : k < 128) :
    Spec.accWord { bits := BitVec.ofNat 4096 (joinLanes 32 l), pois := p } k = laneAt l k % 2 ^ 32 := by
  rw [Spec.accWord, Vector.toNat_ofNat_field _ (by omega), Vector.joinLanes_lane]

/-- A row as the list of its words. -/
theorem splitLanes_accRow (x : AccRow) : splitLanes 32 128 x.bits.toNat = (List.range 128).map (Spec.accWord x) := rfl

theorem accWord_eq_extract (x : AccRow) (k : Nat) : Spec.accWord x k = (x.bits.extractLsb' (32 * k) 32).toNat := by
  rw [BitVec.extractLsb'_toNat, Nat.shiftRight_eq_div_pow, Spec.accWord]

/-- The half that ACCWR names takes the words of its vector, the other half keeps its own (08 R176). -/
theorem accWord_writeHalf (x : AccRow) (half : Bool) (d : BitVec 2048) (p : Bool) {i : Nat} (hi : i < 128) :
    Spec.accWord (writeHalf x half d p) i =
      if (64 ≤ i) = (half = true) then d.toNat / 2 ^ (32 * (i % 64)) % 2 ^ 32 else Spec.accWord x i := by
  have hdata : d.toNat / 2 ^ (32 * (i % 64)) % 2 ^ 32 = (d.extractLsb' (32 * (i % 64)) 32).toNat := by
    rw [BitVec.extractLsb'_toNat, Nat.shiftRight_eq_div_pow]
  rw [accWord_eq_extract, accWord_eq_extract, hdata]
  by_cases hhigh : 64 ≤ i
  · have hplace : 32 * i - 2048 = 32 * (i % 64) := by omega
    cases half with
    | true =>
      rw [if_pos (by simp [hhigh])]
      exact congrArg BitVec.toNat ((field_high d (x.bits.extractLsb' 0 2048) _ _ (by omega)).trans (by rw [hplace]))
    | false =>
      rw [if_neg (by simp [hhigh])]
      refine congrArg BitVec.toNat ((field_high (x.bits.extractLsb' 2048 2048) d _ _ (by omega)).trans ?_)
      ext b hb
      simp only [BitVec.getElem_extractLsb', BitVec.getLsbD_extractLsb', show 32 * i - 2048 + b < 2048 by omega, decide_true,
        Bool.true_and, show 2048 + (32 * i - 2048 + b) = 32 * i + b by omega]
  · have hplace : i % 64 = i := by omega
    cases half with
    | true =>
      rw [if_neg (by simp [hhigh])]
      refine congrArg BitVec.toNat ((field_low d (x.bits.extractLsb' 0 2048) _ _ (by omega)).trans ?_)
      rw [BitVec.extractLsb'_extractLsb'_of_le (by omega)]
    | false =>
      rw [if_pos (by simp [hhigh]), hplace]
      exact congrArg BitVec.toNat (field_low (x.bits.extractLsb' 2048 2048) d _ _ (by omega))

/-! ## Lists over places -/

/-- A list over the places, numbered. -/
theorem zipIdx_range_map {α : Type} (f : Nat → α) (n : Nat) :
    ((List.range n).map f).zipIdx = (List.range n).map fun k => (f k, k) := by
  apply List.ext_getElem?
  intro k
  by_cases hk : k < n
  · simp [hk]
  · simp [hk]

/-! ## Lines of the scratchpad (09 R184, R189) -/

/-- A value that is not the default is listed, whatever the list. -/
theorem line_setLine_of_ne {s : State} {k : Nat} {m : LineMeta} (hm : m ≠ {}) (j : Nat) :
    (s.setLine k m).line j = if j = k then m else s.line j := by
  rw [State.line, State.setLine, kvSet, if_neg hm, kvGet_kvPut]
  rfl

/-- A state that differs from s at most in which lines the task has read. -/
structure OnlyRead (s u : State) : Prop where
  rest : u = { s with lines := u.lines }
  line : ∀ k, ∃ b, u.line k = { s.line k with rd := b }
  wf : kvWf {} s.lines = true → kvWf {} u.lines = true

theorem OnlyRead.refl (s : State) : OnlyRead s s := ⟨rfl, fun _ => ⟨_, rfl⟩, id⟩

theorem OnlyRead.trans {s u v : State} (h : OnlyRead s u) (g : OnlyRead u v) : OnlyRead s v where
  rest := by rw [g.rest, h.rest]
  line k := by
    obtain ⟨b, hb⟩ := h.line k
    obtain ⟨c, hc⟩ := g.line k
    exact ⟨c, by rw [hc, hb]⟩
  wf := g.wf ∘ h.wf

theorem onlyRead_touch (s : State) (k : Nat) : OnlyRead s (s.modLine k fun m => { m with rd := true }) where
  rest := rfl
  line j := by
    rw [State.modLine, line_setLine_of_ne (by intro h; cases congrArg LineMeta.rd h)]
    by_cases hj : j = k
    · exact ⟨true, by rw [if_pos hj, hj]⟩
    · exact ⟨_, by rw [if_neg hj]⟩
  wf := setLine_lines_wf _ _

theorem onlyRead_touchPad (s : State) (l : List Nat) : OnlyRead s (s.touchPad l) := by
  induction l generalizing s with
  | nil => exact .refl s
  | cons k rest ih =>
    rw [State.touchPad]
    split
    · exact (onlyRead_touch s k).trans (ih _)
    · exact ih s

section OnlyRead

variable {s u : State} (h : OnlyRead s u)
include h

theorem OnlyRead.mem : u.mem = s.mem := by rw [h.rest]
theorem OnlyRead.tiles : u.tiles = s.tiles := by rw [h.rest]
theorem OnlyRead.ctxs : u.ctxs = s.ctxs := by rw [h.rest]
theorem OnlyRead.insts : u.insts = s.insts := by rw [h.rest]
theorem OnlyRead.fab : u.fab = s.fab := by rw [h.rest]

theorem OnlyRead.tile (t : Nat) : u.tile t = s.tile t := congrArg (fun l => kvGet ({} : Tile) l t) h.tiles

theorem OnlyRead.full (k : Nat) : (u.line k).full = (s.line k).full := by
  obtain ⟨b, hb⟩ := h.line k
  rw [hb]

theorem OnlyRead.pois (k : Nat) : (u.line k).pois = (s.line k).pois := by
  obtain ⟨b, hb⟩ := h.line k
  rw [hb]

theorem OnlyRead.chkBad (k : Nat) : (u.line k).chkBad = (s.line k).chkBad := by
  obtain ⟨b, hb⟩ := h.line k
  rw [hb]
  rfl

theorem OnlyRead.padBytes : u.padBytes = s.padBytes := by
  funext t off n
  rw [State.padBytes, h.mem]
  rfl

theorem OnlyRead.padPoison : u.padPoison = s.padPoison := by
  funext t off n
  simp only [State.padPoison, h.pois, h.chkBad]

end OnlyRead

/-- Where no line's check value fails, a job's reading only marks the lines (09 R189, R206). -/
theorem onlyRead_readPad {s : State} (hgood : ∀ n, (s.line n).chkBad = false) (t : Nat) (l : List Nat) :
    OnlyRead s (s.readPad t l) := by
  unfold State.readPad
  split
  · exact .refl s
  · have h := onlyRead_touchPad s l
    rw [verifyLines_good _ _ _ fun k => (h.chkBad k).trans (hgood k)]
    exact h

theorem onlyRead_readJob {s : State} (hgood : ∀ n, (s.line n).chkBad = false) (t : Nat) (j : MatJob) :
    OnlyRead s (s.readJob t j) := onlyRead_readPad hgood t _

/-! ## What work in the unit can change -/

/-- A state that differs from s at most in the arrays, accumulators and row count of tile t, in memory and in lines. -/
structure UnitOnly (t : Nat) (s u : State) : Prop where
  tile : u.tile t = { s.tile t with arrays := (u.tile t).arrays, acc := (u.tile t).acc, macrows := (u.tile t).macrows }
  others : ∀ n, n ≠ t → u.tile n = s.tile n
  ctxs : u.ctxs = s.ctxs
  insts : u.insts = s.insts
  fab : u.fab = s.fab

theorem UnitOnly.trans {t : Nat} {s u v : State} (h : UnitOnly t s u) (g : UnitOnly t u v) : UnitOnly t s v where
  tile := by rw [g.tile, h.tile]
  others n hn := (g.others n hn).trans (h.others n hn)
  ctxs := g.ctxs.trans h.ctxs
  insts := g.insts.trans h.insts
  fab := g.fab.trans h.fab

theorem OnlyRead.unitOnly {s u : State} (h : OnlyRead s u) (t : Nat) : UnitOnly t s u where
  tile := by rw [h.tile]
  others n _ := h.tile n
  ctxs := h.ctxs
  insts := h.insts
  fab := h.fab

theorem unitOnly_setTile {t : Nat} {s : State} {v : Tile}
    (hv : v = { s.tile t with arrays := v.arrays, acc := v.acc, macrows := v.macrows }) : UnitOnly t s (s.setTile t v) where
  tile := by rw [tile_setTile_same]; exact hv
  others n hn := by rw [tile_setTile, if_neg hn]
  ctxs := rfl
  insts := rfl
  fab := rfl

theorem UnitOnly.jobs {t : Nat} {s u : State} (h : UnitOnly t s u) : (u.tile t).jobs = (s.tile t).jobs := by
  have htile := congrArg Tile.jobs h.tile
  exact htile

theorem UnitOnly.run? {t : Nat} {s u : State} (h : UnitOnly t s u) : u.run? t = s.run? t := by
  have htile := congrArg Tile.run h.tile
  exact htile

/-! ## An operation leaves the unit (08 R162) -/

theorem kvPut_kvPut {α : Type} (l : List (Nat × α)) (k : Nat) (v w : α) : kvPut (kvPut l k v) k w = kvPut l k w := by
  induction l with
  | nil => simp [kvPut]
  | cons x rest ih =>
    obtain ⟨i, u⟩ := x
    simp only [kvPut]
    by_cases hlt : k < i
    · simp [hlt, kvPut]
    · by_cases heq : k = i
      · simp [heq, kvPut]
      · simp [hlt, heq, kvPut, ih]

theorem setTile_setTile (s : State) (t : Nat) (v w : Tile) : (s.setTile t v).setTile t w = s.setTile t w := by
  simp only [State.setTile, kvPut_kvPut]

theorem serve_of_no_retry {s : State} (h : s.fab.retry = []) : s.serve = s := by
  rw [State.serve, h]
  rfl

theorem twinEnter_of_single {s : State} {t : Nat} (h : ∀ r, s.run? t = some r → r.twin = none) : s.twinEnter t = s := by
  unfold State.twinEnter
  split
  · rfl
  · rename_i r hr
    simp [h r hr]

/-- A change of a tile and then of its run is one change of the tile. -/
theorem modTile_modRun (s : State) (t : Nat) (g : Tile → Tile) (f : Run → Run) :
    ∃ run, (s.modTile t g).modRun t f = s.modTile t fun v => { g v with run := run } := by
  unfold State.modRun
  split
  · rename_i r _
    exact ⟨some (f r), by rw [State.setRun, State.modTile, tile_modTile_same, State.modTile, setTile_setTile]; rfl⟩
  · exact ⟨(g (s.tile t)).run, rfl⟩

/-- Of a tile whose task has no twin, and with nobody waiting at a line, an operation that leaves takes its place in the list of jobs
and the arrays it names to its run. -/
theorem endJob_eq {s : State} {t : Nat} (k : Nat) (j : MatJob) (hretry : s.fab.retry = [])
    (htwin : ∀ r, s.run? t = some r → r.twin = none) :
    ∃ run, s.endJob t k j = s.modTile t fun v => { v with jobs := v.jobs.eraseIdx k, run := run } := by
  have hrun : ∀ f : Run → Run, (∀ r, (f r).twin = r.twin) → ∀ r,
      ((s.modTile t fun v => { v with jobs := v.jobs.eraseIdx k }).modRun t f).run? t = some r → r.twin = none := by
    intro f hf r hr
    rw [run?_modRun, if_pos rfl, State.run?, tile_modTile_same] at hr
    obtain ⟨r', hr', rfl⟩ := Option.map_eq_some_iff.1 hr
    rw [hf, htwin r' hr']
  unfold State.endJob
  dsimp only
  rw [serve_of_no_retry (by rw [modRun_fab, modTile_fab, hretry]),
    twinEnter_of_single (hrun (fun r => { r with named := r.named ++ j.changes }) fun _ => rfl)]
  exact modTile_modRun s t _ _

/-- What is left of s when operation k of tile t leaves the unit, its work having made p of s. -/
structure Ends (t k : Nat) (s p u : State) : Prop where
  leaves : Spec.leaves s u t k
  mem : u.mem = p.mem
  lines : u.lines = p.lines
  arrays : (u.tile t).arrays = (p.tile t).arrays
  acc : (u.tile t).acc = (p.tile t).acc
  macrows : (u.tile t).macrows = (p.tile t).macrows

section Ends

variable {t k : Nat} {s p u : State} (h : Ends t k s p u)
include h

theorem Ends.line (n : Nat) : u.line n = p.line n := congrArg (fun l => kvGet ({} : LineMeta) l n) h.lines

theorem Ends.accRow (a c : Nat) : (u.tile t).accRow a c = (p.tile t).accRow a c :=
  congrArg (fun l => kvGet ({} : AccRow) l (128 * a + c)) h.acc

theorem Ends.padBytes : u.padBytes = p.padBytes := by
  funext t off n
  rw [State.padBytes, h.mem]
  rfl

end Ends

theorem endJob_ends {t k : Nat} {s p : State} {j : MatJob} (j' : MatJob) (h : Spec.completes s t k j) (hp : UnitOnly t s p) :
    Ends t k s p (p.endJob t k j') := by
  obtain ⟨_, _, _, hretry, _, htwin⟩ := h
  obtain ⟨run, heq⟩ := endJob_eq k j' (hp.fab ▸ hretry) (hp.run? ▸ htwin)
  rw [heq]
  constructor
  case leaves =>
    refine ⟨?_, fun n hn => ?_, hp.ctxs, hp.insts, hp.fab⟩
    · rw [tile_modTile_same, hp.jobs]
    · rw [tile_modTile, if_neg hn, hp.others n hn]
  case mem => rfl
  case lines => rfl
  all_goals rw [tile_modTile_same]

/-- MATRIX_OP_COMPLETE of an operation performed as a whole: from a state in which its lines are marked as read, its work makes the
state p, in which it leaves. -/
theorem exec_complete {t k : Nat} {s : State} {j : MatJob} (h : Spec.completes s t k j) (hs : j.op.stepwise = false) :
    ∃ r, OnlyRead s r ∧ ∀ p, r.performJob t j = p → UnitOnly t r p →
      ∃ u, exec (.matrixOpComplete t k) s = .next u ∧ Ends t k s p u := by
  have hends := fun p => endJob_ends (p := p) j h
  obtain ⟨_, hjob, hstarted, _, hgood, _⟩ := h
  have hexec : exec (.matrixOpComplete t k) s =
      .next (((if j.matched then s else s.readJob t j).performJob t j).endJob t k j) := by
    have harm : exec (.matrixOpComplete t k) s = execMatrixOpComplete t k s := rfl
    rw [harm, execMatrixOpComplete, hjob]
    simp [hstarted, hs]
  have hread : OnlyRead s (if j.matched then s else s.readJob t j) := by
    split
    · exact .refl s
    · exact onlyRead_readJob hgood t j
  exact ⟨_, hread, fun p hp hw => ⟨_, hp ▸ hexec, hends p ((hread.unitOnly t).trans hw)⟩⟩

end Sys2Proof.MatrixUnit
end

section
/-! The family 08_matrix, stores to the scratchpad: bytes written from an offset, modulo 2^20, stand where they were written, and
nothing else changes but the states of their lines, F excepted (08 R163; 09 R187). -/

namespace Sys2Proof.MatrixUnit

open Machine Laws

/-! ## Locations of a scratchpad (09 R184) -/

theorem padLoc_add (t o x : Nat) : padLoc t o + x = padLoc t (o + x) := Nat.add_assoc _ _ _

theorem padLoc_inj {t o x : Nat} : padLoc t o = padLoc t x ↔ o = x := Nat.add_left_cancel_iff

/-- A scratchpad is in this package, so no location of it is absent. -/
theorem absentLoc_padLoc {t o : Nat} (ht : t < 1088) (ho : o < 2 ^ 20) : absentLoc (padLoc t o) = false := by
  have hpkg : locPkg (padLoc t o) = 0 := by
    simp only [locPkg, padLoc, locOf, spPad]
    omega
  simp [absentLoc, hpkg]

/-- A line that begins in a scratchpad. -/
theorem lineKey_padLoc_mul (t m : Nat) : lineKey (padLoc t (m * 128)) * 128 = padLoc t (m * 128) := by
  simp only [lineKey, padLoc, locOf, spPad]
  omega

/-- The lines of a span of a scratchpad lie in it. -/
theorem absentLoc_of_mem_padLines {t off n k : Nat} (ht : t < 1088) (hk : k ∈ padLines t off n) : absentLoc (k * 128) = false := by
  unfold padLines at hk
  split at hk
  · cases hk
  · obtain ⟨i, _, rfl⟩ := List.mem_map.1 hk
    rw [lineKey_padLoc_mul]
    exact absentLoc_padLoc ht (by omega)

/-! ## Bytes (00 R5) -/

theorem getElem?_padBytes (s : State) (t off : Nat) {n k : Nat} (hk : k < n) :
    (s.padBytes t off n)[k]? = some (s.mem.read (padLoc t ((off + k) % 2 ^ 20))) := by
  simp [State.padBytes, hk, padSize]

@[simp] theorem length_padBytes (s : State) (t off n : Nat) : (s.padBytes t off n).length = n := by simp [State.padBytes]

/-- Bytes that stand from an offset on, read back in part. -/
theorem padBytes_of_bytes {s : State} {t off : Nat} {bs : List Byte}
    (h : ∀ x b, bs[x]? = some b → s.mem.read (padLoc t ((off + x) % 2 ^ 20)) = b) {a n : Nat} (hin : a + n ≤ bs.length) :
    s.padBytes t (off + a) n = (bs.drop a).take n := by
  apply List.ext_getElem?
  intro k
  by_cases hk : k < n
  · have hb : bs[a + k]? = some bs[a + k] := List.getElem?_eq_getElem (by omega)
    rw [getElem?_padBytes _ _ _ hk, Nat.add_assoc, h _ _ hb, List.getElem?_take, if_pos hk, List.getElem?_drop, hb]
  · rw [List.getElem?_eq_none (by simpa using hk), List.getElem?_eq_none (by simp; omega)]

theorem drop_toBytes (v n k : Nat) : (toBytes v n).drop k = toBytes (v / 256 ^ k) (n - k) := by
  induction k generalizing v n with
  | zero => simp
  | succ k ih =>
    cases n with
    | zero => simp [toBytes]
    | succ n => rw [toBytes, List.drop_succ_cons, ih, Nat.div_div_eq_div_mul, Nat.pow_succ', Nat.add_sub_add_right]

theorem take_toBytes (v : Nat) {n k : Nat} (h : k ≤ n) : (toBytes v n).take k = toBytes v k := by
  induction k generalizing v n with
  | zero => rfl
  | succ k ih =>
    cases n with
    | zero => omega
    | succ n => rw [toBytes, List.take_succ_cons, ih _ (by omega), toBytes]

/-- A field of whole bytes of a value, as the bytes of the value hold it. -/
theorem leNat_toBytes_part (v : Nat) {n a k : Nat} (h : a + k ≤ n) :
    leNat (((toBytes v n).drop a).take k) = v / 2 ^ (8 * a) % 2 ^ (8 * k) := by
  rw [drop_toBytes, take_toBytes _ (by omega), leNat_toBytes, Nat.pow_mul, Nat.pow_mul]

/-- A byte of the value of bytes. -/
theorem leNat_byte (bs : List Byte) (i : Nat) : leNat bs / 2 ^ (8 * i) % 256 = (bs[i]?.getD 0).toNat := by
  induction bs generalizing i with
  | nil => simp [leNat]
  | cons b rest ih =>
    have hb : b.toNat < 256 := b.isLt
    cases i with
    | zero => simp [leNat]; omega
    | succ i =>
      have hpow : 2 ^ (8 * (i + 1)) = 256 * 2 ^ (8 * i) := by rw [Nat.mul_succ, Nat.pow_add, Nat.mul_comm]
      rw [hpow, ← Nat.div_div_eq_div_mul, leNat, Nat.add_mul_div_left _ _ (by decide), Nat.div_eq_of_lt hb, Nat.zero_add, ih]
      rfl

theorem leNat_lt (bs : List Byte) : leNat bs < 256 ^ bs.length := by
  induction bs with
  | nil => exact Nat.one_pos
  | cons b rest ih =>
    have hb : b.toNat < 256 := b.isLt
    rw [leNat, List.length_cons, Nat.pow_succ]
    omega

theorem leNat_singleton (b : Byte) : leNat [b] = b.toNat := rfl

/-! ## Lines after a store (09 R187, R205) -/

/-- Memory and lines in canonical form, and no line whose check value fails. -/
structure Sound (s : State) : Prop where
  canonical : Canonical s
  good : ∀ n, (s.line n).chkBad = false

theorem OnlyRead.sound {s u : State} (h : OnlyRead s u) (hs : Sound s) : Sound u :=
  ⟨⟨h.mem ▸ hs.canonical.1, h.wf hs.canonical.2⟩, fun n => (h.chkBad n).trans (hs.good n)⟩

theorem storeLine_keeps {s : State} (hs : Sound s) (l : Nat) (bs : List Byte) (p : Bool) :
    Sound (s.storeLine l bs p) ∧ ∀ k, ((s.storeLine l bs p).line k).full = (s.line k).full := by
  have hline : ∀ k, (s.storeLine l bs p).line k =
      if k = lineKey l then (s.line k).written (l % 128 == 0 && bs.length == 128) p (locSpace l == spPad) else s.line k := by
    intro k
    refine (line_setLine _ _ _ hs.canonical.2).trans ?_
    by_cases hk : k = lineKey l
    · rw [if_pos hk, if_pos hk, hk]; rfl
    · rw [if_neg hk, if_neg hk]
  refine ⟨⟨⟨writes_wf l bs hs.canonical.1, setLine_lines_wf _ _ hs.canonical.2⟩, fun k => ?_⟩, fun k => ?_⟩
  · rw [hline]
    split
    · rfl
    · exact hs.good k
  · rw [hline]
    split <;> rfl

theorem storeCut_keeps (bs : List Byte) (l : Nat) (p : Bool) (parts : List (Nat × Nat)) {s : State} (hs : Sound s) :
    Sound (s.storeCut bs l p parts) ∧ ∀ k, ((s.storeCut bs l p parts).line k).full = (s.line k).full := by
  induction parts generalizing s with
  | nil => exact ⟨hs, fun _ => rfl⟩
  | cons x rest ih =>
    obtain ⟨a, n⟩ := x
    obtain ⟨hsound, hfull⟩ := storeLine_keeps hs a ((bs.drop (a - l)).take n) p
    obtain ⟨hsound', hfull'⟩ := ih hsound
    exact ⟨hsound', fun k => (hfull' k).trans (hfull k)⟩

/-! ## Bytes written to a scratchpad (08 R163) -/

/-- The bytes stand from an offset of tile t's scratchpad on, around its end, and the state is else as it was, line states apart,
of which F is as it was too. -/
structure Written (t off : Nat) (bs : List Byte) (s u : State) : Prop where
  rest : u = { s with mem := u.mem, lines := u.lines }
  sound : Sound u
  bytes : ∀ x b, bs[x]? = some b → u.mem.read (padLoc t ((off + x) % 2 ^ 20)) = b
  frame : ∀ l, (∀ x, x < bs.length → l ≠ padLoc t ((off + x) % 2 ^ 20)) → u.mem.read l = s.mem.read l
  full : ∀ k, (u.line k).full = (s.line k).full

theorem Written.nil {s : State} (hs : Sound s) (t off : Nat) : Written t off [] s s where
  rest := rfl
  sound := hs
  bytes x b h := by simp at h
  frame _ _ := rfl
  full _ := rfl

/-- Bytes written behind others that they do not reach around the scratchpad. -/
theorem Written.append {t off : Nat} {bs cs : List Byte} {s u v : State} (h : Written t off bs s u)
    (g : Written t (off + bs.length) cs u v) (hlen : bs.length + cs.length ≤ 2 ^ 20) : Written t off (bs ++ cs) s v where
  rest := by rw [g.rest, h.rest]
  sound := g.sound
  bytes x b hx := by
    by_cases hin : x < bs.length
    · rw [List.getElem?_append_left hin] at hx
      rw [g.frame _ fun y hy heq => by rw [padLoc_inj] at heq; omega]
      exact h.bytes x b hx
    · rw [List.getElem?_append_right (by omega)] at hx
      rw [← g.bytes _ b hx, Nat.add_assoc, Nat.add_sub_cancel' (by omega)]
  frame l hl := by
    rw [List.length_append] at hl
    refine (g.frame l fun x hx => ?_).trans (h.frame l fun x hx => hl x (by omega))
    rw [Nat.add_assoc]
    exact hl _ (by omega)
  full k := (g.full k).trans (h.full k)

/-- Only the place of an offset in the scratchpad counts. -/
theorem Written.of_mod {t a b : Nat} {bs : List Byte} {s u : State} (h : Written t a bs s u) (hab : a % 2 ^ 20 = b % 2 ^ 20) :
    Written t b bs s u := by
  have hplace : ∀ x, (a + x) % 2 ^ 20 = (b + x) % 2 ^ 20 := fun x => by omega
  obtain ⟨hrest, hsound, hbytes, hframe, hfull⟩ := h
  simp only [hplace] at hbytes hframe
  exact ⟨hrest, hsound, hbytes, hframe, hfull⟩

/-- A store that does not pass the end of the scratchpad. -/
theorem written_storeFor {t o : Nat} {bs : List Byte} {s : State} (c : BitVec 32) (p : Bool) (hs : Sound s) (ht : t < 1088)
    (ho : o < 2 ^ 20) (hlen : o + bs.length ≤ 2 ^ 20) : Written t o bs s (s.storeFor c (padLoc t o) bs p) := by
  rw [storeFor_good s c _ bs p (absentLoc_padLoc ht ho) hs.good]
  have hread : ∀ l, (s.store (padLoc t o) bs p).mem.read l = _ := fun l => read_store (padLoc t o) l bs p hs.canonical.1
  obtain ⟨hsound, hfull⟩ := storeCut_keeps bs (padLoc t o) p (cutLines (padLoc t o) bs.length (bs.length + 1)) hs
  refine ⟨storeCut_else bs (padLoc t o) p _ s, hsound, fun x b hx => ?_, fun l hl => ?_, hfull⟩
  · obtain ⟨hin, rfl⟩ := List.getElem?_eq_some_iff.1 hx
    rw [Nat.mod_eq_of_lt (by omega), ← padLoc_add, hread, if_pos (by omega), Nat.add_sub_cancel_left, hx, Option.getD_some]
  · rw [hread, if_neg]
    rintro ⟨hge, hlt⟩
    refine hl (l - padLoc t o) (by omega) ?_
    rw [Nat.mod_eq_of_lt (by omega), ← padLoc_add, Nat.add_sub_cancel' hge]

theorem padWrite_fits {t off : Nat} {bs : List Byte} (s : State) (p : Bool) (h : bs.length ≤ 2 ^ 20 - off % 2 ^ 20) :
    s.padWrite t off bs p = s.storeFor (s.runCtx t) (padLoc t (off % 2 ^ 20)) (bs.take (2 ^ 20 - off % 2 ^ 20)) p := if_pos h

theorem padWrite_wraps {t off : Nat} {bs : List Byte} {s u : State} {p : Bool} (h : ¬ bs.length ≤ 2 ^ 20 - off % 2 ^ 20)
    (hu : u = s.storeFor (s.runCtx t) (padLoc t (off % 2 ^ 20)) (bs.take (2 ^ 20 - off % 2 ^ 20)) p) :
    s.padWrite t off bs p = u.storeFor (u.runCtx t) (padLoc t 0) (bs.drop (2 ^ 20 - off % 2 ^ 20)) p := by
  subst hu
  exact if_neg h

/-- Bytes written from any offset on, around the end of the scratchpad. -/
theorem written_padWrite {t off : Nat} {bs : List Byte} {s : State} (p : Bool) (hs : Sound s) (ht : t < 1088)
    (hlen : bs.length ≤ 2 ^ 20) : Written t off bs s (s.padWrite t off bs p) := by
  have ho : off % 2 ^ 20 < 2 ^ 20 := Nat.mod_lt _ (by decide)
  have hfirst := written_storeFor (s.runCtx t) p (bs := bs.take (2 ^ 20 - off % 2 ^ 20)) hs ht ho
    (by rw [List.length_take]; omega)
  by_cases hfits : bs.length ≤ 2 ^ 20 - off % 2 ^ 20
  · rw [padWrite_fits s p hfits]
    rw [List.take_of_length_le hfits] at hfirst ⊢
    exact hfirst.of_mod (Nat.mod_mod _ _)
  · rw [padWrite_wraps hfits rfl]
    generalize s.storeFor (s.runCtx t) (padLoc t (off % 2 ^ 20)) (bs.take (2 ^ 20 - off % 2 ^ 20)) p = u at hfirst ⊢
    have hlast := written_storeFor (u.runCtx t) p (o := 0) (bs := bs.drop (2 ^ 20 - off % 2 ^ 20)) hfirst.sound ht (by decide)
      (by rw [List.length_drop]; omega)
    have hboth := hfirst.append (hlast.of_mod (by rw [List.length_take]; omega)) (by rw [List.length_take, List.length_drop]; omega)
    rw [List.take_append_drop] at hboth
    exact hboth.of_mod (Nat.mod_mod _ _)

/-- A part of what was written, read back. -/
theorem Written.padBytes {t off : Nat} {bs : List Byte} {s u : State} (h : Written t off bs s u) {a n : Nat}
    (hin : a + n ≤ bs.length) : u.padBytes t (off + a) n = (bs.drop a).take n :=
  padBytes_of_bytes h.bytes hin

/-- Bytes written line by line are written (08 R178). -/
theorem written_padWriteLines {t off : Nat} {bs : List (Byte × Bool)} (ht : t < 1088) (hlen : bs.length ≤ 2 ^ 20) (fuel : Nat)
    {s : State} {a n : Nat} (hs : Sound s) (ha : off ≤ a) (hn : n < fuel) (hrest : a - off + n = bs.length) :
    Written t a ((bs.drop (a - off)).map Prod.fst) s (s.padWriteLines t off bs (cutLines a n fuel)) := by
  induction fuel generalizing s a n with
  | zero => omega
  | succ fuel ih =>
    rw [cutLines]
    by_cases h0 : n = 0
    · rw [if_pos h0, List.drop_eq_nil_of_le (by omega)]
      exact .nil hs t a
    · rw [if_neg h0]
      have hk : 0 < min n (128 - a % 128) := by omega
      have hkn : min n (128 - a % 128) ≤ n := min_le_left _ _
      simp only [State.padWriteLines]
      generalize min n (128 - a % 128) = k at hk hkn
      have hpart : (((bs.drop (a - off)).take k).map Prod.fst).length = k := by
        rw [List.length_map, List.length_take, List.length_drop]
        omega
      have hfirst := written_padWrite (off := a) (bs := ((bs.drop (a - off)).take k).map Prod.fst)
        (((bs.drop (a - off)).take k).any Prod.snd) hs ht (by omega)
      have hlast := ih (a := a + k) (n := n - k) hfirst.sound (by omega) (by omega) (by omega)
      have hboth := hfirst.append (by rw [hpart]; exact hlast)
        (by rw [hpart, List.length_map, List.length_drop]; omega)
      rwa [show a + k - off = a - off + k by omega, ← List.drop_drop, ← List.map_append, List.take_append_drop] at hboth

/-! ## F bits set (09 R187) -/

/-- The lines l have F as given, all others as they had it, and no more than line states differ. -/
structure FullSet (f : Bool) (l : List Nat) (s u : State) : Prop where
  rest : u = { s with lines := u.lines }
  sound : Sound u
  full : ∀ k, (u.line k).full = if k ∈ l then f else (s.line k).full

theorem fullSet_setFull (f : Bool) {l : List Nat} {s : State} (hs : Sound s) (hl : ∀ k ∈ l, absentLoc (k * 128) = false) :
    FullSet f l s (s.setFull f l) := by
  induction l generalizing s with
  | nil => exact ⟨rfl, hs, fun k => by simp [State.setFull]⟩
  | cons x rest ih =>
    rw [State.setFull, hl x List.mem_cons_self]
    simp only [Bool.false_eq_true, if_false]
    generalize hu : (s.modLine x fun m => { m with full := f, wr := m.wr || locSpace (x * 128) == spPad }) = u
    have hline : ∀ k, u.line k = if k = x then { s.line k with full := f, wr := (s.line k).wr || locSpace (x * 128) == spPad }
        else s.line k := by
      intro k
      rw [← hu, State.modLine, line_setLine _ _ _ hs.canonical.2]
      by_cases hk : k = x
      · rw [if_pos hk, if_pos hk, hk]
      · rw [if_neg hk, if_neg hk]
    have hsound : Sound u := by
      refine ⟨⟨hu ▸ hs.canonical.1, hu ▸ setLine_lines_wf _ _ hs.canonical.2⟩, fun k => ?_⟩
      rw [hline]
      split
      · exact hs.good k
      · exact hs.good k
    obtain ⟨hrest, hsound', hfull⟩ := ih hsound fun k hk => hl k (List.mem_cons_of_mem _ hk)
    refine ⟨hrest.trans (by rw [← hu]; rfl), hsound', fun k => ?_⟩
    rw [hfull, hline]
    by_cases hk : k = x
    · simp [hk]
    · simp [hk]

theorem FullSet.mem {f : Bool} {l : List Nat} {s u : State} (h : FullSet f l s u) : u.mem = s.mem := by rw [h.rest]

end Sys2Proof.MatrixUnit
end

section
/-! The family 08_matrix, rows: what the bytes of a stored accumulator row are, what an A row is element by element, and what an
accumulator row is after A rows have passed into it (02 R31-R33, R42, R43; 08 R170, R171, R174). -/

namespace Sys2Proof.MatrixUnit

open Machine Laws

/-! ## Codes of a format fit its width (02 R24, R28, R29) -/

section Codes

variable (f : Fmt)

theorem infCode_lt : f.infCode < f.signBit := by
  have he : 0 < 2 ^ f.ebits := Nat.two_pow_pos _
  rw [Fmt.infCode, Fmt.signBit, Nat.pow_add]
  exact Nat.mul_lt_mul_of_pos_right (by omega) (Nat.two_pow_pos _)

theorem maxCode_lt : f.maxCode < f.signBit := by
  have hsign : 0 < f.signBit := Nat.two_pow_pos _
  have hinf : (2 ^ f.ebits - 1) * 2 ^ f.mbits < f.signBit := infCode_lt f
  unfold Fmt.maxCode
  split <;> omega

theorem overflow_lt (mode : Rnd) (neg : Bool) : f.overflow mode neg < f.signBit := by
  have hinf := infCode_lt f
  have hmax := maxCode_lt f
  unfold Fmt.overflow
  split
  · exact hmax
  · cases mode <;> cases neg <;> assumption

theorem signed_lt (neg : Bool) {c : Nat} (hc : c < f.signBit) : f.signed neg c < 2 * f.signBit := by
  rw [Fmt.signed]
  split <;> omega

theorem round_lt (mode : Rnd) (neg : Bool) (m : Nat) (e : Int) : (f.round mode neg m e).1 < 2 * f.signBit := by
  have hsign : 0 < f.signBit := Nat.two_pow_pos _
  have hmax := maxCode_lt f
  unfold Fmt.round
  by_cases h0 : m = 0
  · rw [if_pos h0]
    dsimp only
    split
    · omega
    · exact signed_lt f neg hsign
  · rw [if_neg h0]
    extract_lets emin top q d n c
    have hcode : ¬ c > f.maxCode → (if f.special == .finite && c = 0 then 0 else f.signed neg c) < 2 * f.signBit := by
      intro hc
      split
      · omega
      · exact signed_lt f neg (by omega)
    split
    · exact signed_lt f neg (overflow_lt f mode neg)
    · split
      · exact hcode ‹_›
      · exact hcode ‹_›

theorem roundVal_lt (mode : Rnd) (v : Val) (hnan : f.nanCode < 2 * f.signBit) : (f.roundVal mode v).1 < 2 * f.signBit := by
  cases v with
  | nan => exact hnan
  | inf neg =>
    rw [Fmt.roundVal]
    split
    · exact signed_lt f neg (infCode_lt f)
    · exact signed_lt f neg (maxCode_lt f)
  | fin neg m e => exact round_lt f mode neg m e

end Codes

/-- A floating-point type: its codes fill its width, and its NaN is one of them. -/
theorem fmtOf_width {x : ElemType} {f : Fmt} (h : fmtOf x = some f) : 2 * f.signBit = 2 ^ tyWidth x ∧ f.nanCode < 2 * f.signBit := by
  cases x with
  | f32 | bf16 | f16 | e4m3 | e5m2 | f6 | f4 => cases h; decide
  | _ => cases h

theorem convert_lt {d : ElemType} {f : Fmt} (h : fmtOf d = some f) (src : ElemType) (fm im : Rnd) (c : Nat) :
    (convert d src fm im c).1 < 2 ^ tyWidth d := by
  obtain ⟨hwidth, hnan⟩ := fmtOf_width h
  rw [convert, h, ← hwidth]
  exact roundVal_lt f _ _ hnan

theorem f32Code_lt (v : Val) : Machine.f32Code v < 2 ^ 32 := Scalar.roundVal_fmtF32_lt .rne v

/-! ## Stored rows (08 R174, R177) -/

/-- The type of an output code other than 7. -/
def outType (ty : Nat) : ElemType :=
  match ty with
  | 1 => .bf16
  | 2 => .f16
  | 3 => .e4m3
  | 4 => .e5m2
  | _ => .f32

theorem outBytes_eq (ty : Nat) : outBytes ty = 128 * (tyWidth (outType ty) / 8) := by
  unfold outBytes
  split <;> simp [outType, tyWidth, *]

theorem outType_bytes (ty : Nat) : 8 * (tyWidth (outType ty) / 8) = tyWidth (outType ty) := by
  unfold outType
  split <;> rfl

theorem outType_float (ty : Nat) : ∃ f, fmtOf (outType ty) = some f := by
  unfold outType
  split <;> exact ⟨_, rfl⟩

theorem outLane_eq {ty : Nat} (h : ty ≠ 7) (w : Nat) : Spec.outLane ty w = (convert (outType ty) .f32 .rne .rne w).1 := by
  unfold Spec.outLane
  split
  case h_5 => exact absurd rfl h
  all_goals simp [outType, *]

theorem outRow_eq {ty : Nat} (h : ty ≠ 7) (x : AccRow) :
    outRow ty x = toBytes (joinLanes (tyWidth (outType ty)) ((List.range 128).map fun k =>
      (convert (outType ty) .f32 .rne .rne (Spec.accWord x k)).1)) (outBytes ty) := by
  have hrow : outRow ty x = toBytes (joinLanes (tyWidth (outType ty)) ((splitLanes 32 128 x.bits.toNat).map fun w =>
      (convert (outType ty) .f32 .rne .rne w).1)) (outBytes ty) := if_neg h
  rw [hrow, splitLanes_accRow, List.map_map, Function.comp_def]

@[simp] theorem length_outRow (ty : Nat) (x : AccRow) : (outRow ty x).length = outBytes ty := by
  by_cases h : ty = 7
  · subst h; exact length_toBytes _ _
  · rw [outRow_eq h, length_toBytes]

theorem outBytes_le (ty : Nat) : outBytes ty ≤ 512 := by
  unfold outBytes
  split <;> decide

/-- A lane lies in the row. -/
theorem lane_le_outBytes (ty : Nat) {i : Nat} (hi : i < 128) : outBytes ty / 128 * i + outBytes ty / 128 ≤ outBytes ty :=
  calc outBytes ty / 128 * i + outBytes ty / 128 = outBytes ty / 128 * (i + 1) := rfl
    _ ≤ outBytes ty / 128 * 128 := Nat.mul_le_mul_left _ hi
    _ ≤ outBytes ty := Nat.div_mul_le_self _ _

/-- Lane i of a stored row. -/
theorem outRow_lane (ty : Nat) (x : AccRow) {i : Nat} (hi : i < 128) :
    leNat (((outRow ty x).drop (outBytes ty / 128 * i)).take (outBytes ty / 128)) = Spec.outLane ty (Spec.accWord x i) := by
  by_cases h7 : ty = 7
  · subst h7
    have hrow : outRow 7 x = toBytes x.bits.toNat 512 := rfl
    have hbytes : outBytes 7 / 128 = 4 := rfl
    rw [hrow, hbytes, leNat_toBytes_part _ (by omega), ← Nat.mul_assoc]
    rfl
  · obtain ⟨f, hf⟩ := outType_float ty
    have hb : outBytes ty / 128 = tyWidth (outType ty) / 8 := by rw [outBytes_eq, Nat.mul_div_cancel_left _ (by decide)]
    have hin := lane_le_outBytes ty hi
    rw [hb] at hin ⊢
    rw [ outRow_eq h7, leNat_toBytes_part _ hin, ← Nat.mul_assoc, outType_bytes, Vector.joinLanes_lane,
      Vector.laneAt_range_map _ hi, outLane_eq h7, Nat.mod_eq_of_lt (convert_lt hf _ _ _ _)]

/-! ## A rows (08 R170, R171) -/

/-- A scaled value depends on a block scale only where the format has one, and on a band scale only where one applies. -/
theorem matValue_congr {fmt code bs bs' band band' : Nat} {scl : Bool} (hbs : fmt ≤ 1 → bs = bs')
    (hband : bandApplies fmt scl = true → band = band') : matValue fmt code bs band scl = matValue fmt code bs' band' scl := by
  have h1 : (if fmt ≤ 1 then some bs else none) = if fmt ≤ 1 then some bs' else none := by
    split
    · rw [hbs ‹_›]
    · rfl
  have h2 : (if bandApplies fmt scl then fmtBF16.value band else .fin false 1 0) =
      if bandApplies fmt scl then fmtBF16.value band' else .fin false 1 0 := by
    split
    · rw [hband ‹_›]
    · rfl
  rw [matValue, matValue, h1, h2]

theorem padBytes_one (s : State) (t off : Nat) : s.padBytes t off 1 = [s.mem.read (padLoc t (off % 2 ^ 20))] := rfl

theorem getD_padBytes (s : State) (t off : Nat) {n k : Nat} (hk : k < n) :
    ((s.padBytes t off n)[k]?.getD 0).toNat = leNat (s.padBytes t (off + k) 1) := by
  rw [getElem?_padBytes _ _ _ hk, padBytes_one, leNat_singleton, Option.getD_some]

theorem codes_aRow (s : State) (t fmt : Nat) (scl : Bool) (off stride soff boff i : Nat) :
    (s.aRow t fmt scl off stride soff boff i).codes = Spec.aCodes s t fmt (off + i * stride) := by
  rw [State.aRow, State.scaledRow, rowCodes, splitLanes]
  rfl

theorem vals_aRow (s : State) (t fmt : Nat) (scl : Bool) (off stride soff boff i : Nat) :
    (s.aRow t fmt scl off stride soff boff i).vals = Spec.aVals s t fmt scl (off + i * stride) soff boff i := by
  have hcodes : rowCodes fmt 128 (s.padBytes t (off + i * stride) (rowBytes fmt)) =
      (List.range 128).map fun k => Spec.rowCode s t fmt (off + i * stride) (rowBytes fmt) k := by rw [rowCodes, splitLanes]; rfl
  simp only [State.aRow, State.scaledRow, Spec.aVals, hcodes, zipIdx_range_map, List.map_map]
  refine List.map_congr_left fun k hk => matValue_congr (fun hf => ?_) fun hb => ?_
  · rw [if_pos hf]
    exact getD_padBytes s t _ (show k / 8 < 16 by have := List.mem_range.1 hk; omega)
  · rw [if_pos hb, State.padHalf]

section Transposed

variable (s : State) (t fmt : Nat) (scl : Bool) (off stride : Nat) {m : Nat} (boff : Nat) {i : Nat}

theorem codes_aRowT (hi : i < m) : (s.aRowT t fmt scl off stride m boff i).codes = Spec.tCodes s t fmt off stride m i := by
  refine List.map_congr_left fun k _ => ?_
  simp [rowCodes, splitLanes, hi, Spec.rowCode]

theorem vals_aRowT (hi : i < m) : (s.aRowT t fmt scl off stride m boff i).vals = Spec.tVals s t fmt scl off stride m boff i := by
  have hvals : (s.aRowT t fmt scl off stride m boff i).vals = (s.aRowT t fmt scl off stride m boff i).codes.zipIdx.map fun x =>
    matValue fmt x.1 0 (if scl then s.padHalf t (boff + 2 * (x.2 / 64)) else 0) scl := rfl
  rw [hvals, codes_aRowT s t fmt scl off stride boff hi, Spec.tCodes, zipIdx_range_map, List.map_map]
  rfl

theorem pois_aRowT : (s.aRowT t fmt scl off stride m boff i).pois = true ↔
    ∃ k, k < 128 ∧ s.padPoison t (off + k * stride + i * (matWidth fmt / 8)) (matWidth fmt / 8) = true := by
  simp [State.aRowT]

end Transposed

section Congr

variable {s u : State} (hb : u.padBytes = s.padBytes) (hp : u.padPoison = s.padPoison)
include hb hp

theorem aRow_congr : u.aRow = s.aRow := by
  funext t fmt scl off stride soff boff i
  simp only [State.aRow, State.scaledRow, State.padHalf, hb, hp]

theorem aRowT_congr : u.aRowT = s.aRowT := by
  funext t fmt scl off stride m boff i
  simp only [State.aRowT, State.padHalf, hb, hp]

theorem loadArray_congr : u.loadArray = s.loadArray := by
  funext t old lw sw
  simp only [State.loadArray, State.padHalf, hb, hp]

end Congr

/-! ## A rows pass into an accumulator row (02 R42, R43; 08 R170) -/

theorem accWord_passRow (w : WArray) (scl iacc zacc : Bool) (a : ARow) (old : AccRow) {k : Nat} (hk : k < 128) :
    Spec.accWord (passRow w scl iacc zacc a old) k =
      (if iacc then mmaInt (if zacc then 0 else Spec.accWord old k) a.codes (w.codes k)
        else mmaElement (if zacc then 0 else Spec.accWord old k) a.vals (w.values k scl)) % 2 ^ 32 := by
  have hwords : (if zacc then List.replicate 128 0 else splitLanes 32 128 old.bits.toNat) =
      (List.range 128).map fun k => if zacc then 0 else Spec.accWord old k := by
    cases zacc
    · rfl
    · simp [List.map_const']
  rw [passRow, accWord_joinLanes _ _ hk, hwords, zipIdx_range_map, List.map_map, Vector.laneAt_range_map _ hk]
  rfl

theorem pois_passRow (w : WArray) (scl iacc zacc : Bool) (a : ARow) (old : AccRow) :
    (passRow w scl iacc zacc a old).pois = true ↔ (zacc = false ∧ old.pois = true) ∨ w.pois = true ∨ a.pois = true := by
  simp [passRow, or_assoc, or_comm (a := a.pois = true)]

/-- The words of an accumulator row after A rows have passed into it one after another. -/
theorem accWord_foldl_passRow (w : WArray) (scl iacc : Bool) (row : Nat → ARow) {k : Nat} (hk : k < 128) (is : List Nat)
    (old : AccRow) : Spec.accWord (is.foldl (fun x i => passRow w scl iacc false (row i) x) old) k =
      Spec.mmaWord w scl iacc (fun i => (row i).codes) (fun i => (row i).vals) k (Spec.accWord old k) is := by
  induction is generalizing old with
  | nil => rfl
  | cons i rest ih =>
    rw [List.foldl_cons, ih, accWord_passRow _ _ _ _ _ _ hk]
    rfl

theorem pois_foldl_passRow (w : WArray) (scl iacc : Bool) (row : Nat → ARow) (is : List Nat) (old : AccRow) :
    (is.foldl (fun x i => passRow w scl iacc false (row i) x) old).pois = true ↔
      old.pois = true ∨ ∃ i ∈ is, w.pois = true ∨ (row i).pois = true := by
  induction is generalizing old with
  | nil => simp
  | cons i rest ih =>
    rw [List.foldl_cons, ih, pois_passRow]
    simp [or_assoc]

/-- Only the A rows that pass count. -/
theorem mmaWord_congr (w : WArray) (scl iacc : Bool) {codes codes' : Nat → List Nat} {vals vals' : Nat → List Val} (k old : Nat)
    {is : List Nat} (hc : ∀ i ∈ is, codes i = codes' i) (hv : ∀ i ∈ is, vals i = vals' i) :
    Spec.mmaWord w scl iacc codes vals k old is = Spec.mmaWord w scl iacc codes' vals' k old is := by
  refine List.foldl_ext _ _ _ fun x i hi => ?_
  rw [hc i hi, hv i hi]

/-- A state that s becomes when rows of A pass into an accumulator of tile t, those numbered `into c` into its row c. -/
structure Passed (t acc n : Nat) (into : Nat → List Nat) (pass : AccRow → Nat → AccRow) (s u : State) : Prop where
  only : UnitOnly t s u
  mem : u.mem = s.mem
  arrays : (u.tile t).arrays = (s.tile t).arrays
  macrows : (u.tile t).macrows = (s.tile t).macrows + BitVec.ofNat 64 n
  other : ∀ b c, c < 128 → b ≠ acc → (u.tile t).accRow b c = (s.tile t).accRow b c
  row : ∀ c, c < 128 → (u.tile t).accRow acc c = (into c).foldl pass ((s.tile t).accRow acc c)

/-- A tile after one A row has passed through an array into row c of an accumulator. -/
def rowPassed (v : Tile) (arr acc c : Nat) (scl iacc zacc : Bool) (a : ARow) : Tile :=
  { (v.setAccRow acc c (passRow (v.array arr) scl iacc zacc a (v.accRow acc c))) with macrows := v.macrows + 1 }

theorem passRows_succ (s : State) (t arr acc crow : Nat) (scl iacc zacc : Bool) (row : Nat → ARow) (n i : Nat) :
    s.passRows t arr acc crow scl iacc zacc row (n + 1) i =
      (s.setTile t (rowPassed (s.tile t) arr acc ((crow + i) % 128) scl iacc zacc (row i))).passRows t arr acc crow scl iacc zacc row
        n (i + 1) := rfl

theorem passRows_one (s : State) (t arr acc crow : Nat) (scl iacc zacc : Bool) (row : Nat → ARow) (i : Nat) :
    s.passRows t arr acc crow scl iacc zacc row 1 i =
      s.setTile t (rowPassed (s.tile t) arr acc ((crow + i) % 128) scl iacc zacc (row i)) := rfl

theorem array_rowPassed (v : Tile) (arr acc c : Nat) (scl iacc zacc : Bool) (a : ARow) (b : Nat) :
    (rowPassed v arr acc c scl iacc zacc a).array b = v.array b := rfl

theorem accRow_rowPassed (v : Tile) (arr acc : Nat) {c : Nat} (scl iacc zacc : Bool) (a : ARow) (b : Nat) {d : Nat} (hc : c < 128)
    (hd : d < 128) : (rowPassed v arr acc c scl iacc zacc a).accRow b d =
      if b = acc ∧ d = c then passRow (v.array arr) scl iacc zacc a (v.accRow acc c) else v.accRow b d :=
  accRow_setAccRow v _ acc b hc hd

theorem passed_passRows (s : State) (t arr acc crow : Nat) (scl iacc zacc : Bool) (row : Nat → ARow) (n i : Nat) :
    Passed t acc n (fun c => (List.range' i n).filter fun j => (crow + j) % 128 == c)
      (fun x j => passRow ((s.tile t).array arr) scl iacc zacc (row j) x) s
      (s.passRows t arr acc crow scl iacc zacc row n i) := by
  induction n generalizing s i with
  | zero =>
    exact ⟨(OnlyRead.refl s).unitOnly t, rfl, rfl, (BitVec.add_zero _).symm, fun _ _ _ _ => rfl, fun _ _ => rfl⟩
  | succ n ih =>
    have hplace : (crow + i) % 128 < 128 := Nat.mod_lt _ (by decide)
    obtain ⟨honly, hmem, harrays, hmacrows, hother, hrow⟩ :=
      ih (s.setTile t (rowPassed (s.tile t) arr acc ((crow + i) % 128) scl iacc zacc (row i))) (i + 1)
    simp only [tile_setTile_same, array_rowPassed] at harrays hmacrows hother hrow
    rw [passRows_succ]
    refine ⟨(unitOnly_setTile rfl).trans honly, hmem, harrays, ?_, fun b c hc hb => ?_, fun c hc => ?_⟩
    · rw [hmacrows, Nat.add_comm n 1, BitVec.ofNat_add, ← BitVec.add_assoc]
      rfl
    · rw [hother b c hc hb, accRow_rowPassed _ _ _ _ _ _ _ _ hplace hc, if_neg fun h => hb h.1]
    · rw [hrow c hc, accRow_rowPassed _ _ _ _ _ _ _ _ hplace hc, List.range'_succ, List.filter_cons]
      by_cases hin : (crow + i) % 128 = c
      · rw [if_pos ⟨rfl, hin.symm⟩, if_pos (beq_iff_eq.2 hin), List.foldl_cons, hin]
      · rw [if_neg fun h => hin h.2.symm, if_neg (by simpa using hin)]

end Sys2Proof.MatrixUnit
end

section
/-! The family 08_matrix, events: O49, apart from what is stored to the scratchpad. An operation starts, takes its rows from a stream,
and is performed as it completes (08 R162-R173, R176, R179). -/

namespace Sys2Proof.MatrixUnit

open Machine Laws

/-! ## MATRIX_OP_START (08 R162, R168) -/

theorem exec_start {t k : Nat} {s : State} {j : MatJob} (hnext : (s.tile t).nextJob = some k) (hjob : (s.tile t).jobs[k]? = some j)
    (hfree : (s.tile t).free k j.op = true) (hpaths : (s.tile t).pathsHeld + j.op.paths ≤ 2) :
    exec (.matrixOpStart t) s =
      .next ((s.modJob t k fun y => { y with started := true, matched := (s.tile t).match_ j.op }).feed t) := by
  have harm : exec (.matrixOpStart t) s = execMatrixOpStart t s := rfl
  rw [harm, execMatrixOpStart, hnext]
  simp [hjob, hfree, hpaths, State.startJob]

theorem jobs_modJob (s : State) (t k : Nat) (f : MatJob → MatJob) : ((s.modJob t k f).tile t).jobs = (s.tile t).jobs.modify k f := by
  rw [State.modJob, tile_modTile_same]

/-- A change of a job that keeps its operation keeps which operations there are. -/
theorem forall_op_modify {l : List MatJob} {k : Nat} {f : MatJob → MatJob} {P : MatOp → Prop} (hf : ∀ y, (f y).op = y.op)
    (h : ∀ x ∈ l, P x.op) : ∀ x ∈ l.modify k f, P x.op := by
  intro x hx
  obtain ⟨i, hi⟩ := List.mem_iff_getElem?.1 hx
  rw [List.getElem?_modify] at hi
  obtain ⟨y, hy, rfl⟩ := Option.map_eq_some_iff.1 hi
  have hmem := h y (List.mem_of_getElem? hy)
  split
  · rwa [hf]
  · exact hmem

theorem feeding_of_no_port {v : Tile} (h : ∀ x ∈ v.jobs, x.op.port = none) (p : Nat) : v.feeding p = none := by
  rw [Tile.feeding, Option.map_eq_none_iff, List.find?_eq_none]
  intro x hx
  simp [h x.1 (List.fst_mem_of_mem_zipIdx hx)]

theorem feedMma_of_idle {s : State} {t p : Nat} (h : (s.tile t).feeding p = none) (n : Nat) : s.feedMma t p n = s := by
  cases n with
  | zero => rfl
  | succ n =>
    rw [State.feedMma, h]
    cases s.run? t <;> rfl

theorem feed_of_idle {s : State} {t : Nat} (h : ∀ p, (s.tile t).feeding p = none) : s.feed t = s := by
  simp only [State.feed, State.feedPorts, feedMma_of_idle (h _)]

/-! ## Rows from a stream (08 R173, R181; 11 R254) -/

section Feed

variable {s : State} {t p k : Nat} {r : Run} {j : MatJob} {q : InPort} {x : Packet} {rest : List Packet}
  (hrun : s.run? t = some r) (hfeed : (s.tile t).feeding p = some (k, j)) (hpop : r.popping p = false)
  (hport : s.inPort? r.inst r.idx p = some q) (hqueue : q.queue = x :: rest)
include hrun hfeed hpop hport hqueue

theorem feedMma_eq (n : Nat) : s.feedMma t p (n + 1) =
    if s.keepRoom r.ctx q then ((s.modInPort r.inst r.idx p InPort.take).packetRows t k j x).feedMma t p n else s := by
  rw [State.feedMma, hrun, hfeed]
  simp [hpop, hport, hqueue]

end Feed

section Packet

variable {s : State} {t k arr acc : Nat} {a w : BitVec 64} {j : MatJob} {x : Packet} (hjob : (s.tile t).jobs[k]? = some j)
  (hop : j.op = .mma arr acc a w) (hhalf : j.half = none) (habort : x.abort = false) (heot : x.eot = false)
include habort heot

theorem packetRows_refused (ht : j.op.takes x.fmt.toNat = false) : s.packetRows t k j x = s.matrixStop t k fcIllegalFormat := by
  rw [State.packetRows]
  simp [habort, heot, ht]

include hhalf

theorem packetRows_one (ht : j.op.takes x.fmt.toNat = true) (hf : x.fmt.toNat ∉ [0, 4, 5]) :
    s.packetRows t k j x =
      s.streamRow t k x.fmt.toNat ((toBytes x.payload.toNat 128).take (rowBytes x.fmt.toNat)) x.pois := by
  simp only [List.mem_cons, List.not_mem_nil, or_false, not_or] at hf
  rw [State.packetRows]
  simp [habort, heot, ht, hhalf, hf]

end Packet

/-- A row of a stream passes into the accumulator row its number names, and counts; no other row changes. -/
theorem streamRow_leaves {s u : State} {t k arr acc : Nat} {a w : BitVec 64} {j : MatJob} {fmt : Nat} {bs : List Byte} {p : Bool}
    (hjob : (s.tile t).jobs[k]? = some j) (hop : j.op = .mma arr acc a w) (hgood : ∀ n, (s.line n).chkBad = false)
    (hu : u = s.streamRow t k fmt bs p) :
    (u.tile t).jobs[k]? = some { j with rows := j.rows + 1, half := none } ∧ u.mem = s.mem ∧ (u.tile t).arrays = (s.tile t).arrays ∧
      (u.tile t).macrows = (s.tile t).macrows + 1 ∧
      ∀ n c, c < 128 → (n ≠ acc ∨ c ≠ (cwRow w + j.rows) % 128) → (u.tile t).accRow n c = (s.tile t).accRow n c := by
  have hread := onlyRead_readPad hgood t (rowTables t fmt (awScl a) (j.soff w) (j.boff w) j.rows)
  rw [State.streamRow, hjob] at hu
  simp only [hop, passRows_one, hread.tile] at hu
  generalize State.readPad _ _ _ = r at hread hu
  rw [hu, jobs_modJob, State.modJob, tile_modTile_same, tile_setTile_same]
  refine ⟨?_, hread.mem, rfl, rfl, fun n c hc hne => ?_⟩
  · have hjobs : ∀ a, (rowPassed (s.tile t) arr acc ((cwRow w + j.rows) % 128) (awScl a) (awIacc a) false
        (s.scaledRow t fmt (awScl a) (j.soff w) (j.boff w) j.rows (rowCodes fmt 128 bs) p)).jobs[k]? = some j := fun _ => hjob
    simp [hjobs]
  · refine (accRow_rowPassed _ _ _ _ _ _ _ _ (Nat.mod_lt _ (by decide)) hc).trans (if_neg ?_)
    rintro ⟨hn, hplace⟩
    exact hne.elim (· hn) (· hplace)

theorem matrixStop_eq {s : State} {t k code : Nat} {j : MatJob} (hjob : (s.tile t).jobs[k]? = some j) :
    ∃ f : Run → Run, s.matrixStop t k code = (s.modTile t fun v => { v with jobs := v.jobs.take k }).modRun t f ∧
      ∀ r, (f r).matFault.isSome = true := by
  rw [State.matrixStop, hjob]
  exact ⟨_, rfl, fun _ => rfl⟩

/-- A packet that may not be taken cancels its operation and those behind it, and leaves a fault for the next belay. -/
theorem matrixStop_leaves {s u : State} {t k code : Nat} {j : MatJob} (hjob : (s.tile t).jobs[k]? = some j)
    (hu : u = s.matrixStop t k code) :
    (u.tile t).jobs = (s.tile t).jobs.take k ∧ (u.tile t).acc = (s.tile t).acc ∧
      ∀ r, s.run? t = some r → ∃ r', u.run? t = some r' ∧ r'.matFault.isSome = true := by
  obtain ⟨f, heq, hfault⟩ := matrixStop_eq (code := code) hjob
  obtain ⟨run, hrun⟩ := modTile_modRun s t (fun v => { v with jobs := v.jobs.take k }) f
  refine ⟨?_, ?_, fun r hr => ⟨f r, ?_, hfault r⟩⟩
  · rw [hu, heq, hrun, tile_modTile_same]
  · rw [hu, heq, hrun, tile_modTile_same]
  · have hbefore : (s.modTile t fun v => { v with jobs := v.jobs.take k }).run? t = some r := by
      rw [State.run?, tile_modTile_same]
      exact hr
    rw [hu, heq, run?_modRun, if_pos rfl, hbefore]
    rfl

/-! ## Weight arrays (08 R166-R168) -/

theorem matWidth_le (f : Nat) : matWidth f ≤ 16 := by
  unfold matWidth matType
  split <;> decide

theorem rowCode_lt (s : State) (t f o n k : Nat) : Spec.rowCode s t f o n k < 2 ^ 16 :=
  (Nat.mod_lt _ (Nat.two_pow_pos _)).trans_le (Nat.pow_le_pow_right (by decide) (matWidth_le f))

section Load

variable (s : State) (t : Nat) (old : WArray) (lw sw : BitVec 64)

theorem codes_loadArray {n k : Nat} (hn : n < 128) (hk : k < 128) :
    ((s.loadArray t old lw sw).codes n)[k]? = some
      (Spec.rowCode s t (bitsAt lw 40 3) (bitsAt lw 0 20 + n * bitsAt lw 20 20) (rowBytes (bitsAt lw 40 3)) k) := by
  have hrow : ((s.loadArray t old lw sw).elem[n]?.getD 0) = BitVec.ofNat 2048 (joinLanes 16 ((List.range 128).map
      fun k => Spec.rowCode s t (bitsAt lw 40 3) (bitsAt lw 0 20 + n * bitsAt lw 20 20) (rowBytes (bitsAt lw 40 3)) k)) := by
    simp only [State.loadArray, List.getElem?_map, List.getElem?_range hn]
    rfl
  rw [WArray.codes, hrow, splitLanes, List.getElem?_map, List.getElem?_range hk, Option.map_some,
    Vector.toNat_ofNat_field _ (by omega), Vector.joinLanes_lane, Vector.laneAt_range_map _ hk, Nat.mod_eq_of_lt (rowCode_lt ..)]

theorem bsc_loadArray (hf : bitsAt lw 40 3 ≤ 1) {n i : Nat} (hn : n < 128) (hi : i < 16) :
    ((s.loadArray t old lw sw).bsc[n]?.getD 0).toNat / 2 ^ (8 * i) % 256 = leNat (s.padBytes t (bitsAt sw 0 20 + 16 * n + i) 1) := by
  have hrow : (s.loadArray t old lw sw).bsc[n]?.getD 0 = BitVec.ofNat 128 (leNat (s.padBytes t (bitsAt sw 0 20 + 16 * n) 16)) := by
    simp [State.loadArray, hf, hn]
  rw [hrow, show 256 = 2 ^ 8 from rfl, Vector.toNat_ofNat_field _ (by omega)]
  exact (leNat_byte _ _).trans (getD_padBytes s t _ hi)

/-- A format without block scales leaves them as they stood. -/
theorem bsc_loadArray_unscaled (hf : 1 < bitsAt lw 40 3) : (s.loadArray t old lw sw).bsc = old.bsc := if_neg (Nat.not_le.2 hf)

theorem fmt_loadArray : (s.loadArray t old lw sw).fmt.toNat = bitsAt lw 40 3 :=
  Nat.mod_eq_of_lt (Nat.mod_lt _ (by decide))

theorem rtag_loadArray : (s.loadArray t old lw sw).rtag.toNat = bitsAt sw 40 24 :=
  Nat.mod_eq_of_lt (Nat.mod_lt _ (by decide))

theorem leNat_half_lt (off : Nat) : leNat (s.padBytes t off 2) < 2 ^ 16 := by
  simpa using leNat_lt (s.padBytes t off 2)

theorem band0_loadArray : (s.loadArray t old lw sw).band0.toNat =
    if lw.getLsbD 43 then leNat (s.padBytes t (bitsAt sw 20 20) 2) else 0x3F80 := by
  simp only [State.loadArray, State.padHalf]
  split
  · rw [BitVec.toNat_ofNat, Nat.mod_eq_of_lt (leNat_half_lt ..)]
  · rfl

theorem band1_loadArray : (s.loadArray t old lw sw).band1.toNat =
    if lw.getLsbD 43 then leNat (s.padBytes t (bitsAt sw 20 20 + 2) 2) else 0x3F80 := by
  simp only [State.loadArray, State.padHalf]
  split
  · rw [BitVec.toNat_ofNat, Nat.mod_eq_of_lt (leNat_half_lt ..)]
  · rfl

theorem pois_loadArray : (s.loadArray t old lw sw).pois = true ↔
    (∃ n, n < 128 ∧ s.padPoison t (bitsAt lw 0 20 + n * bitsAt lw 20 20) (rowBytes (bitsAt lw 40 3)) = true) ∨
      (bitsAt lw 40 3 ≤ 1 ∧ s.padPoison t (bitsAt sw 0 20) 2048 = true) ∨
      (lw.getLsbD 43 = true ∧ s.padPoison t (bitsAt sw 20 20) 4 = true) := by
  simp [State.loadArray, or_assoc]

end Load

/-! ## MATRIX_OP_COMPLETE of operations on registers of the unit (08 R166-R168, R176) -/

theorem array_of_arrays {u v : Tile} (h : u.arrays = v.arrays) (a : Nat) : u.array a = v.array a := by rw [Tile.array, h]; rfl

theorem accRow_of_acc {u v : Tile} (h : u.acc = v.acc) (a c : Nat) : u.accRow a c = v.accRow a c := by rw [Tile.accRow, h]; rfl

/-- An operation whose work is one change of its tile. -/
theorem exec_setTile {s : State} {t k : Nat} {j : MatJob} (v : Tile) (h : Spec.completes s t k j) (hs : j.op.stepwise = false)
    (hv : v = { s.tile t with arrays := v.arrays, acc := v.acc, macrows := v.macrows })
    (hp : ∀ r, OnlyRead s r → r.performJob t j = r.setTile t v) :
    ∃ u, exec (.matrixOpComplete t k) s = .next u ∧ Spec.leaves s u t k ∧ u.mem = s.mem ∧ (u.tile t).arrays = v.arrays ∧
      (u.tile t).acc = v.acc := by
  obtain ⟨r, hread, hwork⟩ := exec_complete h hs
  obtain ⟨u, hexec, hends⟩ := hwork _ (hp r hread) (unitOnly_setTile (by rw [hread.tile]; exact hv))
  refine ⟨u, hexec, hends.leaves, hends.mem.trans hread.mem, ?_, ?_⟩
  · rw [hends.arrays, tile_setTile_same]
  · rw [hends.acc, tile_setTile_same]

section Registers

variable {s : State} {t k : Nat} {j : MatJob} (h : Spec.completes s t k j)
include h

/-- A conditional load that found what it names changes nothing. -/
theorem complete_bload_matched {a : Nat} {lw sw : BitVec 64} (hop : j.op = .bload a lw sw) (hm : j.matched = true) :
    ∃ u, exec (.matrixOpComplete t k) s = .next u ∧ Spec.leaves s u t k ∧ u.mem = s.mem ∧ (u.tile t).acc = (s.tile t).acc ∧
      (u.tile t).arrays = (s.tile t).arrays := by
  obtain ⟨r, hread, hwork⟩ := exec_complete h (by rw [hop]; rfl)
  obtain ⟨u, hexec, hends⟩ := hwork r (by simp [State.performJob, hop, hm]) ((OnlyRead.refl r).unitOnly t)
  exact ⟨u, hexec, hends.leaves, hends.mem.trans hread.mem, hends.acc.trans (by rw [hread.tile]),
    hends.arrays.trans (by rw [hread.tile])⟩

theorem complete_bload_loads {a : Nat} {lw sw : BitVec 64} (hop : j.op = .bload a lw sw) (hm : j.matched = false) :
    ∃ u, exec (.matrixOpComplete t k) s = .next u ∧ Spec.leaves s u t k ∧ u.mem = s.mem ∧
      (u.tile t).arrays = ((s.tile t).setArray a (s.loadArray t ((s.tile t).array a) lw sw)).arrays ∧
      (u.tile t).acc = (s.tile t).acc :=
  exec_setTile ((s.tile t).setArray a (s.loadArray t ((s.tile t).array a) lw sw)) h (by rw [hop]; rfl) rfl fun r hread => by
    simp [State.performJob, hop, hm, hread.tile, loadArray_congr hread.padBytes hread.padPoison]

theorem complete_bload {a : Nat} {lw sw : BitVec 64} (hop : j.op = .bload a lw sw) (ha : a < 4) :
    ∃ u, exec (.matrixOpComplete t k) s = .next u ∧ Spec.leaves s u t k ∧ u.mem = s.mem ∧ (u.tile t).acc = (s.tile t).acc ∧
      (∀ b, b ≠ a → b < 4 → (u.tile t).array b = (s.tile t).array b) ∧
      (j.matched = true → (u.tile t).array a = (s.tile t).array a) ∧
      (j.matched = false → (u.tile t).array a = s.loadArray t ((s.tile t).array a) lw sw) := by
  by_cases hm : j.matched = true
  · obtain ⟨u, hexec, hleaves, hmem, hacc, harrays⟩ := complete_bload_matched h hop hm
    exact ⟨u, hexec, hleaves, hmem, hacc, fun b _ _ => array_of_arrays harrays b, fun _ => array_of_arrays harrays a,
      fun hn => absurd hm (by simp [hn])⟩
  · obtain ⟨u, hexec, hleaves, hmem, harrays, hacc⟩ := complete_bload_loads h hop (Bool.eq_false_of_not_eq_true hm)
    have harray := fun b (hb : b < 4) => (array_of_arrays harrays b).trans (array_setArray _ _ a hb)
    exact ⟨u, hexec, hleaves, hmem, hacc, fun b hne hb => (harray b hb).trans (if_neg hne), fun hy => absurd hy hm,
      fun _ => (harray a ha).trans (if_pos rfl)⟩

theorem complete_bclr {a : Nat} (hop : j.op = .bclr a) (ha : a < 4) :
    ∃ u, exec (.matrixOpComplete t k) s = .next u ∧ Spec.leaves s u t k ∧
      (u.tile t).array a = { (s.tile t).array a with valid := false, pois := false } ∧
      (∀ b, b ≠ a → b < 4 → (u.tile t).array b = (s.tile t).array b) ∧ (u.tile t).acc = (s.tile t).acc ∧ u.mem = s.mem := by
  obtain ⟨u, hexec, hleaves, hmem, harrays, hacc⟩ :=
    exec_setTile ((s.tile t).setArray a { (s.tile t).array a with valid := false, pois := false }) h (by rw [hop]; rfl) rfl
      fun r hread => by simp only [State.performJob, hop, hread.tile]
  have harray := fun b (hb : b < 4) => (array_of_arrays harrays b).trans (array_setArray _ _ a hb)
  exact ⟨u, hexec, hleaves, (harray a ha).trans (if_pos rfl), fun b hne hb => (harray b hb).trans (if_neg hne), hacc, hmem⟩

theorem complete_bswap {a b : Nat} (hop : j.op = .bswap a b) (ha : a < 4) (hb : b < 4) :
    ∃ u, exec (.matrixOpComplete t k) s = .next u ∧ Spec.leaves s u t k ∧
      (u.tile t).array a = (s.tile t).array b ∧ (u.tile t).array b = (s.tile t).array a ∧
      (∀ c, c ≠ a → c ≠ b → c < 4 → (u.tile t).array c = (s.tile t).array c) ∧ (u.tile t).acc = (s.tile t).acc ∧ u.mem = s.mem := by
  obtain ⟨u, hexec, hleaves, hmem, harrays, hacc⟩ :=
    exec_setTile (((s.tile t).setArray a ((s.tile t).array b)).setArray b ((s.tile t).array a)) h (by rw [hop]; rfl) rfl
      fun r hread => by simp only [State.performJob, hop, hread.tile]
  have harray : ∀ c, c < 4 → (u.tile t).array c =
      if c = b then (s.tile t).array a else if c = a then (s.tile t).array b else (s.tile t).array c := fun c hc => by
    rw [array_of_arrays harrays, array_setArray _ _ _ hc, array_setArray _ _ _ hc]
  refine ⟨u, hexec, hleaves, ?_, (harray b hb).trans (if_pos rfl), fun c hca hcb hc => ?_, hacc, hmem⟩
  · rw [harray a ha, if_pos rfl]
    split
    · rw [‹a = b›]
    · rfl
  · rw [harray c hc, if_neg hcb, if_neg hca]

theorem complete_accz {a : Nat} (hop : j.op = .accz a) :
    ∃ u, exec (.matrixOpComplete t k) s = .next u ∧ Spec.leaves s u t k ∧ u.mem = s.mem ∧ (u.tile t).arrays = (s.tile t).arrays ∧
      ∀ n, n < 128 → (u.tile t).accRow a n = {} ∧ ∀ b, b ≠ a → (u.tile t).accRow b n = (s.tile t).accRow b n := by
  obtain ⟨u, hexec, hleaves, hmem, harrays, hacc⟩ :=
    exec_setTile ((s.tile t).clearAcc a) h (by rw [hop]; rfl) rfl fun r hread => by simp only [State.performJob, hop, hread.tile]
  have hrow := fun b n (hn : n < 128) => (accRow_of_acc hacc b n).trans (accRow_clearAcc _ a b hn)
  exact ⟨u, hexec, hleaves, hmem, harrays,
    fun n hn => ⟨(hrow a n hn).trans (if_pos rfl), fun b hb => (hrow b n hn).trans (if_neg hb)⟩⟩

theorem complete_accwr {a : Nat} {row : BitVec 64} {d : BitVec 2048} {p : Bool} (hop : j.op = .accwr a row d p) :
    ∃ u, exec (.matrixOpComplete t k) s = .next u ∧ Spec.leaves s u t k ∧ u.mem = s.mem ∧ (u.tile t).arrays = (s.tile t).arrays ∧
      (∀ i, i < 128 → Spec.accWord ((u.tile t).accRow a (bitsAt row 0 7)) i =
        if (64 ≤ i) = (row.getLsbD 7 = true) then d.toNat / 2 ^ (32 * (i % 64)) % 2 ^ 32
        else Spec.accWord ((s.tile t).accRow a (bitsAt row 0 7)) i) ∧
      ((u.tile t).accRow a (bitsAt row 0 7)).pois = (((s.tile t).accRow a (bitsAt row 0 7)).pois || p) ∧
      ∀ b c, (b ≠ a ∨ c ≠ bitsAt row 0 7) → c < 128 → (u.tile t).accRow b c = (s.tile t).accRow b c := by
  obtain ⟨u, hexec, hleaves, hmem, harrays, hacc⟩ :=
    exec_setTile ((s.tile t).setAccRow a (rwRow row) (writeHalf ((s.tile t).accRow a (rwRow row)) (rwHalf row) d p)) h
      (by rw [hop]; rfl) rfl fun r hread => by simp only [State.performJob, hop, hread.tile]
  have hplace : bitsAt row 0 7 < 128 := Nat.mod_lt _ (by decide)
  have hrow := fun b c (hc : c < 128) => (accRow_of_acc hacc b c).trans (accRow_setAccRow _ _ a b (c := bitsAt row 0 7) hplace hc)
  have hthis := (hrow a _ hplace).trans (if_pos ⟨rfl, rfl⟩)
  refine ⟨u, hexec, hleaves, hmem, harrays, fun i hi => ?_, ?_, fun b c hne hc => (hrow b c hc).trans (if_neg ?_)⟩
  · rw [hthis]
    exact accWord_writeHalf _ _ _ _ hi
  · rw [hthis]
    rfl
  · rintro ⟨hb, hc⟩
    exact hne.elim (· hb) (· hc)

end Registers

/-! ## MATRIX_OP_COMPLETE of operations on rows (08 R170, R171, R173, R179) -/

section Rows

variable {s : State} {t k : Nat} {j : MatJob} (h : Spec.completes s t k j)
include h

/-- An operation whose work is to pass rows of A. -/
theorem complete_passes {arr acc : Nat} {a w : BitVec 64} {row : Nat → ARow} (hs : j.op.stepwise = false)
    (hp : ∀ r, OnlyRead s r → r.performJob t j = r.passRows t arr acc (cwRow w) (awScl a) (awIacc a) false row (awRows a) 0) :
    ∃ u, exec (.matrixOpComplete t k) s = .next u ∧ Spec.leaves s u t k ∧ u.mem = s.mem ∧ (u.tile t).arrays = (s.tile t).arrays ∧
      (u.tile t).macrows = (s.tile t).macrows + BitVec.ofNat 64 (awRows a) ∧
      ∀ c, c < 128 → (∀ n, n ≠ acc → (u.tile t).accRow n c = (s.tile t).accRow n c) ∧
        (u.tile t).accRow acc c = (Spec.rowsInto (cwRow w) (awRows a) c).foldl
          (fun x i => passRow ((s.tile t).array arr) (awScl a) (awIacc a) false (row i) x) ((s.tile t).accRow acc c) := by
  obtain ⟨r, hread, hwork⟩ := exec_complete h hs
  obtain ⟨honly, hmem, harrays, hmacrows, hother, hrow⟩ :=
    passed_passRows r t arr acc (cwRow w) (awScl a) (awIacc a) false row (awRows a) 0
  obtain ⟨u, hexec, hends⟩ := hwork _ (hp r hread) honly
  rw [hread.tile] at harrays hmacrows hother hrow
  refine ⟨u, hexec, hends.leaves, hends.mem.trans (hmem.trans hread.mem), hends.arrays.trans harrays, hends.macrows.trans hmacrows,
    fun c hc => ⟨fun n hn => (hends.accRow n c).trans (hother n c hc hn), (hends.accRow acc c).trans ((hrow c hc).trans ?_)⟩⟩
  rw [Spec.rowsInto, List.range_eq_range']

theorem complete_mma {arr acc : Nat} {a w : BitVec 64} (hop : j.op = .mma arr acc a w) (hstrm : awStrm a = false) :
    ∃ u, exec (.matrixOpComplete t k) s = .next u ∧ Spec.leaves s u t k ∧ u.mem = s.mem ∧ (u.tile t).arrays = (s.tile t).arrays ∧
      (u.tile t).macrows = (s.tile t).macrows + BitVec.ofNat 64 (awRows a) ∧
      ∀ c, c < 128 →
        (∀ n, n ≠ acc → (u.tile t).accRow n c = (s.tile t).accRow n c) ∧
        (∀ i, i < 128 → Spec.accWord ((u.tile t).accRow acc c) i =
          Spec.mmaWord ((s.tile t).array arr) (awScl a) (awIacc a)
            (fun n => Spec.aCodes s t (j.aFmt a) (awOff a + n * awStride a))
            (fun n => Spec.aVals s t (j.aFmt a) (awScl a) (awOff a + n * awStride a) (j.soff w) (j.boff w) n) i
            (Spec.accWord ((s.tile t).accRow acc c) i) (Spec.rowsInto (cwRow w) (awRows a) c)) ∧
        (((u.tile t).accRow acc c).pois = true ↔ ((s.tile t).accRow acc c).pois = true ∨
          ∃ n ∈ Spec.rowsInto (cwRow w) (awRows a) c, ((s.tile t).array arr).pois = true ∨
            s.padPoison t (awOff a + n * awStride a) (rowBytes (j.aFmt a)) = true) := by
  obtain ⟨u, hexec, hleaves, hmem, harrays, hmacrows, hrows⟩ := complete_passes h (arr := arr) (acc := acc) (w := w)
    (row := s.aRow t (j.aFmt a) (awScl a) (awOff a) (awStride a) (j.soff w) (j.boff w)) (a := a)
    (by simp [hop, MatOp.stepwise, MatOp.port, hstrm])
    fun r hread => by simp only [State.performJob, hop, aRow_congr hread.padBytes hread.padPoison]
  refine ⟨u, hexec, hleaves, hmem, harrays, hmacrows, fun c hc => ?_⟩
  obtain ⟨hother, hrow⟩ := hrows c hc
  refine ⟨hother, fun i hi => ?_, ?_⟩
  · rw [hrow, accWord_foldl_passRow _ _ _ _ hi]
    simp only [codes_aRow, vals_aRow]
  · rw [hrow, pois_foldl_passRow]
    rfl

theorem complete_mmat {arr acc : Nat} {a w : BitVec 64} (hop : j.op = .mmat arr acc a w) :
    ∃ u, exec (.matrixOpComplete t k) s = .next u ∧ Spec.leaves s u t k ∧ u.mem = s.mem ∧ (u.tile t).arrays = (s.tile t).arrays ∧
      (u.tile t).macrows = (s.tile t).macrows + BitVec.ofNat 64 (awRows a) ∧
      ∀ c, c < 128 →
        (∀ n, n ≠ acc → (u.tile t).accRow n c = (s.tile t).accRow n c) ∧
        (∀ i, i < 128 → Spec.accWord ((u.tile t).accRow acc c) i =
          Spec.mmaWord ((s.tile t).array arr) (awScl a) (awIacc a)
            (fun n => Spec.tCodes s t (j.aFmt a) (awOff a) (awStride a) (awRows a) n)
            (fun n => Spec.tVals s t (j.aFmt a) (awScl a) (awOff a) (awStride a) (awRows a) (j.boff w) n) i
            (Spec.accWord ((s.tile t).accRow acc c) i) (Spec.rowsInto (cwRow w) (awRows a) c)) ∧
        (((u.tile t).accRow acc c).pois = true ↔ ((s.tile t).accRow acc c).pois = true ∨
          ∃ n ∈ Spec.rowsInto (cwRow w) (awRows a) c, ((s.tile t).array arr).pois = true ∨
            ∃ i, i < 128 ∧
              s.padPoison t (awOff a + i * awStride a + n * (matWidth (j.aFmt a) / 8)) (matWidth (j.aFmt a) / 8) = true) := by
  obtain ⟨u, hexec, hleaves, hmem, harrays, hmacrows, hrows⟩ := complete_passes h (arr := arr) (acc := acc) (w := w)
    (row := s.aRowT t (j.aFmt a) (awScl a) (awOff a) (awStride a) (awRows a) (j.boff w)) (a := a) (by rw [hop]; rfl)
    fun r hread => by simp only [State.performJob, hop, aRowT_congr hread.padBytes hread.padPoison]
  refine ⟨u, hexec, hleaves, hmem, harrays, hmacrows, fun c hc => ?_⟩
  obtain ⟨hother, hrow⟩ := hrows c hc
  have hin : ∀ n ∈ Spec.rowsInto (cwRow w) (awRows a) c, n < awRows a := fun n hn => List.mem_range.1 (List.mem_filter.1 hn).1
  refine ⟨hother, fun i hi => ?_, ?_⟩
  · rw [hrow, accWord_foldl_passRow _ _ _ _ hi]
    exact mmaWord_congr _ _ _ _ _ (fun n hn => codes_aRowT _ _ _ _ _ _ _ (hin n hn)) fun n hn => vals_aRowT _ _ _ _ _ _ _ (hin n hn)
  · rw [hrow, pois_foldl_passRow]
    simp only [pois_aRowT]

/-- A stream-fed operation that has all its rows, or whose stream has ended, leaves. -/
theorem complete_stream (hport : j.op.port.isSome = true) (hidle : ∀ p, (s.tile t).feeding p = none)
    (hdone : j.ended = true ∨ j.op.rows ≤ j.rows) :
    ∃ u, exec (.matrixOpComplete t k) s = .next u ∧ Spec.leaves s u t k ∧ (u.tile t).acc = (s.tile t).acc ∧
      (u.tile t).arrays = (s.tile t).arrays ∧ u.mem = s.mem := by
  have hends := endJob_ends j h ((OnlyRead.refl s).unitOnly t)
  refine ⟨_, ?_, hends.leaves, hends.acc, hends.arrays, hends.mem⟩
  obtain ⟨_, hjob, hstarted, _⟩ := h
  have hstep : j.op.stepwise = true := by
    unfold MatOp.stepwise
    split
    · rfl
    · exact hport
  have harm : exec (.matrixOpComplete t k) s = execMatrixOpComplete t k s := rfl
  rw [harm, execMatrixOpComplete, hjob]
  have hfed : j.op.port.isNone = false := by simpa [Option.isNone_eq_false_iff] using hport
  simp [hstarted, hstep, hfed, feed_of_idle hidle, hjob, hdone]

end Rows

/-! ## ACCSCL (08 R179) -/

theorem scaleWord_lt (e : Bool) (s m f : Val) (x : Nat) : scaleWord e s m f x < 2 ^ 32 := by
  unfold scaleWord
  split <;> exact f32Code_lt _

/-- An accumulator row scaled by entry c of the tables of an ACCSCL. -/
def accScaled (s : State) (t : Nat) (e : Bool) (w : BitVec 64) (c : Nat) (x : AccRow) : AccRow :=
  { bits := BitVec.ofNat 4096 (joinLanes 32 ((splitLanes 32 128 x.bits.toNat).map (scaleWord e (f32Val (bitsAt w 20 32))
      (f32Val (leNat (s.padBytes t (bitsAt w 0 20 + 4 * c) 4))) (f32Val (leNat (s.padBytes t (bitsAt w 0 20 + 512 + 4 * c) 4))))))
    pois := x.pois || s.padPoison t (bitsAt w 0 20 + 512 + 4 * c) 4 || s.padPoison t (bitsAt w 0 20 + 4 * c) 4 }

theorem scaleRows_succ (s : State) (t acc : Nat) (e : Bool) (w : BitVec 64) (n c : Nat) :
    s.scaleRows t acc e w (n + 1) c =
      (s.setTile t ((s.tile t).setAccRow acc c (accScaled s t e w c ((s.tile t).accRow acc c)))).scaleRows t acc e w n (c + 1) := rfl

theorem accWord_accScaled (s : State) (t : Nat) (e : Bool) (w : BitVec 64) (c : Nat) (x : AccRow) {i : Nat} (hi : i < 128) :
    Spec.accWord (accScaled s t e w c x) i =
      scaleWord e (f32Val (bitsAt w 20 32)) (f32Val (leNat (s.padBytes t (bitsAt w 0 20 + 4 * c) 4)))
        (f32Val (leNat (s.padBytes t (bitsAt w 0 20 + 512 + 4 * c) 4))) (Spec.accWord x i) := by
  rw [accScaled, accWord_joinLanes _ _ hi, splitLanes_accRow, List.map_map, Vector.laneAt_range_map _ hi]
  exact Nat.mod_eq_of_lt (scaleWord_lt ..)

theorem pois_accScaled (s : State) (t : Nat) (e : Bool) (w : BitVec 64) (c : Nat) (x : AccRow) :
    (accScaled s t e w c x).pois = true ↔ x.pois = true ∨ s.padPoison t (bitsAt w 0 20 + 4 * c) 4 = true ∨
      s.padPoison t (bitsAt w 0 20 + 512 + 4 * c) 4 = true := by
  simp [accScaled, or_assoc, or_comm (a := s.padPoison t (bitsAt w 0 20 + 4 * c) 4 = true)]

theorem accScaled_congr {s u : State} (hb : u.padBytes = s.padBytes) (hp : u.padPoison = s.padPoison) :
    accScaled u = accScaled s := by
  funext t e w c x
  simp only [accScaled, hb, hp]

/-- Rows c to c + n - 1 of an accumulator are scaled, each once. -/
theorem scaleRows_leaves (s : State) (t acc : Nat) (e : Bool) (w : BitVec 64) (n c : Nat) :
    UnitOnly t s (s.scaleRows t acc e w n c) ∧ (s.scaleRows t acc e w n c).mem = s.mem ∧
      ((s.scaleRows t acc e w n c).tile t).arrays = (s.tile t).arrays ∧
      ∀ b d, d < 128 → c + n ≤ 128 → ((s.scaleRows t acc e w n c).tile t).accRow b d =
        if b = acc ∧ c ≤ d ∧ d < c + n then accScaled s t e w d ((s.tile t).accRow acc d) else (s.tile t).accRow b d := by
  induction n generalizing s c with
  | zero =>
    refine ⟨(OnlyRead.refl s).unitOnly t, rfl, rfl, fun b d _ _ => ?_⟩
    rw [if_neg (by omega)]
    rfl
  | succ n ih =>
    obtain ⟨honly, hmem, harrays, hrow⟩ :=
      ih (s.setTile t ((s.tile t).setAccRow acc c (accScaled s t e w c ((s.tile t).accRow acc c)))) (c + 1)
    simp only [tile_setTile_same] at harrays hrow
    rw [scaleRows_succ]
    refine ⟨(unitOnly_setTile rfl).trans honly, hmem, harrays, fun b d hd hn => ?_⟩
    have hc : c < 128 := by omega
    rw [hrow b d hd (by omega), accRow_setAccRow _ _ _ _ hc hd, accRow_setAccRow _ _ _ _ hc hd]
    by_cases hb : b = acc
    · by_cases hdc : d = c
      · subst hb hdc
        rw [if_neg (by omega), if_pos ⟨rfl, rfl⟩, if_pos ⟨rfl, by omega, by omega⟩]
      · have hrest : (b = acc ∧ c + 1 ≤ d ∧ d < c + 1 + n) ↔ (b = acc ∧ c ≤ d ∧ d < c + (n + 1)) := by omega
        simp only [hrest, hdc, and_false, if_false]
        rfl
    · simp [hb]

theorem complete_accscl {s : State} {t k : Nat} {j : MatJob} {a : Nat} {e : Bool} {w : BitVec 64} (h : Spec.completes s t k j)
    (hop : j.op = .accscl a e w) :
    ∃ u, exec (.matrixOpComplete t k) s = .next u ∧ Spec.leaves s u t k ∧ u.mem = s.mem ∧ (u.tile t).arrays = (s.tile t).arrays ∧
      (∀ c, c < 128 →
        (∀ i, i < 128 → Spec.accWord ((u.tile t).accRow a c) i =
          scaleWord e (f32Val (bitsAt w 20 32)) (f32Val (leNat (s.padBytes t (bitsAt w 0 20 + 4 * c) 4)))
            (f32Val (leNat (s.padBytes t (bitsAt w 0 20 + 512 + 4 * c) 4))) (Spec.accWord ((s.tile t).accRow a c) i)) ∧
        (((u.tile t).accRow a c).pois = true ↔ ((s.tile t).accRow a c).pois = true ∨
          s.padPoison t (bitsAt w 0 20 + 4 * c) 4 = true ∨ s.padPoison t (bitsAt w 0 20 + 512 + 4 * c) 4 = true)) ∧
      ∀ b c, b ≠ a → c < 128 → (u.tile t).accRow b c = (s.tile t).accRow b c := by
  obtain ⟨r, hread, hwork⟩ := exec_complete h (by rw [hop]; rfl)
  obtain ⟨honly, hmem, harrays, hrow⟩ := scaleRows_leaves r t a e w 128 0
  obtain ⟨u, hexec, hends⟩ := hwork _ (by simp only [State.performJob, hop]) honly
  rw [hread.tile] at harrays hrow
  rw [accScaled_congr hread.padBytes hread.padPoison] at hrow
  refine ⟨u, hexec, hends.leaves, hends.mem.trans (hmem.trans hread.mem), hends.arrays.trans harrays, fun c hc => ?_,
    fun b c hb hc => ?_⟩
  · have hthis : (u.tile t).accRow a c = accScaled s t e w c ((s.tile t).accRow a c) := by
      rw [hends.accRow, hrow a c hc le_rfl, if_pos ⟨rfl, by omega, by omega⟩]
    rw [hthis]
    exact ⟨fun i hi => accWord_accScaled _ _ _ _ _ _ hi, pois_accScaled _ _ _ _ _ _⟩
  · rw [hends.accRow, hrow b c hc le_rfl, if_neg fun hx => hb hx.1]

end Sys2Proof.MatrixUnit
end

section
/-! The family 08_matrix, stores of an accumulator: O49, what ACCST and ACCSTAT leave in the scratchpad and in the F bits of its lines
(08 R177, R178). -/

namespace Sys2Proof.MatrixUnit

open Machine Laws

/-! ## Rows stored with their F bits (08 R174, R177) -/

section Stored

variable {s u : State} (h : u = { s with mem := u.mem, lines := u.lines })
include h

theorem tile_of_stored (t : Nat) : u.tile t = s.tile t := by
  have htiles : u.tiles = s.tiles := by rw [h]
  exact congrArg (fun l => kvGet ({} : Tile) l t) htiles

/-- A state that differs from s in memory and lines only is changed by no more than work in the unit. -/
theorem unitOnly_of_stored (t : Nat) : UnitOnly t s u :=
  ⟨by rw [tile_of_stored h], fun n _ => tile_of_stored h n, by rw [h], by rw [h], by rw [h]⟩

end Stored

theorem stored_trans {s p u : State} (h : p = { s with mem := p.mem, lines := p.lines })
    (g : u = { p with mem := u.mem, lines := u.lines }) : u = { s with mem := u.mem, lines := u.lines } := by rw [g, h]

theorem FullSet.stored {f : Bool} {l : List Nat} {s u : State} (h : FullSet f l s u) :
    u = { s with mem := u.mem, lines := u.lines } := by rw [h.rest]

/-- Rows i to i + n - 1 stand at their offsets in tile t's scratchpad, each where no later one is written over it, and their lines
have F where f says so. -/
structure StoredRows (t : Nat) (off : Nat → Nat) (row : Nat → List Byte) (f : Bool) (n i : Nat) (s u : State) : Prop where
  rest : u = { s with mem := u.mem, lines := u.lines }
  sound : Sound u
  bytes : ∀ m, i ≤ m → m < i + n →
    (∀ l x y, m < l → l < i + n → x < (row m).length → y < (row l).length → (off m + x) % 2 ^ 20 ≠ (off l + y) % 2 ^ 20) →
    ∀ x b, (row m)[x]? = some b → u.mem.read (padLoc t ((off m + x) % 2 ^ 20)) = b
  frame : ∀ l, (∀ m x, i ≤ m → m < i + n → x < (row m).length → l ≠ padLoc t ((off m + x) % 2 ^ 20)) → u.mem.read l = s.mem.read l
  set : f = true → ∀ k, ((s.line k).full = true ∨ ∃ m, i ≤ m ∧ m < i + n ∧ k ∈ padLines t (off m) (row m).length) →
    (u.line k).full = true
  unset : f = false → ∀ k, (u.line k).full = (s.line k).full

theorem StoredRows.none {s : State} (hs : Sound s) (t : Nat) (off : Nat → Nat) (row : Nat → List Byte) (f : Bool) (i : Nat) :
    StoredRows t off row f 0 i s s where
  rest := rfl
  sound := hs
  bytes m h1 h2 := by omega
  frame _ _ := rfl
  set _ k h := by
    obtain hfull | ⟨m, h1, h2, _⟩ := h
    · exact hfull
    · omega
  unset _ _ := rfl

/-- One row, its bytes written and then its lines filled where f says so. -/
theorem storedRows_one {t : Nat} {off : Nat → Nat} {row : Nat → List Byte} {f : Bool} {i : Nat} {s p : State} (ht : t < 1088)
    (h : Written t (off i) (row i) s p) :
    StoredRows t off row f 1 i s (if f then p.setFull true (padLines t (off i) (row i).length) else p) := by
  obtain ⟨hrest, hsound, hbytes, hframe, hfull⟩ := h
  have hthis : ∀ m, i ≤ m → m < i + 1 → m = i := by omega
  have hread : ∀ u : State, u.mem = p.mem →
      (∀ m, i ≤ m → m < i + 1 → ∀ x b, (row m)[x]? = some b → u.mem.read (padLoc t ((off m + x) % 2 ^ 20)) = b) ∧
      ∀ l, (∀ m x, i ≤ m → m < i + 1 → x < (row m).length → l ≠ padLoc t ((off m + x) % 2 ^ 20)) → u.mem.read l = s.mem.read l := by
    intro u hu
    refine ⟨fun m h1 h2 x b hb => ?_, fun l hl => ?_⟩
    · rw [hthis m h1 h2] at hb ⊢
      exact hu ▸ hbytes x b hb
    · exact hu ▸ hframe l fun x hx => hl i x le_rfl (by omega) hx
  cases f with
  | false =>
    obtain ⟨hb, hf⟩ := hread p rfl
    exact ⟨hrest, hsound, fun m h1 h2 _ => hb m h1 h2, hf, nofun, fun _ => hfull⟩
  | true =>
    have hlines := fullSet_setFull true (l := padLines t (off i) (row i).length) hsound
      fun k hk => absentLoc_of_mem_padLines ht hk
    obtain ⟨hb, hf⟩ := hread _ hlines.mem
    rw [if_pos rfl]
    refine ⟨stored_trans hrest hlines.stored, hlines.sound, fun m h1 h2 _ => hb m h1 h2, hf, fun _ k hk => ?_, nofun⟩
    refine (hlines.full k).trans ?_
    split
    · rfl
    · obtain hk | ⟨m, h1, h2, hk⟩ := hk
      · rw [hfull, hk]
      · exact absurd (hthis m h1 h2 ▸ hk) ‹_›

/-- A row and then those behind it. -/
theorem StoredRows.cons {t : Nat} {off : Nat → Nat} {row : Nat → List Byte} {f : Bool} {n i : Nat} {s p u : State}
    (h : StoredRows t off row f 1 i s p) (g : StoredRows t off row f n (i + 1) p u) : StoredRows t off row f (n + 1) i s u where
  rest := stored_trans h.rest g.rest
  sound := g.sound
  bytes m h1 h2 hfree x b hb := by
    by_cases hm : m = i
    · have hin : x < (row m).length := (List.getElem?_eq_some_iff.1 hb).1
      rw [g.frame _ fun l y hl1 hl2 hy heq => hfree l x y (by omega) (by omega) hin hy (padLoc_inj.1 heq)]
      exact h.bytes m h1 (by omega) (fun l _ _ hl1 hl2 => by omega) x b hb
    · exact g.bytes m (by omega) (by omega) (fun l x y hl1 hl2 => hfree l x y hl1 (by omega)) x b hb
  frame l hl :=
    (g.frame l fun m x h1 h2 => hl m x (by omega) (by omega)).trans (h.frame l fun m x h1 h2 => hl m x h1 (by omega))
  set hf k hk := by
    refine g.set hf k ?_
    obtain hk | ⟨m, h1, h2, hk⟩ := hk
    · exact .inl (h.set hf k (.inl hk))
    · by_cases hm : m = i
      · exact .inl (h.set hf k (.inr ⟨m, h1, by omega, hk⟩))
      · exact .inr ⟨m, by omega, by omega, hk⟩
  unset hf k := (g.unset hf k).trans (h.unset hf k)

/-- A part of a row that no later one is written over, read back. -/
theorem StoredRows.padBytes {t : Nat} {off : Nat → Nat} {row : Nat → List Byte} {f : Bool} {n i : Nat} {s u : State}
    (h : StoredRows t off row f n i s u) {m a c : Nat} (h1 : i ≤ m) (h2 : m < i + n)
    (hfree : ∀ l x y, m < l → l < i + n → x < (row m).length → y < (row l).length → (off m + x) % 2 ^ 20 ≠ (off l + y) % 2 ^ 20)
    (hin : a + c ≤ (row m).length) : u.padBytes t (off m + a) c = ((row m).drop a).take c :=
  padBytes_of_bytes (h.bytes m h1 h2 hfree) hin

/-- MATRIX_OP_COMPLETE of an operation whose work only stores. -/
theorem exec_stored {s : State} {t k : Nat} {j : MatJob} (h : Spec.completes s t k j) (hs : j.op.stepwise = false)
    (hc : Canonical s) :
    ∃ r, OnlyRead s r ∧ Sound r ∧ ∀ p, r.performJob t j = p → p = { r with mem := p.mem, lines := p.lines } →
      ∃ u, exec (.matrixOpComplete t k) s = .next u ∧ Ends t k s p u ∧ (u.tile t).acc = (s.tile t).acc ∧
        (u.tile t).arrays = (s.tile t).arrays := by
  obtain ⟨r, hread, hwork⟩ := exec_complete h hs
  obtain ⟨_, _, _, _, hgood, _⟩ := h
  refine ⟨r, hread, hread.sound ⟨hc, hgood⟩, fun p hp hrest => ?_⟩
  obtain ⟨u, hexec, hends⟩ := hwork p hp (unitOnly_of_stored hrest t)
  have htile : p.tile t = s.tile t := (tile_of_stored hrest t).trans (hread.tile t)
  exact ⟨u, hexec, hends, htile ▸ hends.acc, htile ▸ hends.arrays⟩

/-! ## ACCST (08 R177) -/

/-- The offset of row i of an ACCST. -/
def accstOff (w : BitVec 64) (i : Nat) : Nat := bitsAt w 0 20 + i * bitsAt w 20 20

/-- The accumulator row that is row i of an ACCST. -/
def accstRow (s : State) (t acc : Nat) (w : BitVec 64) (i : Nat) : AccRow := (s.tile t).accRow acc ((bitsAt w 40 7 + i) % 128)

/-- Row i of an ACCST is stored. -/
def storeRow (s : State) (t acc : Nat) (w : BitVec 64) (i : Nat) : State :=
  let x := accstRow s t acc w i
  let p := s.padWrite t (accstOff w i) (outRow (bitsAt w 54 3) x) x.pois
  if w.getLsbD 57 then p.setFull true (padLines t (accstOff w i) (outRow (bitsAt w 54 3) x).length) else p

theorem storeRows_succ (s : State) (t acc : Nat) (w : BitVec 64) (n i : Nat) :
    s.storeRows t acc w (n + 1) i = (storeRow s t acc w i).storeRows t acc w n (i + 1) := rfl

theorem storedRows_storeRows {t : Nat} (ht : t < 1088) (acc : Nat) (w : BitVec 64) (n i : Nat) {s : State} (hs : Sound s) :
    StoredRows t (accstOff w) (fun m => outRow (bitsAt w 54 3) (accstRow s t acc w m)) (w.getLsbD 57) n i s
      (s.storeRows t acc w n i) := by
  induction n generalizing s i with
  | zero => exact .none hs _ _ _ _ _
  | succ n ih =>
    have hone : StoredRows t (accstOff w) (fun m => outRow (bitsAt w 54 3) (accstRow s t acc w m)) (w.getLsbD 57) 1 i s
        (storeRow s t acc w i) :=
      storedRows_one ht (written_padWrite _ hs ht (by rw [length_outRow]; exact (outBytes_le _).trans (by decide)))
    have hacc : ∀ m, accstRow (storeRow s t acc w i) t acc w m = accstRow s t acc w m := fun m =>
      accRow_of_acc (tile_of_stored hone.rest t ▸ rfl) _ _
    have hrest := ih (i + 1) hone.sound
    simp only [hacc] at hrest
    rw [storeRows_succ]
    exact hone.cons hrest

theorem complete_accst {s : State} {t k : Nat} {j : MatJob} {a m : Nat} {w : BitVec 64} (h : Spec.completes s t k j)
    (hop : j.op = .accst a w) (hm : m = bitsAt w 47 7 + 1) (hc : Canonical s) :
    ∃ u, exec (.matrixOpComplete t k) s = .next u ∧
      Spec.leaves s u t k ∧ (u.tile t).acc = (s.tile t).acc ∧ (u.tile t).arrays = (s.tile t).arrays ∧
      (∀ n, n < m →
        (∀ i x y, n < i → i < m → x < outBytes (bitsAt w 54 3) → y < outBytes (bitsAt w 54 3) →
          (bitsAt w 0 20 + n * bitsAt w 20 20 + x) % 2 ^ 20 ≠ (bitsAt w 0 20 + i * bitsAt w 20 20 + y) % 2 ^ 20) →
        ∀ i, i < 128 →
          leNat (u.padBytes t (bitsAt w 0 20 + n * bitsAt w 20 20 + outBytes (bitsAt w 54 3) / 128 * i)
              (outBytes (bitsAt w 54 3) / 128)) =
            Spec.outLane (bitsAt w 54 3) (Spec.accWord ((s.tile t).accRow a ((bitsAt w 40 7 + n) % 128)) i)) ∧
      (w.getLsbD 57 = true → ∀ n, n < m → ∀ l ∈ padLines t (bitsAt w 0 20 + n * bitsAt w 20 20) (outBytes (bitsAt w 54 3)),
        (u.line l).full = true) ∧
      (w.getLsbD 57 = false → ∀ l, (u.line l).full = (s.line l).full) ∧
      (∀ l, (∀ n x, n < m → x < outBytes (bitsAt w 54 3) → l ≠ padLoc t ((bitsAt w 0 20 + n * bitsAt w 20 20 + x) % 2 ^ 20)) →
        u.mem.read l = s.mem.read l) := by
  obtain ⟨r, hread, hsound, hwork⟩ := exec_stored h (by rw [hop]; rfl) hc
  have hstored := storedRows_storeRows h.1 a w m 0 hsound
  obtain ⟨u, hexec, hends, hacc, harrays⟩ := hwork (r.storeRows t a w m 0) (by simp only [State.performJob, hop, hm]) hstored.rest
  simp only [accstRow, hread.tile] at hstored
  obtain ⟨_, _, _, hframe, hset, hunset⟩ := id hstored
  simp only [length_outRow, Nat.zero_add, Nat.zero_le, true_implies, true_and] at hframe hset
  refine ⟨u, hexec, hends.leaves, hacc, harrays, fun n hn hfree i hi => ?_, fun hf n hn l hl => ?_, fun hf l => ?_, fun l hl => ?_⟩
  · rw [hends.padBytes, ← outRow_lane _ _ hi]
    refine congrArg leNat (hstored.padBytes (Nat.zero_le n) (by omega) ?_ ?_)
    · simp only [length_outRow, Nat.zero_add]
      exact hfree
    · rw [length_outRow]
      exact lane_le_outBytes _ hi
  · rw [hends.line]
    exact hset hf l (.inr ⟨n, hn, hl⟩)
  · rw [hends.line, hunset hf, hread.full]
  · rw [hends.mem, hframe l hl, hread.mem]

/-! ## ACCSTAT (08 R178) -/

theorem map_fst_columnBytes (l : List (Val × Bool)) :
    (columnBytes l).map Prod.fst = l.flatMap fun x => toBytes (Machine.f32Code x.1) 4 := by
  simp [columnBytes, List.map_flatMap, Function.comp_def]

/-- A column of a table takes four bytes for each row. -/
theorem length_columnBytes (l : List (Val × Bool)) : (columnBytes l).length = 4 * l.length := by
  simp [columnBytes, length_toBytes, Nat.mul_comm]

/-- Entry c of a column. -/
theorem drop_columnBytes {l : List (Val × Bool)} {c : Nat} {x : Val × Bool} (h : l[c]? = some x) (rest : List Byte) :
    (((columnBytes l).map Prod.fst ++ rest).drop (4 * c)).take 4 = toBytes (Machine.f32Code x.1) 4 := by
  have hlen : ∀ v, (toBytes v 4).length = 4 := fun v => length_toBytes v 4
  rw [map_fst_columnBytes]
  induction l generalizing c with
  | nil => simp at h
  | cons y l ih =>
    rw [List.flatMap_cons, List.append_assoc]
    cases c with
    | zero =>
      rw [List.getElem?_cons_zero, Option.some_inj] at h
      rw [h, Nat.mul_zero, List.drop_zero, List.take_append_of_le_length (hlen _).ge, List.take_of_length_le (hlen _).le]
    | succ c =>
      rw [List.getElem?_cons_succ] at h
      rw [Nat.mul_succ, Nat.add_comm, ← List.drop_drop, List.drop_left' (hlen _), ih h]

theorem leNat_f32Code (v : Val) : leNat (toBytes (Machine.f32Code v) 4) = (fmtF32.roundVal .rne v).1 := by
  rw [leNat_toBytes]
  exact Nat.mod_eq_of_lt (f32Code_lt v)

/-- The table of an ACCSTAT. -/
def accstatTable (s : State) (t acc : Nat) (w : BitVec 64) : List (Byte × Bool) :=
  columnBytes (((List.range 128).map (s.statRow t acc w)).map fun r => (r.1, r.2.2)) ++
    columnBytes (((List.range 128).map (s.statRow t acc w)).map fun r => (r.2.1, r.2.2))

theorem statRows_eq (s : State) (t acc : Nat) (w : BitVec 64) :
    s.statRows t acc w = s.padWriteLines t (bitsAt w 0 20) (accstatTable s t acc w) (cutLines (bitsAt w 0 20) 1024 1025) := rfl

theorem length_accstatTable (s : State) (t acc : Nat) (w : BitVec 64) : (accstatTable s t acc w).length = 1024 := by
  simp [accstatTable, length_columnBytes]

theorem drop_accstatTable_max (s : State) (t acc : Nat) (w : BitVec 64) {c : Nat} (hc : c < 128) :
    (((accstatTable s t acc w).map Prod.fst).drop (4 * c)).take 4 = toBytes (Machine.f32Code (s.statRow t acc w c).1) 4 := by
  rw [accstatTable, List.map_append]
  exact drop_columnBytes (x := ((s.statRow t acc w c).1, (s.statRow t acc w c).2.2)) (by simp [hc]) _

theorem drop_accstatTable_sum (s : State) (t acc : Nat) (w : BitVec 64) {c : Nat} (hc : c < 128) :
    (((accstatTable s t acc w).map Prod.fst).drop (512 + 4 * c)).take 4 = toBytes (Machine.f32Code (s.statRow t acc w c).2.1) 4 := by
  rw [accstatTable, List.map_append, ← List.drop_drop, List.drop_left' (by simp [length_columnBytes]),
    ← List.append_nil (List.map _ _)]
  exact drop_columnBytes (x := ((s.statRow t acc w c).2.1, (s.statRow t acc w c).2.2)) (by simp [hc]) _

theorem complete_accstat {s : State} {t k : Nat} {j : MatJob} {a : Nat} {w : BitVec 64} (h : Spec.completes s t k j)
    (hop : j.op = .accstat a w) (hc : Canonical s) :
    ∃ u, exec (.matrixOpComplete t k) s = .next u ∧ Spec.leaves s u t k ∧
      (u.tile t).acc = (s.tile t).acc ∧ (u.tile t).arrays = (s.tile t).arrays ∧
      (∀ c, c < 128 → ∃ m x, (m, x) = rowStat (f32Val (bitsAt w 20 32))
          ((List.range 128).map fun i => f32Val (Spec.accWord ((s.tile t).accRow a c) i)) ∧
        leNat (u.padBytes t (bitsAt w 0 20 + 4 * c) 4) = (fmtF32.roundVal .rne m).1 ∧
        leNat (u.padBytes t (bitsAt w 0 20 + 512 + 4 * c) 4) = (fmtF32.roundVal .rne x).1) ∧
      (∀ l, (∀ x, x < 1024 → l ≠ padLoc t ((bitsAt w 0 20 + x) % 2 ^ 20)) → u.mem.read l = s.mem.read l) ∧
      ∀ l, (u.line l).full = (s.line l).full := by
  obtain ⟨r, hread, hsound, hwork⟩ := exec_stored h (by rw [hop]; rfl) hc
  have hlen := length_accstatTable r t a w
  have hwritten := written_padWriteLines (off := bitsAt w 0 20) (bs := accstatTable r t a w) h.1 (by omega) 1025 (a := bitsAt w 0 20)
    (n := 1024) hsound le_rfl (by decide) (by omega)
  rw [← statRows_eq, Nat.sub_self, List.drop_zero] at hwritten
  obtain ⟨u, hexec, hends, hacc, harrays⟩ := hwork (r.statRows t a w) (by simp only [State.performJob, hop]) hwritten.rest
  have hbytes : ∀ {d : Nat}, d + 4 ≤ 1024 → u.padBytes t (bitsAt w 0 20 + d) 4 =
      (((accstatTable r t a w).map Prod.fst).drop d).take 4 := fun hd => by
    rw [hends.padBytes, hwritten.padBytes (by rw [List.length_map]; omega)]
  refine ⟨u, hexec, hends.leaves, hacc, harrays, fun c hlt => ⟨(r.statRow t a w c).1, (r.statRow t a w c).2.1, ?_, ?_, ?_⟩,
    fun l hl => ?_, fun l => ?_⟩
  · rw [State.statRow, hread.tile, splitLanes_accRow, List.map_map]
    rfl
  · rw [hbytes (by omega), drop_accstatTable_max _ _ _ _ hlt, leNat_f32Code]
  · rw [Nat.add_assoc, hbytes (by omega), drop_accstatTable_sum _ _ _ _ hlt, leNat_f32Code]
  · rw [hends.mem, ← hread.mem]
    exact hwritten.frame l fun x hx => hl x (by rwa [List.length_map, hlen] at hx)
  · rw [hends.line, hwritten.full, hread.full]

end Sys2Proof.MatrixUnit
end

section
/-! The family 08_matrix, armed rows: ARMED_MMA_ROW waits for the lines of its row, passes the row and stores it; and O49, assembled
(08 R174, R175). -/

namespace Sys2Proof.MatrixUnit

open Machine Laws

/-! ## A row of an armed MMA (08 R174, R175) -/

/-- The lines the next row of an armed MMA is read from. -/
def armedIn (t : Nat) (j : MatJob) (a : BitVec 64) : List Nat := padLines t (awOff a + j.rows * awStride a) (rowBytes (j.aFmt a))

/-- The offset the next row of an armed MMA is stored to. -/
def armedOff (j : MatJob) (w : BitVec 64) : Nat := bitsAt w 0 20 + j.rows * bitsAt w 20 20

/-- The lines the next row of an armed MMA is stored to. -/
def armedOut (t : Nat) (j : MatJob) (w : BitVec 64) : List Nat := padLines t (armedOff j w) (outBytes (bitsAt w 40 3))

/-- The accumulator row the next row of an armed MMA passes into. -/
def armedPlace (j : MatJob) (w : BitVec 64) : Nat := (bitsAt w 45 7 + j.rows) % 128

/-- The next row of A of an armed MMA. -/
def armedA (s : State) (t : Nat) (j : MatJob) (a : BitVec 64) : ARow :=
  s.aRow t (j.aFmt a) (awScl a) (awOff a) (awStride a) j.scalep.toNat j.bandp.toNat j.rows

/-- The next row of an armed MMA leaves its accumulator row so. -/
def armedRowOf (s : State) (t : Nat) (j : MatJob) (arr acc : Nat) (a w : BitVec 64) : AccRow :=
  passRow ((s.tile t).array arr) (awScl a) (awIacc a) (w.getLsbD 43) (armedA s t j a) ((s.tile t).accRow acc (armedPlace j w))

theorem exec_armedMmaRow {s : State} {t k arr acc : Nat} {j : MatJob} {a w : BitVec 64} (hjob : (s.tile t).jobs[k]? = some j)
    (hstarted : j.started = true) (hop : j.op = .mmaa arr acc a w) (hpaths : (s.tile t).pathsHeld < 2) :
    exec (.armedMmaRow t k) s = .next (s.armedRow t k j arr acc a w) := by
  have harm : exec (.armedMmaRow t k) s = execArmedMmaRow t k s := rfl
  rw [harm, execArmedMmaRow, hjob]
  simp [hop, hstarted, hpaths]

section Armed

variable {s : State} {t k arr acc : Nat} {j : MatJob} {a w : BitVec 64}

theorem armedRow_waits (h : s.allFull true (armedIn t j a) = false ∨ s.allFull false (armedOut t j w) = false) :
    s.armedRow t k j arr acc a w = s := by
  have hnot : ¬ (s.allFull true (armedIn t j a) && s.allFull false (armedOut t j w)) = true := by
    rw [Bool.and_eq_true]
    rintro ⟨hin, hout⟩
    rw [hin, hout] at h
    simp at h
  exact if_neg hnot

/-- The row's step, part by part: its lines are read, it passes, it is stored, its lines change F, and it is counted. -/
theorem armedRow_eq {r v q p : State} {x : AccRow}
    (hfull : (s.allFull true (armedIn t j a) && s.allFull false (armedOut t j w)) = true)
    (hr : r = s.readPad t (armedIn t j a ++ rowTables t (j.aFmt a) (awScl a) j.scalep.toNat j.bandp.toNat j.rows))
    (hv : v = r.passRows t arr acc (armedPlace j w) (awScl a) (awIacc a) (w.getLsbD 43) (fun _ => armedA r t j a) 1 0)
    (hx : x = (v.tile t).accRow acc (armedPlace j w))
    (hq : q = (v.padWrite t (armedOff j w) (outRow (bitsAt w 40 3) x) x.pois).setFull true (armedOut t j w))
    (hp : p = if w.getLsbD 44 then q.setFull false (armedIn t j a) else q) :
    s.armedRow t k j arr acc a w = if j.rows + 1 = awRows a then p.endJob t k j
      else (p.modJob t k fun j' => { j' with rows := j.rows + 1 }).serve := by
  subst hr hv hx hq hp
  exact if_pos hfull

/-- What the row's step makes of s before the row is counted. -/
structure RowDone (s : State) (t arr acc : Nat) (j : MatJob) (a w : BitVec 64) (p : State) : Prop where
  only : UnitOnly t s p
  row : (p.tile t).accRow acc (armedPlace j w) = armedRowOf s t j arr acc a w
  lanes : ∀ i, i < 128 →
    leNat (p.padBytes t (armedOff j w + outBytes (bitsAt w 40 3) / 128 * i) (outBytes (bitsAt w 40 3) / 128)) =
      Spec.outLane (bitsAt w 40 3) (Spec.accWord (armedRowOf s t j arr acc a w) i)
  frame : ∀ l, (∀ x, x < outBytes (bitsAt w 40 3) → l ≠ padLoc t ((armedOff j w + x) % 2 ^ 20)) → p.mem.read l = s.mem.read l
  filled : ∀ n ∈ armedOut t j w, (p.line n).full = true
  emptied : ∀ n ∈ armedIn t j a, (p.line n).full = !w.getLsbD 44

/-- The state in which the row has passed, its lines marked as read in r. -/
def armedPassed (s r : State) (t : Nat) (j : MatJob) (arr acc : Nat) (a w : BitVec 64) : State :=
  r.setTile t (rowPassed (s.tile t) arr acc (armedPlace j w) (awScl a) (awIacc a) (w.getLsbD 43) (armedA s t j a))

theorem armedPlace_lt (j : MatJob) (w : BitVec 64) : armedPlace j w < 128 := Nat.mod_lt _ (by decide)

theorem passRows_armed {r : State} (hread : OnlyRead s r) : armedPassed s r t j arr acc a w =
    r.passRows t arr acc (armedPlace j w) (awScl a) (awIacc a) (w.getLsbD 43) (fun _ => armedA r t j a) 1 0 := by
  rw [passRows_one, hread.tile, Nat.add_zero, Nat.mod_eq_of_lt (armedPlace_lt j w), armedA, aRow_congr hread.padBytes hread.padPoison]
  rfl

theorem accRow_armedPassed (s r : State) : ((armedPassed s r t j arr acc a w).tile t).accRow acc (armedPlace j w) =
    armedRowOf s t j arr acc a w := by
  rw [armedPassed, tile_setTile_same, accRow_rowPassed _ _ _ _ _ _ _ _ (armedPlace_lt j w) (armedPlace_lt j w), if_pos ⟨rfl, rfl⟩,
    armedRowOf]

theorem unitOnly_armedPassed {r : State} (hread : OnlyRead s r) : UnitOnly t s (armedPassed s r t j arr acc a w) :=
  (hread.unitOnly t).trans (unitOnly_setTile (by rw [hread.tile]; rfl))

/-- The stored row with its lines, and the lines it was read from as F is left to them. -/
theorem rowDone_of_stored {r q p : State} (hread : OnlyRead s r)
    (hin : s.allFull true (armedIn t j a) = true) (hout : s.allFull false (armedOut t j w) = true)
    (hq : StoredRows t (fun _ => armedOff j w) (fun _ => outRow (bitsAt w 40 3) (armedRowOf s t j arr acc a w)) true 1 0
      (armedPassed s r t j arr acc a w) q)
    (hstored : p = { q with mem := p.mem, lines := p.lines }) (hmem : p.mem = q.mem)
    (hfull : ∀ n, (p.line n).full = if w.getLsbD 44 = true ∧ n ∈ armedIn t j a then false else (q.line n).full) :
    RowDone s t arr acc j a w p := by
  have hline : ∀ n, ((armedPassed s r t j arr acc a w).line n).full = (s.line n).full := hread.full
  have hwas : ∀ n ∈ armedIn t j a, (s.line n).full = true := fun n hn => beq_iff_eq.1 (List.all_eq_true.1 hin n hn)
  have hempty : ∀ n ∈ armedOut t j w, (s.line n).full = false := fun n hn => beq_iff_eq.1 (List.all_eq_true.1 hout n hn)
  have hset : ∀ n, (s.line n).full = true ∨ n ∈ armedOut t j w → (q.line n).full = true := fun n hn =>
    hq.set rfl n (hn.imp (hline n).trans fun h => ⟨0, le_rfl, Nat.one_pos, by rw [length_outRow]; exact h⟩)
  constructor
  case only => exact (unitOnly_armedPassed hread).trans (unitOnly_of_stored (stored_trans hq.rest hstored) t)
  case row => rw [tile_of_stored hstored, tile_of_stored hq.rest, accRow_armedPassed]
  case lanes =>
    intro i hi
    have hbytes := hq.padBytes (a := outBytes (bitsAt w 40 3) / 128 * i) (c := outBytes (bitsAt w 40 3) / 128) le_rfl Nat.one_pos
      (fun l _ _ h1 h2 => by omega) (by rw [length_outRow]; exact lane_le_outBytes _ hi)
    rw [State.padBytes, hmem, ← outRow_lane _ _ hi]
    exact congrArg leNat hbytes
  case frame =>
    intro l hl
    rw [hmem, hq.frame l fun m x _ _ hx => hl x (by rwa [length_outRow] at hx)]
    exact congrArg (fun m => m.read l) hread.mem
  case filled =>
    intro n hn
    have hother : n ∉ armedIn t j a := fun h =>
      Bool.noConfusion ((hwas n h).symm.trans (hempty n hn))
    rw [hfull, if_neg fun h => hother h.2]
    exact hset n (.inr hn)
  case emptied =>
    intro n hn
    rw [hfull]
    cases h44 : w.getLsbD 44 with
    | true => rw [if_pos ⟨rfl, hn⟩]; rfl
    | false => rw [if_neg (by simp)]; exact hset n (.inl (hwas n hn))

/-- The lines l have F as given if b says so. -/
theorem setFull_ite {q p : State} (f b : Bool) {l : List Nat} (hs : Sound q) (hl : ∀ k ∈ l, absentLoc (k * 128) = false)
    (hp : p = if b then q.setFull f l else q) : p = { q with mem := p.mem, lines := p.lines } ∧ p.mem = q.mem ∧
      ∀ n, (p.line n).full = if b = true ∧ n ∈ l then f else (q.line n).full := by
  have hset := fullSet_setFull f hs hl
  cases b with
  | true => subst hp; exact ⟨hset.stored, hset.mem, fun n => (hset.full n).trans (by simp)⟩
  | false => subst hp; exact ⟨rfl, rfl, fun n => by simp⟩

theorem armedRow_full (hin : s.allFull true (armedIn t j a) = true) (hout : s.allFull false (armedOut t j w) = true) (hs : Sound s)
    (ht : t < 1088) : ∃ p, RowDone s t arr acc j a w p ∧
      s.armedRow t k j arr acc a w = if j.rows + 1 = awRows a then p.endJob t k j
        else (p.modJob t k fun j' => { j' with rows := j.rows + 1 }).serve := by
  have hread := onlyRead_readPad hs.good t
    (armedIn t j a ++ rowTables t (j.aFmt a) (awScl a) j.scalep.toNat j.bandp.toNat j.rows)
  have heq := fun q hq => armedRow_eq (k := k) (q := q) (by rw [hin, hout]; rfl) rfl (passRows_armed hread)
    (accRow_armedPassed (t := t) (j := j) (arr := arr) (acc := acc) (a := a) (w := w) s _).symm hq rfl
  generalize s.readPad t _ = r at hread heq
  have hsound : Sound (armedPassed s r t j arr acc a w) := ⟨(hread.sound hs).canonical, (hread.sound hs).good⟩
  have hstored := storedRows_one (f := true) (off := fun _ => armedOff j w)
    (row := fun _ => outRow (bitsAt w 40 3) (armedRowOf s t j arr acc a w)) (i := 0) ht
    (written_padWrite (armedRowOf s t j arr acc a w).pois hsound ht (by rw [length_outRow]; exact (outBytes_le _).trans (by decide)))
  rw [if_pos rfl, length_outRow, ← armedOut] at hstored
  obtain ⟨hrest, hmem, hfull⟩ := setFull_ite false (w.getLsbD 44) hstored.sound
    (fun n (hn : n ∈ armedIn t j a) => absentLoc_of_mem_padLines ht hn) rfl
  exact ⟨_, rowDone_of_stored hread hin hout hstored hrest hmem hfull, heq _ rfl⟩

/-- The operation leaves with its last row; else its rows are counted. -/
theorem exec_armed_full (h : Spec.completes s t k j) (hop : j.op = .mmaa arr acc a w) (hpaths : (s.tile t).pathsHeld < 2)
    (hc : Canonical s) (hin : s.allFull true (armedIn t j a) = true) (hout : s.allFull false (armedOut t j w) = true) :
    ∃ u p, exec (.armedMmaRow t k) s = .next u ∧ RowDone s t arr acc j a w p ∧ u.mem = p.mem ∧ u.lines = p.lines ∧
      (u.tile t).acc = (p.tile t).acc ∧
      (j.rows + 1 = awRows a → (u.tile t).jobs = (s.tile t).jobs.eraseIdx k) ∧
      (j.rows + 1 ≠ awRows a → (u.tile t).jobs = (s.tile t).jobs.set k { j with rows := j.rows + 1 }) := by
  have hends := fun p => endJob_ends (p := p) j h
  obtain ⟨ht, hjob, hstarted, hretry, hgood, _⟩ := h
  obtain ⟨p, hdone, heq⟩ := armedRow_full (k := k) (arr := arr) (acc := acc) hin hout ⟨hc, hgood⟩ ht
  rw [exec_armedMmaRow hjob hstarted hop hpaths, heq]
  by_cases hlast : j.rows + 1 = awRows a
  · obtain ⟨⟨hjobs, _⟩, hmem, hlines, _, hacc, _⟩ := hends p hdone.only
    exact ⟨_, p, by rw [if_pos hlast], hdone, hmem, hlines, hacc, fun _ => hjobs, fun hne => absurd hlast hne⟩
  · have hserve : (p.modJob t k fun j' => { j' with rows := j.rows + 1 }).serve =
        p.modJob t k fun j' => { j' with rows := j.rows + 1 } :=
      serve_of_no_retry ((congrArg Fabric.retry hdone.only.fab).trans hretry)
    rw [if_neg hlast, hserve]
    refine ⟨_, p, rfl, hdone, rfl, rfl, by rw [State.modJob, tile_modTile_same], fun heq => absurd heq hlast, fun _ => ?_⟩
    rw [jobs_modJob, hdone.only.jobs, List.modify_eq_set_getElem?, hjob]
    rfl

theorem accWord_armedRowOf {i : Nat} (hi : i < 128) : Spec.accWord (armedRowOf s t j arr acc a w) i =
    Spec.mmaWord ((s.tile t).array arr) (awScl a) (awIacc a)
      (fun n => Spec.aCodes s t (j.aFmt a) (awOff a + n * awStride a))
      (fun n => Spec.aVals s t (j.aFmt a) (awScl a) (awOff a + n * awStride a) j.scalep.toNat j.bandp.toNat n) i
      (if w.getLsbD 43 then 0 else Spec.accWord ((s.tile t).accRow acc (armedPlace j w)) i) [j.rows] := by
  rw [armedRowOf, accWord_passRow _ _ _ _ _ _ hi, armedA, codes_aRow, vals_aRow]
  rfl

theorem armed_events (h : Spec.completes s t k j) (hop : j.op = .mmaa arr acc a w) (hpaths : (s.tile t).pathsHeld < 2)
    (hc : Canonical s) :
    ∃ ain out : List Nat, ain = padLines t (awOff a + j.rows * awStride a) (rowBytes (j.aFmt a)) ∧
      out = padLines t (bitsAt w 0 20 + j.rows * bitsAt w 20 20) (outBytes (bitsAt w 40 3)) ∧
      (s.allFull true ain = false ∨ s.allFull false out = false → exec (.armedMmaRow t k) s = .next s) ∧
      (s.allFull true ain = true → s.allFull false out = true →
        ∃ u y, exec (.armedMmaRow t k) s = .next u ∧ y = (u.tile t).accRow acc ((bitsAt w 45 7 + j.rows) % 128) ∧
          (∀ n ∈ out, (u.line n).full = true) ∧ (∀ n ∈ ain, (u.line n).full = !w.getLsbD 44) ∧
          (∀ i, i < 128 → Spec.accWord y i =
            Spec.mmaWord ((s.tile t).array arr) (awScl a) (awIacc a)
              (fun n => Spec.aCodes s t (j.aFmt a) (awOff a + n * awStride a))
              (fun n => Spec.aVals s t (j.aFmt a) (awScl a) (awOff a + n * awStride a) j.scalep.toNat j.bandp.toNat n) i
              (if w.getLsbD 43 then 0 else Spec.accWord ((s.tile t).accRow acc ((bitsAt w 45 7 + j.rows) % 128)) i) [j.rows]) ∧
          (∀ i, i < 128 →
            leNat (u.padBytes t (bitsAt w 0 20 + j.rows * bitsAt w 20 20 + outBytes (bitsAt w 40 3) / 128 * i)
              (outBytes (bitsAt w 40 3) / 128)) = Spec.outLane (bitsAt w 40 3) (Spec.accWord y i)) ∧
          (∀ l, (∀ x, x < outBytes (bitsAt w 40 3) → l ≠ padLoc t ((bitsAt w 0 20 + j.rows * bitsAt w 20 20 + x) % 2 ^ 20)) →
            u.mem.read l = s.mem.read l) ∧
          (j.rows + 1 = awRows a → (u.tile t).jobs = (s.tile t).jobs.eraseIdx k) ∧
          (j.rows + 1 ≠ awRows a → (u.tile t).jobs = (s.tile t).jobs.set k { j with rows := j.rows + 1 })) := by
  refine ⟨armedIn t j a, armedOut t j w, rfl, rfl, fun hwait => ?_, fun hin hout => ?_⟩
  · obtain ⟨_, hjob, hstarted, _⟩ := h
    rw [exec_armedMmaRow hjob hstarted hop hpaths, armedRow_waits hwait]
  · obtain ⟨u, p, hexec, hdone, hmem, hlines, hacc, hlast, hmore⟩ := exec_armed_full h hop hpaths hc hin hout
    obtain ⟨_, hrow, hlanes, hframe, hfilled, hemptied⟩ := hdone
    have hline : ∀ n, u.line n = p.line n := fun n => congrArg (fun l => kvGet ({} : LineMeta) l n) hlines
    refine ⟨u, armedRowOf s t j arr acc a w, hexec, ?_, fun n hn => ?_, fun n hn => ?_, fun i hi => accWord_armedRowOf hi,
      fun i hi => ?_, fun l hl => ?_, hlast, hmore⟩
    · rw [← hrow, accRow_of_acc hacc]
      rfl
    · rw [hline, hfilled n hn]
    · rw [hline, hemptied n hn]
    · rw [State.padBytes, hmem]
      exact hlanes i hi
    · rw [hmem]
      exact hframe l hl

end Armed

/-! ## The family's events -/

/-- Settles O49: an operation that completes makes of the state in which its lines are marked as read one that differs in arrays,
accumulators, memory and lines alone, and leaves the unit; each kind of operation has its own account of what it makes. -/
theorem matrixEvents : Obligations.MatrixEvents := by
  unfold Obligations.MatrixEvents
  refine ⟨?start, ⟨?feed, ?packet⟩, ⟨?bload, ?registers⟩, ⟨?mma, ?mmat, ?stream⟩, ?accumulators, ?armed⟩
  case start =>
    intro t s k j hnext hjob hfree hpaths
    refine ⟨_, rfl, exec_start hnext hjob hfree hpaths, fun hport => feed_of_idle (feeding_of_no_port ?_)⟩
    rw [jobs_modJob]
    exact forall_op_modify (P := fun op => op.port = none) (fun _ => rfl) hport
  case feed =>
    intro s t p n r k j q x rest hrun hfeed hpop hport hqueue
    have heq := feedMma_eq hrun hfeed hpop hport hqueue n
    exact ⟨fun hroom => by rw [heq, if_neg (by simp [hroom])], fun hroom => by rw [heq, if_pos hroom]⟩
  case packet =>
    intro s t k j arr acc a w x u hjob hop hhalf habort heot hgood hu
    refine ⟨fun htakes hfmt => ?_, fun htakes => ?_⟩
    · exact streamRow_leaves hjob hop hgood (hu.trans (packetRows_one hhalf habort heot htakes hfmt))
    · exact matrixStop_leaves hjob (hu.trans (packetRows_refused habort heot htakes))
  case bload =>
    intro t k s j a lw sw h hop ha
    obtain ⟨u, hexec, hleaves, hmem, hacc, hothers, hmatched, hload⟩ := complete_bload h hop ha
    refine ⟨u, hexec, hleaves, hmem, hacc, hothers, hmatched, fun hm => ⟨s.loadArray t ((s.tile t).array a) lw sw, bitsAt lw 40 3,
      (hload hm).symm, rfl, rfl, fmt_loadArray .., rtag_loadArray .., fun n k hn hk => codes_loadArray _ _ _ _ _ hn hk,
      fun hf n i hn hi => bsc_loadArray _ _ _ _ _ hf hn hi, bsc_loadArray_unscaled _ _ _ _ _, band0_loadArray ..,
      band1_loadArray .., pois_loadArray ..⟩⟩
  case registers =>
    intro t k s j h _
    exact ⟨fun a hop ha => complete_bclr h hop ha, fun a b hop ha hb => complete_bswap h hop ha hb⟩
  case mma =>
    intro t k s j arr acc a w h _ hop hstrm
    exact complete_mma h hop hstrm
  case mmat =>
    intro t k s j arr acc a w h _ hop _
    exact complete_mmat h hop
  case stream =>
    intro t k s j h hport hidle hdone
    exact complete_stream h hport hidle hdone
  case accumulators =>
    intro t k s j h _
    exact ⟨fun a hop => complete_accz h hop, fun a row d p hop => complete_accwr h hop,
      fun a w m hop hm hc => complete_accst h hop hm hc, fun a w hop hc => complete_accstat h hop hc,
      fun a e w hop => complete_accscl h hop⟩
  case armed =>
    intro t k s j arr acc a w h hop hpaths hc
    exact armed_events h hop hpaths hc

end Sys2Proof.MatrixUnit
end

section
/-! The family 09_memory_catalogue, errors that ECC cannot correct: O40. An error in a line, a register or a row is one update of what
holds it. What follows the loss of graph state touches instances only in their records and their being there, so that what is left of
the lost one stays lost. -/

namespace Sys2Proof.Errors

open Machine Laws

/-! ## Instances: where they come from (18 R382) -/

/-- The instances of u are among those of s, each as lost as it was. -/
def InstsFrom (s u : State) : Prop := ∀ j ∈ u.insts, ∃ i ∈ s.insts, j.id = i.id ∧ j.lost = i.lost

theorem InstsFrom.of_eq {s u : State} (h : u.insts = s.insts) : InstsFrom s u := fun j hj => ⟨j, h ▸ hj, rfl, rfl⟩

theorem InstsFrom.refl (s : State) : InstsFrom s s := .of_eq rfl

theorem InstsFrom.trans {s u v : State} (h : InstsFrom s u) (g : InstsFrom u v) : InstsFrom s v := by
  intro j hj
  obtain ⟨i, hi, hid, hlost⟩ := g j hj
  obtain ⟨k, hk, hid', hlost'⟩ := h i hi
  exact ⟨k, hk, hid.trans hid', hlost.trans hlost'⟩

theorem InstsFrom.of_rings {s u : State} (h : RingsOnly s u) : InstsFrom s u := .of_eq h.insts

/-- A change of a record keeps what tells instances apart and whether they are lost. -/
theorem instsFrom_modRec (s : State) (id idx : Nat) (f : Rec → Rec) : InstsFrom s (s.modRec id idx f) := by
  intro j hj
  obtain ⟨i, hi, rfl⟩ := List.mem_map.1 hj
  refine ⟨i, hi, ?_, ?_⟩ <;> split <;> rfl

/-- Instances that end leave the list, the others stay. -/
theorem instsFrom_reapInst (s : State) (inst : Nat) : InstsFrom s (s.reapInst inst) := by
  unfold State.reapInst
  split
  · exact .refl s
  · split
    · have hfilter : ∀ u : State, u.insts = s.insts.filter (fun j => j.id != inst) → InstsFrom s u :=
        fun u hu j hj => ⟨j, List.mem_of_mem_filter (hu ▸ hj), rfl, rfl⟩
      dsimp only
      split
      · exact hfilter _ rfl
      · exact hfilter _ rfl
    · exact .refl s

/-! ### A record is discarded -/

theorem insts_unclaim (l : List Claim) (s : State) : (s.unclaim l).insts = s.insts := by
  induction l generalizing s with
  | nil => rfl
  | cons c rest ih =>
    rw [State.unclaim, ih]
    split <;> rfl

theorem insts_resetLines (l : List Nat) (s : State) : (s.resetLines l).insts = s.insts := by
  induction l generalizing s with
  | nil => rfl
  | cons k rest ih =>
    unfold State.resetLines
    rw [ih]
    unfold State.resetLine
    exact setLine_insts _ _ _

theorem insts_untouch (l : List Nat) (s : State) : (s.untouch l).insts = s.insts := by
  induction l generalizing s with
  | nil => rfl
  | cons k rest ih => exact ih _

theorem insts_undoRun (s : State) (t : Nat) (r : Run) : (s.undoRun t r).insts = s.insts := by
  simp only [State.undoRun, State.clearWr, State.supersede, State.restoreStreams, State.dropRetry, modTile_insts, modCtx_insts,
    insts_untouch, insts_resetLines, insts_unclaim]

theorem insts_undoRuns (l : List (Nat × Run)) (s : State) : (s.undoRuns l).insts = s.insts := by
  induction l generalizing s with
  | nil => rfl
  | cons x rest ih => exact (ih _).trans (insts_undoRun s x.1 x.2)

theorem insts_dropPlaced (s : State) (t : Nat) (p : Placed) : (s.dropPlaced t p).insts = s.insts := insts_resetLines _ s

theorem insts_dropPlaces (l : List (Nat × Placed)) (s : State) : (s.dropPlaces l).insts = s.insts := by
  induction l generalizing s with
  | nil => rfl
  | cons x rest ih => exact (ih _).trans (insts_dropPlaced s x.1 x.2)

theorem insts_rollback (s : State) (inst idx : Nat) : (s.rollback inst idx).insts = s.insts :=
  (insts_dropPlaces _ _).trans (insts_undoRuns _ s)

theorem instsFrom_discardRecord (s : State) (i : Inst) (idx : Nat) : InstsFrom s (s.discardRecord i idx) := by
  unfold State.discardRecord
  split
  · exact .refl s
  · split
    · exact .refl s
    · have hback : InstsFrom s ((s.rollback i.id idx).modCtx i.ctx fun c =>
          { c with await := c.await.filter fun w => w.of != .unplaceable i.id idx }) := .of_eq (insts_rollback s i.id idx)
      have hend := hback.trans (instsFrom_modRec _ i.id idx fun x => { x with st := .killed, gen := x.gen + 1, spilled := false, third := false })
      dsimp only
      split
      · exact hend
      · exact hend

theorem instsFrom_discardRecords (i : Inst) (l : List Nat) (s : State) : InstsFrom s (s.discardRecords i l) := by
  induction l generalizing s with
  | nil => exact .refl s
  | cons k rest ih => exact (instsFrom_discardRecord s i k).trans (ih _)

/-! ### Records are brought back -/

theorem rings_verifyWords (s : State) (ctx : BitVec 32) (va n : Nat) : RingsOnly s (s.verifyWords ctx va n) := by
  induction n generalizing s va with
  | zero => exact .refl s
  | succ n ih =>
    rw [State.verifyWords]
    split
    · exact (rings_verifyLine s _ _).trans (ih _ _)
    · exact ih s _

theorem instsFrom_spillOne {s u : State} {ctx : BitVec 32} {die : Nat} (h : s.spillOne ctx die = some u) : InstsFrom s u := by
  unfold State.spillOne at h
  split at h
  · cases h
  · split at h
    · split at h
      · cases h
      · split at h
        · cases h
          exact instsFrom_modRec _ _ _ _
        · cases h
    · cases h

theorem instsFrom_makeRoom {ctx : BitVec 32} {die fuel : Nat} {s u : State} (h : s.makeRoom ctx die fuel = some u) :
    InstsFrom s u := by
  induction fuel generalizing s with
  | zero => cases h
  | succ fuel ih =>
    rw [State.makeRoom] at h
    split at h
    · cases h
    · split at h
      · cases h
        exact .refl _
      · split at h
        · cases h
        · rename_i hspill
          exact (instsFrom_spillOne hspill).trans (ih h)

theorem instsFrom_reload {s u : State} {inst idx : Nat} (h : s.reload inst idx = some u) : InstsFrom s u := by
  unfold State.reload at h
  split at h
  · cases h
  · split at h
    · cases h
    · split at h
      · split at h
        · cases h
        · obtain ⟨v, hroom, rfl⟩ := Option.map_eq_some_iff.1 h
          exact .trans (.of_rings (rings_verifyWords s _ _ _)) (.trans (instsFrom_modRec _ inst idx _)
            (.trans (instsFrom_makeRoom hroom) (.of_eq rfl)))
      · cases h
        exact .refl s

theorem instsFrom_toPending (s : State) (inst idx : Nat) : InstsFrom s (s.toPending inst idx) := by
  unfold State.toPending
  split
  · rename_i hload _
    exact (instsFrom_reload hload).trans (instsFrom_modRec _ _ _ _)
  · exact .refl s

theorem instsFrom_reloadStuck (n : Nat) (s : State) : InstsFrom s (s.reloadStuck n) := by
  induction n generalizing s with
  | zero => exact .refl s
  | succ n ih =>
    rw [State.reloadStuck]
    split
    · exact .refl s
    · exact (instsFrom_toPending s _ _).trans (ih _)

/-! ### Waiting accesses are served -/

theorem insts_setFull (f : Bool) (l : List Nat) (s : State) : (s.setFull f l).insts = s.insts := by
  induction l generalizing s with
  | nil => rfl
  | cons k rest ih =>
    rw [State.setFull]
    split
    · exact ih s
    · exact ih _

theorem insts_touchPad (s : State) (l : List Nat) : (s.touchPad l).insts = s.insts := (MatrixUnit.onlyRead_touchPad s l).insts

theorem instsFrom_takeFault (s : State) (t : Nat) (spec : RecSpec) (x : Resume) (b : Bool) : InstsFrom s (s.takeFault t spec x b) := by
  unfold State.takeFault
  split
  · exact .refl s
  · rename_i r _
    exact (instsFrom_modRec (s.stallTask r _ _ b) _ _ _).trans (.of_rings (rings_recordAwait _ _ _ _))

theorem insts_syncPerform (s : State) (t : Nat) (r : Run) (a : ImmAccess) (m : SyncMode) (vec : Bool) (d : BitVec 1024) :
    (s.syncPerform t r a m vec d).insts = s.insts := by
  have hstore : ∀ bs p, (s.storeFor r.ctx a.loc bs p).insts = s.insts := fun bs p => (rings_storeFor s _ _ bs p).insts
  have hread : ∀ u : State, (u.readLine r.ctx (lineKey a.loc)).insts = u.insts := fun u => (rings_readLine u _ _).insts
  unfold State.syncPerform State.answerImm
  cases m with
  | readfull | consume | peek | fill | produce | clear =>
    simp [SyncMode.writes, SyncMode.after, hstore, hread, insts_setFull, insts_touchPad]

theorem instsFrom_syncDo (s : State) (t : Nat) (r : Run) (a : ImmAccess) (m : SyncMode) (vec : Bool) (d : BitVec 1024) :
    InstsFrom s (s.syncDo t r a m vec d) := by
  unfold State.syncDo State.faultImm
  split
  · split
    · exact .refl s
    · exact instsFrom_takeFault s _ _ _ _
  · exact .of_eq (insts_syncPerform s t r a m vec d)

theorem insts_peerSync (s : State) (port : Nat) (ctx : BitVec 32) (loc : Nat) (m : SyncMode) (vec : Bool) (d : BitVec 1024) (p : Bool) :
    (s.peerSync port ctx loc m vec d p).insts = s.insts := by
  have hstore : ∀ bs, (s.storeFor ctx loc bs p).insts = s.insts := fun bs => (rings_storeFor s _ _ bs p).insts
  have hverify : ∀ u : State, (u.verifyLine ctx (lineKey loc)).insts = u.insts := fun u => (rings_verifyLine u _ _).insts
  unfold State.peerSync State.answerPeer
  cases m with
  | readfull | consume | peek | fill | produce | clear =>
    simp [SyncMode.writes, SyncMode.after, hstore, hverify, insts_setFull]

theorem insts_grant (s : State) (t k : Nat) : (s.grant t k).insts = s.insts := by
  unfold State.grant
  split
  · rfl
  · split <;> rfl

theorem instsFrom_serveEntry (s : State) (e : RetryEntry) : InstsFrom s (s.serveEntry e) := by
  unfold State.serveEntry
  dsimp only
  split
  · exact .of_eq (insts_peerSync (s.delist e) _ _ _ _ _ _ _)
  · exact .of_eq (sendPort_insts _ _ _ _)
  · exact .of_eq (insts_grant (s.delist e) _ _)
  · split
    · exact .of_eq rfl
    · split
      · exact .of_eq rfl
      · exact instsFrom_syncDo (s.delist e) _ _ _ _ _ _

theorem instsFrom_serveFrom (n : Nat) (s : State) : InstsFrom s (s.serveFrom n) := by
  induction n generalizing s with
  | zero => exact .refl s
  | succ n ih =>
    rw [State.serveFrom]
    split
    · exact .refl s
    · exact (instsFrom_serveEntry s.examine _).trans (ih _)

theorem instsFrom_serve (s : State) : InstsFrom s s.serve := instsFrom_serveFrom _ s

/-! ### The loss (18 R382) -/

/-- What is left after graph state is lost is marked so (18 R382). -/
theorem lost_loseGraph {s : State} {id : Nat} {i : Inst} (idx : Option Nat) (h : s.inst? id = some i) (hi : i.lost = false)
    {j : Inst} (hj : (s.loseGraph id idx).inst? id = some j) : j.lost = true := by
  unfold State.loseGraph at hj
  simp only [h, hi, Bool.false_eq_true, if_false] at hj
  generalize hv : State.modInst _ id _ = v at hj
  have hlost : ∀ x ∈ v.insts, x.id = id → x.lost = true := by
    intro x hx hid
    rw [← hv] at hx
    obtain ⟨y, _, rfl⟩ := List.mem_map.1 hx
    by_cases hy : (y.id == id) = true
    · rw [if_pos hy]
    · rw [if_neg hy] at hid
      exact absurd (beq_iff_eq.2 hid) hy
  have hfrom := ((instsFrom_discardRecords i (List.range i.recs.length) v).trans (instsFrom_reapInst _ id)).trans
    ((instsFrom_reloadStuck v.insts.length _).trans (instsFrom_serve _))
  obtain ⟨x, hx, hid, heq⟩ := hfrom j (List.mem_of_find?_eq_some hj)
  rw [heq]
  have hfound : (j.id == id) = true := List.find?_some (p := fun y : Inst => y.id == id) hj
  exact hlost x hx (hid.symm.trans (beq_iff_eq.1 hfound))

/-! ## A cluster that begins to retire (17 R365, R366) -/

theorem pkg_resetLines (l : List Nat) (s : State) : (s.resetLines l).pkg = s.pkg := by
  induction l generalizing s with
  | nil => rfl
  | cons k rest ih =>
    unfold State.resetLines
    rw [ih]
    unfold State.resetLine
    exact setLine_pkg _ _ _

theorem pkg_dropPlaced (s : State) (t : Nat) (p : Placed) : (s.dropPlaced t p).pkg = s.pkg := pkg_resetLines _ s

theorem pkg_unplaceOne (s : State) (t : Nat) (p : Placed) : (s.unplaceOne t p).pkg = s.pkg := by
  unfold State.unplaceOne
  dsimp only
  split
  · exact pkg_dropPlaced s t p
  · exact pkg_dropPlaced s t p

theorem pkg_unplaceAll (t : Nat) (l : List Placed) (s : State) : (s.unplaceAll t l).pkg = s.pkg := by
  induction l generalizing s with
  | nil => rfl
  | cons p rest ih => exact (ih _).trans (pkg_unplaceOne s t p)

theorem pkg_emptyQueues (l : List Nat) (s : State) : (s.emptyQueues l).pkg = s.pkg := by
  induction l generalizing s with
  | nil => rfl
  | cons t rest ih => exact (ih _).trans (pkg_unplaceAll t _ s)

theorem retire_failShared {s : State} {c : Nat} (hin : s.inService c = true) (hret : (s.cluster c).retire ≠ .retired) :
    ((s.failShared c).cluster c).retire = .shared := by
  have hne : ((s.cluster c).retire != .retired) = true := bne_iff_ne.2 hret
  rw [State.failShared, hin, hne, Bool.and_self, if_pos rfl, State.cluster, pkg_emptyQueues]
  exact congrArg Cluster.retire ((cluster_modCluster s c c _).trans (if_pos rfl))

/-! ## A record read again (15 R320) -/

theorem verifyWords_good {s : State} (hgood : ∀ n, (s.line n).chkBad = false) (ctx : BitVec 32) (va n : Nat) :
    s.verifyWords ctx va n = s := by
  induction n generalizing va with
  | zero => rfl
  | succ n ih =>
    rw [State.verifyWords]
    split
    · rw [State.verifyLine, if_neg (by simp [hgood]), ih]
    · exact ih _

theorem rereadRecord_good {s : State} {id k : Nat} {i : Inst} {x : Rec} {ws : List (BitVec 64)} (hi : s.inst? id = some i)
    (hx : s.rec? id k = some x) (hspilled : x.spilled = false) (hkilled : x.st ≠ .killed) (hretired : x.st ≠ .retired)
    (hws : s.recWords i.ctx i.templ k = .ok ws) (hgood : ∀ n, (s.line n).chkBad = false) :
    s.rereadRecord id k = s.modRec id k fun y => { y with words := ws } := by
  have hfinal : x.st.final = false := by
    cases hst : x.st with
    | killed => exact absurd hst hkilled
    | retired => exact absurd hst hretired
    | _ => rfl
  simp only [State.rereadRecord, hi, hx, hspilled, hfinal, hws, verifyWords_good hgood, Bool.or_self, Bool.false_eq_true, if_false]

theorem modRun_of_run {s : State} {t : Nat} {r : Run} (h : s.run? t = some r) (f : Run → Run) : s.modRun t f = s.setRun t (f r) := by
  rw [State.modRun, h]

/-- Settles O40: an error in memory, a register or a row is one update; a lost counter or rename entry loses its graph; a lost part
retires its cluster. -/
theorem uncorrectableErrors : Obligations.UncorrectableErrors := by
  unfold Obligations.UncorrectableErrors
  refine ⟨fun _ _ => rfl, fun _ _ _ => rfl, ?record, ?reg, ?vreg, fun _ _ _ _ => rfl, fun _ _ _ => rfl, ?operand, fun _ _ _ => rfl,
    ?counter, ?rename, ?shared⟩
  case record =>
    intro s id k i x ws hi hx hspilled hkilled hretired hws hgood
    exact congrArg Host.Outcome.next (rereadRecord_good hi hx hspilled hkilled hretired hws hgood)
  case reg =>
    intro s t k r h
    exact congrArg Host.Outcome.next (modRun_of_run h _)
  case vreg =>
    intro s t k r h
    exact congrArg Host.Outcome.next (modRun_of_run h _)
  case operand =>
    intro s t k r p h hp
    refine congrArg Host.Outcome.next ((modRun_of_run h _).trans ?_)
    simp only [hp, Option.map_some]
  case counter => exact fun s id k i hi hlost => ⟨_, rfl, fun j hj => lost_loseGraph (some k) hi hlost hj⟩
  case rename => exact fun s id _ i hi hlost => ⟨_, rfl, fun j hj => lost_loseGraph none hi hlost hj⟩
  case shared => exact fun s c hin hret => ⟨_, rfl, retire_failShared hin hret⟩

end Sys2Proof.Errors
end

section
/-! The family 09_memory_catalogue, memory and lines: what a store, a change of F and a read leave of a state in which no check value
fails (09 R187, R189, R205, R206). -/

namespace Sys2Proof.Lines

open Machine Laws MatrixUnit

/-! ## Bytes -/

theorem bytes_writes {m : Memory} (a : Nat) (bs : List Byte) (h : m.wf = true) : (m.writes a bs).bytes a bs.length = bs := by
  apply List.ext_getElem?
  intro k
  by_cases hk : k < bs.length
  · rw [getElem?_bytes _ _ _ _ hk, read_writes a (a + k) bs h, if_pos (by omega), Nat.add_sub_cancel_left,
      List.getElem?_eq_getElem hk, Option.getD_some]
  · rw [List.getElem?_eq_none (by simpa using hk), List.getElem?_eq_none (by omega)]

theorem read_writes_out {m : Memory} {a c : Nat} {bs : List Byte} (h : m.wf = true) (hc : c < a ∨ a + bs.length ≤ c) :
    (m.writes a bs).read c = m.read c := by
  rw [read_writes a c bs h, if_neg (by omega)]

/-! ## Locations of this package -/

theorem absentLoc_of_own {l : Nat} (h : locPkg l = 0) : absentLoc l = false := by simp [absentLoc, h]

theorem locPkg_line (l : Nat) : locPkg (lineKey l * 128) = locPkg l := by
  simp only [locPkg, lineKey]
  omega

/-! ## Changes of memory and lines alone -/

/-- A state that differs from s at most in memory and lines, both in canonical form and with no check value that fails. -/
structure MemOnly (s u : State) : Prop where
  rest : u = { s with mem := u.mem, lines := u.lines }
  sound : Sound u

theorem MemOnly.refl {s : State} (hs : Sound s) : MemOnly s s := ⟨rfl, hs⟩

theorem MemOnly.trans {s u v : State} (h : MemOnly s u) (g : MemOnly u v) : MemOnly s v := ⟨by rw [g.rest, h.rest], g.sound⟩

theorem MemOnly.of_read {s u : State} (hs : Sound s) (h : OnlyRead s u) : MemOnly s u := ⟨by rw [h.rest], h.sound hs⟩

theorem MemOnly.tiles {s u : State} (h : MemOnly s u) : u.tiles = s.tiles := by rw [h.rest]
theorem MemOnly.fab {s u : State} (h : MemOnly s u) : u.fab = s.fab := by rw [h.rest]

theorem MemOnly.tile {s u : State} (h : MemOnly s u) (t : Nat) : u.tile t = s.tile t :=
  congrArg (fun l => kvGet ({} : Tile) l t) h.tiles

theorem MemOnly.run? {s u : State} (h : MemOnly s u) (t : Nat) : u.run? t = s.run? t := congrArg Tile.run (h.tile t)

/-- A write for a context at an address that is there. -/
structure StoredAt (l : Nat) (bs : List Byte) (s u : State) : Prop extends MemOnly s u where
  mem : u.mem = s.mem.writes l bs
  full : ∀ k, (u.line k).full = (s.line k).full

theorem storedAt_storeFor {s : State} {l : Nat} (c : BitVec 32) (bs : List Byte) (p : Bool) (hs : Sound s) (hl : absentLoc l = false) :
    StoredAt l bs s (s.storeFor c l bs p) := by
  rw [storeFor_good s c l bs p hl hs.good]
  obtain ⟨hsound, hfull⟩ := storeCut_keeps bs l p (cutLines l bs.length (bs.length + 1)) hs
  exact ⟨⟨storeCut_else bs l p _ s, hsound⟩, store_mem s l bs p, hfull⟩

theorem MemOnly.of_set {f : Bool} {l : List Nat} {s u : State} (h : FullSet f l s u) : MemOnly s u := ⟨by rw [h.rest], h.sound⟩

/-- Reading a line of this package for a context, where no check value fails, does nothing but deliver it. -/
theorem readLine_good {s : State} {c : BitVec 32} {k : Nat} (hs : ∀ n, (s.line n).chkBad = false) (hk : locPkg (k * 128) = 0) :
    s.readLine c k = s :=
  readLines_good s c [k] hs fun _ hj => List.mem_singleton.1 hj ▸ hk

end Sys2Proof.Lines
end

section
/-! The family 09_memory_catalogue, synchronised accesses: O37. A synchronised access is a write, a change of F and a read of one line,
each there or not as its mode says; the rest of SYNC_ACCESS_ARRIVE is where the access waits. -/

namespace Sys2Proof.Synchronised

open Machine Laws MatrixUnit Lines Errors

/-! ## The access in one step (10 R216) -/

/-- Bytes a synchronised access reads or writes. -/
def syncBytes (vec : Bool) : Nat := if vec then 128 else 8

/-- What a synchronised access of mode m, one that writes the bytes bs at l, leaves in memory and lines. -/
structure Synced (m : SyncMode) (l : Nat) (bs : List Byte) (s u : State) : Prop extends MemOnly s u where
  mem : u.mem = if m.writes then s.mem.writes l bs else s.mem
  full : (u.line (lineKey l)).full = m.after.getD (s.line (lineKey l)).full

section Synced

variable {m : SyncMode} {l : Nat} {bs : List Byte} {s v u : State}

theorem Synced.read (h : Synced m l bs s v) (g : OnlyRead v u) : Synced m l bs s u :=
  ⟨h.toMemOnly.trans (.of_read h.sound g), g.mem.trans h.mem, (g.full _).trans h.full⟩

theorem synced_kept (hs : Sound s) (hw : m.writes = false) (ha : m.after = none) : Synced m l bs s s :=
  ⟨.refl hs, by rw [hw]; rfl, by rw [ha]; rfl⟩

theorem synced_set {f : Bool} (hw : m.writes = false) (ha : m.after = some f) (h : FullSet f [lineKey l] s u) : Synced m l bs s u :=
  ⟨.of_set h, by rw [hw]; exact h.mem, by rw [ha, h.full, if_pos (List.mem_singleton.2 rfl)]; rfl⟩

theorem synced_stored {f : Bool} (hw : m.writes = true) (ha : m.after = some f) (h : StoredAt l bs s v)
    (g : FullSet f [lineKey l] v u) : Synced m l bs s u :=
  ⟨h.toMemOnly.trans (.of_set g), by rw [hw, g.mem]; exact h.mem, by rw [ha, g.full, if_pos (List.mem_singleton.2 rfl)]; rfl⟩

end Synced

theorem syncPerform_good {s : State} (t : Nat) (r : Run) {a : ImmAccess} (m : SyncMode) (vec : Bool) (d : BitVec 1024)
    (hs : Sound s) (hown : locPkg a.loc = 0) :
    ∃ w tok, s.syncPerform t r a m vec d = w.answerImm t tok ∧ tok.isSome = m.returns ∧
      Synced m a.loc (toBytes d.toNat (syncBytes vec)) s w := by
  have hkey : locPkg (lineKey a.loc * 128) = 0 := (locPkg_line a.loc).trans hown
  have hstore := storedAt_storeFor r.ctx (toBytes d.toNat (syncBytes vec)) a.pois hs (absentLoc_of_own hown)
  have hset : ∀ f {v : State}, Sound v → FullSet f [lineKey a.loc] v (v.setFull f [lineKey a.loc]) := fun f v hv =>
    fullSet_setFull f hv fun k hk => absentLoc_of_own (List.mem_singleton.1 hk ▸ hkey)
  have hseen : ∀ {v : State}, Sound v → OnlyRead v ((v.touchPad [lineKey a.loc]).readLine r.ctx (lineKey a.loc)) := by
    intro v hv
    have hread := onlyRead_touchPad v [lineKey a.loc]
    rw [readLine_good (hread.sound hv).good hkey]
    exact hread
  refine ⟨_, _, rfl, ?_, ?_⟩
  · cases m <;> rfl
  · cases m with
    | readfull => exact (synced_kept hs rfl rfl).read (hseen hs)
    | peek => exact (synced_kept hs rfl rfl).read (onlyRead_touchPad s _)
    | consume => exact (synced_set rfl rfl (hset false hs)).read (hseen (hset false hs).sound)
    | clear => exact synced_set rfl rfl (hset false hs)
    | fill => exact synced_stored rfl rfl hstore (hset true hstore.sound)
    | produce => exact synced_stored rfl rfl hstore (hset true hstore.sound)

/-! ## SYNC_ACCESS_ARRIVE (09 R199, R200) -/

section Arrives

variable {t : Nat} {s : State} {r : Run} {a : ImmAccess} {m : SyncMode} {vec : Bool} {d : BitVec 1024}

theorem exec_syncAccessArrive (hr : s.run? t = some r) (hphase : r.phase = .imm .sent) (hop : r.syncOp = some (a, m, vec, d))
    (hlink : s.linkDown a.loc = false) : exec (.syncAccessArrive t) s = .next (s.syncArrive t r a m vec d) := by
  have harm : exec (.syncAccessArrive t) s = execSyncAccessArrive t s := rfl
  rw [harm, execSyncAccessArrive]
  simp [State.syncSent, hr, hphase, hop, hlink]

theorem syncArrive_own (hpeer : a.peer = none) (hown : locPkg a.loc = 0) : s.syncArrive t r a m vec d =
    if (s.line (lineKey a.loc)).allows m then (s.syncDo t r a m vec d).serve
    else if s.retryRoom (lineKey a.loc) then
      (s.setRun t { r with phase := .imm .waiting }).enlist { line := lineKey a.loc, tile := t }
    else s.setRun t { r with phase := .imm .busy } := by
  simp [State.syncArrive, hpeer, absentLoc_of_own hown]

/-- An access whose condition holds, with nobody else waiting, is performed (09 R199). -/
theorem syncArrive_performed (hr : s.run? t = some r) (hpeer : a.peer = none) (hretry : s.fab.retry = []) (hs : Sound s)
    (hown : locPkg a.loc = 0) (hallows : (s.line (lineKey a.loc)).allows m = true)
    (hfill : ((s.line (lineKey a.loc)).fullFor .fill && m == .fill) = false) :
    ∃ u r' tok, s.syncArrive t r a m vec d = u ∧ u.run? t = some r' ∧ r'.phase = .imm (.done tok) ∧ tok.isSome = m.returns ∧
      (u.line (lineKey a.loc)).full = m.after.getD (s.line (lineKey a.loc)).full ∧
      u.mem = (if m.writes then s.mem.writes a.loc (toBytes d.toNat (syncBytes vec)) else s.mem) ∧ ∀ n, n ≠ t → u.tile n = s.tile n := by
  obtain ⟨w, tok, heq, htok, hsync⟩ := syncPerform_good t r m vec d hs hown
  have hw : w.run? t = some r := (hsync.run? t).trans hr
  have hdo : s.syncDo t r a m vec d = w.setRun t { r with phase := .imm (.done tok) } := by
    rw [State.syncDo, if_neg, heq, State.answerImm, modRun_of_run hw]
    simpa [Bool.and_comm] using hfill
  have hserve : (w.setRun t { r with phase := .imm (.done tok) }).serve = w.setRun t { r with phase := .imm (.done tok) } :=
    serve_of_no_retry (by rw [setRun_fab, hsync.fab, hretry])
  refine ⟨_, { r with phase := .imm (.done tok) }, tok, ?_, run?_setRun_same w t _, rfl, htok, hsync.full, hsync.mem, fun n hn => ?_⟩
  · rw [syncArrive_own hpeer hown, if_pos hallows, hdo, hserve]
  · rw [State.setRun, tile_modTile, if_neg hn, hsync.tile]

end Arrives

/-! ## WAIT_WITHDRAWAL (03 R73) -/

/-- A watchdog that has expired puts a pitch whose access has not been performed back at its start. -/
theorem exec_waitWithdrawal {t : Nat} {s : State} {r : Run} {st : ImmState} (hr : s.run? t = some r) (hdue : r.watchdogDue = true)
    (hservice : r.dogInService = false) (hphase : r.phase = .imm st) (hopen : ∀ tok, st ≠ .done tok) :
    exec (.waitWithdrawal t) s = .next (s.withdrawImm t r) := by
  have harm : exec (.waitWithdrawal t) s = execWaitWithdrawal t s := rfl
  rw [harm, execWaitWithdrawal]
  cases st with
  | done tok => exact absurd rfl (hopen tok)
  | sent | waiting | busy => simp [hr, hdue, hservice, hphase]

theorem retry_withdrawImm {s : State} {t : Nat} {r : Run} {e : RetryEntry} (he : e ∈ (s.withdrawImm t r).fab.retry) (ht : e.tile = t) :
    e.remote.isSome = true := by
  have hkept := (List.mem_filter.1 he).2
  simpa [ht] using hkept

/-- Settles O37: a synchronised access is performed, waits or is answered busy, as its mode and the list of its bank have it. -/
theorem synchronisedEvents : Obligations.SynchronisedEvents := by
  unfold Obligations.SynchronisedEvents
  refine ⟨?arrives, ?resent, ?service, ?withdrawn⟩
  case arrives =>
    intro t s r a m vec d hr hphase hop hpeer hlink hretry hcanon hgood hown _
    rw [exec_syncAccessArrive hr hphase hop hlink]
    refine ⟨fun hallows hfill => ?_, fun hallows => ?_⟩
    · obtain ⟨u, r', tok, rfl, hrun, hdone, htok, hfull, hmem, hothers⟩ :=
        syncArrive_performed (vec := vec) (d := d) hr hpeer hretry ⟨hcanon, hgood⟩ hown hallows hfill
      refine ⟨_, r', tok, rfl, hrun, hdone, htok, hfull, fun hw => ?_, fun l hl => ?_, hothers⟩
      · rw [hmem, hw, if_pos rfl]
        simpa [syncBytes] using bytes_writes a.loc (toBytes d.toNat (syncBytes vec)) hcanon.1
      · rw [hmem]
        split
        · rename_i hw
          exact read_writes_out hcanon.1 (by simpa [syncBytes] using hl hw)
        · rfl
    · rw [syncArrive_own hpeer hown, hallows]
      exact ⟨fun hroom => by rw [hroom]; rfl, fun hroom => by rw [hroom]; rfl⟩
  case resent =>
    intro t s r hr hphase
    refine congrArg Host.Outcome.next ((modRun_of_run hr _).trans ?_)
    rw [if_pos hphase]
  case service =>
    intro t s r hr hservice
    have harm : exec (.waitWithdrawal t) s = execWaitWithdrawal t s := rfl
    rw [harm, execWaitWithdrawal]
    simp [hr, hservice]
  case withdrawn =>
    intro t s r p st hr hdue hservice hphase hopen hp
    refine ⟨_, _, p.restart p.snap, exec_waitWithdrawal hr hdue hservice hphase hopen, run?_setRun_same s t _, rfl, ?_, rfl, rfl, rfl,
      fun sl hsl => ?_, rfl, rfl, rfl, fun e he ht => retry_withdrawImm he ht⟩
    · rw [hp]
      rfl
    · obtain ⟨_, _, rfl⟩ := List.mem_map.1 hsl
      rfl

end Sys2Proof.Synchronised
end

section
/-! The family 09_memory_catalogue, the state of copies: what a change of a copy leaves, how elements are counted as complete, and the
end of an entry in flight (11 R234). -/

namespace Sys2Proof.Copies

open Machine Laws MatrixUnit Lines Errors

/-! ## A copy of the state -/

theorem id_of_copy? {s : State} {id : Nat} {c : Copy} (h : s.copy? id = some c) : c.id = id :=
  beq_iff_eq.1 (List.find?_some (p := fun x : Copy => x.id == id) h)

theorem copy?_modCopy {s : State} {id : Nat} {f : Copy → Copy} (hf : ∀ x, (f x).id = x.id) :
    (s.modCopy id f).copy? id = (s.copy? id).map f :=
  find?_map_id (fun x : Copy => x.id) s.fab.copies id f fun x _ => hf x

theorem copy?_modCopy_of {s : State} {id : Nat} {c : Copy} {f : Copy → Copy} (h : s.copy? id = some c) (hf : ∀ x, (f x).id = x.id) :
    (s.modCopy id f).copy? id = some (f c) := by
  rw [copy?_modCopy hf, h, Option.map_some]

theorem copy?_congr {s u : State} (h : u.fab = s.fab) (id : Nat) : u.copy? id = s.copy? id := by rw [State.copy?, h, State.copy?]

/-- A state that differs from s in copies alone. -/
def CopiesOnly (s u : State) : Prop := u = { s with fab := { s.fab with copies := u.fab.copies } }

theorem copiesOnly_modCopy (s : State) (id : Nat) (f : Copy → Copy) : CopiesOnly s (s.modCopy id f) := rfl

theorem CopiesOnly.trans {s u v : State} (h : CopiesOnly s u) (g : CopiesOnly u v) : CopiesOnly s v := by
  unfold CopiesOnly at h g ⊢
  rw [g, h]

section CopiesOnly

variable {s u : State} (h : CopiesOnly s u)
include h

theorem CopiesOnly.mem : u.mem = s.mem := by rw [h]
theorem CopiesOnly.lines : u.lines = s.lines := by rw [h]
theorem CopiesOnly.tiles : u.tiles = s.tiles := by rw [h]
theorem CopiesOnly.retry : u.fab.retry = s.fab.retry := by rw [h]

theorem CopiesOnly.line (k : Nat) : u.line k = s.line k := congrArg (fun l => kvGet ({} : LineMeta) l k) h.lines
theorem CopiesOnly.tile (t : Nat) : u.tile t = s.tile t := congrArg (fun l => kvGet ({} : Tile) l t) h.tiles
theorem CopiesOnly.run? (t : Nat) : u.run? t = s.run? t := congrArg Tile.run (h.tile t)

end CopiesOnly

/-! ## Progress (11 R234) -/

/-- Element n counts as complete: it is below P, or noted above it. -/
def Counted (c : Copy) (n : Nat) : Prop := n < c.prog ∨ n ∈ c.above

theorem advance_rest (c : Copy) (n : Nat) : c.advance n = { c with prog := (c.advance n).prog, above := (c.advance n).above } := by
  induction n generalizing c with
  | zero => rfl
  | succ n ih =>
    rw [Copy.advance]
    split
    · rw [ih]
    · rfl

/-- Counting leading elements in P forgets none. -/
theorem counted_advance {c : Copy} {i : Nat} (n : Nat) (h : Counted c i) : Counted (c.advance n) i := by
  induction n generalizing c with
  | zero => exact h
  | succ n ih =>
    rw [Copy.advance]
    split
    · refine ih ?_
      by_cases hi : i = c.prog
      · exact .inl (by simp only [hi]; omega)
      · exact h.imp (fun hlt => by simp only; omega) fun hmem => List.mem_filter.2 ⟨hmem, bne_iff_ne.2 hi⟩
    · exact h

/-- Elements completed change P, what is noted above it, and what is in flight. -/
theorem complete_rest (c : Copy) (l : List Nat) : c.complete l =
    { c with prog := (c.complete l).prog, above := (c.complete l).above, fly := c.fly.filter fun e => !l.contains e.n } :=
  advance_rest _ _

theorem counted_complete (c : Copy) {l : List Nat} {n : Nat} (h : n ∈ l) : Counted (c.complete l) n :=
  counted_advance _ (.inr (List.mem_append_right _ h))

theorem settleCopy_of_going {s : State} {id : Nat} {c : Copy} (h : s.copy? id = some c) (hstall : c.stall = .no) :
    s.settleCopy id = s := by
  rw [State.settleCopy, h]
  simp only [hstall]

theorem settleCopy_of_draining {s : State} {id : Nat} {c : Copy} {f : FaultInfo} (h : s.copy? id = some c) (hstall : c.stall = .draining f)
    (hprog : c.prog ≠ c.next) : s.settleCopy id = s := by
  rw [State.settleCopy, h]
  simp only [hstall, hprog, if_false]

theorem elementsDone_of_going {s : State} {id : Nat} {c : Copy} (l : List Nat) (h : s.copy? id = some c) (hstall : c.stall = .no) :
    s.elementsDone id l = s.modCopy id fun x => x.complete l := by
  have hid : ∀ x : Copy, (x.complete l).id = x.id := fun x => by rw [complete_rest]
  exact settleCopy_of_going (copy?_modCopy_of h hid) (by rw [complete_rest]; exact hstall)

/-! ## The end of an entry -/

/-- The write of entry k of copy c, as c stood, is over: from d, as the copy stands now, to d'. -/
structure EntryOver (c : Copy) (k : Nat) (e : Elem) (d d' : Copy) : Prop where
  rest : d' = { d with fly := d'.fly, prog := d'.prog, above := d'.above }
  fly : d'.fly = c.fly.eraseIdx k
  counted : (∀ x ∈ c.fly.eraseIdx k, x.n ≠ e.n) → Counted d' e.n

theorem entryOver_of_going {s : State} {c d : Copy} (k : Nat) (e : Elem) (h : s.copy? c.id = some d) (hstall : d.stall = .no) :
    CopiesOnly s (s.entryOver c k e) ∧ ∃ d', (s.entryOver c k e).copy? c.id = some d' ∧ EntryOver c k e d d' := by
  have hfly : (s.modCopy c.id fun y => { y with fly := c.fly.eraseIdx k }).copy? c.id = some { d with fly := c.fly.eraseIdx k } :=
    copy?_modCopy_of h fun _ => rfl
  unfold State.entryOver
  dsimp only
  by_cases hany : ((c.fly.eraseIdx k).any fun x => x.n == e.n) = true
  · rw [if_pos hany]
    obtain ⟨x, hx, hn⟩ := List.any_eq_true.1 hany
    exact ⟨rfl, _, hfly, rfl, rfl, fun hnone => absurd (beq_iff_eq.1 hn) (hnone x hx)⟩
  · rw [if_neg hany, elementsDone_of_going [e.n] hfly hstall]
    have hkept : (c.fly.eraseIdx k).filter (fun x => !([e.n].contains x.n)) = c.fly.eraseIdx k := by
      refine List.filter_eq_self.2 fun x hx => ?_
      have hne : x.n ≠ e.n := fun heq => hany (List.any_eq_true.2 ⟨x, hx, beq_iff_eq.2 heq⟩)
      simp [hne]
    refine ⟨rfl, _, copy?_modCopy_of hfly fun x => by rw [complete_rest], ?_, ?_, fun _ => counted_complete _ (List.mem_singleton.2 rfl)⟩
    · rw [complete_rest]
    · rw [complete_rest]
      exact hkept

end Sys2Proof.Copies
end

section
/-! The family 09_memory_catalogue, landings: an element that lands in a scratchpad, and one that is written in device memory (09 R186,
R187, R189). -/

namespace Sys2Proof.Copies

open Machine Laws MatrixUnit Lines Errors

/-! ## One line changed -/

theorem line_modLine {s : State} (k j : Nat) (f : LineMeta → LineMeta) (h : kvWf {} s.lines = true) :
    (s.modLine k f).line j = if j = k then f (s.line j) else s.line j := by
  rw [State.modLine, line_setLine k j _ h]
  split
  · rename_i hj
    rw [hj]
  · rfl

/-- A line that is marked as written stays marked. -/
theorem wr_storeLine {s : State} (hs : kvWf {} s.lines = true) (l : Nat) (bs : List Byte) (p : Bool) (k : Nat) :
    ((s.storeLine l bs p).line k).wr = ((s.line k).wr || (k == lineKey l && locSpace l == spPad)) := by
  have hline : (s.storeLine l bs p).line k =
      if k = lineKey l then (s.line k).written (l % 128 == 0 && bs.length == 128) p (locSpace l == spPad) else s.line k :=
    line_modLine (s := { s with mem := s.mem.writes l bs }) (lineKey l) k _ hs
  rw [hline]
  by_cases hk : k = lineKey l
  · rw [if_pos hk, beq_iff_eq.2 hk, Bool.true_and]
    rfl
  · rw [if_neg hk, beq_eq_false_iff_ne.2 hk, Bool.false_and, Bool.or_false]

theorem lines_wf_storeLine {s : State} (hs : kvWf {} s.lines = true) (l : Nat) (bs : List Byte) (p : Bool) :
    kvWf {} (s.storeLine l bs p).lines = true := setLine_lines_wf (s := { s with mem := s.mem.writes l bs }) _ _ hs

theorem wr_storeCut_of_wr {s : State} (hs : kvWf {} s.lines = true) (bs : List Byte) (l : Nat) (p : Bool) (parts : List (Nat × Nat))
    {k : Nat} (h : (s.line k).wr = true) : ((s.storeCut bs l p parts).line k).wr = true := by
  induction parts generalizing s with
  | nil => exact h
  | cons x rest ih => exact ih (lines_wf_storeLine hs _ _ _) (by rw [wr_storeLine hs, h]; rfl)

/-- Bytes written to a scratchpad mark the line they begin in as written (09 R189). -/
theorem wr_storeFor {s : State} {l : Nat} (c : BitVec 32) {bs : List Byte} (p : Bool) (hs : Sound s) (hl : absentLoc l = false)
    (hpad : locSpace l = spPad) (hbs : bs ≠ []) : ((s.storeFor c l bs p).line (lineKey l)).wr = true := by
  rw [storeFor_good s c l bs p hl hs.good, State.store, cutLines, if_neg (by rwa [List.length_eq_zero_iff])]
  dsimp only
  rw [State.storeCut]
  refine wr_storeCut_of_wr (lines_wf_storeLine hs.canonical.2 _ _ _) _ _ _ _ ?_
  rw [wr_storeLine hs.canonical.2, hpad]
  simp

/-! ## What a landing may change beside memory and lines -/

/-- A state that differs from s, memory and lines apart, at most in the run of tile t and in which lines copy id has landed
poisoned. -/
structure LandsIn (id t : Nat) (s u : State) : Prop where
  others : ∀ n, n ≠ t → u.tile n = s.tile n
  retry : u.fab.retry = s.fab.retry
  copy : ∀ {d}, s.copy? id = some d → ∃ l, u.copy? id = some { d with poisLines := l }

theorem LandsIn.trans {id t : Nat} {s u v : State} (h : LandsIn id t s u) (g : LandsIn id t u v) : LandsIn id t s v where
  others n hn := (g.others n hn).trans (h.others n hn)
  retry := g.retry.trans h.retry
  copy hd := by
    obtain ⟨l, hl⟩ := h.copy hd
    obtain ⟨l', hl'⟩ := g.copy hl
    exact ⟨l', hl'⟩

theorem LandsIn.of_rest {s u : State} (h : u = { s with mem := u.mem, lines := u.lines }) (id t : Nat) : LandsIn id t s u where
  others n _ := by rw [h]; rfl
  retry := by rw [h]
  copy {d} hd := ⟨d.poisLines, by rw [h]; exact hd⟩

theorem LandsIn.refl (id t : Nat) (s : State) : LandsIn id t s s := .of_rest rfl id t

theorem copy?_modRun (s : State) (t id : Nat) (f : Run → Run) : (s.modRun t f).copy? id = s.copy? id := copy?_congr (modRun_fab s t f) id

theorem tile_modRun_ne (s : State) {t n : Nat} (f : Run → Run) (hn : n ≠ t) : (s.modRun t f).tile n = s.tile n := by
  unfold State.modRun
  split
  · rw [State.setRun, tile_modTile, if_neg hn]
  · rfl

/-- A line that lands poisoned is counted for the task, and no byte or line changes. -/
theorem landsIn_countPoison (s : State) (id t key : Nat) : LandsIn id t s (s.countPoison id t key) ∧
    (s.countPoison id t key).mem = s.mem ∧ (s.countPoison id t key).lines = s.lines := by
  unfold State.countPoison
  split
  · exact ⟨.of_rest rfl id t, rfl, rfl⟩
  · rename_i c hc
    split
    · exact ⟨.of_rest rfl id t, rfl, rfl⟩
    · have hcount : ∀ w : State, (∀ n, n ≠ t → w.tile n = s.tile n) → w.fab = s.fab →
          LandsIn id t s (w.modCopy id fun c => { c with poisLines := key :: c.poisLines }) := by
        intro w hothers hfab
        refine ⟨hothers, by rw [← hfab]; rfl, fun {d} hd => ⟨key :: d.poisLines, ?_⟩⟩
        exact copy?_modCopy_of ((copy?_congr hfab id).trans hd) fun _ => rfl
      split
      · exact ⟨hcount s (fun _ _ => rfl) rfl, rfl, rfl⟩
      · exact ⟨hcount _ (fun n hn => tile_modRun_ne s _ hn) (modRun_fab s t _), modRun_mem s t _, modRun_lines s t _⟩

/-- A line written whole takes the poison of its copy, and nothing else changes. -/
theorem wholeLine_keeps (s : State) (id key : Nat) : ∃ p, s.wholeLine id key = s ∨
    s.wholeLine id key = s.modLine key fun m => { m with pois := p } := by
  unfold State.wholeLine
  split
  · exact ⟨false, .inl rfl⟩
  · exact ⟨_, .inr rfl⟩

/-! ## An element lands in a scratchpad (09 R186) -/

/-- Where element i of copy c lands in the scratchpad of tile t. -/
def padAt (c : Copy) (t i : Nat) : Nat := padLoc t ((c.desc.dst + c.desc.dstOff i).toNat % 2 ^ 20)

theorem padLine_eq (c : Copy) (t i : Nat) : c.padLine t i = lineKey (padAt c t i) := rfl

/-- Element i of copy c has landed in tile t. -/
structure Landed (c : Copy) (t i : Nat) (data : BitVec 128) (s u : State) : Prop where
  lands : LandsIn c.id t s u
  mem : u.mem = s.mem.writes (padAt c t i) (toBytes data.toNat 16)
  full : ∀ n, (u.line n).full = if n = c.padLine t i ∧ c.lineOver t (c.padLine t i) = true then true else (s.line n).full
  wr : (u.line (c.padLine t i)).wr = true

theorem landElem_eq {s v w : State} {c : Copy} {t i : Nat} {data : BitVec 128} {pois : Bool} (hkind : c.desc.kind ≠ .prefetch)
    (hv : v = s.storeFor c.ctx (padAt c t i) (toBytes data.toNat 16) pois)
    (hw : w = if pois then v.countPoison c.id t (c.padLine t i) else v) :
    s.landElem c t i data pois = if c.lineOver t (c.padLine t i) then
      (if c.coversPad t (c.padLine t i) then w.wholeLine c.id (c.padLine t i) else w).landFull (c.padLine t i) true else w := by
  subst hv hw
  have hmark : (c.desc.kind != .prefetch) = true := bne_iff_ne.2 hkind
  simp only [State.landElem, State.landBytes, hmark, if_true]
  rfl

/-- F set for a line that is over, where nobody waits at a line: it is full, and else as it was. -/
theorem landFull_of_no_retry {s : State} (key : Nat) (h : s.fab.retry = []) :
    s.landFull key true = s.modLine key fun m => { m with full := true, wr := m.wr || true } := serve_of_no_retry h

/-- A line that has all it gets takes the poison of its copy if it was written whole, and is full. -/
theorem landFull_wholeLine {w : State} (c : Copy) (t : Nat) {key : Nat} (hretry : w.fab.retry = []) (hlines : kvWf {} w.lines = true) :
    ∃ u, (if c.coversPad t key then w.wholeLine c.id key else w).landFull key true = u ∧
      u = { w with mem := u.mem, lines := u.lines } ∧ u.mem = w.mem ∧
      ∀ n, (u.line n).full = (if n = key then true else (w.line n).full) ∧ ((w.line n).wr = true → (u.line n).wr = true) := by
  obtain ⟨x, hx, hrest, hmem, hwf, hline⟩ : ∃ x, (if c.coversPad t key then w.wholeLine c.id key else w) = x ∧
      x = { w with mem := x.mem, lines := x.lines } ∧ x.mem = w.mem ∧ kvWf {} x.lines = true ∧
      ∀ n, (x.line n).full = (w.line n).full ∧ (x.line n).wr = (w.line n).wr := by
    split
    · obtain ⟨p, h | h⟩ := wholeLine_keeps w c.id key
      · exact ⟨w, h, rfl, rfl, hlines, fun _ => ⟨rfl, rfl⟩⟩
      · refine ⟨_, h, rfl, rfl, setLine_lines_wf _ _ hlines, fun n => ?_⟩
        rw [line_modLine _ _ _ hlines]
        split <;> exact ⟨rfl, rfl⟩
    · exact ⟨w, rfl, rfl, rfl, hlines, fun _ => ⟨rfl, rfl⟩⟩
  rw [hx, landFull_of_no_retry key (by rw [hrest]; exact hretry)]
  refine ⟨_, rfl, by rw [hrest]; rfl, hmem, fun n => ?_⟩
  rw [line_modLine _ _ _ hwf]
  split
  · exact ⟨rfl, fun h => by rw [(hline n).2, h]; rfl⟩
  · exact ⟨(hline n).1, fun h => (hline n).2.trans h⟩

theorem landed_of_stored {s v w : State} {c : Copy} {t i : Nat} {data : BitVec 128} (hretry : s.fab.retry = [])
    (hstored : StoredAt (padAt c t i) (toBytes data.toNat 16) s v) (hwr : (v.line (c.padLine t i)).wr = true)
    (hcounts : LandsIn c.id t v w) (hmem : w.mem = v.mem) (hlines : w.lines = v.lines) :
    Landed c t i data s (if c.lineOver t (c.padLine t i) then
      (if c.coversPad t (c.padLine t i) then w.wholeLine c.id (c.padLine t i) else w).landFull (c.padLine t i) true else w) := by
  have hline : ∀ n, w.line n = v.line n := fun n => congrArg (fun l => kvGet ({} : LineMeta) l n) hlines
  have hlands : LandsIn c.id t s w := (LandsIn.of_rest hstored.rest _ _).trans hcounts
  have hwmem := hmem.trans hstored.mem
  by_cases hover : c.lineOver t (c.padLine t i) = true
  · obtain ⟨u, hu, hrest, humem, huline⟩ := landFull_wholeLine c t (key := c.padLine t i) (hlands.retry.trans hretry)
      (hlines ▸ hstored.sound.canonical.2)
    rw [if_pos hover, hu]
    refine ⟨hlands.trans (.of_rest hrest _ _), humem.trans hwmem, fun n => ?_, (huline _).2 (by rw [hline]; exact hwr)⟩
    rw [(huline n).1, hline, hstored.full]
    simp only [hover, and_true]
  · rw [if_neg hover]
    exact ⟨hlands, hwmem, fun n => by rw [hline, hstored.full, if_neg fun h => hover h.2], by rw [hline]; exact hwr⟩

/-- An element lands where it is to land, its line becoming full with the last write of the copy in it (09 R186). -/
theorem landed_landElem {s : State} {c : Copy} {t i : Nat} {data : BitVec 128} (pois : Bool) (hs : Sound s) (hretry : s.fab.retry = [])
    (hkind : c.desc.kind ≠ .prefetch) (hown : locPkg (padAt c t i) = 0) (hpad : locSpace (padAt c t i) = spPad) :
    Landed c t i data s (s.landElem c t i data pois) := by
  have hbytes : toBytes data.toNat 16 ≠ [] := List.ne_nil_of_length_pos (by rw [length_toBytes]; decide)
  have hstored := storedAt_storeFor c.ctx (toBytes data.toNat 16) pois hs (absentLoc_of_own hown)
  have hwr := wr_storeFor c.ctx pois hs (absentLoc_of_own hown) hpad hbytes
  rw [← padLine_eq] at hwr
  cases pois with
  | true =>
    obtain ⟨hcounts, hmem, hlines⟩ := landsIn_countPoison (s.storeFor c.ctx (padAt c t i) (toBytes data.toNat 16) true) c.id t
      (c.padLine t i)
    rw [landElem_eq hkind rfl (if_pos rfl).symm]
    exact landed_of_stored hretry hstored hwr hcounts hmem hlines
  | false =>
    rw [landElem_eq hkind rfl (if_neg Bool.false_ne_true).symm]
    exact landed_of_stored hretry hstored hwr (.refl ..) rfl rfl

end Sys2Proof.Copies
end

section
/-! The family 09_memory_catalogue, the issue of elements: what COPY_ELEMENT_TRANSLATE does for each kind of copy (11 R234-R240, R245,
R253, R254). -/

namespace Sys2Proof.Copies

open Machine Laws MatrixUnit Lines Errors

/-! ## Where an element is read and written -/

theorem elemLocs_ok {s : State} {c : Copy} {i a b : Nat} (h : s.elemLocs c i = .ok (a, b)) :
    s.elemSrc c i = .ok a ∧ s.elemDst c i = .ok b := by
  unfold State.elemLocs at h
  split at h
  · cases h
  · cases h
  · rename_i hsrc hdst
    cases h
    exact ⟨hsrc, hdst⟩

theorem elemSrc_of_copy {s : State} {c : Copy} (i : Nat) (h : c.desc.kind ≠ .prefetch) :
    s.elemSrc c i = s.streamLoc c.tile c.ctx (c.desc.src + c.desc.srcOff i) false := by
  simp [State.elemSrc, h]

theorem elemDst_reduces {s : State} {c : Copy} {i b : Nat} {op : RedOp} {ty : ElemType} (hkind : c.desc.kind = .cpyr op ty)
    (hsout : c.desc.sout = none) (h : s.elemDst c i = .ok b) :
    s.streamLoc c.tile c.ctx (c.desc.dst + c.desc.dstOff i) true = .ok b ∧ locSpace b = spBank ∧ locPkg b = 0 := by
  simp only [State.elemDst, hsout, hkind, Option.isSome_none, Bool.false_eq_true, if_false] at h
  split at h
  · cases h
  · rename_i hloc
    split at h
    · rename_i hbank
      cases h
      exact ⟨hloc, hbank⟩
    · cases h

theorem elemDst_streams {s : State} {c : Copy} {i b : Nat} (hkind : c.desc.kind ≠ .cpyb) (hsout : c.desc.sout = none)
    (h : s.elemDst c i = .ok b) : s.streamLoc c.tile c.ctx (c.desc.dst + c.desc.dstOff i) true = .ok b := by
  cases hk : c.desc.kind with
  | cpyb => exact absurd hk hkind
  | cpyr op ty => exact (elemDst_reduces hk hsout h).1
  | cpy | cpys | prefetch => simpa [State.elemDst, hsout, hk] using h

/-! ## COPY_ELEMENT_TRANSLATE -/

section Issue

variable {s : State} {id : Nat} {c : Copy} (hc : s.copy? id = some c) (hlive : c.live = true) (hnext : c.next < c.desc.n)
include hc hlive hnext

theorem exec_translate_memory (hsin : c.desc.sin = none) (hkind : c.desc.kind ≠ .prefetch)
    (hord : ∀ op ty, c.desc.kind = .cpyr op ty → c.desc.ord = false) : exec (.copyElementTranslate id) s = .next (s.issueElem c) := by
  have harm : exec (.copyElementTranslate id) s = execCopyElementTranslate id s := rfl
  rw [harm, execCopyElementTranslate, hc]
  simp only [hlive, hnext, decide_true, Bool.and_self, if_true, hsin]
  cases hk : c.desc.kind with
  | prefetch => exact absurd hk hkind
  | cpyr op ty => simp only [hord op ty hk, Bool.false_eq_true, if_false]
  | cpy | cpys | cpyb => rfl

theorem exec_translate_line {op : RedOp} {ty : ElemType} (hsin : c.desc.sin = none) (hkind : c.desc.kind = .cpyr op ty)
    (hord : c.desc.ord = true) : exec (.copyElementTranslate id) s = .next (s.issueLine c) := by
  have harm : exec (.copyElementTranslate id) s = execCopyElementTranslate id s := rfl
  rw [harm, execCopyElementTranslate, hc]
  simp [hlive, hnext, hsin, hkind, hord]

theorem exec_translate_port {p : Nat} (hsin : c.desc.sin = some p) : exec (.copyElementTranslate id) s = .next (s.issueSin c p) := by
  have harm : exec (.copyElementTranslate id) s = execCopyElementTranslate id s := rfl
  rw [harm, execCopyElementTranslate, hc]
  simp [hlive, hnext, hsin]

end Issue

/-- A copy whose next element fails before the earlier ones are complete waits for them (11 R245). -/
theorem stallCopy_draining {s : State} {id : Nat} {c : Copy} {f : FaultInfo} (hc : s.copy? id = some c) (hf : f.code ≠ fcWait)
    (hprog : c.prog < c.next) (hgood : ∀ k, (s.line k).chkBad = false) :
    s.stallCopy id f = s.modCopy id fun y => { y with stall := .draining f, merged := none } := by
  have hwalk : s.verifyWalk none c.ctx f = s := by
    unfold State.verifyWalk
    split
    · split
      · rfl
      · split
        · rw [State.verifyLine, if_neg (by simp [hgood])]
        · rfl
    · rfl
  rw [State.stallCopy, if_neg hf, hc]
  simp only [hwalk]
  exact settleCopy_of_draining (copy?_modCopy_of hc fun _ => rfl) rfl (Nat.ne_of_lt hprog)

/-! ## Copies from an input port (11 R253, R254) -/

section Port

variable {s : State} {c : Copy} {p : Nat} {q : InPort} {r : Run}

theorem issueSin_sector {b : Nat} {x : BitVec 128 × Bool} {rest : List (BitVec 128 × Bool)} (hpart : c.inPart = x :: rest)
    (hdst : s.elemDst c c.next = .ok b) : s.issueSin c p = s.modCopy c.id fun y =>
      { y with inPart := rest, next := c.next + 1
               fly := y.fly ++ [{ n := c.next, loc := b, src := portLoc, got := true, data := x.1, pois := x.2, via := s.elemVia c c.next }] } := by
  rw [State.issueSin, hpart]
  simp only [hdst]

theorem issueSin_packet {k : Packet} {rest : List Packet} (hpart : c.inPart = []) (hport : s.inPort? c.inst c.idx p = some q)
    (hrun : s.copyRun c = some r) (hpop : r.popping p = false) (hqueue : q.queue = k :: rest) (hroom : s.keepRoom c.ctx q = true)
    (habort : k.abort = false) (heot : k.eot = false) : s.issueSin c p =
      (s.modInPort q.inst q.idx q.port InPort.take).modCopy c.id fun y => { y with inPart := k.sectors } := by
  rw [State.issueSin, hpart]
  simp [hport, hrun, hpop, hqueue, hroom, State.takePacket, habort, heot]

theorem issueSin_ended (hpart : c.inPart = []) (hport : s.inPort? c.inst c.idx p = some q)
    (hrun : s.copyRun c = some r) (hpop : r.popping p = false) (hqueue : q.queue = []) (hended : q.ended = true) :
    s.issueSin c p = s.modCopy c.id fun y => { y with cut := true } := by
  rw [State.issueSin, hpart]
  simp [hport, hrun, hpop, hqueue, hended, State.cutCopy]

end Port

theorem getElem?_sectors (k : Packet) {i : Nat} (hi : i < 8) : k.sectors[i]? = some (k.payload.extractLsb' (128 * i) 128, k.pois) := by
  simp [Packet.sectors, hi]

end Sys2Proof.Copies
end

section
/-! The family 09_memory_catalogue, reads of elements: what COPY_ELEMENT_COMPLETE does with an element whose source is still to be read
(11 R234, R240; 12 R265). -/

namespace Sys2Proof.Copies

open Machine Laws MatrixUnit Lines Errors

theorem locSpace_line (l : Nat) : locSpace (lineKey l * 128) = locSpace l := by
  simp only [locSpace, lineKey]
  omega

/-! ## COPY_ELEMENT_COMPLETE -/

section Complete

variable {s : State} {id k : Nat} {c : Copy} {e : Elem} (hc : s.copy? id = some c) (he : c.fly[k]? = some e)
include hc he

theorem exec_complete_read (hgot : e.got = false) (hmatrix : s.behindMatrix c e.src 16 false = false)
    (hlink : s.linkDown e.src = false) : exec (.copyElementComplete id k) s = .next (s.readElem c e) := by
  have harm : exec (.copyElementComplete id k) s = execCopyElementComplete id k s := rfl
  rw [harm, execCopyElementComplete, hc]
  simp [he, hgot, hmatrix, hlink]

theorem exec_complete_write (hgot : e.got = true) (hmatrix : s.behindMatrix c e.loc 16 true = false)
    (hlink : s.linkDown e.loc = false) : exec (.copyElementComplete id k) s = .next (s.writeElem c k e) := by
  have harm : exec (.copyElementComplete id k) s = execCopyElementComplete id k s := rfl
  rw [harm, execCopyElementComplete, hc]
  simp [he, hgot, hmatrix, hlink]

end Complete

/-! ## The line of the source -/

/-- Reading the source marks its line, if it is of a scratchpad, and does nothing else. -/
theorem onlyRead_source {s : State} (c : Copy) {e : Elem} (hown : locPkg e.src = 0) (hgood : ∀ n, (s.line n).chkBad = false) :
    OnlyRead s ((s.touchRead c e).readLine c.ctx (lineKey e.src)) ∧
      (locSpace e.src ≠ spPad → ((s.touchRead c e).readLine c.ctx (lineKey e.src)).lines = s.lines) := by
  have htouch : OnlyRead s (s.touchRead c e) ∧ (locSpace e.src ≠ spPad → (s.touchRead c e).lines = s.lines) := by
    unfold State.touchRead
    split
    · refine ⟨onlyRead_touchPad s _, fun hpad => ?_⟩
      rw [State.touchPad, locSpace_line, if_neg hpad]
      rfl
    · exact ⟨.refl s, fun _ => rfl⟩
  have hgood' : ∀ n, ((s.touchRead c e).line n).chkBad = false := fun n => (htouch.1.chkBad n).trans (hgood n)
  rwa [readLine_good hgood' ((locPkg_line e.src).trans hown)]

/-! ## What has been read -/

/-- Element e of copy c is in flight with its data, its entry or entries as the kind of the copy has them. -/
def readCopy (s : State) (c : Copy) (e : Elem) : Copy := c.take e.n (BitVec.ofNat 128 (s.mem.value e.src 16)) (s.poisonAt e.src 16)

theorem fly_readCopy (s : State) {c : Copy} (e : Elem) (hkind : c.desc.kind ≠ .cpyb) : (readCopy s c e).fly =
    c.fly.map fun x => if x.n = e.n ∧ x.got = false then
      { x with got := true, data := BitVec.ofNat 128 (s.mem.value e.src 16), pois := s.poisonAt e.src 16 } else x := by
  rw [List.map_eq_flatMap]
  refine congrArg (fun f => c.fly.flatMap f) (funext fun x => ?_)
  have hdata : ∀ y p, c.withData x y p = [{ x with got := true, data := y, pois := p }] := by
    intro y p
    unfold Copy.withData
    cases hk : c.desc.kind with
    | cpyb => exact absurd hk hkind
    | cpy | cpys | cpyr | prefetch => rfl
  by_cases hx : x.n = e.n ∧ x.got = false
  · rw [if_pos hx, if_pos (by simp [hx]), hdata]
  · rw [if_neg hx, if_neg (by simpa using hx)]

/-- A broadcast element stands in flight to each named tile (11 R240). -/
theorem mem_fly_readCopy (s : State) {c : Copy} {e : Elem} (hkind : c.desc.kind = .cpyb) (he : e ∈ c.fly) (hgot : e.got = false) {t : Nat}
    (ht : t ∈ c.named) : ∃ x ∈ (readCopy s c e).fly, x.n = e.n ∧ x.got = true ∧ x.loc = padLoc t (locPa e.loc) ∧
      x.data = BitVec.ofNat 128 (s.mem.value e.src 16) ∧ x.pois = s.poisonAt e.src 16 := by
  unfold readCopy
  generalize BitVec.ofNat 128 (s.mem.value e.src 16) = y
  generalize s.poisonAt e.src 16 = p
  have hin : ({ e with got := true, data := y, pois := p, loc := padLoc t (locPa e.loc) } : Elem) ∈ (c.take e.n y p).fly := by
    refine List.mem_flatMap.2 ⟨e, he, ?_⟩
    rw [if_pos (by simp [hgot])]
    simp only [Copy.withData, hkind]
    exact List.mem_map.2 ⟨t, ht, rfl⟩
  exact ⟨_, hin, rfl, rfl, rfl, rfl, rfl⟩

/-! ## The read -/

section Read

variable {s : State} {c : Copy} {e : Elem}

theorem readElem_eq (hkind : c.desc.kind ≠ .prefetch) (hord : ∀ op ty, c.desc.kind = .cpyr op ty → c.desc.ord = false) {v : State}
    (hv : v = (s.touchRead c e).readLine c.ctx (lineKey e.src)) :
    s.readElem c e = if c.desc.kind = .cpyb ∧ c.named = [] then
      (v.modCopy c.id fun x => x.take e.n (BitVec.ofNat 128 (s.mem.value e.src 16)) (s.poisonAt e.src 16)).elementsDone c.id [e.n]
    else v.modCopy c.id fun x => x.take e.n (BitVec.ofNat 128 (s.mem.value e.src 16)) (s.poisonAt e.src 16) := by
  have hserved : ∀ u : State, u.served c e = [c.id] := fun u => by simp [State.served, hkind]
  subst hv
  simp only [State.readElem, hserved, State.takeAll]
  cases hk : c.desc.kind with
  | prefetch => exact absurd hk hkind
  | cpyr op ty => simp [hord op ty hk]
  | cpyb => simp
  | cpy | cpys => simp

/-- A read puts the data in flight, and marks the line it was read from. -/
theorem read_flies {id k : Nat} (hc : s.copy? id = some c) (he : c.fly[k]? = some e) (hgot : e.got = false)
    (hmatrix : s.behindMatrix c e.src 16 false = false) (hlink : s.linkDown e.src = false) (hown : locPkg e.src = 0)
    (hgood : ∀ n, (s.line n).chkBad = false) (hkind : c.desc.kind ≠ .prefetch)
    (hord : ∀ op ty, c.desc.kind = .cpyr op ty → c.desc.ord = false) (hnamed : c.desc.kind = .cpyb → c.named ≠ []) :
    ∃ u, exec (.copyElementComplete id k) s = .next u ∧ u.copy? id = some (readCopy s c e) ∧ u.mem = s.mem ∧ u.tiles = s.tiles ∧
      (locSpace e.src ≠ spPad → u.lines = s.lines) ∧ ∀ n, { u.line n with rd := (s.line n).rd } = s.line n := by
  obtain ⟨hread, hlines⟩ := onlyRead_source c hown hgood
  have hcopy : ((s.touchRead c e).readLine c.ctx (lineKey e.src)).copy? c.id = some c :=
    (copy?_congr hread.fab _).trans (id_of_copy? hc ▸ hc)
  obtain rfl := id_of_copy? hc
  rw [exec_complete_read hc he hgot hmatrix hlink, readElem_eq hkind hord rfl, if_neg fun h => hnamed h.1 h.2]
  refine ⟨_, rfl, copy?_modCopy_of hcopy fun _ => rfl, hread.mem, hread.tiles, hlines, fun n => ?_⟩
  obtain ⟨b, hb⟩ := hread.line n
  have hline : ∀ f, ((((s.touchRead c e).readLine c.ctx (lineKey e.src)).modCopy c.id f).line n) = { s.line n with rd := b } := fun _ => hb
  rw [hline]

/-- A broadcast that names no tile has nothing to land: its element is complete with the read (11 R240). -/
theorem read_nowhere {id k : Nat} (hc : s.copy? id = some c) (he : c.fly[k]? = some e) (hgot : e.got = false)
    (hmatrix : s.behindMatrix c e.src 16 false = false) (hlink : s.linkDown e.src = false) (hown : locPkg e.src = 0)
    (hgood : ∀ n, (s.line n).chkBad = false) (hkind : c.desc.kind = .cpyb) (hnamed : c.named = []) (hstall : c.stall = .no) :
    ∃ u d, exec (.copyElementComplete id k) s = .next u ∧ u.copy? id = some d ∧ u.mem = s.mem ∧ u.tiles = s.tiles ∧ Counted d e.n := by
  obtain ⟨hread, -⟩ := onlyRead_source c hown hgood
  have hcopy : ((s.touchRead c e).readLine c.ctx (lineKey e.src)).copy? c.id = some c :=
    (copy?_congr hread.fab _).trans (id_of_copy? hc ▸ hc)
  obtain rfl := id_of_copy? hc
  have htaken := copy?_modCopy_of (f := fun x => x.take e.n (BitVec.ofNat 128 (s.mem.value e.src 16)) (s.poisonAt e.src 16)) hcopy
    fun _ => rfl
  rw [exec_complete_read hc he hgot hmatrix hlink, readElem_eq (by rw [hkind]; nofun) (by rw [hkind]; nofun) rfl,
    if_pos ⟨hkind, hnamed⟩, elementsDone_of_going [e.n] htaken hstall]
  refine ⟨_, _, rfl, copy?_modCopy_of htaken fun x => by rw [complete_rest], hread.mem, hread.tiles, ?_⟩
  exact counted_complete _ (List.mem_singleton.2 rfl)

end Read

end Sys2Proof.Copies
end

section
/-! The family 09_memory_catalogue, writes of elements: what COPY_ELEMENT_COMPLETE does with an element whose data is there, by the kind of
its copy (09 R186; 11 R234, R239, R240). -/

namespace Sys2Proof.Copies

open Machine Laws MatrixUnit Lines Errors

/-! ## Sixteen bytes written -/

theorem value_writes_data {m : Memory} (l : Nat) (x : BitVec 128) (h : m.wf = true) :
    (m.writes l (toBytes x.toNat 16)).value l 16 = x.toNat :=
  (value_writes l x.toNat 16 h).trans (Nat.mod_eq_of_lt x.isLt)

theorem read_writes_toBytes {m : Memory} {l a : Nat} {v n : Nat} (h : m.wf = true) (ha : a < l ∨ l + n ≤ a) :
    (m.writes l (toBytes v n)).read a = m.read a := read_writes_out h (by rwa [length_toBytes])

/-! ## An element written in device memory -/

theorem storeElem_eq {s v w : State} {c : Copy} {e : Elem} (hv : v = s.storeFor c.ctx e.loc (toBytes e.data.toNat 16) e.pois)
    (hw : w = if e.pois then v.modCopy c.id fun y => { y with poisLines := lineKey e.loc :: y.poisLines } else v) :
    s.storeElem c e = w ∨ s.storeElem c e = w.wholeLine c.id (lineKey e.loc) := by
  subst hv hw
  unfold State.storeElem
  dsimp only
  split
  · exact .inr rfl
  · exact .inl rfl

/-- A change of one line keeps memory, tiles and copies. -/
theorem wholeLine_rest (w : State) (id key : Nat) :
    (w.wholeLine id key).mem = w.mem ∧ (w.wholeLine id key).tiles = w.tiles ∧ (w.wholeLine id key).fab = w.fab := by
  obtain ⟨p, h | h⟩ := wholeLine_keeps w id key
  · exact ⟨by rw [h], by rw [h], by rw [h]⟩
  · exact ⟨by rw [h]; rfl, by rw [h]; rfl, by rw [h]; rfl⟩

/-- An element is written where it is to be written, and its copy at most notes the line as poisoned. -/
structure Written16 (c : Copy) (l : Nat) (data : BitVec 128) (s u : State) : Prop where
  mem : u.mem = s.mem.writes l (toBytes data.toNat 16)
  copy : ∃ lines, u.copy? c.id = some { c with poisLines := lines }

theorem written16_storeElem {s : State} {c d : Copy} {e : Elem} (hs : Sound s) (hloc : absentLoc e.loc = false)
    (hid : d.id = c.id) (hc : s.copy? c.id = some c) : Written16 c e.loc e.data s (s.storeElem d e) ∧ (s.storeElem d e).tiles = s.tiles := by
  have hstored := storedAt_storeFor d.ctx (toBytes e.data.toNat 16) e.pois hs hloc
  have hcopy := (copy?_congr hstored.fab c.id).trans hc
  obtain ⟨w, hw, hmem, htiles, hwcopy⟩ : ∃ w, (w = if e.pois then
      (s.storeFor d.ctx e.loc (toBytes e.data.toNat 16) e.pois).modCopy d.id fun y => { y with poisLines := lineKey e.loc :: y.poisLines }
      else s.storeFor d.ctx e.loc (toBytes e.data.toNat 16) e.pois) ∧ w.mem = s.mem.writes e.loc (toBytes e.data.toNat 16) ∧
      w.tiles = s.tiles ∧ ∃ lines, w.copy? c.id = some { c with poisLines := lines } := by
    refine ⟨_, rfl, ?_⟩
    split
    · exact ⟨hstored.mem, hstored.tiles, _, by rw [hid]; exact copy?_modCopy_of hcopy fun _ => rfl⟩
    · exact ⟨hstored.mem, hstored.tiles, c.poisLines, hcopy⟩
  rcases storeElem_eq (c := d) rfl hw with h | h
  · rw [h]
    exact ⟨⟨hmem, hwcopy⟩, htiles⟩
  · obtain ⟨hmem', htiles', hfab'⟩ := wholeLine_rest w d.id (lineKey e.loc)
    rw [h]
    exact ⟨⟨hmem'.trans hmem, by rwa [copy?_congr hfab']⟩, htiles'.trans htiles⟩

/-! ## What is written, by the kind of the copy -/

/-- Copy c without its entry k in flight. -/
def left (c : Copy) (k : Nat) : Copy := { c with fly := c.fly.eraseIdx k }

section Write

variable {s : State} {c : Copy} {k : Nat} {e : Elem} (hsout : c.desc.sout = none)
include hsout

theorem writeElem_memory (hkind : c.desc.kind = .cpy ∨ c.desc.kind = .cpys) (hpad : locSpace e.loc ≠ spPad) :
    s.writeElem c k e = (s.storeElem (left c k) e).entryOver c k e := by
  have hundecided : c.undecided e = false := by simp [Copy.undecided, hpad]
  rcases hkind with hk | hk
  · simp [State.writeElem, hsout, hk, hundecided, hpad, left]
  · simp [State.writeElem, hsout, hk, hundecided, hpad, left]

theorem writeElem_pad (hkind : c.desc.kind = .cpy ∨ c.desc.kind = .cpys) (hundecided : c.undecided e = false)
    (hpad : locSpace e.loc = spPad) : s.writeElem c k e =
      (s.landElem (left c k) c.tile e.n e.data e.pois).entryOver c k e := by
  rcases hkind with hk | hk
  · simp [State.writeElem, hsout, hk, hundecided, hpad, left]
  · simp [State.writeElem, hsout, hk, hundecided, hpad, left]

theorem writeElem_reduces {op : RedOp} {ty : ElemType} (hkind : c.desc.kind = .cpyr op ty) (hord : c.desc.ord = false)
    (hfirst : ∀ x ∈ c.fly, e.n ≤ x.n) : s.writeElem c k e =
      (s.combine c.ctx e.loc 16 (fun o => combineLine op ty o e.data.toNat % 2 ^ 128) e.pois).entryOver c k e := by
  have horder : c.inOrder e = true := List.all_eq_true.2 fun x hx => decide_eq_true (hfirst x hx)
  simp [State.writeElem, hsout, hkind, hord, horder]

theorem writeElem_broadcast (hkind : c.desc.kind = .cpyb) :
    s.writeElem c k e = (s.broadcast (left c k) e).entryOver c k e := by
  simp [State.writeElem, hsout, hkind, left]

end Write

/-- A write for a reducing copy: read, combined, written (11 R239). -/
theorem combine_good {s : State} (ctx : BitVec 32) {l : Nat} (n : Nat) (f : Nat → Nat) (p : Bool) (hs : Sound s) (hl : absentLoc l = false) :
    StoredAt l (toBytes (f (s.mem.value l n)) n) s (s.combine ctx l n f p) := by
  rw [State.combine, verifyLines_good s ctx _ hs.good]
  exact storedAt_storeFor ctx _ _ hs hl

/-! ## The end of the entry -/

/-- After the write of entry k of a copy, which has noted at most a poisoned line. -/
theorem over_of_written {v : State} {c : Copy} (k : Nat) (e : Elem) (hstall : c.stall = .no)
    (hcopy : ∃ lines, v.copy? c.id = some { c with poisLines := lines }) :
    CopiesOnly v (v.entryOver c k e) ∧ ∃ d, (v.entryOver c k e).copy? c.id = some d ∧ d.fly = c.fly.eraseIdx k ∧
      ((∀ x ∈ c.fly.eraseIdx k, x.n ≠ e.n) → e.n < d.prog ∨ e.n ∈ d.above) := by
  obtain ⟨lines, hlines⟩ := hcopy
  obtain ⟨honly, d, hd, hover⟩ := entryOver_of_going k e hlines hstall
  exact ⟨honly, d, hd, hover.fly, hover.counted⟩

/-! ## Locations of a scratchpad -/

theorem locSpace_padLoc {t o : Nat} (ht : t < 2 ^ 32) (ho : o < 2 ^ 20) : locSpace (padLoc t o) = spPad := by
  simp only [locSpace, padLoc, locOf, spPad]
  omega

theorem locPkg_padLoc {t o : Nat} (ht : t < 2 ^ 32) (ho : o < 2 ^ 20) : locPkg (padLoc t o) = 0 := by
  simp only [locPkg, padLoc, locOf, spPad]
  omega

theorem landed_in_pad {s : State} {c : Copy} {t i : Nat} (data : BitVec 128) (pois : Bool) (hs : Sound s) (hretry : s.fab.retry = [])
    (hkind : c.desc.kind ≠ .prefetch) (ht : t < 2 ^ 32) : Landed c t i data s (s.landElem c t i data pois) :=
  have ho : (c.desc.dst + c.desc.dstOff i).toNat % 2 ^ 20 < 2 ^ 20 := Nat.mod_lt _ (by decide)
  landed_landElem pois hs hretry hkind (locPkg_padLoc ht ho) (locSpace_padLoc ht ho)

/-! ## COPY_ELEMENT_COMPLETE of an element with its data -/

section Complete

variable {s : State} {id k : Nat} {c : Copy} {e : Elem} (hc : s.copy? id = some c) (he : c.fly[k]? = some e) (hgot : e.got = true)
  (hmatrix : s.behindMatrix c e.loc 16 true = false) (hlink : s.linkDown e.loc = false) (hs : Sound s) (hstall : c.stall = .no)
  (hsout : c.desc.sout = none)
include hc he hgot hmatrix hlink hs hstall hsout

theorem write_memory (hkind : c.desc.kind = .cpy ∨ c.desc.kind = .cpys) (hpad : locSpace e.loc ≠ spPad) (hloc : absentLoc e.loc = false) :
    ∃ u d, exec (.copyElementComplete id k) s = .next u ∧ u.mem.value e.loc 16 = e.data.toNat ∧
      (∀ a, a < e.loc ∨ e.loc + 16 ≤ a → u.mem.read a = s.mem.read a) ∧ u.copy? id = some d ∧ d.fly = c.fly.eraseIdx k ∧
      ((∀ x ∈ c.fly.eraseIdx k, x.n ≠ e.n) → e.n < d.prog ∨ e.n ∈ d.above) ∧ u.tiles = s.tiles := by
  obtain rfl := id_of_copy? hc
  obtain ⟨hwritten, htiles⟩ := written16_storeElem (c := c) (d := left c k) (e := e) hs hloc rfl hc
  obtain ⟨honly, d, hd, hfly, hcounted⟩ := over_of_written k e hstall hwritten.copy
  have hmem := honly.mem.trans hwritten.mem
  refine ⟨_, d, (exec_complete_write hc he hgot hmatrix hlink).trans (congrArg _ (writeElem_memory hsout hkind hpad)), ?_, fun a ha => ?_,
    hd, hfly, hcounted, honly.tiles.trans htiles⟩
  · rw [hmem, value_writes_data _ _ hs.canonical.1]
  · rw [hmem, read_writes_toBytes hs.canonical.1 ha]

theorem write_pad (hretry : s.fab.retry = []) (hkind : c.desc.kind = .cpy ∨ c.desc.kind = .cpys) (hundecided : c.undecided e = false)
    (hpad : locSpace e.loc = spPad) (htile : c.tile < 1088) :
    ∃ u d l key, l = padLoc c.tile ((c.desc.dst + c.desc.dstOff e.n).toNat % 2 ^ 20) ∧ key = c.padLine c.tile e.n ∧
      exec (.copyElementComplete id k) s = .next u ∧ u.mem.value l 16 = e.data.toNat ∧
      (∀ a, a < l ∨ l + 16 ≤ a → u.mem.read a = s.mem.read a) ∧ u.copy? id = some d ∧ d.fly = c.fly.eraseIdx k ∧
      ((∀ x ∈ c.fly.eraseIdx k, x.n ≠ e.n) → e.n < d.prog ∨ e.n ∈ d.above) ∧ (u.line key).wr = true ∧
      ((left c k).lineOver c.tile key = true → (u.line key).full = true) ∧
      ((left c k).lineOver c.tile key = false → (u.line key).full = (s.line key).full) ∧
      (∀ n, n ≠ key → (u.line n).full = (s.line n).full) ∧ ∀ n, n ≠ c.tile → u.tile n = s.tile n := by
  obtain rfl := id_of_copy? hc
  have hprefetch : c.desc.kind ≠ .prefetch := by rcases hkind with h | h <;> rw [h] <;> nofun
  have hlanded := landed_in_pad (c := left c k) (i := e.n) e.data e.pois hs hretry hprefetch
    (show c.tile < 2 ^ 32 by omega)
  obtain ⟨honly, d, hd, hfly, hcounted⟩ := over_of_written k e hstall (hlanded.lands.copy hc)
  have hmem := honly.mem.trans hlanded.mem
  refine ⟨_, d, _, _, rfl, rfl, (exec_complete_write hc he hgot hmatrix hlink).trans (congrArg _ (writeElem_pad hsout hkind hundecided hpad)),
    ?_, fun a ha => ?_, hd, hfly, hcounted, ?_, fun hover => ?_, fun hopen => ?_, fun n hn => ?_, fun n hn => ?_⟩
  · rw [hmem]
    exact value_writes_data _ _ hs.canonical.1
  · rw [hmem]
    exact read_writes_toBytes hs.canonical.1 ha
  · rw [honly.line]
    exact hlanded.wr
  · rw [honly.line]
    exact (hlanded.full _).trans (if_pos ⟨rfl, hover⟩)
  · rw [honly.line]
    exact (hlanded.full _).trans (if_neg fun h => Bool.noConfusion (hopen.symm.trans h.2))
  · rw [honly.line]
    exact (hlanded.full n).trans (if_neg fun h => hn h.1)
  · rw [honly.tile]
    exact hlanded.lands.others n hn

theorem write_reduces {op : RedOp} {ty : ElemType} (hkind : c.desc.kind = .cpyr op ty) (hord : c.desc.ord = false)
    (hfirst : ∀ x ∈ c.fly, e.n ≤ x.n) (hloc : absentLoc e.loc = false) :
    ∃ u d, exec (.copyElementComplete id k) s = .next u ∧
      u.mem.value e.loc 16 = combineLine op ty (s.mem.value e.loc 16) e.data.toNat % 2 ^ 128 ∧
      (∀ a, a < e.loc ∨ e.loc + 16 ≤ a → u.mem.read a = s.mem.read a) ∧ u.copy? id = some d ∧ d.fly = c.fly.eraseIdx k ∧
      ((∀ x ∈ c.fly.eraseIdx k, x.n ≠ e.n) → e.n < d.prog ∨ e.n ∈ d.above) ∧ u.tiles = s.tiles := by
  obtain rfl := id_of_copy? hc
  have hstored := combine_good c.ctx 16 (fun o => combineLine op ty o e.data.toNat % 2 ^ 128) e.pois hs hloc
  obtain ⟨honly, d, hd, hfly, hcounted⟩ := over_of_written k e hstall ⟨c.poisLines, (copy?_congr hstored.fab _).trans hc⟩
  have hmem := honly.mem.trans hstored.mem
  refine ⟨_, d, (exec_complete_write hc he hgot hmatrix hlink).trans (congrArg _ (writeElem_reduces hsout hkind hord hfirst)), ?_,
    fun a ha => ?_, hd, hfly, hcounted, honly.tiles.trans hstored.tiles⟩
  · rw [hmem, value_writes _ _ _ hs.canonical.1]
    exact Nat.mod_mod _ _
  · rw [hmem, read_writes_toBytes hs.canonical.1 ha]

/-- A broadcast element lands in a named tile that takes it (11 R240). -/
theorem write_broadcast (hretry : s.fab.retry = []) (hkind : c.desc.kind = .cpyb) (htakes : s.takesBroadcast c (locCtx e.loc) = true) :
    ∃ u l, l = padLoc (locCtx e.loc) ((c.desc.dst + c.desc.dstOff e.n).toNat % 2 ^ 20) ∧ exec (.copyElementComplete id k) s = .next u ∧
      u.mem.value l 16 = e.data.toNat ∧ (∀ a, a < l ∨ l + 16 ≤ a → u.mem.read a = s.mem.read a) ∧
      ((left c k).lineOver (locCtx e.loc) (lineKey l) = true → (u.line (lineKey l)).full = true) := by
  obtain rfl := id_of_copy? hc
  have hlanded := landed_in_pad (c := left c k) (t := locCtx e.loc) (i := e.n) e.data e.pois hs hretry
    (show c.desc.kind ≠ .prefetch by rw [hkind]; nofun) (Nat.mod_lt _ (by decide))
  have hbroadcast : s.broadcast (left c k) e =
      s.landElem (left c k) (locCtx e.loc) e.n e.data e.pois := if_pos htakes
  obtain ⟨honly, -⟩ := over_of_written k e hstall (hlanded.lands.copy hc)
  have hmem := honly.mem.trans hlanded.mem
  refine ⟨_, _, rfl, (exec_complete_write hc he hgot hmatrix hlink).trans (congrArg _ ((writeElem_broadcast hsout hkind).trans
    (congrArg (fun u => u.entryOver c k e) hbroadcast))), ?_, fun a ha => ?_, fun hover => ?_⟩
  · rw [hmem]
    exact value_writes_data _ _ hs.canonical.1
  · rw [hmem]
    exact read_writes_toBytes hs.canonical.1 ha
  · rw [honly.line]
    exact (hlanded.full _).trans (if_pos ⟨rfl, hover⟩)

omit hs in
/-- A named tile that does not take a broadcast element is skipped from then on (11 R240). -/
theorem write_skips (hkind : c.desc.kind = .cpyb) (htakes : s.takesBroadcast c (locCtx e.loc) = false) :
    ∃ u d, exec (.copyElementComplete id k) s = .next u ∧ u.mem = s.mem ∧ u.lines = s.lines ∧ u.tiles = s.tiles ∧ u.copy? id = some d ∧
      d.skip = c.skip ||| ((1 : BitVec 16) <<< tileIndex (locCtx e.loc)) := by
  obtain rfl := id_of_copy? hc
  have hbroadcast : s.broadcast (left c k) e =
      s.modCopy c.id fun y => { y with skip := y.skip ||| ((1 : BitVec 16) <<< tileIndex (locCtx e.loc)) } :=
    if_neg fun h => Bool.noConfusion (htakes.symm.trans h)
  have hskips : (s.modCopy c.id fun y => { y with skip := y.skip ||| ((1 : BitVec 16) <<< tileIndex (locCtx e.loc)) }).copy? c.id =
      some { c with skip := c.skip ||| ((1 : BitVec 16) <<< tileIndex (locCtx e.loc)) } := copy?_modCopy_of hc fun _ => rfl
  obtain ⟨honly, d, hd, hover⟩ := entryOver_of_going k e hskips hstall
  have hall := (copiesOnly_modCopy s _ _).trans honly
  refine ⟨_, d, (exec_complete_write hc he hgot hmatrix hlink).trans (congrArg _ ((writeElem_broadcast hsout hkind).trans
    (congrArg (fun u => u.entryOver c k e) hbroadcast))), hall.mem, hall.lines, hall.tiles, hd, ?_⟩
  rw [hover.rest]

end Complete

end Sys2Proof.Copies
end

section
/-! The family 09_memory_catalogue, copies to a port and the end of a copy: packets made of eight sectors (11 R252), the stamp (11 R244) and
the tag (05 R113); and O47, assembled. -/

namespace Sys2Proof.Copies

open Machine Laws MatrixUnit Lines Errors

/-! ## A packet of sectors (11 R252) -/

/-- A sector of a payload, whatever stands behind the last one. -/
theorem joinSectors_sector {l : List (BitVec 128)} {i : Nat} {y : BitVec 128} (fill : Nat) (h : l[i]? = some y) :
    (joinSectors l + 2 ^ (128 * l.length) * fill) / 2 ^ (128 * i) % 2 ^ 128 = y.toNat := by
  induction l generalizing i with
  | nil => simp at h
  | cons d rest ih =>
    have hd : d.toNat < 2 ^ 128 := d.isLt
    have hsplit : joinSectors (d :: rest) + 2 ^ (128 * (d :: rest).length) * fill =
        d.toNat + 2 ^ 128 * (joinSectors rest + 2 ^ (128 * rest.length) * fill) := by
      rw [joinSectors, List.length_cons, Nat.mul_succ, Nat.add_comm (128 * rest.length), Nat.pow_add, Nat.mul_assoc, Nat.mul_add,
        Nat.add_assoc]
    rw [hsplit]
    cases i with
    | zero =>
      obtain rfl : d = y := by simpa using h
      rw [Nat.mul_zero, Nat.pow_zero, Nat.div_one, Nat.add_mul_mod_self_left, Nat.mod_eq_of_lt hd]
    | succ i =>
      rw [Nat.mul_succ, Nat.add_comm (128 * i), Nat.pow_add, ← Nat.div_div_eq_div_mul, Nat.add_mul_div_left _ _ (Nat.two_pow_pos _),
        Nat.div_eq_of_lt hd, Nat.zero_add, ih (by simpa using h)]

theorem payload_packetOf (fill : Nat → Byte) (d : CopyDesc) {l : List Elem} {i : Nat} {y : Elem} (hl : l.length ≤ 8)
    (h : l[i]? = some y) : (packetOf fill d l).payload.extractLsb' (128 * i) 128 = y.data := by
  have hi : i < l.length := (List.getElem?_eq_some_iff.1 h).1
  have hdata : (l.map fun e => e.data)[i]? = some y.data := by rw [List.getElem?_map, h]; rfl
  apply BitVec.eq_of_toNat_eq
  rw [BitVec.extractLsb'_toNat, Nat.shiftRight_eq_div_pow, packetOf, Vector.toNat_ofNat_field _ (by omega)]
  have hsector := joinSectors_sector (leNat ((List.range (16 * (8 - l.length))).map fun i => fill (i + 1))) hdata
  rwa [List.length_map] at hsector

theorem outPort_modOut {r : Run} {port : Nat} (f : OutPort → OutPort) (h : port < r.out.length) :
    (r.modOut port f).outPort port = f (r.outPort port) := by
  simp [Run.modOut, Run.outPort, h]

/-! ## A sector reaches an output port -/

theorem run?_of_copyRun {s : State} {c : Copy} {r : Run} (h : s.copyRun c = some r) : s.run? c.tile = some r := by
  unfold State.copyRun at h
  split at h
  · cases h
  · split at h
    · rename_i hrun
      split at h
      · cases h
        exact hrun
      · cases h
    · cases h

section Port

variable {s : State} {id k port : Nat} {c : Copy} {e : Elem} {r : Run}

theorem writeElem_port (hsout : c.desc.sout = some port) (hrun : s.copyRun c = some r) (hfirst : ∀ x ∈ c.fly, e.n ≤ x.n) :
    s.writeElem c k e = s.feedPort c r port k e := by
  have horder : c.inOrder e = true := List.all_eq_true.2 fun x hx => decide_eq_true (hfirst x hx)
  simp [State.writeElem, hsout, hrun, horder]

/-- The packet that the sectors so far make. -/
def packetSoFar (c : Copy) (r : Run) (port : Nat) (e : Elem) : Packet :=
  packetOf (Config.packetByte r.ctx r.templ r.tag r.idx port (r.outPort port).nextSeq) c.desc (c.part ++ [e])

theorem feedPort_gathers (hlen : c.part.length + 1 < 8) (hmore : e.n + 1 < c.desc.n) :
    s.feedPort c r port k e = (s.modCopy c.id fun y => { y with part := c.part ++ [e] }).entryOver c k e := by
  have hopen : (decide ((c.part ++ [e]).length < 8) && decide (e.n + 1 < c.desc.n)) = true := by
    rw [List.length_append, List.length_singleton, decide_eq_true hlen, decide_eq_true hmore]
    rfl
  exact if_pos hopen

theorem feedPort_sends (hfull : 8 ≤ c.part.length + 1 ∨ c.desc.n ≤ e.n + 1)
    (hroom : (r.outPort port).hasRoom ((r.pitch.map fun p => p.reserved port).getD 0) = true) :
    s.feedPort c r port k e = ((s.setRun c.tile (r.modOut port fun o => o.enter (packetSoFar c r port e))).modCopy c.id fun y =>
      { y with part := [], lastSent := some (r.outPort port).nextSeq }).entryOver c k e := by
  have hclosed : ¬ (decide ((c.part ++ [e]).length < 8) && decide (e.n + 1 < c.desc.n)) = true := by
    simp only [List.length_append, List.length_singleton, Bool.and_eq_true, decide_eq_true_eq]
    omega
  refine (if_neg hclosed).trans (if_pos ?_)
  cases hp : r.pitch with
  | none => rwa [hp] at hroom
  | some p => rwa [hp] at hroom

section Complete

variable (hc : s.copy? id = some c) (he : c.fly[k]? = some e) (hgot : e.got = true) (hmatrix : s.behindMatrix c e.loc 16 true = false)
  (hlink : s.linkDown e.loc = false) (hsout : c.desc.sout = some port) (hstall : c.stall = .no) (hrun : s.copyRun c = some r)
  (hfirst : ∀ x ∈ c.fly, e.n ≤ x.n)
include hc he hgot hmatrix hlink hsout hstall hrun hfirst

theorem write_gathers (hlen : c.part.length + 1 < 8) (hmore : e.n + 1 < c.desc.n) :
    ∃ u d, exec (.copyElementComplete id k) s = .next u ∧ u.copy? id = some d ∧ d.part = c.part ++ [e] ∧ u.run? c.tile = some r ∧
      u.mem = s.mem := by
  obtain rfl := id_of_copy? hc
  have hgathers : (s.modCopy c.id fun y => { y with part := c.part ++ [e] }).copy? c.id = some { c with part := c.part ++ [e] } :=
    copy?_modCopy_of hc fun _ => rfl
  obtain ⟨honly, d, hd, hover⟩ := entryOver_of_going k e hgathers hstall
  have hall := (copiesOnly_modCopy s _ _).trans honly
  refine ⟨_, d, (exec_complete_write hc he hgot hmatrix hlink).trans (congrArg _ ((writeElem_port hsout hrun hfirst).trans
    (feedPort_gathers hlen hmore))), hd, ?_, (hall.run? _).trans (run?_of_copyRun hrun), hall.mem⟩
  rw [hover.rest]

theorem write_sends (hfull : 8 ≤ c.part.length + 1 ∨ c.desc.n ≤ e.n + 1)
    (hroom : (r.outPort port).hasRoom ((r.pitch.map fun p => p.reserved port).getD 0) = true) (hport : port < r.out.length) :
    ∃ u d r', exec (.copyElementComplete id k) s = .next u ∧ u.copy? id = some d ∧ d.part = [] ∧
      d.lastSent = some (r.outPort port).nextSeq ∧ u.run? c.tile = some r' ∧
      r'.outPort port = (r.outPort port).enter (packetSoFar c r port e) ∧ u.mem = s.mem := by
  obtain rfl := id_of_copy? hc
  have hsent := copy?_modCopy_of (s := s.setRun c.tile (r.modOut port fun o => o.enter (packetSoFar c r port e)))
    (f := fun y => { y with part := [], lastSent := some (r.outPort port).nextSeq }) hc fun _ => rfl
  obtain ⟨honly, d, hd, hover⟩ := entryOver_of_going k e hsent hstall
  have hall := (copiesOnly_modCopy _ _ _).trans honly
  refine ⟨_, d, _, (exec_complete_write hc he hgot hmatrix hlink).trans (congrArg _ ((writeElem_port hsout hrun hfirst).trans
    (feedPort_sends hfull hroom))), hd, ?_, ?_, (hall.run? _).trans (run?_setRun_same _ _ _), outPort_modOut _ hport, hall.mem⟩
  · rw [hover.rest]
  · rw [hover.rest]

end Complete

end Port

/-! ## The stamp (11 R244) -/

theorem exec_stamp {s : State} {id l : Nat} {c : Copy} {a v : BitVec 64} (hc : s.copy? id = some c) (hstamp : c.desc.stamp = some (a, v))
    (hmoved : c.moved = true) (hdone : c.done = false) (hopen : c.stampDone = false) (hl : s.streamLoc c.tile c.ctx a true = .ok l)
    (hmatrix : s.behindMatrix c l 8 true = false) {u : State}
    (hu : u = (s.storeFor c.ctx l (toBytes v.toNat 8) false).modCopy id fun c => { c with stampDone := true }) :
    exec (.copyStampWrite id) s = .next (if locSpace l = spPad ∧ ({ c with stampDone := true } : Copy).lineOver c.tile (lineKey l) = true then
      u.landFull (lineKey l) true else u) := by
  subst hu
  have harm : exec (.copyStampWrite id) s = execCopyStampWrite id s := rfl
  rw [harm, execCopyStampWrite, hc]
  simp [hstamp, hmoved, hdone, hopen, hl, hmatrix]

theorem stamp_written {s : State} {id l : Nat} {c : Copy} {a v : BitVec 64} (hc : s.copy? id = some c) (hstamp : c.desc.stamp = some (a, v))
    (hmoved : c.moved = true) (hdone : c.done = false) (hopen : c.stampDone = false) (hl : s.streamLoc c.tile c.ctx a true = .ok l)
    (hmatrix : s.behindMatrix c l 8 true = false) (hloc : absentLoc l = false) (hs : Sound s) (hretry : s.fab.retry = []) :
    ∃ u d, exec (.copyStampWrite id) s = .next u ∧ u.mem.value l 8 = v.toNat ∧ u.copy? id = some d ∧ d.stampDone = true ∧
      (∀ a, a < l ∨ l + 8 ≤ a → u.mem.read a = s.mem.read a) ∧ u.tiles = s.tiles ∧
      (locSpace l = spPad → ({ c with stampDone := true } : Copy).lineOver c.tile (lineKey l) = true → (u.line (lineKey l)).full = true) := by
  have hstored := storedAt_storeFor c.ctx (toBytes v.toNat 8) false hs hloc
  obtain ⟨u, hu⟩ : ∃ u, u = (s.storeFor c.ctx l (toBytes v.toNat 8) false).modCopy id fun c => { c with stampDone := true } := ⟨_, rfl⟩
  have hucopy : u.copy? id = some { c with stampDone := true } :=
    hu ▸ copy?_modCopy_of ((copy?_congr hstored.fab id).trans hc) fun _ => rfl
  have humem : u.mem = s.mem.writes l (toBytes v.toNat 8) := hu ▸ hstored.mem
  have hutiles : u.tiles = s.tiles := hu ▸ hstored.tiles
  have hfull : u.landFull (lineKey l) true = u.modLine (lineKey l) fun m => { m with full := true, wr := m.wr || true } :=
    landFull_of_no_retry _ (hu ▸ (congrArg Fabric.retry hstored.fab).trans hretry)
  have hvalue : (s.mem.writes l (toBytes v.toNat 8)).value l 8 = v.toNat :=
    (value_writes l v.toNat 8 hs.canonical.1).trans (Nat.mod_eq_of_lt v.isLt)
  have hframe : ∀ a, a < l ∨ l + 8 ≤ a → (s.mem.writes l (toBytes v.toNat 8)).read a = s.mem.read a := fun a ha =>
    read_writes_toBytes hs.canonical.1 ha
  rw [exec_stamp hc hstamp hmoved hdone hopen hl hmatrix hu]
  by_cases hover : locSpace l = spPad ∧ ({ c with stampDone := true } : Copy).lineOver c.tile (lineKey l) = true
  · rw [if_pos hover, hfull]
    refine ⟨_, _, rfl, ?_, hucopy, rfl, ?_, hutiles, fun _ _ => ?_⟩
    · rw [modLine_mem, humem, hvalue]
    · rw [modLine_mem, humem]
      exact hframe
    · rw [line_modLine _ _ _ (hu ▸ hstored.sound.canonical.2), if_pos rfl]
  · rw [if_neg hover]
    exact ⟨u, _, rfl, humem ▸ hvalue, hucopy, rfl, humem ▸ hframe, hutiles, fun hpad hline => absurd ⟨hpad, hline⟩ hover⟩

/-! ## The end of a copy (05 R113) -/

/-- The tag bits of a completed copy. -/
theorem copyDone_tagged {d : CopyDesc} {g : Nat} (r : Run) (h : d.tag = some g) : r.copyDone d =
    { r with ctags := r.ctags ||| ((1 : BitVec 64) <<< g), ctagpend := r.ctagpend &&& ~~~((1 : BitVec 64) <<< g) } := by
  have hbit : BitVec.ofNat 64 (1 <<< g) = (1 : BitVec 64) <<< g := BitVec.eq_of_toNat_eq (by simp)
  rw [Run.copyDone, h, ← hbit]
  rfl

theorem copy_completed {s : State} {id g : Nat} {c : Copy} {r : Run} (hc : s.copy? id = some c) (hmoved : c.moved = true)
    (hdone : c.done = false) (hstamp : c.desc.stamp = none ∨ c.stampDone = true) (hrun : s.copyRun c = some r) (htwin : r.twin = none)
    (hport : c.portClear r = true) (htag : c.desc.tag = some g) :
    ∃ u r' d, exec (.copyComplete id) s = .next u ∧ u.copy? id = some d ∧ d.done = true ∧ u.run? c.tile = some r' ∧
      r'.ctags = r.ctags ||| ((1 : BitVec 64) <<< g) ∧ r'.ctagpend = r.ctagpend &&& ~~~((1 : BitVec 64) <<< g) ∧ u.mem = s.mem ∧
      ∀ n, n ≠ c.tile → u.tile n = s.tile n := by
  have hstamped : (c.desc.stamp.isNone || c.stampDone) = true := by
    rcases hstamp with h | h
    · rw [h]
      rfl
    · rw [h, Bool.or_true]
  have hcopydone := copyDone_tagged r htag
  have htagged : (s.modCopy id fun c => { c with done := true }).modRun c.tile (fun r => r.copyDone c.desc) =
      (s.modCopy id fun c => { c with done := true }).setRun c.tile (r.copyDone c.desc) :=
    modRun_of_run (s := s.modCopy id fun c => { c with done := true }) (run?_of_copyRun hrun) _
  have hsingle : ∀ q, ((s.modCopy id fun c => { c with done := true }).setRun c.tile (r.copyDone c.desc)).run? c.tile = some q →
      q.twin = none := by
    intro q hq
    rw [run?_setRun_same] at hq
    obtain rfl := Option.some.inj hq
    rw [hcopydone]
    exact htwin
  have hexec : exec (.copyComplete id) s =
      .next ((s.modCopy id fun c => { c with done := true }).setRun c.tile (r.copyDone c.desc)) := by
    have harm : exec (.copyComplete id) s = execCopyComplete id s := rfl
    rw [harm, execCopyComplete, hc]
    simp only [hmoved, hdone, hstamped, Bool.not_false, Bool.and_self, if_true, hrun, hport, htagged, twinEnter_of_single hsingle]
  refine ⟨_, r.copyDone c.desc, { c with done := true }, hexec, ?_, rfl, run?_setRun_same _ _ _, ?_, ?_, rfl, fun n hn => ?_⟩
  · exact copy?_modCopy_of hc fun _ => rfl
  · rw [hcopydone]
  · rw [hcopydone]
  · exact (tile_modTile _ _ _ _).trans (if_neg hn)

/-! ## O47 -/

/-- The packet that a copy enters in its port: numbered, its poison that of its sectors, its payload their data. -/
theorem packet_entered {c : Copy} {r : Run} (port : Nat) (e : Elem) (hpart : c.part.length < 8) :
    ∃ x, ((r.outPort port).enter (packetSoFar c r port e)).queue = (r.outPort port).queue ++ [x] ∧ x.seq = (r.outPort port).nextSeq ∧
      x.pois = (c.part ++ [e]).any (fun y => y.pois) ∧ x.eot = false ∧ x.abort = false ∧
      ∀ i y, (c.part ++ [e])[i]? = some y → x.payload.extractLsb' (128 * i) 128 = y.data :=
  ⟨{ packetSoFar c r port e with seq := (r.outPort port).nextSeq }, rfl, rfl, rfl, rfl, rfl, fun _ _ hy =>
    payload_packetOf _ c.desc (by rw [List.length_append, List.length_singleton]; omega) hy⟩

/-- What O47 says of the issue of one element of a copy from memory: the leaves noted with it are those of the copy that is looked up,
in whatever copy of that number the element is noted. -/
def IssueClause : Prop :=
  ∀ id s c a b, s.copy? id = some c → c.live = true → c.next < c.desc.n → c.desc.sin = none → c.desc.kind ≠ .prefetch →
    (∀ op ty, c.desc.kind = .cpyr op ty → c.desc.ord = false) → s.elemLocs c c.next = .ok (a, b) →
    exec (.copyElementTranslate id) s = .next (s.modCopy id fun y =>
      { y with next := c.next + 1, fly := y.fly ++ [{ n := c.next, loc := b, src := a, via := s.elemVia c c.next }] })

/-- Every clause of O47 but that one holds. -/
theorem copyEvents_of_issueClause (hissue : IssueClause) : Obligations.CopyEvents := by
  unfold Obligations.CopyEvents
  refine ⟨⟨?locs, hissue, ?stall, ?line, ?sector, ?packet, ?ended⟩, ?read, ?nowhere, ?write, ?port, ?stamp, ?complete⟩
  case locs =>
    intro s c i a b h hkind hsout
    obtain ⟨hsrc, hdst⟩ := elemLocs_ok h
    exact ⟨(elemSrc_of_copy i hkind).symm.trans hsrc, fun hk => elemDst_streams hk hsout hdst,
      fun op ty hk => (elemDst_reduces hk hsout hdst).2⟩
  case stall =>
    intro id s c f hc hlive hnext hsin hkind hord hlocs hf hprog hgood
    rw [exec_translate_memory hc hlive hnext hsin hkind hord, State.issueElem, hlocs, id_of_copy? hc]
    exact congrArg _ (stallCopy_draining hc hf hprog hgood)
  case line =>
    intro id s c op ty l hc hlive hnext hsin hkind hord hlocs
    rw [exec_translate_line hc hlive hnext hsin hkind hord, State.issueLine, hlocs, id_of_copy? hc]
  case sector =>
    intro id s c p b d q rest hc hlive hnext hsin hpart hdst
    rw [exec_translate_port hc hlive hnext hsin, issueSin_sector hpart hdst, id_of_copy? hc]
  case packet =>
    intro id s c p q r k rest hc hlive hnext hsin hpart hport hrun hpop hqueue hroom habort heot
    rw [exec_translate_port hc hlive hnext hsin, issueSin_packet hpart hport hrun hpop hqueue hroom habort heot, id_of_copy? hc]
    refine ⟨_, { c with inPart := k.sectors }, rfl, ?_, rfl, rfl, by simp [Packet.sectors], fun i hi => getElem?_sectors k hi, rfl, rfl⟩
    exact copy?_modCopy_of (s := s.modInPort q.inst q.idx q.port InPort.take) hc fun _ => rfl
  case ended =>
    intro id s c p q r hc hlive hnext hsin hpart hport hrun hpop hqueue hended
    rw [exec_translate_port hc hlive hnext hsin, issueSin_ended hpart hport hrun hpop hqueue hended, id_of_copy? hc]
  case read =>
    intro id k s c e hc he hgot hmatrix hlink hown hgood hkind hord hnamed
    obtain ⟨u, hexec, hcopy, hmem, htiles, hlines, hline⟩ := read_flies hc he hgot hmatrix hlink hown hgood hkind hord hnamed
    refine ⟨u, _, hexec, hcopy, hmem, htiles, hlines, hline, fly_readCopy s e, fun hbroadcast t ht hmask => ?_⟩
    exact mem_fly_readCopy s hbroadcast (List.mem_of_getElem? he) hgot (List.mem_filter.2 ⟨ht, hmask⟩)
  case nowhere =>
    intro id k s c e hc he hgot hmatrix hlink hown hgood hkind hnamed hstall
    exact read_nowhere hc he hgot hmatrix hlink hown hgood hkind hnamed hstall
  case write =>
    intro id k s c e hc he hgot hmatrix hlink hgood hcanon hstall hsout hretry
    have hs : Sound s := ⟨hcanon, hgood⟩
    exact ⟨write_memory hc he hgot hmatrix hlink hs hstall hsout, write_pad hc he hgot hmatrix hlink hs hstall hsout hretry,
      fun op ty => write_reduces hc he hgot hmatrix hlink hs hstall hsout, write_broadcast hc he hgot hmatrix hlink hs hstall hsout hretry,
      write_skips hc he hgot hmatrix hlink hstall hsout⟩
  case port =>
    intro id k s c e port r hc he hgot hmatrix hlink hsout hstall hrun hfirst
    refine ⟨write_gathers hc he hgot hmatrix hlink hsout hstall hrun hfirst, fun hfull hroom hport hpart => ?_⟩
    obtain ⟨u, d, r', hexec, hd, hempty, hlast, hr', henter, hmem⟩ :=
      write_sends hc he hgot hmatrix hlink hsout hstall hrun hfirst hfull hroom hport
    obtain ⟨x, hqueue, hseq, hpois, heot, habort, hpayload⟩ := packet_entered (r := r) port e hpart
    rw [← henter] at hqueue
    refine ⟨u, d, r', x, hexec, hd, hempty, hlast, hr', hqueue, hseq, ?_, hpois, heot, habort, hpayload, hmem⟩
    rw [henter]
    rfl
  case stamp =>
    intro id s c a v l hc hstamp hmoved hdone hopen hl hmatrix hloc hgood hretry hcanon
    exact stamp_written hc hstamp hmoved hdone hopen hl hmatrix hloc ⟨hcanon, hgood⟩ hretry
  case complete =>
    intro id s c r g hc hmoved hdone hstamp hrun htwin hport htag _
    exact copy_completed hc hmoved hdone hstamp hrun htwin hport htag

theorem copyEvents_iff : Obligations.CopyEvents ↔ IssueClause := by
  refine ⟨fun h => ?_, copyEvents_of_issueClause⟩
  obtain ⟨⟨_, hissue, _⟩, _⟩ := h
  exact hissue

theorem exec_issue {id : Nat} {s : State} {c : Copy} {a b : Nat} (hc : s.copy? id = some c) (hlive : c.live = true)
    (hnext : c.next < c.desc.n) (hsin : c.desc.sin = none) (hkind : c.desc.kind ≠ .prefetch)
    (hord : ∀ op ty, c.desc.kind = .cpyr op ty → c.desc.ord = false) (hlocs : s.elemLocs c c.next = .ok (a, b)) :
    exec (.copyElementTranslate id) s = .next (s.flyElem id c.next a b) := by
  rw [exec_translate_memory hc hlive hnext hsin hkind hord, State.issueElem, hlocs, id_of_copy? hc]

/-- Where no other copy has its number, the clause holds of a copy. -/
theorem flyElem_of_single {id : Nat} {s : State} {c : Copy} (a b : Nat) (hone : ∀ y ∈ s.fab.copies, y.id = id → y = c) :
    s.flyElem id c.next a b = s.modCopy id fun y =>
      { y with next := c.next + 1, fly := y.fly ++ [{ n := c.next, loc := b, src := a, via := s.elemVia c c.next }] } := by
  refine congrArg (fun l => ({ s with fab := { s.fab with copies := l } } : State)) (List.map_congr_left fun y hy => ?_)
  by_cases hid : (y.id == id) = true
  · rw [if_pos hid, if_pos hid, hone y hy (beq_iff_eq.1 hid)]
  · rw [if_neg hid, if_neg hid]

/-- A copy of one element between two places of the scratchpad of tile 0, which no leaf translates. -/
def padCopy : Copy :=
  { id := 0, tile := 0, ctx := 0, inst := 0, idx := 0
    desc := { kind := .cpy, src := BitVec.ofNat 64 Config.localBase, dst := BitVec.ofNat 64 Config.localBase, n := 1 } }

/-- Reset, with that copy and another of the same number, which writes at address 0; a TLB holds a leaf for that address. -/
def twoCopies : State :=
  { State.reset with
    fab := { copies := [padCopy, { padCopy with desc := { padCopy.desc with dst := 0 } }] }
    pkg := { State.reset.pkg with tlb := [{ unit := 0, ctx := 0, va := 0, leaf := 0, level := 0 }] } }

/-- The leaves noted with the elements in flight, copy by copy. -/
def viaOf (s : State) : List (List (List LeafUse)) := s.fab.copies.map fun c => c.fly.map Elem.via

theorem not_issueClause : ¬ IssueClause := by
  intro hissue
  have hlocs : twoCopies.elemLocs padCopy padCopy.next = .ok (padLoc 0 0, padLoc 0 0) := rfl
  have hstated := hissue 0 twoCopies padCopy (padLoc 0 0) (padLoc 0 0) rfl rfl (by decide) rfl (by decide) nofun hlocs
  rw [exec_issue (c := padCopy) rfl rfl (by decide) rfl (by decide) nofun hlocs] at hstated
  have hvia := congrArg viaOf (Host.Outcome.next.inj hstated)
  exact absurd hvia (by decide)

/-- Refutes O47: of two copies of one number with other addresses, COPY_ELEMENT_TRANSLATE notes the element in each with the leaves of
its own addresses, where O47 has those of the first in both. The other clauses hold, and this one where the number is of one copy. -/
theorem not_copyEvents : ¬ Obligations.CopyEvents := fun h => not_issueClause (copyEvents_iff.1 h)

end Sys2Proof.Copies
end

section
/-! The family 10_memory_instructions, ordinary loads and stores: O22 and O23. -/

namespace Sys2Proof.Access

open Machine Laws MatrixUnit Lines Scalar

/-! ## Addresses and extensions (10 R209, R212, R215) -/

theorem addrL_eq (e : Env) (imm : BitVec 6) (n : Nat) : e.addrL imm n = Spec.addrL e imm n := by
  have hoff : imm.signExtend 64 * BitVec.ofNat 64 n = Spec.wrap64 (imm.toInt * n) := by
    rw [Spec.wrap64, BitVec.ofInt_mul, BitVec.ofInt_natCast]
    rfl
  have hsum := wrap64_add e.a.toInt (imm.toInt * n)
  rw [wrap64_toInt] at hsum
  rw [Env.addrL, hoff, ← hsum, Spec.wrap64, BitVec.toNat_ofInt]
  rfl

theorem add_signExtend (a : BitVec 64) (imm : BitVec 15) : a + imm.signExtend 64 = Spec.wrap64 (a.toInt + imm.toInt) := by
  rw [wrap64_add, wrap64_toInt]
  rfl

theorem addrS_eq (e : Env) (imm : BitVec 15) : e.addrS imm = Spec.addrS e imm := by
  rw [Env.addrS, add_signExtend, Spec.wrap64, BitVec.toNat_ofInt]
  rfl

/-- The lanes of a gather or scatter lie where the rule says, whatever integer the base stands for. -/
theorem laneAddr_eq (i : Int) (idx : BitVec 2048) (k : Nat) : laneAddr (Spec.wrap64 i) idx k = Spec.gatherAddr i idx k := by
  have hlane : (idx.extractLsb' (32 * k) 32).toNat = Spec.lane 32 idx k := by
    rw [BitVec.extractLsb'_toNat, Nat.shiftRight_eq_div_pow]
    rfl
  have hindex : (idx.extractLsb' (32 * k) 32).toInt =
      if Spec.lane 32 idx k < 2 ^ 31 then (Spec.lane 32 idx k : Int) else Spec.lane 32 idx k - 2 ^ 32 := by
    rw [BitVec.toInt_eq_toNat_cond, hlane]
    split <;> split <;> omega
  have hscaled : 4 * (idx.extractLsb' (32 * k) 32).signExtend 64 = Spec.wrap64 (4 * (idx.extractLsb' (32 * k) 32).toInt) := by
    rw [Spec.wrap64, BitVec.ofInt_mul]
    rfl
  rw [laneAddr, hscaled, ← wrap64_add, hindex, Spec.wrap64, BitVec.toNat_ofInt]
  rfl

theorem laneSpans_eq (i : Int) (idx : BitVec 2048) :
    laneSpans (Spec.wrap64 i) idx = (List.range 64).map fun k => (Spec.gatherAddr i idx k, 4) := by
  simp only [laneSpans, laneAddr_eq]

/-- No more bytes than an integer has, extended with their sign. -/
theorem extended_signed {n : Nat} (hn : 0 < n) {d : List Byte} (hd : d.length ≤ n) : extended true n d = Spec.signedBytes n d := by
  have hlt : leNat d < 2 ^ (8 * n) := by
    refine (leNat_lt d).trans_le ?_
    rw [Nat.pow_mul]
    exact Nat.pow_le_pow_right (by decide) hd
  have hhalf : 2 ^ (8 * n) = 2 * 2 ^ (8 * n - 1) := by rw [← Nat.pow_succ', Nat.succ_eq_add_one, Nat.sub_add_cancel (by omega)]
  have hsigned : (BitVec.ofNat (8 * n) (leNat d)).toInt =
      if leNat d < 2 ^ (8 * n - 1) then (leNat d : Int) else leNat d - (2 ^ (8 * n) : Nat) := by
    rw [BitVec.toInt_eq_toNat_cond, BitVec.toNat_ofNat, Nat.mod_eq_of_lt hlt]
    split <;> split <;> omega
  rw [extended, if_pos rfl, BitVec.signExtend, hsigned]
  rfl

/-! ## The bytes of an access -/

theorem sum_cutLines (a n fuel : Nat) (h : n < fuel) : ((cutLines a n fuel).map Prod.snd).sum = n := by
  induction fuel generalizing a n with
  | zero => omega
  | succ fuel ih =>
    rw [cutLines]
    split
    · simp [*]
    · rw [List.map_cons, List.sum_cons, ih _ _ (by omega)]
      omega

theorem sum_partsOf (s : State) (t : Option Nat) (c : BitVec 32) (spans : List (Nat × Nat)) (off : Nat) :
    ((partsOf s t c spans off).map Part.n).sum = (spans.map Prod.snd).sum := by
  induction spans generalizing off with
  | nil => rfl
  | cons x rest ih =>
    obtain ⟨a, n⟩ := x
    rw [partsOf, List.map_append, List.sum_append, ih, List.map_map]
    exact congrArg (· + _) (sum_cutLines a n (n + 1) (Nat.lt_succ_self n))

/-- An access whose checks pass is bound part by part. -/
theorem checkAccess_ok {s : State} {t : Nat} {c : BitVec 32} {nd : Need} {spans : List (Nat × Nat)} {bs : List Bound}
    (h : s.checkAccess t c nd spans = .ok bs) : bs = (partsOf s (some t) c spans 0).map (Part.bound s t c) := by
  unfold State.checkAccess at h
  split at h
  · cases h
  · split at h
    · cases h
    · split at h
      · cases h
      · split at h
        · cases h
        · dsimp only at h
          split at h
          · cases h
          · exact (Except.ok.inj h).symm

theorem n_bound (s : State) (t : Nat) (c : BitVec 32) (p : Part) : (p.bound s t c).n = p.n := by
  unfold Part.bound
  split <;> rfl

/-- An access is bound to as many bytes as its spans name. -/
theorem sum_access {e : Env} {nd : Need} {spans : List (Nat × Nat)} {bs : List Bound} (h : e.access nd spans = .ok bs) :
    (bs.map Bound.n).sum = (spans.map Prod.snd).sum := by
  have hn : Bound.n ∘ Part.bound e.s e.t e.ctx = Part.n := funext (n_bound e.s e.t e.ctx)
  rw [checkAccess_ok h, List.map_map, hn, sum_partsOf]

/-- What a run reads of a line, byte by byte. -/
theorem getElem?_readOwn (s : State) (r : Run) (loc : Nat) {n k : Nat} (hk : k < n) :
    (s.readOwn r loc n).1[k]? = some
      (match r.shadow.find? fun x => x.loc == loc - loc % 128 with
        | none => s.mem.read (loc + k)
        | some x => if x.mask.getLsbD (loc % 128 + k) then BitVec.ofNat 8 (x.data.toNat / 2 ^ (8 * (loc % 128 + k)))
            else s.mem.read (loc + k)) := by
  simp only [State.readOwn, shadowAt]
  cases r.shadow.find? fun x => x.loc == loc - loc % 128 with
  | none => exact getElem?_bytes s.mem loc n k hk
  | some x => simp [overlayShadow, getElem?_bytes s.mem loc n k hk]

theorem length_readOwn (s : State) (r : Run) (loc n : Nat) : (s.readOwn r loc n).1.length = n := by
  simp only [State.readOwn]
  cases shadowAt r.shadow loc with
  | none => exact length_bytes s.mem loc n
  | some x => simp [overlayShadow]

theorem length_readBounds_le (s : State) (t : Nat) (bs : List Bound) : (s.readBounds t bs).1.length ≤ (bs.map Bound.n).sum := by
  unfold State.readBounds
  split
  · exact Nat.zero_le _
  · simp [List.length_flatten, Function.comp_def, length_readOwn]

/-! ## Loads (10 R212) -/

/-- What a load does as it fires: it reads its spans, and makes of their bytes what its rule says. -/
theorem exec_load {i : Instr} {e : Env} {l : BitVec 7} {n : Nat} {spans : List (Nat × Nat)} {mk : List Byte → TokVal}
    (hl : Spec.loads e i = some (l, n, spans, mk)) :
    ∃ act mk', (∀ s, exec i s = fire i act s) ∧ act e = e.load l n spans mk' ∧
      ∀ d : List Byte, d.length ≤ (spans.map Prod.snd).sum → mk' d = mk d := by
  have hsigned : ∀ {n a : Nat}, 0 < n → ∀ d : List Byte, d.length ≤ ([(a, n)].map Prod.snd).sum →
      TokVal.scalar (extended true n d) = .scalar (Spec.signedBytes n d) := fun hn d hd =>
    congrArg _ (extended_signed hn (by simpa using hd))
  cases i with
  | ldb | ldh | ldw =>
    cases hl
    exact ⟨_, _, fun _ => rfl, by rw [addrL_eq], hsigned (by decide)⟩
  | ldbu | ldhu | ldwu | ldd =>
    cases hl
    exact ⟨_, fun d => .scalar (extended false _ d), fun _ => rfl, by rw [addrL_eq], fun _ _ => rfl⟩
  | ldv =>
    cases hl
    exact ⟨_, _, fun _ => rfl, by rw [addrL_eq], fun _ _ => rfl⟩
  | ldvx =>
    cases hl
    exact ⟨_, _, fun _ => rfl, by rw [← laneSpans_eq, wrap64_toInt], fun _ _ => rfl⟩
  | _ => cases hl

/-- A load whose address passes its checks and that nothing holds reads what the task sees. -/
theorem load_ok {e : Env} {l : BitVec 7} {n : Nat} {spans : List (Nat × Nat)} {mk mk' : List Byte → TokVal} {bs : List Bound}
    {d : List Byte} {b : Bool} (hmk : ∀ d : List Byte, d.length ≤ (spans.map Prod.snd).sum → mk' d = mk d)
    (hbs : e.access { align := n, r := true } spans = .ok bs) (hlower : e.behindLower l.toNat bs = false)
    (hheld : e.held false bs = false)
    (hd : ((e.s.asRead bs (e.p.earlyOf e.k)).applyStores e.t (e.p.storesBelow l.toNat)).readBounds e.t bs = (d, b)) :
    e.load l n spans mk' = .done { out0 := some (mk d), pois := e.pois || b, counted := e.pois || b, reads := boundLines bs } := by
  have hlen : d.length ≤ (bs.map Bound.n).sum := (congrArg (·.1.length) hd).symm.trans_le (length_readBounds_le _ _ _)
  rw [← hmk d (hlen.trans_eq (sum_access hbs))]
  simp [Env.load, hbs, hlower, hheld, hd]

/-! ## Sectors read ahead (12 R259) -/

/-- What a load has read already changes memory alone, and the states of lines. -/
theorem mem_asRead (s : State) (bs : List Bound) (l : List SectorRead) :
    (s.asRead bs l).mem = l.foldl (fun m x => m.writes x.loc (toBytes x.data.toNat 16)) s.mem := by
  have hmem : ∀ (f : Nat → LineMeta → LineMeta) (ks : List Nat) (u : State),
      (ks.foldl (fun s k => s.modLine k (f k)) u).mem = u.mem := by
    intro f ks
    induction ks with
    | nil => exact fun _ => rfl
    | cons k rest ih => exact fun u => (ih _).trans rfl
  exact hmem _ _ _

theorem getElem?_toBytes (v : Nat) {n k : Nat} (h : k < n) : (toBytes v n)[k]? = some (BitVec.ofNat 8 (v / 2 ^ (8 * k))) := by
  induction n generalizing v k with
  | zero => omega
  | succ n ih =>
    cases k with
    | zero => simp [toBytes]
    | succ k =>
      rw [toBytes, List.getElem?_cons_succ, ih _ (by omega), Nat.div_div_eq_div_mul, Nat.mul_succ, Nat.pow_add, Nat.mul_comm]

/-- Settles O22: a load makes of the bytes it reads what its rule says, and what a task reads of a line is memory with its shadow line laid
over it. -/
theorem loads : Obligations.Loads := by
  unfold Obligations.Loads
  refine ⟨?fires, fun _ _ => rfl, ?ahead, ?other, fun s r loc n k _ hk => getElem?_readOwn s r loc hk⟩
  case fires =>
    intro i l n spans mk s e bs hl hf hbs hlower hheld
    obtain ⟨act, mk', hexec, hact, hmk⟩ := exec_load hl
    refine ⟨_, _, rfl, ?_⟩
    rw [hexec, fire_reply hf (hact.trans (load_ok hmk hbs hlower hheld rfl)) fun _ => nofun, (env_state hf.1).1]
    rfl
  case ahead =>
    intro s bs x k hm hk
    rw [mem_asRead, List.foldl_cons, List.foldl_nil, read_writes _ _ _ hm, if_pos (by simpa using hk), Nat.add_sub_cancel_left,
      getElem?_toBytes _ hk, Option.getD_some]
  case other =>
    intro s bs x a hm ha
    rw [mem_asRead, List.foldl_cons, List.foldl_nil, read_writes_out hm (by simpa using ha)]

/-! ## Stores (10 R213) -/

/-- The poison of the operands that make a store's address (03 R63; 10 R215). -/
def addressPoison (e : Env) (i : Instr) : Bool :=
  if i matches .stvx _ _ then e.left.pois || e.right.pois else e.left.pois

/-- What a store does as it fires. -/
theorem exec_store {i : Instr} {e : Env} {l : BitVec 7} {n : Nat} {spans : List (Nat × Nat)} {data : List Byte} {b : Bool}
    (hi : Spec.stores e i = some (l, n, spans, data, b)) :
    ∃ act, (∀ s, exec i s = fire i act s) ∧ act e = e.storeTo l n spans data b (addressPoison e i) := by
  cases i with
  | stb | sth | stw | std | stv =>
    cases hi
    exact ⟨_, fun _ => rfl, by rw [addrS_eq]; rfl⟩
  | stvx =>
    cases hi
    exact ⟨_, fun _ => rfl, by rw [addressPoison, ← laneSpans_eq, ← add_signExtend]; rfl⟩
  | _ => cases hi

/-- A store whose address passes its checks and that nothing holds leaves its pieces for belay. -/
theorem storeTo_ok {e : Env} {l : BitVec 7} {n : Nat} {spans : List (Nat × Nat)} {bs : List Bound} (data : List Byte) (b c : Bool)
    (hbs : e.access { align := n, w := true } spans = .ok bs) (hheld : e.held true bs = false) :
    e.storeTo l n spans data b c = .done { effects := [.store l.toNat (piecesOf data bs) b], ctl := c } := by
  simp [Env.storeTo, hbs, hheld]

/-! ## Shadow lines (09 R201) -/

theorem getLsbD_byteMask {o n i : Nat} (hi : i < 128) : (byteMask o n).getLsbD i = decide (o ≤ i ∧ i < o + n) := by
  rw [byteMask, BitVec.getLsbD_ofNat, Nat.testBit_mul_two_pow, Nat.testBit_two_pow_sub_one]
  simp only [hi, decide_true, Bool.true_and, ← Bool.decide_and, decide_eq_decide]
  omega

theorem testBit_leNat (bs : List Byte) {k j : Nat} (hj : j < 8) :
    (leNat bs).testBit (8 * k + j) = (bs[k]?.getD 0).getLsbD j := by
  have hbyte := congrArg (Nat.testBit · j) (leNat_byte bs k)
  simp only [show 256 = 2 ^ 8 from rfl, Nat.testBit_mod_two_pow, hj, decide_true, Bool.true_and, Nat.testBit_div_two_pow] at hbyte
  rw [Nat.add_comm, hbyte]
  rfl

/-- A bit of a byte of a line. -/
theorem getElem_byteOf (x : BitVec 1024) (k : Nat) {j : Nat} (hj : j < 8) :
    (BitVec.ofNat 8 (x.toNat / 2 ^ (8 * k)))[j] = x.getLsbD (8 * k + j) := by
  rw [← BitVec.getLsbD_eq_getElem, BitVec.getLsbD_ofNat, Nat.testBit_div_two_pow, Nat.add_comm, decide_eq_true hj, Bool.true_and]
  rfl

theorem getLsbD_overlayLine (line : BitVec 1024) (o : Nat) (bs : List Byte) {i : Nat} (hi : i < 1024) :
    (overlayLine line o bs).getLsbD i =
      if 8 * o ≤ i ∧ i < 8 * o + 8 * bs.length then (leNat bs).testBit (i - 8 * o) else line.getLsbD i := by
  have hlt : leNat bs < 2 ^ (8 * bs.length) := by rw [Nat.pow_mul]; exact leNat_lt bs
  simp only [overlayLine, BitVec.getLsbD_or, BitVec.getLsbD_and, BitVec.getLsbD_not, BitVec.getLsbD_ofNat, hi, decide_true,
    Bool.true_and, Nat.testBit_mul_two_pow, Nat.testBit_two_pow_sub_one]
  by_cases hlow : 8 * o ≤ i
  · by_cases hhigh : i < 8 * o + 8 * bs.length
    · simp [hlow, hhigh, show i - 8 * o < 8 * bs.length by omega]
    · have hbeyond : (leNat bs).testBit (i - 8 * o) = false :=
        Nat.testBit_lt_two_pow (hlt.trans_le (Nat.pow_le_pow_right (by decide) (by omega)))
      simp [hhigh, hbeyond, show ¬ i - 8 * o < 8 * bs.length by omega]
  · simp [hlow]

/-- Of a line that bytes are laid over, the bytes are those laid, and the others its own. -/
theorem byte_overlayLine (line : BitVec 1024) (o : Nat) (bs : List Byte) {k : Nat} (hk : k < 128) :
    BitVec.ofNat 8 ((overlayLine line o bs).toNat / 2 ^ (8 * k)) =
      if o ≤ k ∧ k < o + bs.length then bs[k - o]?.getD 0 else BitVec.ofNat 8 (line.toNat / 2 ^ (8 * k)) := by
  ext j hj
  have hin : (8 * o ≤ 8 * k + j ∧ 8 * k + j < 8 * o + 8 * bs.length) ↔ o ≤ k ∧ k < o + bs.length := by omega
  rw [getElem_byteOf _ _ hj, getLsbD_overlayLine _ _ _ (by omega)]
  simp only [hin]
  split
  · rw [show 8 * k + j - 8 * o = 8 * (k - o) + j by omega, testBit_leNat bs hj, BitVec.getLsbD_eq_getElem hj]
  · rw [getElem_byteOf _ _ hj]

/-- A byte as a task sees it that has a shadow line x of its line, or none. -/
def ownByte (m : Memory) (x : Option ShadowLine) (a : Nat) : Byte :=
  match x with
  | none => m.read a
  | some x => if x.mask.getLsbD (a % 128) then BitVec.ofNat 8 (x.data.toNat / 2 ^ (8 * (a % 128))) else m.read a

theorem readOwn_one (s : State) (r : Run) (a : Nat) : (s.readOwn r a 1).1 = [ownByte s.mem (shadowAt r.shadow a) a] := by
  apply List.ext_getElem?
  intro k
  cases k with
  | zero => exact getElem?_readOwn s r a Nat.one_pos
  | succ k => rw [List.getElem?_eq_none (by simp [length_readOwn]), List.getElem?_eq_none (by simp)]

theorem ownByte_put (m : Memory) (x : ShadowLine) (o a : Nat) (bs : List Byte) (pois : Bool) :
    ownByte m (some (x.put o bs pois)) a =
      if o ≤ a % 128 ∧ a % 128 < o + bs.length then bs[a % 128 - o]?.getD 0 else ownByte m (some x) a := by
  have ha : a % 128 < 128 := Nat.mod_lt _ (by decide)
  simp only [ownByte, ShadowLine.put, BitVec.getLsbD_or, getLsbD_byteMask ha, byte_overlayLine x.data o bs ha]
  by_cases hin : o ≤ a % 128 ∧ a % 128 < o + bs.length
  · simp [hin]
  · simp [hin]

/-- The shadow line of a location before the first store to its line. -/
def freshLine (p : StorePiece) : ShadowLine :=
  { loc := p.loc - p.loc % 128, va := p.va - BitVec.ofNat 64 (p.loc % 128), data := 0, mask := 0, pois := 0, leafVa := p.leafVa
    leafSize := p.leafSize, leafGlobal := p.leafGlobal }

theorem ownByte_freshLine (m : Memory) (p : StorePiece) (a : Nat) : ownByte m (some (freshLine p)) a = m.read a := by
  simp [ownByte, freshLine]

theorem ownByte_getD (m : Memory) (x : Option ShadowLine) (p : StorePiece) (a : Nat) :
    ownByte m (some (x.getD (freshLine p))) a = ownByte m x a := by
  cases x with
  | none => exact ownByte_freshLine m p a
  | some x => rfl

@[simp] theorem loc_put (x : ShadowLine) (o : Nat) (bs : List Byte) (pois : Bool) : (x.put o bs pois).loc = x.loc := rfl

theorem loc_of_find? {l : List ShadowLine} {x : ShadowLine} {n : Nat} (h : (l.find? fun x => x.loc == n) = some x) : x.loc = n := by
  simpa using List.find?_some h

/-- Where a line has a shadow line, a store to it changes that one. -/
theorem shadowAt_shadowStore_listed {l : List ShadowLine} {p : StorePiece} (pois : Bool) (a : Nat)
    (h : (l.any fun x => x.loc == p.loc - p.loc % 128) = true) :
    shadowAt (shadowStore l p pois) a =
      (shadowAt l a).map fun x => if (x.loc == p.loc - p.loc % 128) = true then x.put (p.loc % 128) p.bytes pois else x := by
  have hkept : ∀ x : ShadowLine,
      (if (x.loc == p.loc - p.loc % 128) = true then x.put (p.loc % 128) p.bytes pois else x).loc = x.loc := fun x => by
    split <;> rfl
  rw [shadowAt, shadowStore, if_pos h, List.find?_map]
  simp only [Function.comp_def, hkept]
  rfl

/-- Where it has none, a store to it makes one. -/
theorem shadowAt_shadowStore_fresh {l : List ShadowLine} {p : StorePiece} (pois : Bool) (a : Nat)
    (h : ¬ (l.any fun x => x.loc == p.loc - p.loc % 128) = true) :
    shadowAt (shadowStore l p pois) a =
      (shadowAt l a).or (if p.loc - p.loc % 128 = a - a % 128 then some ((freshLine p).put (p.loc % 128) p.bytes pois) else none) := by
  rw [shadowAt, shadowStore, if_neg h, List.find?_append, List.find?_singleton]
  simp only [loc_put, beq_iff_eq]
  rfl

/-- A store changes the shadow line of its own line. -/
theorem shadowAt_shadowStore (l : List ShadowLine) (p : StorePiece) (pois : Bool) (a : Nat) :
    shadowAt (shadowStore l p pois) a =
      if a - a % 128 = p.loc - p.loc % 128 then some (((shadowAt l a).getD (freshLine p)).put (p.loc % 128) p.bytes pois)
      else shadowAt l a := by
  by_cases hany : (l.any fun x => x.loc == p.loc - p.loc % 128) = true
  · rw [shadowAt_shadowStore_listed pois a hany]
    cases hx : shadowAt l a with
    | none =>
      rw [Option.map_none, if_neg]
      intro hline
      obtain ⟨y, hy, hloc⟩ := List.any_eq_true.1 hany
      exact List.find?_eq_none.1 hx y hy (hline ▸ hloc)
    | some x =>
      rw [Option.map_some, loc_of_find? hx, apply_ite some]
      simp only [beq_iff_eq]
      rfl
  · rw [shadowAt_shadowStore_fresh pois a hany]
    by_cases hline : a - a % 128 = p.loc - p.loc % 128
    · have hnone : shadowAt l a = none :=
        List.find?_eq_none.2 fun x hx h => hany (List.any_eq_true.2 ⟨x, hx, hline ▸ h⟩)
      rw [hnone, if_pos hline, if_pos hline.symm]
      rfl
    · rw [if_neg hline, if_neg (Ne.symm hline), Option.or_none]

/-- A store as it takes effect outside the scratchpad, of bytes of one line. -/
theorem readOwn_shadowStore (s : State) (r : Run) (p : StorePiece) (pois : Bool) (hp : p.loc % 128 + p.bytes.length ≤ 128) (a : Nat) :
    (s.readOwn { r with shadow := shadowStore r.shadow p pois } a 1).1 =
      if p.loc ≤ a ∧ a < p.loc + p.bytes.length then [p.bytes[a - p.loc]?.getD 0] else (s.readOwn r a 1).1 := by
  simp only [readOwn_one, shadowAt_shadowStore]
  by_cases hline : a - a % 128 = p.loc - p.loc % 128
  · have hin : (p.loc % 128 ≤ a % 128 ∧ a % 128 < p.loc % 128 + p.bytes.length) ↔ p.loc ≤ a ∧ a < p.loc + p.bytes.length := by
      omega
    rw [if_pos hline, ownByte_put, ownByte_getD]
    simp only [hin]
    split
    · rw [show a % 128 - p.loc % 128 = a - p.loc by omega]
    · rfl
  · rw [if_neg hline, if_neg (by omega)]

theorem storePiece_shadow {s : State} {t : Nat} {r : Run} {p : StorePiece} (pois : Bool) (hr : s.run? t = some r) (hp : p.local_ = false) :
    s.storePiece t pois p = s.setRun t { r with shadow := shadowStore r.shadow p pois } := by
  rw [State.storePiece, hp, State.modRun, hr]
  rfl

theorem absentLoc_of_pad {l : Nat} (h : locSpace l = spPad) : absentLoc l = false := by
  simp [absentLoc, h, spPad, spHbm, spDdr]

/-- Settles O23: a store leaves its pieces for belay; a piece changes its bytes of its shadow line, or of the scratchpad. -/
theorem stores : Obligations.Stores := by
  unfold Obligations.Stores
  refine ⟨?fires, ?shadow, ?pad⟩
  case fires =>
    intro i l n spans data b s e bs hi hf hbs hheld
    obtain ⟨act, hexec, hact⟩ := exec_store hi
    refine ⟨piecesOf data bs, ?_, ?_⟩
    · rw [hexec, fire_done hf (hact.trans (storeTo_ok data b _ hbs hheld)) rfl]
      rfl
    · rw [piecesOf, List.map_map]
      rfl
  case shadow =>
    intro s t r p b hr hp hlen
    rw [storePiece_shadow b hr hp]
    exact ⟨_, run?_setRun_same s t _, rfl, readOwn_shadowStore s r p b hlen⟩
  case pad =>
    intro s t p b hm hp hpad hgood a
    rw [State.storePiece, if_pos hp, storeFor_good s _ _ _ b (absentLoc_of_pad hpad) hgood, read_store _ _ _ _ hm]

end Sys2Proof.Access
end

section
/-! The family 10_memory_instructions, accesses that fail a check: O24. -/

namespace Sys2Proof.Access

open Machine Laws

/-! ## Instructions whose access fails (10 R210) -/

theorem load_error {e : Env} {l : BitVec 7} {n : Nat} {spans : List (Nat × Nat)} {f : FaultInfo} (mk : List Byte → TokVal)
    (h : e.access { align := n, r := true } spans = .error f) : e.load l n spans mk = .fault f := by
  simp only [Env.load, h]

theorem storeTo_error {e : Env} {l : BitVec 7} {n : Nat} {spans : List (Nat × Nat)} {f : FaultInfo} (data : List Byte) (b c : Bool)
    (h : e.access { align := n, w := true } spans = .error f) : e.storeTo l n spans data b c = .fault f := by
  simp only [Env.storeTo, h]

theorem immediate_error {e : Env} {i : Instr} {nd : Need} {n : Nat} {f : FaultInfo} (wr : Bool) (op : ImmOp) (b p c : Bool)
    (htwin : e.r.twin = none) (h : e.access nd [(e.a.toNat, n)] = .error f) : e.immediate i nd n wr op b p c = .fault f := by
  simp [Env.immediate, htwin, h]

theorem commitAccess_error {e : Env} {i : Instr} {nd : Need} {n : Nat} {f : FaultInfo} (op : CommitOp) (sub : BitVec 8)
    (h : e.access nd [(e.a.toNat, n)] = .error f) : e.commitAccess i nd n op sub = .fault f := by
  simp only [Env.commitAccess, h]

/-- A synchronised store in a release form is an entry of the commit set, in another an immediate-class access. -/
theorem syncStore_release {e : Env} {i : Instr} {m : BitVec 3} (vec : Bool) (d : BitVec 1024) (hm : m = 2 ∨ m = 3) :
    e.syncStore i m vec d =
      e.commitAccess i { align := if vec then 128 else 8, w := true, noLocal := true, noHost := true, sync := true }
        (if vec then 128 else 8) (.release (m == 3) vec d) (subOf m 0) := by
  have hrel : (m == 2 || m == 3) = true := by simpa using hm
  simp only [Env.syncStore, sstNeed, hrel, if_true]

theorem syncStore_immediate {e : Env} {i : Instr} {m : BitVec 3} (vec : Bool) (d : BitVec 1024) (hm : ¬ (m = 2 ∨ m = 3)) :
    e.syncStore i m vec d =
      e.immediate i { align := if vec then 128 else 8, w := true, noHost := true, sync := true, rap := true }
        (if vec then 128 else 8) true (.sync (sstMode m) vec d) (e.right.pois || e.predPois (sigOf i)) false e.left.pois := by
  have himm : (m == 2 || m == 3) = false := by simpa using hm
  simp only [Env.syncStore, sstNeed, himm, Bool.false_eq_true, if_false]

/-- What an immediate-class access does as it fires. -/
theorem exec_immediate {i : Instr} {e : Env} {nd : Need} {n : Nat} {wr : Bool} {op : ImmOp} {b : Bool}
    (hi : Spec.immediateOf e i = some (nd, n, wr, op, b)) :
    ∃ act p c, (∀ s, exec i s = fire i act s) ∧ act e = e.immediate i nd n wr op b p c := by
  cases i with
  | sld | sldv | amoi | amow | amof =>
    cases hi
    exact ⟨_, _, _, fun _ => rfl, rfl⟩
  | sst _ _ m | sstv _ _ m =>
    by_cases hm : m = 2 ∨ m = 3
    · cases (if_pos hm).symm.trans hi
    · cases (if_neg hm).symm.trans hi
      exact ⟨_, _, _, fun _ => rfl, syncStore_immediate _ _ hm⟩
  | cas _ m =>
    by_cases hm : m = 0
    · cases (if_pos hm).symm.trans hi
      exact ⟨_, _, _, fun _ => rfl, by simp only [hm, if_true]; rfl⟩
    · cases (if_neg hm).symm.trans hi
      exact ⟨_, _, _, fun _ => rfl, by simp only [hm, if_false]; rfl⟩
  | _ => cases hi

/-- What a reduction, an ordered contribution or a release form does as it fires. -/
theorem exec_commits {i : Instr} {e : Env} {nd : Need} {n : Nat} {op : CommitOp} (hi : Spec.commits e i = some (nd, n, op)) :
    ∃ act sub, (∀ s, exec i s = fire i act s) ∧ act e = e.commitAccess i nd n op sub := by
  cases i with
  | redi | redw | redf | redb | redo | drawm =>
    cases hi
    exact ⟨_, _, fun _ => rfl, rfl⟩
  | sst _ _ m | sstv _ _ m =>
    by_cases hm : m = 2 ∨ m = 3
    · cases (if_pos hm).symm.trans hi
      exact ⟨_, _, fun _ => rfl, syncStore_release _ _ hm⟩
    · cases (if_neg hm).symm.trans hi
  | _ => cases hi

/-- An instruction whose access fails raises the fault. -/
theorem fire_accessFault {i : Instr} {act : Env → Reply} {s : State} {e : Env} {f : FaultInfo} (h : Fires i s e)
    (ha : act e = .fault f) (hf : f.code ≠ fcWait) : fire i act s = .next (Spec.accessFault e f) := fire_fault h ha hf

theorem exec_flushl_error {p : Pr} {l : BitVec 7} {o : BitVec 15} {s : State} {e : Env} {f : FaultInfo} (h : Fires (.flushl p l o) s e)
    (hf : e.access { align := 1 } [(Spec.addrS e o / 128 * 128, 128)] = .error f) (hwait : f.code ≠ fcWait) :
    exec (.flushl p l o) s = .next (Spec.accessFault e f) := by
  rw [← addrS_eq] at hf
  exact fire_accessFault h (by simp only [hf]) hwait

theorem exec_mwait_error {p : Pr} {l : BitVec 7} {t : Target} {s : State} {e : Env} {f : FaultInfo} (h : Fires (.mwait p l t) s e)
    (hidle : e.p.waits = []) (hf : e.access { align := 8, r := true } [(e.a.toNat, 8)] = .error f) (hwait : f.code ≠ fcWait) :
    exec (.mwait p l t) s = .next (Spec.accessFault e f) :=
  fire_accessFault h (by simp [hidle, hf]) hwait

/-! ## The checks in their order (10 R210) -/

section Checks

variable (s : State) (t : Nat) (c : BitVec 32) (nd : Need) {a n : Nat}

/-- Every byte is canonical or in the local window. -/
def AllNamed (a n : Nat) : Prop := ∀ k, k < n → isCanonical ((a + k) % 2 ^ 64) = true ∨ isLocal ((a + k) % 2 ^ 64) = true

theorem unnamed_eq_false (b : Nat) : (!isCanonical b && !isLocal b) = false ↔ isCanonical b = true ∨ isLocal b = true := by
  cases isCanonical b <;> simp

theorem spanCanon_of_named (h : AllNamed a n) : spansCanon [(a, n)] = none := by
  simp only [spansCanon, spanCanon, Option.map_eq_none_iff, List.find?_eq_none, List.mem_range, Bool.not_eq_true, unnamed_eq_false]
  exact h

theorem checkAccess_nonCanon {k : Nat} (hk : k < n) (hbelow : AllNamed a k) (hc : isCanonical ((a + k) % 2 ^ 64) = false)
    (hl : isLocal ((a + k) % 2 ^ 64) = false) :
    s.checkAccess t c nd [(a, n)] = .error { code := fcNonCanon, addr := BitVec.ofNat 64 (a + k) } := by
  have hfirst : (List.range n).find? (fun i => !isCanonical (wrap64 (a + i)) && !isLocal (wrap64 (a + i))) = some k := by
    rw [List.find?_range_eq_some]
    refine ⟨by rw [Machine.wrap64, hc, hl]; rfl, List.mem_range.2 hk, fun j hj => ?_⟩
    rw [Bool.not_eq_true', unnamed_eq_false]
    exact hbelow j hj
  simp only [State.checkAccess, spansCanon, spanCanon, hfirst, Option.map_some]

theorem checkAccess_misaligned (h : AllNamed a n) (ha : a % nd.align ≠ 0) :
    s.checkAccess t c nd [(a, n)] = .error { code := fcMisaligned, addr := BitVec.ofNat 64 a } := by
  simp [State.checkAccess, spanCanon_of_named h, ha]

theorem checkAccess_local (h : AllNamed a n) (ha : a % nd.align = 0) (hno : nd.noLocal = true) (hl : isLocal a = true) :
    s.checkAccess t c nd [(a, n)] = .error { code := fcAperture, cause := 15, addr := BitVec.ofNat 64 a } := by
  simp [State.checkAccess, spanCanon_of_named h, ha, hno, hl]

/-- An access whose bytes, alignment and window pass waits for a leaf that is withheld, and is else checked part by part. -/
theorem checkAccess_named (h : AllNamed a n) (ha : a % nd.align = 0) (hwin : nd.noLocal = false ∨ isLocal a = false) :
    s.checkAccess t c nd [(a, n)] =
      if s.withheld c a || s.withheld c (a + n - 1) then .error { code := fcWait }
      else match s.checkParts c nd (partsOf s (some t) c [(a, n)] 0) with
        | some f => .error f
        | none => .ok ((partsOf s (some t) c [(a, n)] 0).map (Part.bound s t c)) := by
  have hwindow : (nd.noLocal && isLocal a) = false := by rcases hwin with h | h <;> simp [h]
  simp only [State.checkAccess, spanCanon_of_named h, List.find?_singleton, ha, hwindow, List.any_cons, List.any_nil, Bool.or_false]
  rfl

end Checks

/-! ## The checks on a leaf -/

section Leaf

variable {nd : Need} {p : Part} {x : Xlat} (hp : p.leaf = some (.ok x))
include hp

theorem perm_of_unreadable (s : State) (c : BitVec 32) (hr : nd.r = true) (hleaf : leafR x.leaf = false) :
    ∃ m, p.perm s c nd = some { code := fcPerm, cause := m, addr := BitVec.ofNat 64 p.va } := by
  rw [Part.perm, Part.onLeaf, hp]
  simp only [hr, hleaf, Bool.not_false, Bool.and_self, if_true]
  exact ⟨_, if_neg (by omega)⟩

theorem notSync_eq : p.notSync nd =
    if nd.sync = true ∧ leafSync x.leaf = false then some { code := fcNotSync, addr := BitVec.ofNat 64 p.va } else none := by
  rw [Part.notSync, Part.onLeaf, hp]
  simp only [Bool.and_eq_true, Bool.not_eq_true']
  rfl

theorem denied_eq : p.denied nd = if nd.rap = true ∧ leafAper x.leaf = 3 ∧ leafRap x.leaf = false then
    some { code := fcAtomicDenied, addr := BitVec.ofNat 64 p.va } else none := by
  rw [Part.denied, Part.onLeaf, hp]
  simp only [Bool.and_eq_true, Bool.not_eq_true', beq_iff_eq, and_assoc]
  rfl

end Leaf

/-- Settles O24: whatever the instruction, its access is one call of the checks of R210, and each check comes into play where those before
it pass. -/
theorem accessFaults : Obligations.AccessFaults := by
  unfold Obligations.AccessFaults
  refine ⟨⟨?load, ?store, ?imm, ?commit, fun _ _ _ _ _ _ => exec_flushl_error, fun _ _ _ _ _ _ => exec_mwait_error⟩, ?checks⟩
  case load =>
    intro i l n spans mk s e f hl hf herr hwait
    obtain ⟨act, mk', hexec, hact, _⟩ := exec_load hl
    rw [hexec, fire_accessFault hf (hact.trans (load_error mk' herr)) hwait]
  case store =>
    intro i l n spans data b s e f hi hf herr hwait
    obtain ⟨act, hexec, hact⟩ := exec_store hi
    rw [hexec, fire_accessFault hf (hact.trans (storeTo_error _ _ _ herr)) hwait]
  case imm =>
    intro i nd n wr op b s e f hi hf htwin herr hwait
    obtain ⟨act, p, c, hexec, hact⟩ := exec_immediate hi
    rw [hexec, fire_accessFault hf (hact.trans (immediate_error _ _ _ _ _ htwin herr)) hwait]
  case commit =>
    intro i nd n op s e f hi hf herr hwait
    obtain ⟨act, sub, hexec, hact⟩ := exec_commits hi
    rw [hexec, fire_accessFault hf (hact.trans (commitAccess_error _ _ herr)) hwait]
  case checks =>
    intro s t c nd a n
    refine ⟨fun k hk hbelow => checkAccess_nonCanon s t c nd hk hbelow, checkAccess_misaligned s t c nd,
      ?named, ?mapped, ?rest, ?leaf, ?walk, ?window⟩
    case named =>
      intro hall ha
      refine ⟨checkAccess_local s t c nd hall ha, fun hwin => ?_⟩
      rw [checkAccess_named s t c nd hall ha hwin]
      refine ⟨fun hheld => ?_, fun hfirst hlast => ⟨_, rfl, fun f hf => ?_, fun hnone => ?_⟩⟩
      · rw [if_pos (by simpa using hheld)]
      · simp [hfirst, hlast, hf]
      · simp [hfirst, hlast, hnone]
    case mapped =>
      intro ps f hf
      simp [State.checkParts, hf]
    case rest =>
      intro ps hmapped
      simp only [State.checkParts, hmapped, Option.none_or]
      refine ⟨fun f hf => by simp [hf], fun hperm => ?_⟩
      simp only [hperm, Option.none_or]
      refine ⟨fun f hf => by simp [hf], fun haper => ?_⟩
      simp only [haper, Option.none_or]
      refine ⟨fun f hf => by simp [hf], fun hsync => ?_⟩
      simp only [hsync, Option.none_or]
      exact ⟨fun f hf => hf, fun h => h⟩
    case leaf =>
      intro p x hp
      exact ⟨by rw [Part.notMapped, hp], perm_of_unreadable hp s c, notSync_eq hp, denied_eq hp⟩
    case walk =>
      intro p m hp
      simp only [Part.notMapped, hp]
      rfl
    case window =>
      intro p hp
      simp [Part.notMapped, Part.perm, Part.aperture, Part.notSync, Part.denied, Part.onLeaf, hp]

end Sys2Proof.Access
end

section
/-! The family 10_memory_instructions, requests of peers: O57. A packet that is taken is its request, performed where its number has
passed; what is left is what each request leaves. -/

namespace Sys2Proof.Peers

open Machine Laws MatrixUnit Lines Copies

/-! ## Ports and their numbers (18 R386; 19 R394, R397) -/

theorem port_modPort (s : State) (p q : PortSel) (f : Port → Port) :
    (s.modPort p f).port q = if portKey q = portKey p then f (s.port p) else s.port q :=
  kvGet_kvPut ({} : Port) s.pkg.ports (portKey p) (portKey q) _

theorem getD_set (l : List Nat) (k n j : Nat) : (l.set k n).getD j 0 = if j = k ∧ k < l.length then n else l.getD j 0 := by
  simp only [List.getD_eq_getElem?_getD, List.getElem?_set]
  by_cases hj : k = j
  · by_cases hk : k < l.length
    · simp [hj, hj ▸ hk]
    · simp [hj, hj ▸ hk]
  · simp [hj, Ne.symm hj]

section Pass

variable (s : State) (p c : Nat)

theorem expects_passLink_same (h : c < (s.port (.ualink p)).expected.length) :
    ((s.passLink p c).port (.ualink p)).expects c = (s.port (.ualink p)).expects c + 1 := by
  rw [State.passLink, port_modPort, if_pos rfl]
  exact (getD_set _ _ _ _).trans (if_pos ⟨rfl, h⟩)

theorem expects_passLink_ne {d : Nat} (h : d ≠ c) :
    ((s.passLink p c).port (.ualink p)).expects d = (s.port (.ualink p)).expects d := by
  rw [State.passLink, port_modPort, if_pos rfl]
  exact (getD_set _ _ _ _).trans (if_neg fun hd => h hd.1)

theorem carries_passLink (q : PortSel) : (s.passLink p c).carries q = s.carries q := by
  have hport : ((s.passLink p c).port q).lock = (s.port q).lock ∧ ((s.passLink p c).port q).waiting = (s.port q).waiting := by
    rw [State.passLink, port_modPort]
    split
    · rename_i hq
      simp only [State.port, hq, and_self]
    · exact ⟨rfl, rfl⟩
  rw [State.carries, State.carries, hport.1, hport.2]

end Pass

/-- A packet with the number its channel expects is its request, performed. -/
theorem exec_peerAccess {p : Nat} {s : State} (a : BitVec 64) (r : PeerReq) (hp : p < 16) (hc : s.carries (.ualink p) = true) {n : Nat}
    (hn : n = (s.port (.ualink p)).expects (peerChan r)) :
    exec (.peerAccess p a { seq := n, req := r }) s = .next ((s.passLink p (peerChan r)).peerRequest p a r) := by
  have harm : exec (.peerAccess p a { seq := n, req := r }) s = execPeerAccess p a { seq := n, req := r } s := rfl
  rw [harm, execPeerAccess]
  simp [hp, hc, hn]

/-! ## Locations a peer names (16 R336) -/

/-- A location that a peer reaches here is of this package. -/
theorem locPkg_of_peerLoc {s : State} {c : BitVec 32} {a : BitVec 64} {l : Nat} (h : s.peerLoc c a = some l) : locPkg l = 0 := by
  have hpa : bitsAt a 0 49 < 2 ^ 49 := Nat.mod_lt _ (by decide)
  have hc : c.toNat < 2 ^ 32 := c.isLt
  unfold State.peerLoc at h
  dsimp only at h
  generalize bitsAt a 0 49 = pa at hpa h
  split at h
  · cases h
  · split at h
    · split at h
      · cases h
      · cases h
        simp only [locPkg, locOf, spHbm]
        omega
    · split at h
      · cases h
      · cases h
        simp only [locPkg, locOf, spDdr]
        omega
    · split at h
      · split at h
        · cases h
          simp only [locPkg, locOf, spBank]
          omega
        · cases h
      · cases h
    · cases h

theorem absentLoc_of_peerLoc {s : State} {c : BitVec 32} {a : BitVec 64} {l : Nat} (h : s.peerLoc c a = some l) :
    absentLoc l = false := absentLoc_of_own (locPkg_of_peerLoc h)

/-! ## Bytes within one line -/

theorem cutLines_within {a n : Nat} (hn : 0 < n) (h : a % 128 + n ≤ 128) : cutLines a n (n + 1) = [(a, n)] := by
  have hmin : min n (128 - a % 128) = n := by omega
  rw [cutLines, if_neg (by omega)]
  dsimp only
  rw [hmin, Nat.sub_self]
  cases n with
  | zero => omega
  | succ n => rfl

/-- A value written, read back, with the bytes around it as they were. -/
theorem value_of_stored {l x n : Nat} {s u : State} (h : StoredAt l (toBytes x n) s u) (hm : s.mem.wf = true) :
    u.mem.value l n = x % 2 ^ (8 * n) ∧ ∀ a, a < l ∨ l + n ≤ a → u.mem.read a = s.mem.read a := by
  rw [h.mem, value_writes l x n hm, Nat.pow_mul]
  exact ⟨rfl, fun a ha => read_writes_toBytes hm ha⟩

/-! ## Reductions at their bank (10 R221) -/

/-- A reduction is one combining of the bytes its rule names. -/
theorem reduce_eq_combine {op : CommitOp} {n : Nat} {f : Nat → Nat} (h : Spec.reductionOf op = some (n, f)) (s : State) (c : BitVec 32)
    (l : Nat) : s.reduce c l op = s.combine c l n f false := by
  cases op with
  | redInt | redF | redB => cases h; rfl
  | _ => cases h

theorem storedAt_reduce {s : State} (c : BitVec 32) {l : Nat} {op : CommitOp} {n : Nat} {f : Nat → Nat}
    (h : Spec.reductionOf op = some (n, f)) (hs : Sound s) (hl : absentLoc l = false) :
    StoredAt l (toBytes (f (s.mem.value l n)) n) s (s.reduce c l op) := by
  rw [reduce_eq_combine h]
  exact combine_good c n f false hs hl

/-! ## Reads and writes -/

section Requests

variable {s : State} {p : Nat} {a : BitVec 64} {c : BitVec 32}

theorem peerRequest_read_absent {len : Nat} (hn : 0 < len) (h : a.toNat % 128 + len ≤ 128) (hl : s.peerLoc c a = none) :
    s.peerRequest p a (.read c len) = s.sendPort (.ualink p) 0 (.peerData p (List.replicate len 0) true []) := by
  simp [State.peerRequest, cutLines_within hn h, State.peerReadParts, hl, SentData.and, State.answerPeer]

theorem peerRequest_read {len l : Nat} (hn : 0 < len) (h : a.toNat % 128 + len ≤ 128) (hl : s.peerLoc c a = some l)
    (hgood : ∀ k, (s.line k).chkBad = false) :
    s.peerRequest p a (.read c len) =
      s.sendPort (.ualink p) 0 (.peerData p (s.mem.bytes l len) (s.poisonAt l len) [s.chk (lineKey l)]) := by
  have hverify : s.verifyLine c (lineKey l) = s := verifyLines_good s c [lineKey l] hgood
  simp [State.peerRequest, cutLines_within hn h, State.peerReadParts, hl, hverify, State.sentData, SentData.and, State.answerPeer]

theorem peerRequest_write_absent {bs : List Byte} (b : Bool) (hbs : bs ≠ []) (h : a.toNat % 128 + bs.length ≤ 128)
    (hl : s.peerLoc c a = none) : s.peerRequest p a (.write c bs b) = s.refuse1 (.ualink p) := by
  simp [State.peerRequest, cutLines_within (List.length_pos_iff.2 hbs) h, State.peerWriteParts, hl]

theorem peerRequest_write {bs : List Byte} (b : Bool) {l : Nat} (hbs : bs ≠ []) (h : a.toNat % 128 + bs.length ≤ 128)
    (hl : s.peerLoc c a = some l) : s.peerRequest p a (.write c bs b) = (s.gotPoison c l b).storeFor c l bs b := by
  simp [State.peerRequest, cutLines_within (List.length_pos_iff.2 hbs) h, State.peerWriteParts, hl]

/-- A write for a context at an address that is there leaves its bytes, whatever records it makes. -/
theorem bytes_storeFor {l : Nat} (bs : List Byte) (b : Bool) (hm : s.mem.wf = true) (hl : absentLoc l = false) :
    (s.storeFor c l bs b).mem.bytes l bs.length = bs := by
  rw [State.storeFor, if_neg (by simp [hl]), store_mem]
  exact bytes_writes l bs ((rings_verifyLines s c _).mem hm)

/-! ## Atomics (10 R219, R220) -/

theorem peerAtomic_stored {l n x : Nat} (b : Bool) (f : Nat → Option Nat) (hf : f (s.mem.value l n) = some x) (hs : Sound s)
    (hl : absentLoc l = false) : ∃ w, StoredAt l (toBytes x n) s w ∧
      s.peerAtomic p c l n f b = w.answerPeer p (toBytes (s.mem.value l n) n) (s.poisonAt l n) [s.chk (lineKey l)] := by
  have hverify : s.verifyLine c (lineKey l) = s := verifyLines_good s c [lineKey l] hs.good
  refine ⟨_, storedAt_storeFor c _ (s.poisonAt l n || b) hs hl, ?_⟩
  simp only [State.peerAtomic, hf, hverify]

theorem carries_of_pkg {s u : State} (h : u.pkg = s.pkg) (q : PortSel) : u.carries q = s.carries q := by
  simp only [State.carries, State.port, h]

/-- An answer leaves over a port that carries traffic. -/
theorem out_answerPeer (bs : List Byte) (b : Bool) (ch : List (BitVec 32)) (h : s.carries (.ualink p) = true) :
    (s.answerPeer p bs b ch).out = .peerData p bs b ch :: s.out := by
  rw [State.answerPeer, sendPort_out, if_pos h]

theorem wordSize_of {n : Nat} (h : n = 4 ∨ n = 8) : wordSize n = true := by
  rcases h with rfl | rfl <;> rfl

/-- A request other than those above, at a location of this package. -/
theorem peerRequest_amo {op : BitVec 3} {uns : Bool} {n l : Nat} {d : BitVec 64} {b : Bool} (hn : n = 4 ∨ n = 8) (hal : l % n = 0)
    (hl : s.peerLoc c a = some l) : s.peerRequest p a (.amo c op uns n d b) = (s.gotPoison c l b).peerAtomic p c l n
      (fun o => some (combineInt (redOpOf op) uns (8 * n) o (d.toNat % 2 ^ (8 * n)))) b := by
  simp [State.peerRequest, peerCtx, peerPois, hl, State.peerAt, wordSize_of hn, hal]

theorem peerRequest_reduceInt {op : BitVec 3} {uns : Bool} {n l : Nat} {d : BitVec 64} (hn : n = 4 ∨ n = 8) (hal : l % n = 0)
    (hl : s.peerLoc c a = some l) : s.peerRequest p a (.reduceInt c op uns n d) = s.reduce c l (.redInt (redOpOf op) uns n d) := by
  simp [State.peerRequest, peerCtx, peerPois, hl, State.peerAt, wordSize_of hn, hal, State.gotPoison]

theorem peerRequest_redo {d q : BitVec 32} {l : Nat} (hal : l % 16 = 0) (hl : s.peerLoc c a = some l) :
    s.peerRequest p a (.redo c d q) = s.peerContribution c l q (.redo d) false := by
  simp [State.peerRequest, peerCtx, peerPois, hl, State.peerAt, hal, State.gotPoison]

theorem peerDecrement_stray {tag : BitVec 32} {amt l : Nat} (h : s.ctx? c = none) :
    s.peerDecrement p c a tag amt l = s.sendPort (.ualink p) 0 (.peerFault p fcStray) := by
  simp [State.peerDecrement, h, State.faultPeer]

theorem peerRequest_decrement {tag : BitVec 32} {amt l : Nat} (h : (s.ctx? c).isSome = true) (hl : s.peerLoc c a = some l) :
    s.peerRequest p a (.decrement c tag amt) = s.addDec
      { ctx := c, target := .remote s.pkg.id.toNat l a tag, amt := amt, die := (bankOf l).getD 0 / 128, port := some p } := by
  rw [State.peerRequest, hl, Option.getD_some, State.peerDecrement, if_neg (by simpa using Option.isSome_iff_ne_none.1 h)]

theorem peerMessage_known {from_ : BitVec 32} {m : BitVec 8} {w : BitVec 512} (h : (s.ctx? c).isSome = true) :
    s.peerMessage p c from_ m w = { s with fab := { s.fab with msgs := s.fab.msgs ++
      [{ ctx := c, mbox := m.toNat, words := w, sender := from_, port := some p }] } } := by
  rw [State.peerMessage, if_neg (by simpa using Option.isSome_iff_ne_none.1 h)]

theorem peerMessage_stray {from_ : BitVec 32} {m : BitVec 8} {w : BitVec 512} (h : s.ctx? c = none) :
    s.peerMessage p c from_ m w = s.sendPort (.ualink p) 0 (.peerFault p fcStray) := by
  simp [State.peerMessage, h, State.faultPeer]

end Requests

/-- Settles O57: a request in its turn is performed after its number has passed, which leaves memory, tiles and contexts as they were;
each clause is then the rule of its request. -/
theorem peerRequests : Obligations.PeerRequests := by
  unfold Obligations.PeerRequests
  refine ⟨?down, ?order, ?read, ?write, ?amo, ?reduce, ?redo, ?decrement, ?message⟩
  case down =>
    intro p a q s hc
    have harm : exec (.peerAccess p a q) s = execPeerAccess p a q s := rfl
    rw [harm, execPeerAccess]
    simp [hc]
  case order =>
    intro p a q n s hp hc hn
    have harm : exec (.peerAccess p a q) s = execPeerAccess p a q s := rfl
    rw [harm, execPeerAccess]
    simp only [hp, hc, decide_true, Bool.and_self, if_true, ← hn]
    refine ⟨fun hlt => if_pos hlt, fun hlt => ?_, fun heq => ?_⟩
    · rw [if_neg (by omega), if_pos hlt]
    · subst heq
      simp only [Nat.lt_irrefl, if_false]
      refine ⟨_, rfl, fun hlen => ?_, fun c hne => ?_, rfl, rfl, rfl, rfl, rfl, rfl⟩
      · rw [expects_passLink_same s p _ hlen, ← hn]
      · exact expects_passLink_ne s p _ hne
  case read =>
    intro p a s n c len hp hc hn hlen hpos hgood
    rw [exec_peerAccess a (.read c len) hp hc hn]
    refine ⟨fun hl => ?_, fun l hl => ?_⟩
    · exact congrArg Host.Outcome.next (peerRequest_read_absent (s := s.passLink p 0) hpos hlen hl)
    · exact congrArg Host.Outcome.next (peerRequest_read (s := s.passLink p 0) hpos hlen hl hgood)
  case write =>
    intro p a s n c bs b hp hc hn hlen hbs
    rw [exec_peerAccess a (.write c bs b) hp hc hn]
    refine ⟨fun hl => ?_, fun l hl hcanon => ?_⟩
    · exact congrArg Host.Outcome.next (peerRequest_write_absent (s := s.passLink p 0) b hbs hlen hl)
    · have hloc := absentLoc_of_peerLoc hl
      refine ⟨_, congrArg Host.Outcome.next (peerRequest_write (s := s.passLink p 0) b hbs hlen hl),
        bytes_storeFor bs b ((rings_gotPoison _ c l b).mem hcanon.1) hloc, fun hb hgood => ?_⟩
      subst hb
      have hstored := storedAt_storeFor (s := s.passLink p 0) c bs false ⟨hcanon, hgood⟩ hloc
      exact ⟨hstored.tiles, (congrArg State.ctxs hstored.rest).trans rfl, fun k hk =>
        (congrArg (Memory.read · k) hstored.mem).trans (read_writes_out hcanon.1 hk)⟩
  case amo =>
    intro p a s m v c op uns n d b l hp hc hm hn hl hal hv hgood hcanon
    refine ⟨fun hb => by rw [hv, hb]; rfl, ?_⟩
    have hreq : (s.passLink p 0).peerRequest p a (.amo c op uns n d b) = _ := peerRequest_amo (s := s.passLink p 0) hn hal hl
    rw [exec_peerAccess a (.amo c op uns n d b) hp hc hm]
    rw [← hv] at hreq
    obtain ⟨w, hw, heq⟩ := peerAtomic_stored (p := p) (c := c) b
      (fun o => some (combineInt (redOpOf op) uns (8 * n) o (d.toNat % 2 ^ (8 * n)))) rfl ⟨hcanon, hgood⟩ (absentLoc_of_peerLoc hl)
    have hcarries : w.carries (.ualink p) = true := by
      have hpkg : w.pkg = (s.passLink p 0).pkg := by
        rw [congrArg State.pkg hw.rest, hv]
        exact (rings_gotPoison _ c l b).pkg
      rw [carries_of_pkg hpkg, carries_passLink, hc]
    obtain ⟨hvalue, hframe⟩ := value_of_stored hw hcanon.1
    refine ⟨_, congrArg Host.Outcome.next (hreq.trans heq), ?_, ?_, ?_⟩
    · rw [out_answerPeer _ _ _ hcarries, congrArg State.out hw.rest]
    · rw [State.answerPeer, sendPort_mem]
      exact hvalue
    · rw [State.answerPeer, sendPort_mem]
      exact hframe
  case reduce =>
    intro p a s m c op uns n d l hp hc hm hn hl hal hgood hcanon
    rw [exec_peerAccess a (.reduceInt c op uns n d) hp hc hm]
    have hstored := storedAt_reduce (s := s.passLink p 0) (op := .redInt (redOpOf op) uns n d) c rfl ⟨hcanon, hgood⟩
      (absentLoc_of_peerLoc hl)
    obtain ⟨hvalue, hframe⟩ := value_of_stored hstored hcanon.1
    exact ⟨_, congrArg Host.Outcome.next (peerRequest_reduceInt (s := s.passLink p 0) hn hal hl),
      (congrArg State.out hstored.rest).trans rfl, hvalue, hframe⟩
  case redo =>
    intro p a s m c d q l hp hc hm hl hal
    rw [exec_peerAccess a (.redo c d q) hp hc hm]
    exact ⟨_, congrArg Host.Outcome.next (peerRequest_redo (s := s.passLink p 2) hal hl), rfl, rfl⟩
  case decrement =>
    intro p a s n c tag amt hp hc hn
    rw [exec_peerAccess a (.decrement c tag amt) hp hc hn]
    refine ⟨fun hctx l hl => ?_, fun hctx => congrArg Host.Outcome.next (peerDecrement_stray (s := s.passLink p 1) hctx)⟩
    exact congrArg Host.Outcome.next (peerRequest_decrement (s := s.passLink p 1) hctx hl)
  case message =>
    intro p a s n c from_ m w hp hc hn
    rw [exec_peerAccess a (.message c from_ m w) hp hc hn]
    refine ⟨fun hctx => ?_, fun hctx => congrArg Host.Outcome.next (peerMessage_stray (s := s.passLink p 1) hctx)⟩
    exact ⟨_, _, congrArg Host.Outcome.next (peerMessage_known (s := s.passLink p 1) hctx), rfl, rfl, rfl, rfl, rfl, rfl, rfl, rfl⟩

end Sys2Proof.Peers
end

section
/-! The family 10_memory_instructions, events with an effect of their own: O60. A host's bytes lie within one line; a reset leaves no
task and no queue, so the count of usable tiles changes nothing but clusters; a load that fires as its data returns is `Access.load_ok`. -/

namespace Sys2Proof.Arrivals

open Machine Laws MatrixUnit Lines Access

/-! ## Host memory (19 R388, R392) -/

/-- A location that a host names is of this package. -/
theorem locPkg_of_hostLoc {s : State} {p : Nat} {a : BitVec 64} {l : Nat} (h : s.hostLoc p a = some l) : locPkg l = 0 := by
  unfold State.hostLoc at h
  dsimp only at h
  generalize bitsAt a 0 61 = pa at h
  split at h
  · split at h
    · cases h
    · rename_i hpa
      cases h
      simp only [Bool.or_eq_true, decide_eq_true_eq, not_or] at hpa
      simp only [locPkg, locOf, spHbm]
      omega
  · split at h
    · cases h
    · rename_i hpa
      cases h
      simp only [State.ddrAbsent, Bool.or_eq_true, decide_eq_true_eq, not_or] at hpa
      simp only [locPkg, locOf, spDdr]
      omega
  · split at h
    · rename_i c _
      have hid := c.id.isLt
      split at h
      · rename_i hpa
        cases h
        simp only [Bool.and_eq_true, decide_eq_true_eq] at hpa
        simp only [locPkg, locOf, spBank]
        omega
      · cases h
    · cases h
  · cases h

theorem absentLoc_of_hostLoc {s : State} {p : Nat} {a : BitVec 64} {l : Nat} (h : s.hostLoc p a = some l) : absentLoc l = false :=
  absentLoc_of_own (locPkg_of_hostLoc h)

theorem hostBytes_within {s : State} {p n len l : Nat} {a : BitVec 64} (hlen : 0 < len) (h : a.toNat % 128 + len ≤ 128)
    (hl : s.hostLoc p a = some l) (hown : s.foreign p n l = false) (hgood : ∀ k, (s.line k).chkBad = false) :
    s.hostBytes p n a len = (s, { bytes := s.mem.bytes l len, pois := s.poisonAt l len, checks := [s.chk (lineKey l)] }) := by
  have howner : s.foreignOwner p n l = none := by simpa [State.foreign] using hown
  have hverify : s.verifyLine 0#32 (lineKey l) = s := verifyLines_good s 0 [lineKey l] hgood
  simp [State.hostBytes, Peers.cutLines_within hlen h, State.hostReadParts, hl, howner, hverify, State.sentData, SentData.and]

theorem hostStore_within {s : State} {p n l : Nat} {a : BitVec 64} {bs : List Byte} (hbs : bs ≠ [])
    (h : a.toNat % 128 + bs.length ≤ 128) (hl : s.hostLoc p a = some l) (hown : s.foreign p n l = false) :
    s.hostStore p n a bs = s.storeFor 0 l bs false := by
  simp [State.hostStore, Peers.cutLines_within (List.length_pos_iff.2 hbs) h, State.hostWriteParts, hl, hown]

/-! ## Reset (20 R403) -/

/-- No tile runs a task or holds a queue. -/
def Unused (s : State) : Prop := ∀ t, (s.tile t).run = none ∧ (s.tile t).queue = []

theorem kvGet_map {α β : Type} (d : α) (f : α → β) (l : List (Nat × α)) (k : Nat) :
    kvGet (f d) (l.map fun x => (x.1, f x.2)) k = f (kvGet d l k) := by
  induction l with
  | nil => rfl
  | cons x rest ih =>
    rw [List.map_cons, kvGet, kvGet, ih]
    split <;> rfl

theorem emptyQueues_of_unused {s : State} (h : Unused s) (l : List Nat) : s.emptyQueues l = s := by
  induction l with
  | nil => rfl
  | cons t rest ih =>
    have hempty : s.emptyQueue t = s := by rw [State.emptyQueue, (h t).2]; rfl
    rw [State.emptyQueues, hempty, ih]

/-- On unused tiles the count of usable tiles changes clusters alone. -/
theorem checkCluster_of_unused {s : State} (h : Unused s) (c : Nat) :
    ∃ l, s.checkCluster c = { s with pkg := { s.pkg with clusters := l } } := by
  rw [State.checkCluster]
  split
  · exact ⟨_, emptyQueues_of_unused (s := s.modCluster c _) h _⟩
  · exact ⟨s.pkg.clusters, rfl⟩

theorem checkClusters_of_unused {s : State} (h : Unused s) (l : List Nat) :
    ∃ cl, s.checkClusters l = { s with pkg := { s.pkg with clusters := cl } } := by
  induction l generalizing s with
  | nil => exact ⟨s.pkg.clusters, rfl⟩
  | cons c rest ih =>
    obtain ⟨cl, hc⟩ := checkCluster_of_unused h c
    rw [State.checkClusters, hc]
    exact ih (s := { s with pkg := { s.pkg with clusters := cl } }) h

theorem fullReset_fresh (s : State) : s.fullReset.cycle = 0 ∧ s.fullReset.insts = [] ∧ s.fullReset.pkg.power = .on ∧
    ∀ t, s.fullReset.run? t = none := by
  obtain ⟨x, hx, htiles, hcycle, hinsts, hpower⟩ : ∃ x : State, s.fullReset = x.checkClusters (List.range 68) ∧
      x.tiles = s.pkg.loaded.tiles.map (fun y => (y.1, y.2.tile)) ∧ x.cycle = 0 ∧ x.insts = [] ∧ x.pkg.power = .on := by
    unfold State.fullReset
    exact ⟨_, rfl, rfl, rfl, rfl, rfl⟩
  have hunused : Unused x := fun t => by
    rw [State.tile, htiles]
    rw [show kvGet ({} : Tile) _ t = _ from kvGet_map ({} : Tile).lifeData TileLife.tile s.pkg.loaded.tiles t]
    exact ⟨rfl, rfl⟩
  obtain ⟨cl, h⟩ := checkClusters_of_unused hunused (List.range 68)
  rw [hx, h]
  exact ⟨hcycle, hinsts, hpower, fun t => (hunused t).1⟩

theorem packageReset_fresh {s : State} (h : s.pkg.lcs ≠ 3) : s.packageReset.cycle = 0 ∧ s.packageReset.insts = [] ∧
    s.packageReset.pkg.power = .on ∧ ∀ t, s.packageReset.run? t = none := by
  rw [State.packageReset, if_neg h]
  exact fullReset_fresh s

/-! ## Freeze and power (17 R369; 20 R409) -/

theorem freezeNow_unlocked {s : State} (hlcs : s.pkg.lcs = 2) (hon : s.pkg.power = .on) :
    s.freezeNow = { s with pkg := { s.pkg with power := .frozen } } := by
  rw [State.freezeNow, if_pos (by simp [hlcs, hon])]

/-! ## A load that fires as its data returns (10 R212) -/

theorem aim_eq_setPitch {s : State} {t k : Nat} {r : Run} {p : Pitch} (hr : s.run? t = some r) (hp : r.pitch = some p) :
    s.aim t k = ({ s with focus := t } : State).setPitch t { p with cursor := k } := by
  have hr' : ({ s with focus := t } : State).run? t = some r := hr
  rw [State.aim, State.setPitch, Errors.modRun_of_run hr, Errors.modRun_of_run hr', hp]
  rfl

/-- The slot a tile is aimed at is of the pitch that stands there. -/
theorem env_aim {s : State} {t k : Nat} {e : Env} (h : (s.aim t k).env? = some e) : e.s = s.aim t k ∧ e.t = t ∧
    ∃ r p, s.run? t = some r ∧ r.pitch = some p ∧ r.phase = .fire ∧ e.p = { p with cursor := k } := by
  obtain ⟨hs, ht⟩ := env_state h
  obtain ⟨hrun, hpitch, hphase, -, -⟩ := env_run h
  have hmap : (s.run? t).map (fun r => { r with pitch := r.pitch.map fun p => { p with cursor := k } }) = some e.r :=
    ((run?_modRun s t t _).trans (if_pos rfl)).symm.trans hrun
  obtain ⟨r, hr, her⟩ := Option.map_eq_some_iff.1 hmap
  rw [← her] at hpitch hphase
  obtain ⟨p, hp, hep⟩ := Option.map_eq_some_iff.1 hpitch
  exact ⟨hs, ht, r, p, hr, hp, hphase, hep.symm⟩

/-- A load's data returns as the load is examined once more. -/
theorem respond_load {i : Instr} {e : Env} {x : BitVec 7 × Nat × List (Nat × Nat) × (List Byte → TokVal)}
    (h : Spec.loads e i = some x) (s : State) : respond s i = outcomeOr s (exec i s) := by
  cases i with
  | ldb | ldbu | ldh | ldhu | ldw | ldwu | ldd | ldv | ldvx => rfl
  | _ => cases h

/-- An instruction whose data has come fires now, and was counted when it was first examined. -/
theorem fireAt_pending {i : Instr} {act : Env → Reply} {e : Env} {a : Act} (hst : e.slot.status = .pending)
    (hr : (sigOf i).ready e.slot = true) (hm : (sigOf i).matches e.slot = true) (hn : (sigOf i).hasNull e.slot = false)
    (ha : act e = .done a) : fireAt i act e = ((Spec.resumed i e a).touchPad a.reads).readLines e.ctx a.reads := by
  simp only [fireAt, hst, hr, hm, hn, ha]
  rfl

theorem awaiting_deliver (p : Pitch) (tok : Token) (t : Target) (k : Nat) : (p.deliver tok t).awaiting k = p.awaiting k := by
  unfold Pitch.deliver
  split
  · rfl
  · rename_i pos slot
    split
    · rfl
    · rename_i sl hsl
      split
      · rfl
      · have hput : (sl.put pos tok).status = sl.status := by cases pos <;> rfl
        simp only [Pitch.awaiting, List.getElem?_set]
        split
        · rename_i hk
          subst hk
          rw [if_pos (List.getElem?_eq_some_iff.1 hsl).1, hsl, Option.map_some, Option.map_some, hput]
        · rfl

theorem awaiting_send (p : Pitch) (v : Option TokVal) (b : Bool) (t : Target) (k : Nat) : (p.send v b t).awaiting k = p.awaiting k := by
  cases v with
  | none => rfl
  | some v => exact awaiting_deliver p _ t k

theorem awaiting_setStatus_fired (p : Pitch) (k : Nat) : (p.setStatus k .fired).awaiting k = false := by
  simp only [Pitch.awaiting, Pitch.setStatus, List.getElem?_modify]
  cases p.slots[k]? <;> simp

/-- What has fired awaits nothing. -/
theorem awaits_resumed (i : Instr) (e : Env) (a : Act) : (Spec.resumed i e a).awaits e.t e.k = false := by
  have hawait : (((e.p.setStatus e.k .fired).perform e.k (sigOf i) a).moved e.k).awaiting e.k = false :=
    (awaiting_send _ _ _ _ _).trans ((awaiting_send _ _ _ _ _).trans (awaiting_setStatus_fired _ _))
  simp [State.awaits, Spec.resumed, Env.store, State.run?, hawait]

/-- MEMORY_RESPONSE for a slot that awaits data is its instruction, examined where it stands, if that then awaits nothing. -/
theorem exec_memoryResponse {t k : Nat} {s u : State} {r : Run} {p : Pitch} {i : Instr} (hr : s.run? t = some r)
    (hp : r.pitch = some p) (hphase : r.phase = .fire) (hdec : decode (p.words[k]?.getD 0) = .ok i) (hawait : p.awaiting k = true)
    (hu : respond (s.aim t k) i = u) (hdone : u.awaits t k = false) :
    exec (.memoryResponse t k) s = .next { u with focus := s.focus } := by
  have harm : exec (.memoryResponse t k) s = execMemoryResponse t k s := rfl
  rw [aim_eq_setPitch hr hp] at hu
  rw [harm, execMemoryResponse]
  simp only [hr, hp, hphase, hdec, hawait, hu, hdone, if_true, Bool.false_eq_true, if_false]

theorem line_aim (s : State) (t k n : Nat) : (s.aim t k).line n = s.line n := by
  unfold State.aim State.modRun
  split <;> rfl

/-- A load that awaited its data sends it, and marks the scratchpad lines it was read from. -/
theorem load_responds {t k : Nat} {s : State} {e : Env} {i : Instr} {l : BitVec 7} {n : Nat} {spans : List (Nat × Nat)}
    {mk : List Byte → TokVal} {bs : List Bound} {d : List Byte} {b : Bool} (he : (s.aim t k).env? = some e) (hk : e.k = k)
    (hst : e.slot.status = .pending) (hready : (sigOf i).ready e.slot = true) (hmatch : (sigOf i).matches e.slot = true)
    (hnull : (sigOf i).hasNull e.slot = false) (hdec : decode (e.p.words[k]?.getD 0) = .ok i)
    (hl : Spec.loads e i = some (l, n, spans, mk)) (hbs : e.access { align := n, r := true } spans = .ok bs)
    (hlower : e.behindLower l.toNat bs = false) (hheld : e.held false bs = false) (hpois : e.pois = false)
    (hgood : ∀ n, (s.line n).chkBad = false) (hown : ∀ b ∈ bs, locPkg b.loc = 0)
    (hd : ((e.s.asRead bs (e.p.earlyOf k)).applyStores t (e.p.storesBelow l.toNat)).readBounds t bs = (d, b)) :
    exec (.memoryResponse t k) s = .next { (Spec.resumed i e { out0 := some (mk d), pois := b, counted := b }).touchPad (boundLines bs) with
      focus := s.focus } := by
  obtain ⟨hs, ht, r, p, hr, hp, hphase, hep⟩ := env_aim he
  obtain ⟨act, mk', hexec, hact, hmk⟩ := exec_load hl
  subst hk
  have hload : act e = .done { out0 := some (mk d), pois := b, counted := b, reads := boundLines bs } := by
    rw [← ht] at hd
    rw [hact, load_ok hmk hbs hlower hheld hd, hpois, Bool.false_or]
  have hread := onlyRead_touchPad (Spec.resumed i e { out0 := some (mk d), pois := b, counted := b }) (boundLines bs)
  have hlines : ((Spec.resumed i e { out0 := some (mk d), pois := b, counted := b }).touchPad (boundLines bs)).readLines e.ctx
      (boundLines bs) = (Spec.resumed i e { out0 := some (mk d), pois := b, counted := b }).touchPad (boundLines bs) := by
    refine readLines_good _ _ _ (fun n => (hread.chkBad n).trans ?_) fun n hn => ?_
    · exact (congrArg (fun u : State => (u.line n).chkBad) hs).trans ((congrArg LineMeta.chkBad (line_aim s t e.k n)).trans (hgood n))
    · obtain ⟨x, hx, rfl⟩ := List.mem_map.1 hn
      rw [locPkg_line, hown x hx]
  have hresponds : respond (s.aim t e.k) i =
      (Spec.resumed i e { out0 := some (mk d), pois := b, counted := b }).touchPad (boundLines bs) := by
    rw [respond_load hl, hexec, fire_env he, outcomeOr, fireAt_pending hst hready hmatch hnull hload]
    exact hlines
  have hslot : p.slots[e.k]? = some e.slot := by simpa [hep] using (env_run he).2.2.2.2
  have hdone : ((Spec.resumed i e { out0 := some (mk d), pois := b, counted := b }).touchPad (boundLines bs)).awaits t e.k = false := by
    rw [State.awaits, State.run?, hread.tile, ← ht]
    exact awaits_resumed i e _
  exact exec_memoryResponse hr hp hphase (by simpa [hep] using hdec) (by simp [Pitch.awaiting, hslot, hst]) hresponds hdone

/-- Settles O60: the load of a response is examined where it stands, host accesses lie within one line, a reset package has no task, and
each other event is its update. -/
theorem eventsComplete : Obligations.EventsComplete := by
  unfold Obligations.EventsComplete
  refine ⟨?response, ?hostRead, ?hostWrite, ?supply, ?management, ?microcode, ?token, ?freeze, ?cap, ?failure⟩
  case response =>
    intro t k s e i l n spans mk bs he hk hst hready hmatch hnull hdec hl hbs hlower hheld hpois hgood hown
    exact ⟨_, _, _, rfl, rfl, load_responds he hk hst hready hmatch hnull hdec hl hbs hlower hheld hpois hgood hown rfl⟩
  case hostRead =>
    intro p n a len l s hc hlen hpos hgood hl hown
    have harm : exec (.hostRead p n a len) s = execHostRead p n a len s := rfl
    rw [harm, execHostRead, if_pos hc, hostBytes_within hpos hlen hl hown hgood]
  case hostWrite =>
    intro p n a bs l s hc hlen hbs hl hown hcanon hgood
    have harm : exec (.hostWrite p n a bs) s = execHostWrite p n a bs s := rfl
    rw [harm, execHostWrite, if_pos hc, hostStore_within hbs hlen hl hown]
    exact ⟨_, rfl, Peers.bytes_storeFor bs false hcanon.1 (absentLoc_of_hostLoc hl)⟩
  case supply => exact fun s hlcs => ⟨_, rfl, packageReset_fresh hlcs⟩
  case management => exact fun s hlcs hon => ⟨_, if_neg hon, packageReset_fresh hlcs⟩
  case microcode =>
    intro v d w s hv
    have harm : exec (.microcodeLoad v d w true) s = execMicrocodeLoad v d w true s := rfl
    rw [harm, execMicrocodeLoad, if_pos (by simp [hv])]
    exact ⟨_, rfl, rfl, rfl, rfl, rfl⟩
  case token =>
    intro s hlcs
    have harm : exec (.debugToken true) s = execDebugToken true s := rfl
    rw [harm, execDebugToken, if_pos (by simp [hlcs])]
    exact ⟨_, rfl, rfl, rfl⟩
  case freeze =>
    intro s hlcs hon
    rw [← freezeNow_unlocked hlcs hon]
    exact ⟨rfl, fun _ hn => if_pos hn⟩
  case cap =>
    intro w s hlo hhi
    have harm : exec (.powerCapSet w) s = execPowerCapSet w s := rfl
    rw [harm, execPowerCapSet, if_pos (by simp [hlo, hhi])]
  case failure => exact fun s => ⟨_, rfl, rfl, rfl, rfl⟩

end Sys2Proof.Arrivals
end

section
/-! The family 10_memory_instructions, publication: O43. An effect of a publication changes memory and lines, and what runs that started
after the commit have fetched; step 3 sends each graph operation once; what is left of a record that has ended stays ended while others
are brought back; a contribution is added, held or discarded by its number. -/

namespace Sys2Proof.Publishing

open Machine Laws MatrixUnit Lines Copies

/-! ## An effect of a publication (12 R262; 03 R55) -/

section Effect

variable {s : State} {id : Nat} {p : Pub}

theorem id_of_pub? (h : s.pub? id = some p) : p.id = id := by
  simpa using List.find?_some h

theorem pub?_modPub (h : s.pub? id = some p) {g : Pub → Pub} (hg : ∀ q, (g q).id = q.id) : (s.modPub id g).pub? id = some (g p) :=
  (find?_map_id (fun q : Pub => q.id) s.fab.pubs id g fun q _ => hg q).trans (congrArg (Option.map g) h)

theorem pub?_congr {u : State} (h : u.fab = s.fab) : u.pub? id = s.pub? id := by rw [State.pub?, State.pub?, h]

/-- A tile to which an effect is shown: what its run has fetched, where it started after the commit. -/
def shown (id : Nat) (f : State → State) (s : State) (v : Tile) : Tile :=
  match v.run with
  | some r => if id < r.serial then { v with run := some { r with fetchMem := (f { s with mem := r.fetchMem }).mem } } else v
  | none => v

theorem tile_publish (s : State) (id : Nat) (f : State → State) (t : Nat) :
    (s.publish id f).tile t = shown id f s ((f s).tile t) := by
  have htiles : (s.publish id f).tiles = (f s).tiles.map fun x => (x.1, shown id f s x.2) := by
    refine List.map_congr_left fun x _ => ?_
    split
    · rename_i r hr
      simp only [shown, hr]
      split <;> rfl
    · rename_i hr
      simp only [shown, hr]
  rw [State.tile, htiles]
  exact Arrivals.kvGet_map ({} : Tile) (shown id f s) (f s).tiles t

theorem run_shown (id : Nat) (f : State → State) (s : State) (v : Tile) : (v.run = none → (shown id f s v).run = none) ∧
    ∀ r, v.run = some r → ∃ m, (shown id f s v).run = some { r with fetchMem := m } ∧ (r.serial ≤ id → m = r.fetchMem) := by
  constructor
  · intro hr
    simp only [shown, hr]
  · intro r hr
    simp only [shown, hr]
    split
    · exact ⟨_, rfl, fun hle => absurd hle (by omega)⟩
    · exact ⟨r.fetchMem, hr, fun _ => rfl⟩

/-- An effect that changes memory and lines alone, and what is left of its publication. -/
theorem effect_published {f : State → State} {g : Pub → Pub} (hp : s.pub? id = some p)
    (hf : f s = { s with mem := (f s).mem, lines := (f s).lines }) (hg : ∀ q, (g q).id = q.id) :
    ((s.publish id f).modPub id g).pub? id = some (g p) ∧ Spec.refetched s ((s.publish id f).modPub id g) id ∧
      ((s.publish id f).modPub id g).insts = s.insts := by
  refine ⟨pub?_modPub ((pub?_congr (congrArg State.fab hf)).trans hp) hg, fun t => ?_, (congrArg State.insts hf).trans rfl⟩
  have htile : (f s).tile t = s.tile t := by rw [hf]; rfl
  have hrun : ((s.publish id f).modPub id g).run? t = (shown id f s (s.tile t)).run := by
    rw [← htile, ← tile_publish]; rfl
  rw [hrun]
  exact run_shown id f s (s.tile t)

end Effect

/-! ## Reductions of step 1 (10 R221) -/

theorem exec_reductionApply_red {id k l : Nat} {s : State} {p : Pub} {op : CommitOp} (hp : s.pub? id = some p)
    (hk : p.reds[k]? = some (l, op)) (hlink : s.linkDown l = false) (hgood : ∀ j, (s.line j).chkBad = false) :
    exec (.reductionApply id k) s =
      .next ((s.publish id fun s => s.reduce p.ctx l op).modPub id fun p => { p with reds := p.reds.eraseIdx k }) := by
  have harm : exec (.reductionApply id k) s = execReductionApply id k s := rfl
  have hverify : s.verifyLine p.ctx (lineKey l) = s := verifyLines_good s p.ctx [lineKey l] hgood
  simp only [harm, execReductionApply, hp, hk, hlink, hverify, Bool.false_eq_true, if_false]

/-! ## Sectors of step 1 (12 R262) -/

/-- Bytes written at several places of a line. -/
theorem read_foldl_write {m : Memory} (l : Nat) (v : Nat → Byte) (bs : List Nat) (hm : m.wf = true) :
    (∀ b ∈ bs, (bs.foldl (fun m b => m.write (l + b) (v b)) m).read (l + b) = v b) ∧
      ∀ a, (∀ b ∈ bs, a ≠ l + b) → (bs.foldl (fun m b => m.write (l + b) (v b)) m).read a = m.read a := by
  induction bs generalizing m with
  | nil => exact ⟨nofun, fun _ _ => rfl⟩
  | cons c rest ih =>
    obtain ⟨hin, hout⟩ := ih (write_wf (l + c) (v c) hm)
    refine ⟨fun b hb => ?_, fun a ha => ?_⟩
    · by_cases hrest : b ∈ rest
      · exact hin b hrest
      · obtain rfl : b = c := (List.mem_cons.1 hb).resolve_right hrest
        have hne : ∀ d ∈ rest, l + b ≠ l + d := fun d hd h => hrest (Nat.add_left_cancel h ▸ hd)
        exact (hout _ hne).trans ((read_write _ _ _ hm).trans (if_pos rfl))
    · obtain ⟨hne, hrest⟩ := List.forall_mem_cons.1 ha
      exact (hout a hrest).trans ((read_write _ _ _ hm).trans (if_neg hne))

/-- The marked bytes of a sector of a shadow line. -/
def markedBytes (l : ShadowLine) (i : Nat) : List Nat := ((List.range 16).map fun k => 16 * i + k).filter fun b => l.mask.getLsbD b

theorem mem_markedBytes {l : ShadowLine} {i b : Nat} : b ∈ markedBytes l i ↔ b / 16 = i ∧ l.mask.getLsbD b = true := by
  simp only [markedBytes, List.mem_filter, List.mem_map, List.mem_range]
  refine and_congr_left fun _ => ⟨fun ⟨k, hk, hb⟩ => by omega, fun hb => ⟨b % 16, Nat.mod_lt _ (by decide), by omega⟩⟩

/-- The bytes of a sector are written one after another. -/
theorem mem_foldl_put (l : Nat) (v : Nat → Byte) (bs : List Nat) (s : State) :
    bs.foldl (fun (s : State) b => { s with mem := s.mem.write (l + b) (v b) }) s =
      { s with mem := bs.foldl (fun m b => m.write (l + b) (v b)) s.mem } := by
  induction bs generalizing s with
  | nil => rfl
  | cons b rest ih => exact ih _

theorem publishSector_mem {x : LineOut} {i : Nat} {s : State} (hl : absentLoc x.line.loc = false) : (s.publishSector x i).mem =
    (markedBytes x.line i).foldl (fun m b => m.write (x.line.loc + b) (BitVec.ofNat 8 (x.line.data.toNat / 2 ^ (8 * b)))) s.mem := by
  simp only [State.publishSector, hl, Bool.false_eq_true, if_false, mem_foldl_put]
  rfl

theorem publishSector_rest (x : LineOut) (i : Nat) (s : State) :
    s.publishSector x i = { s with mem := (s.publishSector x i).mem, lines := (s.publishSector x i).lines } := by
  unfold State.publishSector
  dsimp only
  split
  · rfl
  · rw [mem_foldl_put]
    rfl

theorem sectorOver_id (p : Pub) (n i : Nat) : (p.sectorOver n i).id = p.id := by
  unfold Pub.sectorOver
  split <;> rfl

theorem exec_reductionApply_sector {id k n i : Nat} {s : State} {p : Pub} {x : LineOut} (hp : s.pub? id = some p)
    (hk : p.reds.length ≤ k) (hleft : p.sectorsLeft[k - p.reds.length]? = some (n, i)) (hx : p.stores[n]? = some x)
    (hlink : s.linkDown x.line.loc = false) (hgood : ∀ j, (s.line j).chkBad = false) :
    exec (.reductionApply id k) s =
      .next ((s.publish id fun s => s.publishSector x i).modPub id fun p => p.sectorOver n i) := by
  have harm : exec (.reductionApply id k) s = execReductionApply id k s := rfl
  have hnone : p.reds[k]? = none := List.getElem?_eq_none hk
  have hverify : s.verifyLine p.ctx (lineKey x.line.loc) = s := verifyLines_good s p.ctx [lineKey x.line.loc] hgood
  simp only [harm, execReductionApply, hp, hnone, hleft, State.performSector, hx, hlink, hverify, ite_self, id_of_pub? hp,
    Bool.false_eq_true, if_false]

/-! ## Release writes (12 R262; 10 R227) -/

theorem release_eq (s : State) (c : BitVec 32) (o i : Nat) (v : Bool) (d : BitVec 1024) : s.release c (o, i, v, d) =
    (s.storeFor c (128 * o + i) (toBytes d.toNat (if v then 128 else 8)) false).modLine o fun m =>
      { m with full := true, claimed := false } := by
  rw [State.release, Nat.mul_comm 128 o]
  cases v <;> rfl

theorem modLine_rest {s w : State} (h : w = { s with mem := w.mem, lines := w.lines }) (k : Nat) (f : LineMeta → LineMeta) :
    w.modLine k f = { s with mem := (w.modLine k f).mem, lines := (w.modLine k f).lines } :=
  congrArg (fun u : State => { u with lines := (w.modLine k f).lines }) h

/-- A release write stores its bytes, and its line is full and its claim over. -/
theorem release_good {s : State} {o i : Nat} {v : Bool} {d : BitVec 1024} (c : BitVec 32) (hs : Sound s)
    (hl : absentLoc (128 * o + i) = false) :
    s.release c (o, i, v, d) = { s with mem := (s.release c (o, i, v, d)).mem, lines := (s.release c (o, i, v, d)).lines } ∧
      (s.release c (o, i, v, d)).mem = s.mem.writes (128 * o + i) (toBytes d.toNat (if v then 128 else 8)) ∧
      ((s.release c (o, i, v, d)).line o).full = true ∧ ((s.release c (o, i, v, d)).line o).claimed = false := by
  have hstored := storedAt_storeFor c (toBytes d.toNat (if v then 128 else 8)) false hs hl
  have hline : (s.release c (o, i, v, d)).line o =
      { (s.storeFor c (128 * o + i) (toBytes d.toNat (if v then 128 else 8)) false).line o with full := true, claimed := false } := by
    rw [release_eq, State.modLine, line_setLine_of_ne (fun h => by cases congrArg LineMeta.full h), if_pos rfl]
  rw [hline, release_eq]
  exact ⟨modLine_rest hstored.rest o _, hstored.mem, rfl, rfl⟩

/-- What is left of a publication when one of its release writes is over. -/
def relOver (k : Nat) (p : Pub) : Pub :=
  { p with rels := p.rels.eraseIdx k, step := if (p.rels.eraseIdx k).isEmpty then 2 else p.step }

theorem relOver_eq {p : Pub} {k : Nat} (hk : k < p.rels.length) (hstep : p.step = 1) :
    relOver k p = { p with rels := p.rels.eraseIdx k, step := if p.rels.length = 1 then 2 else 1 } := by
  have hempty : (p.rels.eraseIdx k).isEmpty = decide (p.rels.length = 1) := by
    rw [Bool.eq_iff_iff, List.isEmpty_iff_length_eq_zero, List.length_eraseIdx_of_lt hk, decide_eq_true_iff]
    omega
  simp [relOver, hempty, hstep]

theorem exec_publicationStep2_none {id k : Nat} {s : State} {p : Pub} (hp : s.pub? id = some p) (hstep : p.step = 1)
    (hdone : s.step1Done p = true) (hrels : p.rels = []) :
    exec (.publicationStep2 id k) s = .next (s.modPub id fun p => { p with step := 2 }) := by
  have harm : exec (.publicationStep2 id k) s = execPublicationStep2 id k s := rfl
  simp only [harm, execPublicationStep2, hp, hstep, hdone, hrels, List.isEmpty_nil, decide_true, Bool.and_self, if_true]

theorem exec_publicationStep2_release {id k o i : Nat} {s : State} {p : Pub} {v : Bool} {d : BitVec 1024} (hp : s.pub? id = some p)
    (hstep : p.step = 1) (hdone : s.step1Done p = true) (hk : p.rels[k]? = some (o, i, v, d)) (hlink : s.linkDown (128 * o) = false)
    (hretry : s.fab.retry = []) (hs : Sound s) (hl : absentLoc (128 * o + i) = false) :
    exec (.publicationStep2 id k) s = .next ((s.publish id fun s => s.release p.ctx (o, i, v, d)).modPub id (relOver k)) := by
  have harm : exec (.publicationStep2 id k) s = execPublicationStep2 id k s := rfl
  have hverify : s.verifyLine p.ctx o = s := verifyLines_good s p.ctx [o] hs.good
  have hne : p.rels.isEmpty = false := by
    cases hrels : p.rels with
    | nil => simp [hrels] at hk
    | cons => rfl
  have hserve : ((s.publish id fun s => s.release p.ctx (o, i, v, d)).modPub id (relOver k)).serve = _ :=
    serve_of_no_retry ((congrArg (fun u : State => u.fab.retry) (release_good p.ctx hs hl).1).trans hretry)
  rw [← hserve]
  simp only [harm, execPublicationStep2, hp, hstep, hdone, hne, State.performRelease, hk, hlink, hverify, ite_self, id_of_pub? hp,
    decide_true, Bool.and_self, Bool.false_eq_true, if_false, if_true]
  rfl

/-! ## Graph operations of step 3 (12 R262) -/

section Graph

variable (s : State) (p : Pub) (i : Inst) (e : CommitEntry) (x : Option (Nat × Nat))

theorem sendGraph_pubs : (s.sendGraph p i e x).fab.pubs = s.fab.pubs := by
  unfold State.sendGraph
  cases e.op <;> rfl

theorem sendGraphs_pubs (l : List (CommitEntry × Nat)) : (s.sendGraphs p i l).fab.pubs = s.fab.pubs := by
  induction l generalizing s with
  | nil => rfl
  | cons y rest ih => exact (ih _).trans (sendGraph_pubs s p i y.1 _)

/-- A graph operation asks for at most one creation. -/
theorem sendGraph_creations : ∃ l, l.length ≤ 1 ∧ (s.sendGraph p i e x).fab.creations = s.fab.creations ++ l := by
  unfold State.sendGraph
  cases e.op with
  | spawn => exact ⟨[_], Nat.le_refl 1, rfl⟩
  | _ => exact ⟨[], Nat.zero_le 1, (List.append_nil _).symm⟩

theorem mixCreations_pubs (n : Nat) : (s.mixCreations n).fab.pubs = s.fab.pubs := by
  unfold State.mixCreations
  dsimp only
  split <;> rfl

/-- One graph operation is sent as it is: a single creation has no order to lose. -/
theorem sendGraphs_single (h : p.graph = [e]) : ∃ x, (s.sendGraphs p i p.graph.zipIdx).mixCreations s.fab.creations.length =
    s.sendGraph p i e x := by
  rw [h]
  refine ⟨(p.remotes.find? fun y => y.1 == 0).map fun y => y.2, ?_⟩
  obtain ⟨l, hl, hcreations⟩ := sendGraph_creations s p i e ((p.remotes.find? fun y => y.1 == 0).map fun y => y.2)
  have hdrop : ((s.sendGraph p i e ((p.remotes.find? fun y => y.1 == 0).map fun y => y.2)).fab.creations.drop
      s.fab.creations.length).length < 2 := by
    rw [hcreations, List.drop_left]
    omega
  exact if_pos hdrop

theorem exec_publicationStep3 {id : Nat} {s : State} {p : Pub} {i : Inst} (hp : s.pub? id = some p) (hstep : p.step = 2)
    (hi : s.inst? p.inst = some i) : exec (.publicationStep3 id) s =
      .next (((s.sendGraphs p i p.graph.zipIdx).mixCreations s.fab.creations.length).modPub id fun p =>
        { p with step := 3, graph := [] }) := by
  have harm : exec (.publicationStep3 id) s = execPublicationStep3 id s := rfl
  simp only [harm, execPublicationStep3, hp, hstep, hi, Option.getD_some, if_true]

end Graph

end Sys2Proof.Publishing
end
section
/-! The family 10_memory_instructions, the end of a record: O43. What tells whether a record has ended, and its generation, is kept while
other records are brought back: a record that has ended is not WAITING, so none of them is it. -/

namespace Sys2Proof.Publishing

open Machine Laws

/-! ## State and generation of a record (14 R293; 15 R318) -/

/-- The state and generation of record idx in the instances numbered inst. -/
def ends (s : State) (inst idx : Nat) : List (Option (RecSt × Nat)) :=
  (s.insts.filter fun i => i.id == inst).map fun i => i.recs[idx]?.map fun x => (x.st, x.gen)

theorem rec?_ends (s : State) (inst idx : Nat) : (s.rec? inst idx).map (fun x => (x.st, x.gen)) = (ends s inst idx).head?.join := by
  rw [ends, List.head?_map, List.head?_filter]
  unfold State.rec? State.inst?
  cases s.insts.find? fun i => i.id == inst <;> rfl

/-- A change of a record changes the state and generation of that record alone. -/
theorem ends_modRec (s : State) (inst idx id k : Nat) (f : Rec → Rec) : ends (s.modRec id k f) inst idx =
    if id = inst ∧ k = idx then (s.insts.filter fun i => i.id == inst).map fun i => i.recs[idx]?.map fun x => ((f x).st, (f x).gen)
    else ends s inst idx := by
  have hids : ∀ i : Inst, (if i.id == id then { i with recs := i.recs.modify k f } else i).id = i.id := fun i => by split <;> rfl
  have hfilter : (s.modRec id k f).insts.filter (fun i => i.id == inst) =
      (s.insts.filter fun i => i.id == inst).map fun i => if i.id == id then { i with recs := i.recs.modify k f } else i := by
    simp only [State.modRec, State.modInst, List.filter_map, Function.comp_def, hids]
  rw [ends, hfilter, List.map_map]
  split
  · rename_i h
    obtain ⟨rfl, rfl⟩ := h
    refine List.map_congr_left fun i hi => ?_
    rw [Function.comp_apply, if_pos (List.mem_filter.1 hi).2, List.getElem?_modify_eq, Option.map_eq_map, Option.map_map]
    rfl
  · rename_i h
    refine List.map_congr_left fun i hi => ?_
    have hid : i.id = inst := by simpa using (List.mem_filter.1 hi).2
    rw [Function.comp_apply]
    split
    · rename_i hi'
      have hk : k ≠ idx := fun hk => h ⟨(by simpa using hi') ▸ hid, hk⟩
      simp [hk]
    · rfl

/-- From s to u, publications are as they were, and so are state and generation of a record. -/
structure Kept (inst idx : Nat) (s u : State) : Prop where
  pubs : u.fab.pubs = s.fab.pubs
  ends : ends u inst idx = ends s inst idx

namespace Kept

variable {inst idx : Nat} {s u v : State}

theorem refl (s : State) : Kept inst idx s s := ⟨rfl, rfl⟩

theorem trans (h : Kept inst idx s u) (g : Kept inst idx u v) : Kept inst idx s v := ⟨g.pubs.trans h.pubs, g.ends.trans h.ends⟩

theorem of_insts (hpubs : u.fab.pubs = s.fab.pubs) (hinsts : u.insts = s.insts) : Kept inst idx s u :=
  ⟨hpubs, by rw [Publishing.ends, Publishing.ends, hinsts]⟩

end Kept

section Keeps

variable {inst idx : Nat}

theorem kept_modRec_ne (s : State) {id k : Nat} (f : Rec → Rec) (h : ¬(id = inst ∧ k = idx)) : Kept inst idx s (s.modRec id k f) :=
  ⟨rfl, (ends_modRec s inst idx id k f).trans (if_neg h)⟩

/-- A record that is spilled keeps its state and its generation. -/
theorem kept_spill (s : State) (id k : Nat) : Kept inst idx s (s.modRec id k fun x => { x with spilled := true }) :=
  ⟨rfl, (ends_modRec s inst idx id k _).trans (ite_self _)⟩

theorem kept_spillOne {s u : State} {ctx : BitVec 32} {die : Nat} (h : s.spillOne ctx die = some u) : Kept inst idx s u := by
  unfold State.spillOne at h
  split at h
  · cases h
  · split at h
    · split at h
      · cases h
      · split at h
        · cases h
          exact (kept_spill s _ _).trans (.of_insts rfl rfl)
        · cases h
    · cases h

theorem kept_makeRoom {ctx : BitVec 32} {die fuel : Nat} {s u : State} (h : s.makeRoom ctx die fuel = some u) : Kept inst idx s u := by
  induction fuel generalizing s with
  | zero => cases h
  | succ fuel ih =>
    rw [State.makeRoom] at h
    split at h
    · cases h
    · split at h
      · cases h
        exact .refl _
      · split at h
        · cases h
        · rename_i hspill
          exact (kept_spillOne hspill).trans (ih h)

theorem kept_reload {s u : State} {id k : Nat} (h : s.reload id k = some u) (hne : ¬(id = inst ∧ k = idx)) : Kept inst idx s u := by
  unfold State.reload at h
  split at h
  · cases h
  · split at h
    · cases h
    · split at h
      · split at h
        · cases h
        · obtain ⟨v, hroom, rfl⟩ := Option.map_eq_some_iff.1 h
          have hverify := fun ctx va => Errors.rings_verifyWords s ctx va 32
          exact .trans (.of_insts (congrArg Fabric.pubs (hverify _ _).fab) (hverify _ _).insts) (.trans (kept_modRec_ne _ _ hne)
            (.trans (kept_makeRoom hroom) (.of_insts rfl rfl)))
      · cases h
        exact .refl s

theorem kept_toPending {s : State} {id k : Nat} (hne : ¬(id = inst ∧ k = idx)) : Kept inst idx s (s.toPending id k) := by
  unfold State.toPending
  split
  · rename_i u i hload _
    exact (kept_reload hload hne).trans ((kept_modRec_ne u (fun x => { x with st := .pending, since := u.cycle }) hne).trans
      (.of_insts rfl rfl))
  · exact .refl s

/-- A record that waits for room is WAITING. -/
theorem waiting_of_stuckRecord {s : State} {x : Nat × Nat} (h : s.stuckRecord = some x) :
    ∃ g, some (.waiting, g) ∈ ends s x.1 x.2 := by
  obtain ⟨i, hi, hstuck⟩ := List.exists_of_findSome?_eq_some h
  obtain ⟨k, hk, rfl⟩ := Option.map_eq_some_iff.1 hstuck
  obtain ⟨hlt, hwait, -⟩ := List.findIdx?_eq_some_iff_getElem.1 hk
  have hst : (i.recs[k]).st = .waiting := by
    simp only [Bool.and_eq_true, beq_iff_eq] at hwait
    exact hwait.1.1
  refine ⟨(i.recs[k]).gen, List.mem_map.2 ⟨i, List.mem_filter.2 ⟨hi, beq_self_eq_true _⟩, ?_⟩⟩
  rw [List.getElem?_eq_getElem hlt, Option.map_some, hst]

/-- While records are brought back, one that has ended stays as it is. -/
theorem kept_reloadStuck (n : Nat) {s : State} (h : ∀ x ∈ ends s inst idx, ∀ y, x = some y → y.1 = .retired) :
    Kept inst idx s (s.reloadStuck n) := by
  induction n generalizing s with
  | zero => exact .refl s
  | succ n ih =>
    rw [State.reloadStuck]
    split
    · exact .refl s
    · rename_i x hx
      obtain ⟨g, hg⟩ := waiting_of_stuckRecord hx
      have hne : ¬(x.1 = inst ∧ x.2 = idx) := fun ⟨hinst, hidx⟩ => by
        rw [hinst, hidx] at hg
        cases h _ hg _ rfl
      have hkept := kept_toPending (s := s) hne
      exact hkept.trans (ih (hkept.ends ▸ h))

end Keeps

/-! ## The record of a task that is over -/

/-- Instances that end take all their records with them. -/
theorem reapInst_ends (s : State) (inst idx : Nat) : (s.reapInst inst).fab.pubs = s.fab.pubs ∧
    (ends (s.reapInst inst) inst idx = ends s inst idx ∨ ends (s.reapInst inst) inst idx = []) := by
  unfold State.reapInst
  split
  · exact ⟨rfl, .inl rfl⟩
  · split
    · have hgone : ∀ u : State, u.insts = s.insts.filter (fun j => j.id != inst) → ends u inst idx = [] := fun u hu => by
        rw [ends, hu, List.filter_filter, List.map_eq_nil_iff, List.filter_eq_nil_iff]
        intro j _
        simp
      dsimp only
      split
      · exact ⟨rfl, .inr (hgone _ rfl)⟩
      · exact ⟨rfl, .inr (hgone _ rfl)⟩
    · exact ⟨rfl, .inl rfl⟩

/-- A record that is RETIRED has the next generation, where it is still there. -/
theorem endRecord_ends {s : State} {inst idx : Nat} {i : Inst} (hi : s.inst? inst = some i) :
    (s.endRecord inst idx .retired true).fab.pubs = s.fab.pubs ∧
      (ends (s.endRecord inst idx .retired true) inst idx =
          (s.insts.filter fun i => i.id == inst).map (fun i => i.recs[idx]?.map fun x => (.retired, x.gen + 1)) ∨
        ends (s.endRecord inst idx .retired true) inst idx = []) := by
  rw [State.endRecord, hi]
  obtain ⟨hpubs, hends⟩ := reapInst_ends (State.leaveRopes (State.tally (s.modRec inst idx fun x =>
    { x.repeated .other with st := .retired, gen := x.gen + 1, spilled := false, third := false }) i.ctx i.die
      fun c => { c with retired := c.retired + 1 }) inst idx) inst idx
  have hmod := (ends_modRec s inst idx inst idx fun x =>
    { x.repeated .other with st := .retired, gen := x.gen + 1, spilled := false, third := false }).trans (if_pos ⟨rfl, rfl⟩)
  exact ⟨hpubs, hends.imp_left fun h => h.trans hmod⟩

theorem exec_taskRetired {id : Nat} {s : State} {p : Pub} (hp : s.pub? id = some p) (hstep : p.step = 3)
    (hdone : s.step3Done p = true) : exec (.taskRetired id) s =
      .next ((({ s with fab := { s.fab with pubs := s.fab.pubs.filter fun q => q.id != id } } : State).endRecord p.inst p.idx
        .retired true).reloadStuck s.insts.length) := by
  have harm : exec (.taskRetired id) s = execTaskRetired id s := rfl
  simp only [harm, execTaskRetired, State.retire, hp, hstep, hdone, decide_true, Bool.and_self, if_true]

/-- TASK_RETIRED ends its record: RETIRED and of the next generation, where it is still there. -/
theorem retired_ends {s : State} {inst idx n : Nat} {i : Inst} {x : Rec} (hi : s.inst? inst = some i) (hx : i.recs[idx]? = some x) :
    ((s.endRecord inst idx .retired true).reloadStuck n).fab.pubs = s.fab.pubs ∧
      ∀ y, ((s.endRecord inst idx .retired true).reloadStuck n).rec? inst idx = some y → y.st = .retired ∧ y.gen = x.gen + 1 := by
  obtain ⟨hpubs, hends⟩ := endRecord_ends (idx := idx) hi
  have hretired : ∀ z ∈ ends (s.endRecord inst idx .retired true) inst idx, ∀ y, z = some y → y.1 = .retired := by
    rintro z hz y rfl
    rcases hends with h | h
    · rw [h] at hz
      obtain ⟨j, -, hj⟩ := List.mem_map.1 hz
      obtain ⟨r, -, rfl⟩ := Option.map_eq_some_iff.1 hj
      rfl
    · rw [h] at hz
      cases hz
  have hkept := kept_reloadStuck n hretired
  refine ⟨hkept.pubs.trans hpubs, fun y hy => ?_⟩
  have hview := rec?_ends ((s.endRecord inst idx .retired true).reloadStuck n) inst idx
  rw [hy, hkept.ends] at hview
  rcases hends with h | h
  · have hfind : s.insts.find? (fun j => j.id == inst) = some i := hi
    simp only [h, List.head?_map, List.head?_filter, hfind, Option.map_some, hx, Option.join_some, Option.some.injEq,
      Prod.mk.injEq] at hview
    exact hview
  · rw [h] at hview
    cases hview

end Sys2Proof.Publishing
end

section
/-! The family 10_memory_instructions, ordered contributions: O43. A contribution in its turn writes its cell and passes its number; a
stale or repeated one is counted; an early one is held or answered busy (10 R224, R225). -/

namespace Sys2Proof.Publishing

open Machine Laws MatrixUnit Lines Copies

/-! ## A cell -/

theorem bytes_writes_out {m : Memory} {a b n : Nat} {bs : List Byte} (h : m.wf = true) (hb : b + n ≤ a ∨ a + bs.length ≤ b) :
    (m.writes a bs).bytes b n = m.bytes b n := by
  induction n generalizing b with
  | zero => rfl
  | succ n ih => rw [Memory.bytes, Memory.bytes, read_writes_out h (by omega), ih (by omega)]

/-- A cell written holds its value and its number, and the bytes around it are as they were. -/
theorem cell_written {m : Memory} (l x : Nat) {n : Nat} (hn : n < 256 ^ 4) (hm : m.wf = true) :
    (m.writes l (toBytes x 4 ++ List.replicate 4 0 ++ toBytes n 4)).value l 4 = x % 2 ^ 32 ∧
      (m.writes l (toBytes x 4 ++ List.replicate 4 0 ++ toBytes n 4)).value (l + 8) 4 = n ∧
      ∀ a, a < l ∨ l + 12 ≤ a → (m.writes l (toBytes x 4 ++ List.replicate 4 0 ++ toBytes n 4)).read a = m.read a := by
  have hA := writes_wf l (toBytes x 4) hm
  have hAZ := writes_wf l (toBytes x 4 ++ List.replicate 4 0) hm
  refine ⟨?_, ?_, fun a ha => read_writes_out hm (by simpa using ha)⟩
  · rw [Memory.value, writes_append, bytes_writes_out hAZ (by simp), writes_append, bytes_writes_out hA (by simp)]
    exact value_writes l x 4 hm
  · have hloc : l + (toBytes x 4 ++ List.replicate 4 (0 : Byte)).length = l + 8 := by simp
    rw [writes_append, hloc, value_writes _ _ _ hAZ]
    exact Nat.mod_eq_of_lt hn

/-! ## Contributions -/

section Arrive

variable {s : State} {c : Contribution} {k : Nat}

/-- A contribution to a cell, applied. -/
theorem applyContribution_redo {v : BitVec 32} (hop : c.op = .redo v) (hs : Sound s) (hl : absentLoc c.loc = false) :
    (s.applyContribution c).fab = s.fab ∧ (s.applyContribution c).mem = s.mem.writes c.loc
      (toBytes (laneAdd .f32 .rne (s.mem.value c.loc 4) v.toNat).1 4 ++ List.replicate 4 0 ++ toBytes (s.cellNext c + 1).toNat 4) := by
  have hverify : s.verifyLine c.ctx (lineKey c.loc) = s := verifyLines_good s c.ctx [lineKey c.loc] hs.good
  have hstored := storedAt_storeFor c.ctx
    (toBytes (laneAdd .f32 .rne (s.mem.value c.loc 4) v.toNat).1 4 ++ List.replicate 4 0 ++ toBytes (s.cellNext c + 1).toNat 4)
    (c.pois || s.poisonAt c.loc 16) hs hl
  have honce : s.applyOnce c = s.storeFor c.ctx c.loc
      (toBytes (laneAdd .f32 .rne (s.mem.value c.loc 4) v.toNat).1 4 ++ List.replicate 4 0 ++ toBytes (s.cellNext c + 1).toNat 4)
      (c.pois || s.poisonAt c.loc 16) := by
    simp only [State.applyOnce, hop]
    rfl
  rw [State.applyContribution, hverify]
  cases c.com with
  | none => exact honce ▸ ⟨hstored.fab, hstored.mem⟩
  | some id => exact ⟨(congrArg State.fab honce).trans hstored.fab, (congrArg State.mem honce).trans hstored.mem⟩

/-- A contribution that its bank handles leaves what is under way. -/
theorem exec_arrive_handled {u : State} (hk : s.fab.arriving[k]? = some c) (hbusy : c.busy = false) (hlink : s.linkDown c.loc = false)
    (hu : s.arriveContribution c = some u) : exec (.orderedContributionArrive k) s =
      .next { u with fab := { u.fab with arriving := u.fab.arriving.eraseIdx k } } := by
  have harm : exec (.orderedContributionArrive k) s = execOrderedContributionArrive k s := rfl
  simp only [harm, execOrderedContributionArrive, hk, hbusy, hlink, hu, Bool.or_self, Bool.false_eq_true, if_false]

theorem exec_arrive_busy (hk : s.fab.arriving[k]? = some c) (hbusy : c.busy = false) (hlink : s.linkDown c.loc = false)
    (hu : s.arriveContribution c = none) : exec (.orderedContributionArrive k) s =
      .next { s with fab := { s.fab with arriving := s.fab.arriving.set k { c with busy := true } } } := by
  have harm : exec (.orderedContributionArrive k) s = execOrderedContributionArrive k s := rfl
  simp only [harm, execOrderedContributionArrive, hk, hbusy, hlink, hu, Bool.or_self, Bool.false_eq_true, if_false]

/-- The contribution whose turn it is. -/
theorem arriveContribution_next (hq : c.q = s.cellNext c) (hheld : s.fab.held = []) :
    s.arriveContribution c = some (s.applyContribution c) := by
  simp [State.arriveContribution, hq, hheld, State.drainHeld]

/-- A contribution that is neither stale nor held already and whose turn has not come. -/
theorem arriveContribution_early (hq : (c.q - s.cellNext c).toNat ≠ 0) (hlt : (c.q - s.cellNext c).toNat < 2 ^ 31)
    (hnew : ∀ h ∈ s.fab.held, h.loc = c.loc → h.q = c.q → h.op.isLine ≠ c.op.isLine) :
    s.arriveContribution c = if s.heldAt (cellBank c.loc) < 1024 then
      some { s with fab := { s.fab with held := s.fab.held ++ [{ c with pub := none }] } } else none := by
  have hany : (s.fab.held.any fun h => h.loc == c.loc && h.q == c.q && h.op.isLine == c.op.isLine) = false := by
    simpa [List.any_eq_false] using hnew
  have hne : c.q - s.cellNext c ≠ 0 := fun h => hq (congrArg BitVec.toNat h)
  rw [State.arriveContribution]
  simp only [hany, Bool.or_false, decide_eq_true_eq]
  rw [if_neg (by omega), if_neg hne]
  rfl

/-- A stale or repeated contribution to a cell is counted. -/
theorem arriveContribution_over {v : BitVec 32} (hop : c.op = .redo v)
    (h : 2 ^ 31 ≤ (c.q - s.cellNext c).toNat ∨ ∃ h ∈ s.fab.held, h.loc = c.loc ∧ h.q = c.q ∧ h.op.isLine = false) :
    s.arriveContribution c = some (s.dupSeq c.loc) := by
  have hline : c.op.isLine = false := by rw [hop]; rfl
  have hlanded : ∀ u : State, u.lineLanded c = u := fun u => by rw [State.lineLanded, hop]
  have hover : (decide (2 ^ 31 ≤ (c.q - s.cellNext c).toNat) ||
      s.fab.held.any fun h => h.loc == c.loc && h.q == c.q && h.op.isLine == c.op.isLine) = true := by
    simpa [List.any_eq_true, hline, and_assoc] using h
  rw [State.arriveContribution]
  simp only [hover, if_true, hlanded]

theorem dupSeq_else (s : State) (l : Nat) : (s.dupSeq l).mem = s.mem ∧ (s.dupSeq l).fab = s.fab := by
  unfold State.dupSeq
  split <;> exact ⟨rfl, rfl⟩

theorem dupSeq_dies (s : State) (l : Nat) : (bankOf l = none → (s.dupSeq l).dies = s.dies) ∧
    ∀ b d, bankOf l = some b → s.dies[b / 128]? = some d →
      ((s.dupSeq l).dies[b / 128]?).map (fun x => x.dec.dupseq) = some (d.dec.dupseq + 1) := by
  refine ⟨fun hb => by rw [State.dupSeq, hb], fun b d hb hd => ?_⟩
  rw [State.dupSeq, hb]
  simp [State.count, State.modDie, hd]

end Arrive

end Sys2Proof.Publishing
end
section
/-! The family 10_memory_instructions, publication: O43 settled from its parts. -/

namespace Sys2Proof.Publishing

open Machine Laws MatrixUnit Lines Peers

/-- Settles O43: each effect of a publication is one change of memory and lines, shown to the runs that fetch, and of what is left of the
publication; the last one ends its record; contributions are handled by their numbers. -/
theorem publication : Obligations.Publication := by
  unfold Obligations.Publication
  refine ⟨⟨?reduction, ?sector, ?step2, ?step3, ?retired⟩, ?arrive, ?resend⟩
  case reduction =>
    intro id k s p l op n f hp hk hlink hop hcanon hl hgood
    have hstored := storedAt_reduce p.ctx hop ⟨hcanon, hgood⟩ hl
    obtain ⟨hvalue, hframe⟩ := value_of_stored hstored hcanon.1
    exact ⟨_, exec_reductionApply_red hp hk hlink hgood, hvalue, hframe,
      effect_published (f := fun s => s.reduce p.ctx l op) hp hstored.rest fun _ => rfl⟩
  case sector =>
    intro id k s p n i x hp hk hleft hx hlink hcanon _ hl hgood
    obtain ⟨hin, hout⟩ := read_foldl_write x.line.loc (fun b => BitVec.ofNat 8 (x.line.data.toNat / 2 ^ (8 * b)))
      (markedBytes x.line i) hcanon.1
    have hmem : ∀ a, ((s.publishSector x i).mem).read a = _ := fun a => congrArg (Memory.read · a) (publishSector_mem hl)
    exact ⟨_, exec_reductionApply_sector hp hk hleft hx hlink hgood,
      fun b hb hmask => (hmem _).trans (hin b (mem_markedBytes.2 ⟨hb, hmask⟩)),
      fun a ha => (hmem _).trans (hout a fun b hb => ha b (mem_markedBytes.1 hb).1 (mem_markedBytes.1 hb).2),
      effect_published (f := fun s => s.publishSector x i) hp (publishSector_rest x i s) fun q => sectorOver_id q n i⟩
  case step2 =>
    intro id k s p hp hstep hdone
    refine ⟨fun hrels => exec_publicationStep2_none hp hstep hdone hrels, fun o i v d hk hlink hretry hcanon _ hl hgood => ?_⟩
    obtain ⟨hrest, hmem, hfull, hclaimed⟩ := release_good (v := v) (d := d) p.ctx ⟨hcanon, hgood⟩ hl
    obtain ⟨hpub, -, -⟩ := effect_published (f := fun s => s.release p.ctx (o, i, v, d)) (g := relOver k) hp hrest fun _ => rfl
    refine ⟨_, exec_publicationStep2_release hp hstep hdone hk hlink hretry ⟨hcanon, hgood⟩ hl, ?_, hfull, hclaimed, ?_,
      fun a ha => ?_⟩
    · rw [hpub, relOver_eq (List.getElem?_eq_some_iff.1 hk).1 hstep]
    · have hbytes := bytes_writes (128 * o + i) (toBytes d.toNat (if v then 128 else 8)) hcanon.1
      rw [length_toBytes] at hbytes
      exact (congrArg (fun m : Memory => m.bytes _ _) hmem).trans hbytes
    · exact (congrArg (Memory.read · a) hmem).trans (Copies.read_writes_toBytes hcanon.1 ha)
  case step3 =>
    intro id s p i hp hstep hi
    have hpubs := (mixCreations_pubs (s.sendGraphs p i p.graph.zipIdx) s.fab.creations.length).trans (sendGraphs_pubs s p i p.graph.zipIdx)
    have hpub : ((s.sendGraphs p i p.graph.zipIdx).mixCreations s.fab.creations.length).pub? id = some p := by
      rw [State.pub?, hpubs]; exact hp
    refine ⟨_, _, exec_publicationStep3 hp hstep hi, pub?_modPub hpub fun _ => rfl, rfl, rfl, ?dec, ?spawn, ?send, ?bind, ?unbind⟩
    case dec =>
      intro e w a hgraph he hscope
      obtain ⟨x, hx⟩ := sendGraphs_single s p i e hgraph
      refine (congrArg (fun u : State => u.fab.decs) hx).trans ?_
      simp only [State.sendGraph, he, decTarget, hscope]
      rfl
    case spawn =>
      intro e x hgraph he
      obtain ⟨y, hy⟩ := sendGraphs_single s p i e hgraph
      refine (congrArg (fun u : State => u.fab.creations.length) hy).trans ?_
      simp only [State.sendGraph, he]
      exact List.length_append
    case send =>
      intro e m c hgraph he
      obtain ⟨y, hy⟩ := sendGraphs_single s p i e hgraph
      refine (congrArg (fun u : State => u.fab.msgs.length) hy).trans ?_
      simp only [State.sendGraph, he]
      exact List.length_append
    case bind =>
      intro e t c hgraph he
      obtain ⟨y, hy⟩ := sendGraphs_single s p i e hgraph
      refine (congrArg (fun u : State => u.fab.binds) hy).trans ?_
      simp only [State.sendGraph, he]
      rfl
    case unbind =>
      intro e m hgraph he
      obtain ⟨y, hy⟩ := sendGraphs_single s p i e hgraph
      refine (congrArg (fun u : State => u.fab.binds) hy).trans ?_
      simp only [State.sendGraph, he]
      rfl
  case retired =>
    intro id s p i x hp hstep hdone hi hx
    obtain ⟨hpubs, hrec⟩ := retired_ends (n := s.insts.length)
      (s := { s with fab := { s.fab with pubs := s.fab.pubs.filter fun q => q.id != id } }) hi hx
    refine ⟨_, exec_taskRetired hp hstep hdone, ?_, hrec⟩
    rw [State.pub?, hpubs]
    simp
  case arrive =>
    intro k s c hk hbusy hlink
    refine ⟨fun v hop hq hheld hcanon hl hgood => ?_, fun hne hlt hnew => ?_, fun hover v hop => ?_⟩
    · have hnext : c.q = s.cellNext c := by rw [State.cellNext, hop]; exact hq
      obtain ⟨hfab, hmem⟩ := applyContribution_redo hop ⟨hcanon, hgood⟩ hl
      obtain ⟨hsum, hnum, hframe⟩ := cell_written c.loc (laneAdd .f32 .rne (s.mem.value c.loc 4) v.toNat).1
        (s.cellNext c + 1).isLt hcanon.1
      refine ⟨_, exec_arrive_handled hk hbusy hlink (arriveContribution_next hnext hheld), ?_, ?_, ?_, fun a ha => ?_⟩
      · exact (congrArg (fun m : Memory => m.value c.loc 4) hmem).trans hsum
      · rw [hnext]
        exact (congrArg (fun m : Memory => m.value (c.loc + 8) 4) hmem).trans hnum
      · exact congrArg (fun f : Fabric => f.arriving.eraseIdx k) hfab
      · exact (congrArg (Memory.read · a) hmem).trans (hframe a ha)
    · have hearly := arriveContribution_early hne hlt hnew
      exact ⟨fun hroom => exec_arrive_handled hk hbusy hlink (hearly.trans (if_pos hroom)),
        fun hfull => exec_arrive_busy hk hbusy hlink (hearly.trans (if_neg (Nat.not_lt.2 hfull)))⟩
    · obtain ⟨hmem, hfab⟩ := dupSeq_else s c.loc
      exact ⟨_, exec_arrive_handled hk hbusy hlink (arriveContribution_over hop hover), hmem,
        congrArg (fun f : Fabric => f.arriving.eraseIdx k) hfab, dupSeq_dies s c.loc⟩
  case resend =>
    intro k s c hk hbusy
    have harm : exec (.orderedBusyResend k) s = execOrderedBusyResend k s := rfl
    simp only [harm, execOrderedBusyResend, hk, hbusy, if_true]

end Sys2Proof.Publishing
end

section
/-! The family 11_copies, stream instructions: O28. SPUSH and SEOS answer as a push on their port does, SPOP and SPEEK as the packet of
their place does. -/

namespace Sys2Proof.Streams

open Machine Laws MatrixUnit

section Fires

variable {i : Instr} {s : State} {e : Env} {act : Env → Reply}

theorem fire_hold (h : Fires i s e) (ha : act e = .hold) : fire i act s = .next (e.store (e.p.skip e.k) false) :=
  fire_reply h ha (fun _ => nofun)

theorem fire_illegalEncoding (h : Fires i s e) (ha : act e = faultOf fcIllegalEncoding) :
    fire i act s = .next (raises e { code := 0x02 }) :=
  fire_fault (f := { code := 0x02 }) h ha (by decide)

/-! ## A packet is pushed (11 R252) -/

section Push

variable {q : BitVec 2} {v : BitVec 1024} {fmt : BitVec 3} {eot abort pois : Bool}

theorem fire_push_unbound (h : Fires i s e) (ha : act e = e.push q v fmt eot abort pois)
    (hb : (e.r.outPort q.toNat).bound = false) : fire i act s = .next (raises e { code := 0x02 }) :=
  fire_illegalEncoding h (by simp [ha, Env.push, hb])

theorem fire_push_room (h : Fires i s e) (ha : act e = e.push q v fmt eot abort pois)
    (hb : (e.r.outPort q.toNat).bound = true) (hroom : (e.r.outPort q.toNat).hasRoom (e.p.reserved q.toNat) = true) :
    fire i act s = .next (after i e (does [.push q.toNat v fmt eot abort pois])) :=
  fire_done h (by simp [ha, Env.push, hb, hroom, effectsReply, does]) rfl

theorem fire_push_full (h : Fires i s e) (ha : act e = e.push q v fmt eot abort pois)
    (hb : (e.r.outPort q.toNat).bound = true) (hroom : (e.r.outPort q.toNat).hasRoom (e.p.reserved q.toNat) = false) :
    fire i act s = .next (Spec.awaits e) :=
  fire_wait h (by simp [ha, Env.push, hb, hroom])

end Push

/-! ## A packet is taken or looked at (11 R253, R254) -/

/-- What SPOP and SPEEK answer in common: they differ in the effects of a packet found, in whether its poison counts, and in what an open
port without a packet answers. -/
def receive (q : BitVec 2) (counted : Bool) (found : List Effect) (empty : Env → Reply) (e : Env) : Reply :=
  match e.inPort? q.toNat with
  | none => faultOf fcIllegalEncoding
  | some y =>
    match e.position q with
    | none => .hold
    | some n =>
      match y.queue[n]? with
      | some k => e.packetResult k counted found
      | none => if y.ended then e.packetResult endMarker counted [] else empty e

theorem exec_spop (p : Pr) (l : BitVec 7) (q : BitVec 2) (t : Target) (s : State) :
    exec (.spop p l q t) s = fire (.spop p l q t) (receive q true [.pop q.toNat] fun _ => .wait) s := rfl

theorem exec_speek (p : Pr) (l : BitVec 7) (q : BitVec 2) (t : Target) (s : State) : exec (.speek p l q t) s =
    fire (.speek p l q t) (receive q false [] fun e => .done { out0 := some (.vector 0), pois := e.pois }) s := rfl

section Receive

variable {q : BitVec 2} {counted : Bool} {found : List Effect} {empty : Env → Reply} {y : InPort} {n : Nat}

theorem fire_receive_unbound (h : Fires i s e) (hport : e.inPort? q.toNat = none) :
    fire i (receive q counted found empty) s = .next (raises e { code := 0x02 }) :=
  fire_illegalEncoding h (by simp only [receive, hport])

theorem fire_receive_undecided (h : Fires i s e) (hport : e.inPort? q.toNat = some y) (hpos : e.position q = none) :
    fire i (receive q counted found empty) s = .next (e.store (e.p.skip e.k) false) :=
  fire_hold h (by simp only [receive, hport, hpos])

theorem fire_receive_packet {k : Packet} (h : Fires i s e) (hport : e.inPort? q.toNat = some y) (hpos : e.position q = some n)
    (hk : y.queue[n]? = some k) : fire i (receive q counted found empty) s =
      .next (after i e { out0 := some (.vector (packetVec k.payload (headerWord k))), pois := e.pois || k.pois, effects := found,
                         counted := counted && (e.pois || k.pois) }) :=
  fire_done h (by simp only [receive, hport, hpos, hk]; rfl) rfl

/-- The end marker has no poison of its own. -/
theorem packetResult_endMarker (e : Env) (counted : Bool) : e.packetResult endMarker counted [] =
    .done { out0 := some (.vector (packetVec 0 (BitVec.ofNat 64 (16 + 128 + 2 ^ 32 * 0xFFFFFFFF)))), pois := e.pois,
            counted := counted && e.pois } := by
  have hheader : headerWord endMarker = BitVec.ofNat 64 (16 + 128 + 2 ^ 32 * 0xFFFFFFFF) := by decide
  have hclean : (e.pois || endMarker.pois) = e.pois := Bool.or_false _
  rw [Env.packetResult, hheader, hclean]
  rfl

theorem fire_receive_ended (h : Fires i s e) (hport : e.inPort? q.toNat = some y) (hpos : e.position q = some n)
    (hk : y.queue[n]? = none) (hended : y.ended = true) : fire i (receive q counted found empty) s =
      .next (after i e { out0 := some (.vector (packetVec 0 (BitVec.ofNat 64 (16 + 128 + 2 ^ 32 * 0xFFFFFFFF)))), pois := e.pois,
                         counted := counted && e.pois }) :=
  fire_done h (by simp only [receive, hport, hpos, hk, hended, if_true, packetResult_endMarker]) rfl

theorem receive_open (hport : e.inPort? q.toNat = some y) (hpos : e.position q = some n) (hk : y.queue[n]? = none)
    (hended : y.ended = false) : receive q counted found empty e = empty e := by
  simp [receive, hport, hpos, hk, hended]

end Receive

end Fires

/-- Settles O28: a push is refused, reserves its place or waits; SPOP and SPEEK answer the packet of their place, and part only where an
open port has none. -/
theorem streamPorts : Obligations.StreamPorts := by
  unfold Obligations.StreamPorts
  refine ⟨?spush, ?seos, ?spop, ?speek, ?sstat⟩
  case spush =>
    exact fun p l q s e h => ⟨fire_push_unbound h rfl, fun hb => ⟨fire_push_room h rfl hb, fire_push_full h rfl hb⟩⟩
  case seos =>
    exact fun p l m q s e h => ⟨fire_push_unbound h rfl, fun hb => ⟨fire_push_room h rfl hb, fire_push_full h rfl hb⟩⟩
  case spop =>
    intro p l q t s e h
    rw [exec_spop]
    exact ⟨fire_receive_unbound h, fun y => fire_receive_undecided h, fun y n hport hpos =>
      ⟨fun k => fire_receive_packet h hport hpos, fire_receive_ended h hport hpos,
       fun hk hopen => fire_wait h (receive_open hport hpos hk hopen)⟩⟩
  case speek =>
    intro p l q t s e h
    rw [exec_speek]
    exact ⟨fire_receive_unbound h, fun y => fire_receive_undecided h, fun y n hport hpos =>
      ⟨fun k => fire_receive_packet h hport hpos, fire_receive_ended h hport hpos,
       fun hk hopen => fire_done h (receive_open hport hpos hk hopen) rfl⟩⟩
  case sstat =>
    exact fun p l m q t s e h => fire_done h rfl rfl

end Sys2Proof.Streams
end

section
/-! The family 11_copies, the stream network: O48. The two ends of a circuit are changed apart: the input port by what it does with the
packet, the run of the producer by what becomes of its output port. -/

namespace Sys2Proof.Streams

open Machine Laws MatrixUnit Copies

/-! ## Input ports -/

/-- A change that keeps the place of a port is what the port becomes. -/
theorem inPort?_modInPort (s : State) (inst idx port : Nat) (f : InPort → InPort)
    (hf : ∀ x : InPort, (((x.inst, x.idx), x.port) == ((inst, idx), port)) = true →
      (((f x).inst, (f x).idx), (f x).port) = ((x.inst, x.idx), x.port)) :
    (s.modInPort inst idx port f).inPort? inst idx port = (s.inPort? inst idx port).map f :=
  find?_map_id (fun x : InPort => ((x.inst, x.idx), x.port)) s.fab.inPorts ((inst, idx), port) f hf

theorem place_of_inPort? {s : State} {inst idx port : Nat} {q : InPort} (h : s.inPort? inst idx port = some q) :
    q.inst = inst ∧ q.idx = idx ∧ q.port = port := by
  simpa [and_assoc] using List.find?_some h

/-- A port put in the place of the one found there is found there. -/
theorem inPort?_replace {s : State} {inst idx port : Nat} {q x : InPort} (h : s.inPort? inst idx port = some q)
    (hx : x.inst = q.inst ∧ x.idx = q.idx ∧ x.port = q.port) :
    (s.modInPort q.inst q.idx q.port fun _ => x).inPort? inst idx port = some x := by
  obtain ⟨rfl, rfl, rfl⟩ := place_of_inPort? h
  obtain ⟨hinst, hidx, hport⟩ := hx
  rw [inPort?_modInPort, h]
  · rfl
  · intro y hy
    rw [hinst, hidx, hport, eq_of_beq hy]

/-! ## The runs of a record -/

theorem mem_of_kvGet_ne {α : Type} {d : α} {l : List (Nat × α)} {k : Nat} (h : kvGet d l k ≠ d) : (k, kvGet d l k) ∈ l := by
  induction l with
  | nil => exact absurd rfl h
  | cons x rest ih =>
    obtain ⟨i, v⟩ := x
    rw [kvGet] at h ⊢
    split
    · subst_vars
      exact List.mem_cons_self
    · rename_i hne
      rw [if_neg hne] at h
      exact List.mem_cons_of_mem _ (ih h)

theorem mem_running {s : State} {t : Nat} {r : Run} (h : s.run? t = some r) : (t, r) ∈ s.running := by
  have hne : s.tile t ≠ {} := fun hidle => by rw [State.run?, hidle] at h; cases h
  exact List.mem_filterMap.2 ⟨_, mem_of_kvGet_ne hne, by rw [← State.tile, ← State.run?, h]; rfl⟩

theorem mem_running_setRun {s : State} {t : Nat} {r : Run} {x : Nat × Run} (h : x ∈ (s.setRun t r).running) :
    x = (t, r) ∨ x ∈ s.running := by
  obtain ⟨y, hy, hx⟩ := List.mem_filterMap.1 h
  rcases mem_kvPut hy with rfl | hold
  · exact .inl (Option.some.inj hx).symm
  · exact .inr (List.mem_filterMap.2 ⟨y, hold, hx⟩)

/-- A change of a run that stays of its record gives no other record a run. -/
theorem runsOf_setRun_nil {s : State} {t inst idx : Nat} {r w : Run} (hr : s.run? t = some r) (hinst : w.inst = r.inst)
    (hidx : w.idx = r.idx) (hnone : s.runsOf inst idx = []) : (s.setRun t w).runsOf inst idx = [] := by
  rw [State.runsOf, List.filter_eq_nil_iff] at hnone ⊢
  intro x hx
  rcases mem_running_setRun hx with rfl | hold
  · simpa only [hinst, hidx] using hnone _ (mem_running hr)
  · exact hnone x hold

/-! ## What a port does with the next packet of its source (11 R253, R255) -/

section Arrive

variable {q : InPort} {src : Nat} {k : Packet}

theorem arrive_place (q : InPort) (src : Nat) (k : Packet) (good : Bool) : (q.arrive src k good).1.inst = q.inst ∧
    (q.arrive src k good).1.idx = q.idx ∧ (q.arrive src k good).1.port = q.port := by
  simp only [InPort.arrive]
  split
  · exact ⟨rfl, rfl, rfl⟩
  · split
    · exact ⟨rfl, rfl, rfl⟩
    · split <;> exact ⟨rfl, rfl, rfl⟩

variable (hnew : k.seq.ult (q.expect src).1 = false)
include hnew

theorem arrive_good : q.arrive src k true = (q.accept src k, .accepted) := by
  simp [InPort.arrive, hnew]

theorem arrive_fails (hfew : (q.expect src).2 < 2) : q.arrive src k false = (q.fail src, .failed) := by
  simp [InPort.arrive, hnew, hfew]

theorem arrive_poisoned (hthird : 2 ≤ (q.expect src).2) :
    q.arrive src k false = (q.accept src { k with pois := true }, .accepted) := by
  simp [InPort.arrive, hnew, Nat.not_lt.2 hthird]

end Arrive

theorem accept_queue (q : InPort) (src : Nat) (k : Packet) : ∃ p, (q.accept src k).queue = q.queue ++ [p] ∧
    p.payload = k.payload ∧ p.fmt = k.fmt ∧ p.pois = k.pois ∧ p.seq = k.seq :=
  ⟨_, rfl, rfl, rfl, rfl, rfl⟩

/-! ## STREAM_PACKET_ARRIVE -/

/-- The state after a packet k of an output port of run r has crossed to port q. -/
def crossed (s : State) (t port : Nat) (r : Run) (q : InPort) (k : Packet) (x : InPort × Arrived) : State :=
  (s.modInPort q.inst q.idx q.port fun _ => x.1).setRun t (r.modOut port fun o => o.sent k x.2)

section Event

variable {s : State} {t port : Nat} {r : Run} {q : InPort} {k : Packet} {rest : List Packet}

/-- Where the consumer has no run, no matrix operation takes the packet on at once. -/
theorem exec_packetArrive (good : Bool) (hr : s.run? t = some r) (hqueue : (r.outPort port).queue = k :: rest)
    (hport : s.inPort? r.inst (r.outPort port).peer (r.outPort port).peerPort = some q)
    (hcircuit : s.circuit r (r.outPort port) = true) (hresend : (r.outPort port).resend = none) (hroom : q.queue.length < 16)
    (hidle : s.runsOf q.inst q.idx = []) :
    exec (.streamPacketArrive t port good) s =
      .next (crossed s t port r q k (q.arrive (s.sourceIndex r port (r.outPort port)) k good)) := by
  have harm : exec (.streamPacketArrive t port good) s = execStreamPacketArrive t port good s := rfl
  have hstill : (crossed s t port r q k (q.arrive (s.sourceIndex r port (r.outPort port)) k good)).runsOf q.inst q.idx = [] :=
    runsOf_setRun_nil (s := s.modInPort q.inst q.idx q.port _) hr rfl rfl hidle
  rw [crossed] at hstill
  simp [harm, execStreamPacketArrive, hr, hqueue, hport, hcircuit, hresend, inPlaces, hroom, hstill, crossed]

theorem run?_crossed (s : State) (t port : Nat) (r : Run) (q : InPort) (k : Packet) (x : InPort × Arrived) :
    (crossed s t port r q k x).run? t = some (r.modOut port fun o => o.sent k x.2) := run?_setRun_same _ _ _

theorem inPort?_crossed {inst idx n : Nat} {x : InPort × Arrived} (h : s.inPort? inst idx n = some q)
    (hx : x.1.inst = q.inst ∧ x.1.idx = q.idx ∧ x.1.port = q.port) :
    (crossed s t port r q k x).inPort? inst idx n = some x.1 := inPort?_replace h hx

/-! ## STREAM_ACKNOWLEDGE and STREAM_RESEND_REQUEST (11 R252, R255) -/

theorem exec_acknowledge (hr : s.run? t = some r) (htwin : r.twin = none) (hacks : (r.outPort port).acks ≠ 0) :
    exec (.streamAcknowledge t port) s =
      .next (s.setRun t (r.modOut port fun o => { o with unacked := o.unacked.drop 1, acks := o.acks - 1 })) := by
  have harm : exec (.streamAcknowledge t port) s = execStreamAcknowledge t port s := rfl
  have hsingle : ∀ w, (s.setRun t (r.modOut port fun o => { o with unacked := o.unacked.drop 1, acks := o.acks - 1 })).run? t = some w →
      w.twin = none := fun w hw => by
    rw [run?_setRun_same] at hw
    cases hw
    exact htwin
  simp only [harm, execStreamAcknowledge, hr, if_neg hacks, twinEnter_of_single hsingle]

/-- Packets that were not fed from memory are sent again as they stand. -/
theorem rereadAll_unread (s : State) (t : Nat) (ctx : BitVec 32) {l : List Packet} (h : ∀ k ∈ l, k.reads = []) :
    s.rereadAll t ctx l = (s, l) := by
  induction l with
  | nil => rfl
  | cons k rest ih =>
    have hk : s.reread t ctx k = (s, k) := by rw [State.reread, h k List.mem_cons_self]
    rw [State.rereadAll, hk, ih fun x hx => h x (List.mem_cons_of_mem _ hx)]

theorem exec_resendRequest {n : BitVec 32} (hr : s.run? t = some r) (hresend : (r.outPort port).resend = some n)
    (hreads : ∀ k ∈ (r.outPort port).unacked, k.reads = []) :
    exec (.streamResendRequest t port) s = .next (s.setRun t (r.modOut port fun o =>
      { o with queue := ((r.outPort port).unacked.filter fun k => !k.seq.ult n) ++ o.queue
               unacked := o.unacked.filter fun k => k.seq.ult n, resend := none })) := by
  have harm : exec (.streamResendRequest t port) s = execStreamResendRequest t port s := rfl
  have hagain : ∀ k ∈ (r.outPort port).unacked.filter fun k => !k.seq.ult n, k.reads = [] :=
    fun k hk => hreads k (List.mem_of_mem_filter hk)
  have hready : (((r.outPort port).unacked.filter fun k => !k.seq.ult n).all fun k => k.reads.all (s.canReread t r.ctx)) = true :=
    List.all_eq_true.2 fun k hk => by rw [hagain k hk]; rfl
  simp only [harm, execStreamResendRequest, hr, hresend, hready, if_true, rereadAll_unread s t r.ctx hagain]

end Event

/-- Settles O48: a packet that crosses is behind the others at its port, or asked for again, and kept at its sender; an acknowledgement
lets the oldest go, and a resend takes them back to the head of the queue. -/
theorem streamEvents : Obligations.StreamEvents := by
  unfold Obligations.StreamEvents
  refine ⟨?arrive, ?acknowledge, ?resend⟩
  case arrive =>
    rintro t port good s r k rest q _ hr rfl hqueue hport hcircuit hresend hroom hidle hnew hlt
    refine ⟨_, _, _, exec_packetArrive good hr hqueue hport hcircuit hresend hroom hidle, run?_crossed .., ?queue, ?unacked,
      inPort?_crossed hport (arrive_place ..), rfl, ?good, ?third, ?failed⟩
    case queue => rw [outPort_modOut _ hlt, OutPort.sent, hqueue]; rfl
    case unacked => rw [outPort_modOut _ hlt, OutPort.sent]
    case good =>
      rintro rfl
      obtain ⟨p, hbehind, hpayload, hfmt, hpois, hseq⟩ := accept_queue q (s.sourceIndex r port (r.outPort port)) k
      simp only [arrive_good hnew, hbehind]
      refine ⟨List.length_append, List.take_left, fun y hy => ?_⟩
      obtain rfl : p = y := by simpa using hy
      exact ⟨hpayload, hfmt, hpois, hseq⟩
    case third =>
      rintro rfl hthird
      obtain ⟨p, hbehind, hpayload, -, hpois, hseq⟩ :=
        accept_queue q (s.sourceIndex r port (r.outPort port)) { k with pois := true }
      exact ⟨p, by rw [arrive_poisoned hnew hthird, hbehind], hpayload, hseq, hpois⟩
    case failed =>
      rintro rfl hfew
      rw [outPort_modOut _ hlt, arrive_fails hnew hfew]
      exact ⟨rfl, rfl⟩
  case acknowledge => exact fun t port s r => exec_acknowledge
  case resend => exact fun t port s r n => exec_resendRequest

end Sys2Proof.Streams
end

section
/-! The family 12_consistency, mailboxes: O46. A message is accepted, waits, is a stray or leaves for its peer, and each is one line of
`State.arriveMessage` (13 R283, R284, R288); a BIND reaches its mailbox by itself (13 R289). -/

namespace Sys2Proof.Mailboxes

open Machine Laws

/-! ## Contexts -/

/-- A change of a context that keeps its number and a part of it keeps that part of every context. -/
theorem part_modCtx {α : Type} (part : Ctx → α) (s : State) (id ctx : BitVec 32) (f : Ctx → Ctx) (hid : ∀ c, (f c).id = c.id)
    (hpart : ∀ c, part (f c) = part c) : ((s.modCtx id f).ctx? ctx).map part = (s.ctx? ctx).map part := by
  have hsame : ((fun c => c.id == ctx) ∘ fun d : Ctx => if d.id == id then f d else d) = fun c => c.id == ctx := by
    funext d
    dsimp only [Function.comp]
    split <;> simp only [hid]
  have hkept : (part ∘ fun d : Ctx => if d.id == id then f d else d) = part := by
    funext d
    dsimp only [Function.comp]
    split <;> simp only [hpart]
  simp only [State.ctx?, State.modCtx, List.find?_map, Option.map_map, hsame, hkept]

/-- Of two changes of a context, the first keeping its number, one. -/
theorem modCtx_modCtx (s : State) (id : BitVec 32) (f g : Ctx → Ctx) (hid : ∀ c, (f c).id = c.id) :
    (s.modCtx id f).modCtx id g = s.modCtx id (g ∘ f) := by
  simp only [State.modCtx, List.map_map]
  congr 2
  funext d
  dsimp only [Function.comp]
  split
  · next h => simp only [hid, h, if_true]
  · rfl

theorem mbox_modMbox (c : Ctx) (m : Nat) (f : Mbox → Mbox) : (c.modMbox m f).mbox m = f (c.mbox m) := by
  simp [Ctx.mbox, Ctx.modMbox]

theorem mbox_received (s : State) (ctx id : BitVec 32) (die m : Nat) :
    ((s.received id die).ctx? ctx).map (fun c => c.mbox m) = (s.ctx? ctx).map fun c => c.mbox m :=
  part_modCtx _ s id ctx _ (fun _ => rfl) fun _ => rfl

/-! ## MESSAGE_ACCEPT -/

section Accept

variable {k : Nat} {s : State} {m : Message}

/-- A message whose turn has come and whose way is open arrives. -/
theorem exec_messageAccept_arrives (hk : s.fab.msgs[k]? = some m)
    (hturn : ∀ x ∈ s.fab.msgs.take k, x.inOrder m = true → x.waiting = true ∧ m.pkg.isSome = false) (hway : s.linkDown m.way = false)
    (hfirst : m.pkg.isNone = true → ∀ x ∈ s.fab.msgs, x.waitsBefore m = false) :
    exec (.messageAccept k) s = .next (s.arriveMessage k m) := by
  have harm : exec (.messageAccept k) s = execMessageAccept k s := rfl
  have hclear : ((s.fab.msgs.take k).any fun x => x.inOrder m && (!x.waiting || m.pkg.isSome)) = false := by
    rw [List.any_eq_false]
    intro x hx
    cases horder : x.inOrder m with
    | false => simp
    | true => simp [hturn x hx horder]
  have halone : (m.pkg.isNone && s.fab.msgs.any fun x => x.waitsBefore m) = false := by
    rw [Bool.and_eq_false_imp, List.any_eq_false]
    intro hown x hx
    simp [hfirst hown x hx]
  simp only [harm, execMessageAccept, hk, hway, hclear, halone, Bool.or_self, Bool.false_eq_true, if_false]

/-- No link lies in the way of a message within this package. -/
theorem exec_messageAccept_own (hk : s.fab.msgs[k]? = some m)
    (hturn : ∀ x ∈ s.fab.msgs.take k, x.inOrder m = true → x.waiting = true) (hown : m.pkg = none)
    (hfirst : ∀ x ∈ s.fab.msgs, x.waitsBefore m = false) : exec (.messageAccept k) s = .next (s.arriveMessage k m) :=
  exec_messageAccept_arrives hk (fun x hx horder => ⟨hturn x hx horder, by rw [hown]; rfl⟩) (by rw [Message.way, hown]; rfl)
    fun _ => hfirst

theorem arriveMessage_accepted {t : State} (hown : m.pkg = none) (hctx : (s.ctx? m.ctx).isSome = true)
    (hroom : s.acceptMessage m.ctx m.mbox m.words = some t) : s.arriveMessage k m = t.messageDone k m := by
  simp [State.arriveMessage, hown, Option.isSome_iff_ne_none.1 hctx, hroom]

theorem arriveMessage_waits (hown : m.pkg = none) (hctx : (s.ctx? m.ctx).isSome = true)
    (hfull : s.acceptMessage m.ctx m.mbox m.words = none) (hnew : m.waiting = false) : s.arriveMessage k m =
      s.takeId.setMessage k { m with waiting := true, waitsFrom := s.cycle, order := s.fab.nextId } := by
  simp [State.arriveMessage, hown, Option.isSome_iff_ne_none.1 hctx, hfull, State.waitMessage, hnew]

theorem arriveMessage_nowhere (hown : m.pkg = none) (hctx : s.ctx? m.ctx = none) :
    s.arriveMessage k m = s.messageNowhere k m := by
  simp [State.arriveMessage, hown, hctx]

theorem acceptMessage_room {ctx : BitVec 32} {b : Nat} {w : BitVec 512} {c : Ctx} (hctx : s.ctx? ctx = some c)
    (hroom : (c.mbox b).held.length < 32) : s.acceptMessage ctx b w =
      some (s.modCtx ctx fun c => c.modMbox b fun x => { x with mseq := x.mseq + 1, held := x.held ++ [(x.mseq, w)] }) := by
  simp [State.acceptMessage, hctx, hroom]

/-- A message accepted stands behind those held at its mailbox, whichever context its receipt counts in. -/
theorem mbox_accepted {c : Ctx} (hctx : s.ctx? m.ctx = some c) (f : Mbox → Mbox) :
    ∃ d, (((s.modCtx m.ctx fun c => c.modMbox m.mbox f).messageDone k m).ctx? m.ctx) = some d ∧ d.mbox m.mbox = f (c.mbox m.mbox) := by
  have hpart := (mbox_received ((s.modCtx m.ctx fun c => c.modMbox m.mbox f).dropMessage k) m.ctx m.sender (mboxDie m.mbox) m.mbox).trans
    (congrArg (Option.map fun c => c.mbox m.mbox) (ctx?_modCtx s m.ctx (fun c => c.modMbox m.mbox f) fun _ => rfl))
  rw [hctx, Option.map_some, Option.map_some, mbox_modMbox] at hpart
  exact Option.map_eq_some_iff.1 hpart

/-- A stray is counted at the mailbox's die, and its record changes nothing between agents. -/
theorem strayMessage_counted (m : Message) (s : State) {d : Die} (hd : s.dies[m.mbox % 4]? = some d) :
    (s.strayMessage m).fab = s.fab ∧ (s.strayMessage m).tiles = s.tiles ∧ (s.strayMessage m).insts = s.insts ∧
      ∃ e, (s.strayMessage m).dies[m.mbox % 4]? = some e ∧ e.dec.stray = d.dec.stray + 1 := by
  have h : RingsOnly (s.count (mboxDie m.mbox) fun d => { d with stray := d.stray + 1 }) (s.strayMessage m) :=
    (rings_record _ _ _).trans (rings_modCtx _ _ _)
  refine ⟨h.fab, h.tiles, h.insts, { d with dec := { d.dec with stray := d.dec.stray + 1 } }, ?_, rfl⟩
  refine (congrArg (·[m.mbox % 4]?) h.dies).trans ?_
  simp [State.count, State.modDie, mboxDie, hd]

/-- A packet for a peer leaves, over a port that carries it or without a link. -/
theorem sendTo_leaves (s : State) (l chan : Nat) (o : Out) : (s.sendTo l chan o).out = o :: s.out ∧
    (s.sendTo l chan o).fab.msgs = s.fab.msgs ∧ (s.sendTo l chan o).ctxs = s.ctxs ∧ (s.sendTo l chan o).mem = s.mem ∧
      (s.sendTo l chan o).tiles = s.tiles := by
  unfold State.sendTo
  split
  · next p hp =>
    have hcarries := List.find?_some hp
    simp [sendPort_eq, hcarries]
  · exact ⟨rfl, rfl, rfl, rfl, rfl⟩

/-- A message that none before it is in order with leaves for a peer that takes messages, and stays outstanding. -/
theorem exec_messageAccept_peer {p : Nat} {x : Peer} (hk : s.fab.msgs[k]? = some m)
    (hturn : ∀ x ∈ s.fab.msgs.take k, x.inOrder m = false) (hpeer : m.pkg = some p) (hsent : m.sent = false)
    (hway : s.linkDown m.way = false) (hx : s.peer? p = some x) (hmbox : x.mbox = true) : exec (.messageAccept k) s =
      .next ((s.setMessage k { m with sent := true }).sendTo m.way 1 (.peerMessage p m.ctx m.mbox m.words)) := by
  have harrives : exec (.messageAccept k) s = .next (s.arriveMessage k m) :=
    exec_messageAccept_arrives hk (fun x hx horder => by simp [hturn x hx] at horder) hway fun hown => by simp [hpeer] at hown
  rw [harrives]
  simp [State.arriveMessage, hpeer, hsent, hx, hmbox]

/-- The state from which a BIND or UNBIND has left for its mailbox. -/
def withoutBind (s : State) (n : Nat) : State := { s with fab := { s.fab with binds := s.fab.binds.eraseIdx n } }

/-- A BIND or UNBIND that no earlier one of its commit to its mailbox stands before. -/
theorem exec_messageAccept_bind {b : MboxBind} (hk : s.fab.msgs.length ≤ k) (hb : s.fab.binds[k - s.fab.msgs.length]? = some b)
    (hturn : ∀ x ∈ s.fab.binds.take (k - s.fab.msgs.length), x.ctx = b.ctx → x.mbox = b.mbox → x.pub ≠ b.pub) :
    (∀ x, b.bind = some x →
      exec (.messageAccept k) s = .next ((withoutBind s (k - s.fab.msgs.length)).bindMbox b.ctx x.1 x.2)) ∧
    (b.bind = none → exec (.messageAccept k) s = .next ((withoutBind s (k - s.fab.msgs.length)).unbindMbox b.ctx b.mbox)) := by
  have harm : exec (.messageAccept k) s = execMessageAccept k s := rfl
  have hclear : ((s.fab.binds.take (k - s.fab.msgs.length)).any fun x => x.ctx == b.ctx && x.mbox == b.mbox && x.pub == b.pub) = false := by
    rw [List.any_eq_false]
    intro x hx
    simpa [and_assoc] using hturn x hx
  have hnone : s.fab.msgs[k]? = none := List.getElem?_eq_none hk
  constructor
  · intro x hbind
    simp only [harm, execMessageAccept, hnone, State.arriveBind, hb, hclear, hbind, Bool.false_eq_true, if_false, withoutBind]
  · intro hbind
    simp only [harm, execMessageAccept, hnone, State.arriveBind, hb, hclear, hbind, Bool.false_eq_true, if_false, withoutBind]

/-! ## HANDLER_DELIVERY and MAILBOX_OVERFLOW -/

theorem exec_handlerDelivery {ctx : BitVec 32} {b : Nat} {c : Ctx} {w : BitVec 512} {rest : List (BitVec 32 × BitVec 512)}
    {t : TemplInfo} {num : BitVec 32} (hctx : s.ctx? ctx = some c) (hready : s.deliverable c b = true)
    (hheld : (c.mbox b).held = (num, w) :: rest) (hverdict : s.verdictOf c.id (c.mbox b).htempl = (s, .ok t)) (hgood : t.bad = none)
    (hrec : (c.mbox b).hrec < t.nrec) : exec (.handlerDelivery ctx b) s = .next (s.askCreation
      { ctx := c.id, templ := (c.mbox b).htempl, rename := 0, tag := num, prio := (c.mbox b).hprio
        origin := .mailbox b w (c.mbox b).hrec }) := by
  have harm : exec (.handlerDelivery ctx b) s = execHandlerDelivery ctx b s := rfl
  simp [harm, execHandlerDelivery, hctx, hready, State.deliverMessage, hheld, hverdict, hgood, Nat.not_le.2 hrec]

theorem exec_mailboxOverflow_due (hk : s.fab.msgs[k]? = some m) (hwaits : m.waiting = true) (hnew : m.reported = false)
    (hdue : m.waitsFrom + 2 ^ 20 ≤ s.cycle) :
    (m.port = none → exec (.mailboxOverflow k) s = .next ((s.setMessage k { m with reported := true }).record m.sender
      { code := 0x2A, record := m.recVa, tag := m.tag, addr := BitVec.ofNat 64 (m.mbox + 2 ^ 32 * m.ctx.toNat) })) ∧
    (∀ p, m.port = some p →
      exec (.mailboxOverflow k) s = .next ((s.setMessage k { m with reported := true }).faultPeer p 0x2A)) := by
  have harm : exec (.mailboxOverflow k) s = execMailboxOverflow k s := rfl
  have hguard : (m.waiting && !m.reported && decide (m.waitsFrom + 2 ^ 20 ≤ s.cycle)) = true := by
    rw [hwaits, hnew, decide_eq_true hdue]
    rfl
  constructor
  · intro hport
    simp only [harm, execMailboxOverflow, hk, hguard, if_true, hport, fcMailboxOverflow]
  · intro p hport
    simp only [harm, execMailboxOverflow, hk, hguard, if_true, hport, fcMailboxOverflow]

theorem exec_mailboxOverflow_reported (hk : s.fab.msgs[k]? = some m) (hold : m.reported = true) :
    exec (.mailboxOverflow k) s = .next s := by
  have harm : exec (.mailboxOverflow k) s = execMailboxOverflow k s := rfl
  simp [harm, execMailboxOverflow, hk, hold]

end Accept

end Sys2Proof.Mailboxes
end

section
/-! The family 12_consistency, rings and waves: O46. A ring whose lines are good reads as it stands; what the device writes to a ring
changes memory, lines and the counts of failing lines, and leaves held records and notifications to `State.unhold` and `State.notify`
(13 R271-R280). -/

namespace Sys2Proof.Rings

open Machine Laws MatrixUnit Lines Peers Publishing Mailboxes

/-! ## A ring read (13 R271, R274) -/

section Read

variable {s : State} {ctx : BitVec 32} {role : Nat} {reg : Option QcbReg} {q : Qcb}

theorem noteRing_good (ctx : BitVec 32) (reg : Option QcbReg) (h : ∀ n, (s.line n).chkBad = false) : s.noteRing ctx reg = s := by
  unfold State.noteRing
  repeat' split
  · rfl
  · rfl
  · exact noteLine_good ctx (h _)
  · rfl

/-- A usable ring is registered, without an error, and its control block is read. -/
theorem readQcb_of_ready (h : s.viewRing ctx role reg = .ready q) :
    ∃ r, reg = some r ∧ r.err = false ∧ s.readQcb ctx r.va = .ok q := by
  unfold State.viewRing at h
  split at h
  · cases h
  · next r =>
    split at h
    · cases h
    · next herr =>
      split at h
      · cases h
      · next w hread =>
        repeat' split at h
        all_goals cases h
        exact ⟨r, rfl, Bool.eq_false_iff.2 herr, hread⟩

/-- A fault queue without a mailbox sends no record to one. -/
theorem mailRecord_none {c : Ctx} (hctx : s.ctx? ctx = some c) (hview : s.viewRing ctx role c.faultQ = .ready q) (hmbv : q.mbv = false)
    (bits : BitVec 512) : s.mailRecord ctx bits = none := by
  obtain ⟨r, hreg, herr, hread⟩ := readQcb_of_ready hview
  have hnone : s.faultMbox ctx = none := by simp [State.faultMbox, hctx, hreg, herr, hread, hmbv]
  rw [State.mailRecord, hnone]

end Read

/-! ## A ring written (13 R272, R278) -/

/-- The held records of a context and its notifications that wait for a port. -/
def pending (s : State) (ctx : BitVec 32) : Option (List FaultRec × List (BitVec 16)) := (s.ctx? ctx).map fun c => (c.heldRecs, c.notes)

theorem pending_modCtx (s : State) (id ctx : BitVec 32) (f : Ctx → Ctx) (hid : ∀ c, (f c).id = c.id)
    (hkept : ∀ c, ((f c).heldRecs, (f c).notes) = (c.heldRecs, c.notes)) : pending (s.modCtx id f) ctx = pending s ctx :=
  part_modCtx _ s id ctx f hid hkept

/-- What the device writes to a ring: nothing leaves, and no context's held records and notifications change. -/
structure RingWritten (s u : State) : Prop extends RingsOnly s u where
  pending : ∀ ctx, pending u ctx = pending s ctx
  out : u.out = s.out

theorem RingWritten.trans {s u v : State} (h : RingWritten s u) (g : RingWritten u v) : RingWritten s v :=
  ⟨h.toRingsOnly.trans g.toRingsOnly, fun ctx => (g.pending ctx).trans (h.pending ctx), g.out.trans h.out⟩

theorem ringWritten_store (s : State) (l : Nat) (bs : List Byte) (b : Bool) : RingWritten s (s.store l bs b) :=
  ⟨rings_store s l bs b, fun _ => by rw [store_else]; rfl, by rw [store_else]⟩

theorem ringWritten_noteLine (s : State) (ctx : BitVec 32) (k : Nat) : RingWritten s (s.noteLine ctx k) := by
  refine ⟨rings_noteLine s ctx k, fun id => ?_, ?_⟩
  · unfold State.noteLine
    split
    · rw [pending_modCtx, State.failLine, State.countMismatch, pending_modCtx]
      · rfl
      all_goals exact fun _ => rfl
    · rfl
  · unfold State.noteLine
    split <;> rfl

theorem ringWritten_qcbWord (s : State) (ctx : BitVec 32) (l o w : Nat) : RingWritten s (s.qcbWord ctx l o w) :=
  (ringWritten_noteLine s ctx _).trans (ringWritten_store _ _ _ _)

theorem storedAt_store {s : State} (l : Nat) (bs : List Byte) (b : Bool) (hs : Sound s) : StoredAt l bs s (s.store l bs b) := by
  obtain ⟨hsound, hfull⟩ := storeCut_keeps bs l b (cutLines l bs.length (bs.length + 1)) hs
  exact ⟨⟨storeCut_else bs l b _ s, hsound⟩, store_mem s l bs b, hfull⟩

theorem storedAt_qcbWord {s : State} (ctx : BitVec 32) (l o w : Nat) (hs : Sound s) :
    StoredAt (l + o) (toBytes w 8) s (s.qcbWord ctx l o w) := by
  rw [State.qcbWord, noteLine_good ctx (hs.good _)]
  exact storedAt_store _ _ _ hs

/-! ## Notifications (13 R273; 19 R394) -/

/-- A notification leaves over a port that carries it, or waits in its context. -/
theorem notify_ctx {s : State} {ctx : BitVec 32} {d : Ctx} (vec : BitVec 16) (hd : s.ctx? ctx = some d) :
    ∃ e, (s.notify ctx vec).ctx? ctx = some e ∧ e.heldRecs = d.heldRecs ∧
      (s.carries (.chrolu 0) = true ∨ s.carries (.chrolu 1) = true →
        (s.notify ctx vec).out = .notify vec :: s.out ∧ e.notes = d.notes) ∧
      (s.carries (.chrolu 0) = false → s.carries (.chrolu 1) = false →
        (s.notify ctx vec).out = s.out ∧ e.notes = d.notes ++ [vec]) := by
  by_cases hport : (s.carries (.chrolu 0) || s.carries (.chrolu 1)) = true
  · rw [State.notify, if_pos hport]
    exact ⟨d, hd, rfl, fun _ => ⟨rfl, rfl⟩, fun h0 h1 => by simp [h0, h1] at hport⟩
  · rw [State.notify, if_neg hport]
    refine ⟨{ d with notes := d.notes ++ [vec] }, ?_, rfl, fun h => absurd (by simpa using h) hport, fun _ _ => ⟨rfl, rfl⟩⟩
    rw [ctx?_modCtx s ctx (fun c => { c with notes := c.notes ++ [vec] }) fun _ => rfl, hd]
    rfl

theorem notify_mem (s : State) (ctx : BitVec 32) (vec : BitVec 16) : (s.notify ctx vec).mem = s.mem := by
  unfold State.notify
  split <;> rfl

/-! ## FAULT_RECORD_HELD_WRITE -/

/-- The state in which the oldest held record has left its context, HELD and the record are written and TAIL has advanced; what is left
to do is to notify the host. -/
def recordWritten (s : State) (ctx : BitVec 32) (q : Qcb) (l : Nat) (f : FaultRec) (n : Nat) : State :=
  (((s.unhold ctx (some q) n).noteLine ctx (lineKey l)).store l (toBytes f.bits.toNat 64) false).qcbWord ctx q.loc 16
    ((bitsAt q.tail 0 32 + 1) % 2 ^ 32)

/-- Three writes of which the entry lies apart from the two words are each read back. -/
theorem entry_read_back {m : Memory} {a l : Nat} (d e t : Nat) (hm : m.wf = true) (hapart : a + 64 ≤ l ∨ l + 64 ≤ a) :
    (((m.writes (a + 40) (toBytes d 8)).writes l (toBytes e 64)).writes (a + 16) (toBytes t 8)).bytes l 64 = toBytes e 64 ∧
      (((m.writes (a + 40) (toBytes d 8)).writes l (toBytes e 64)).writes (a + 16) (toBytes t 8)).value (a + 16) 8 = t % 2 ^ 64 ∧
      (((m.writes (a + 40) (toBytes d 8)).writes l (toBytes e 64)).writes (a + 16) (toBytes t 8)).value (a + 40) 8 = d % 2 ^ 64 := by
  have hm1 := writes_wf (a + 40) (toBytes d 8) hm
  have hm2 := writes_wf l (toBytes e 64) hm1
  refine ⟨?_, value_writes _ t 8 hm2, ?_⟩
  · have hback := bytes_writes l (toBytes e 64) hm1
    rw [length_toBytes] at hback
    rw [bytes_writes_out hm2 (by rw [length_toBytes]; omega), hback]
  · rw [Memory.value, bytes_writes_out hm2 (by rw [length_toBytes]; omega), bytes_writes_out hm1 (by rw [length_toBytes]; omega)]
    exact value_writes _ d 8 hm

section Held

variable {s : State} {ctx : BitVec 32} {c : Ctx} {f : FaultRec} {rest : List FaultRec} {q : Qcb} {l : Nat}

theorem exec_faultRecordHeldWrite (hctx : s.ctx? ctx = some c) (hheld : c.heldRecs = f :: rest)
    (hview : s.viewRing ctx qFault c.faultQ = .ready q) (hmbv : q.mbv = false) (hen : q.en = true) (hroom : q.full = false)
    (hl : s.entryLoc ctx q 64 q.tail = .ok l) (hgood : ∀ n, (s.line n).chkBad = false) : exec (.faultRecordHeldWrite ctx) s =
      .next (if q.notify then (recordWritten s ctx q l f rest.length).notify ctx (q.vec.setWidth 16)
        else recordWritten s ctx q l f rest.length) := by
  have harm : exec (.faultRecordHeldWrite ctx) s = execFaultRecordHeldWrite ctx s := rfl
  simp only [harm, execFaultRecordHeldWrite, hctx, hheld, noteRing_good ctx _ hgood, hview, mailRecord_none hctx hview hmbv,
    State.writeHeld, hen, hroom, hl, Bool.not_true, Bool.or_self, Bool.false_eq_true, if_false, State.ringAppend, recordWritten]

/-- The record written, its context holds the rest, and no notification has moved. -/
theorem recordWritten_kept (hctx : s.ctx? ctx = some c) (hheld : c.heldRecs = f :: rest) (q : Qcb) (l n : Nat) :
    RingsOnly s (recordWritten s ctx q l f n) ∧ (recordWritten s ctx q l f n).out = s.out ∧
      pending (recordWritten s ctx q l f n) ctx = some (rest, c.notes) := by
  have hleft : pending (s.modCtx ctx fun c => { c with heldRecs := c.heldRecs.drop 1 }) ctx = some (rest, c.notes) := by
    rw [pending, ctx?_modCtx s ctx (fun c => { c with heldRecs := c.heldRecs.drop 1 }) fun _ => rfl, hctx]
    simp [hheld]
  have h : RingWritten (s.modCtx ctx fun c => { c with heldRecs := c.heldRecs.drop 1 }) (recordWritten s ctx q l f n) :=
    (((ringWritten_qcbWord _ _ _ _ _).trans (ringWritten_noteLine _ _ _)).trans (ringWritten_store _ _ _ _)).trans
      (ringWritten_qcbWord _ _ _ _ _)
  exact ⟨(rings_modCtx s _ _).trans h.toRingsOnly, h.out, (h.pending ctx).trans hleft⟩

/-- The memory of a record written: HELD, then the record, then TAIL. -/
theorem recordWritten_mem (hs : Sound s) (q : Qcb) (l n : Nat) : (recordWritten s ctx q l f n).mem =
    ((s.mem.writes (q.loc + 40) (toBytes (bitsAt q.drops 0 32 + 2 ^ 32 * n) 8)).writes l (toBytes f.bits.toNat 64)).writes (q.loc + 16)
      (toBytes ((bitsAt q.tail 0 32 + 1) % 2 ^ 32) 8) := by
  have hleft : Sound (s.modCtx ctx fun c => { c with heldRecs := c.heldRecs.drop 1 }) := ⟨hs.canonical, hs.good⟩
  have hcount := storedAt_qcbWord ctx q.loc 40 (bitsAt q.drops 0 32 + 2 ^ 32 * n) hleft
  have hentry := storedAt_store l (toBytes f.bits.toNat 64) false hcount.sound
  have htail := storedAt_qcbWord ctx q.loc 16 ((bitsAt q.tail 0 32 + 1) % 2 ^ 32) hentry.sound
  have hnote := noteLine_good ctx (hcount.sound.good (lineKey l))
  rw [recordWritten, State.unhold]
  simp only [hnote]
  rw [htail.mem, hentry.mem, hcount.mem]
  rfl

theorem recordWritten_bytes (hs : Sound s) (q : Qcb) (l n : Nat) (hapart : q.loc + 64 ≤ l ∨ l + 64 ≤ q.loc) :
    (recordWritten s ctx q l f n).mem.bytes l 64 = toBytes f.bits.toNat 64 ∧
      (recordWritten s ctx q l f n).mem.value (q.loc + 16) 8 = (bitsAt q.tail 0 32 + 1) % 2 ^ 32 ∧
      (recordWritten s ctx q l f n).mem.value (q.loc + 40) 8 = (bitsAt q.drops 0 32 + 2 ^ 32 * n) % 2 ^ 64 := by
  obtain ⟨hentry, htail, hcount⟩ := entry_read_back (bitsAt q.drops 0 32 + 2 ^ 32 * n) f.bits.toNat
    ((bitsAt q.tail 0 32 + 1) % 2 ^ 32) hs.canonical.1 hapart
  rw [recordWritten_mem hs]
  exact ⟨hentry, htail.trans (by omega), hcount⟩

end Held

/-! ## RING_POLL and LAUNCH_NOTIFY -/

section Launch

variable {s : State} {ctx : BitVec 32} {k role : Nat} {c : Ctx} {reg : Nat × QcbReg} {q : Qcb}

/-- A usable ring is examined with fuel for its first entry. -/
theorem launchFuel_ready (hctx : s.ctx? ctx = some c) (hreg : c.launch.find? (fun x => x.1 == k) = some reg)
    (hview : s.viewRing ctx role (some reg.2) = .ready q) : s.launchFuel ctx k = q.used + 1 := by
  obtain ⟨r, hr, -, hread⟩ := readQcb_of_ready hview
  cases hr
  simp [State.launchFuel, hctx, hreg, hread]

/-- In notify mode a usable ring is examined as RING_POLL does it. -/
theorem exec_launchNotify_ready (hctx : s.ctx? ctx = some c) (hreg : c.launch.find? (fun x => x.1 == k) = some reg)
    (hview : s.viewRing ctx role (some reg.2) = .ready q) (hmode : q.notify = true) :
    exec (.launchNotify ctx k) s = exec (.ringPoll ctx k) s := by
  obtain ⟨r, hr, -, hread⟩ := readQcb_of_ready hview
  cases hr
  have hnotified : s.notified ctx k = true := by simp [State.notified, hctx, hreg, hread, hmode]
  have harm : exec (.launchNotify ctx k) s = execLaunchNotify ctx k s := rfl
  rw [harm, execLaunchNotify, if_pos hnotified]
  rfl

/-- The creation that a launch entry asks for, the entry being x at index HEAD. -/
def launchCreation (ctx : BitVec 32) (k : Nat) (q : Qcb) (x : BitVec 256) : Creation :=
  { ctx := ctx, templ := leTempl x, rename := leRename x, tag := leTag x, prio := lePrio x
    cont := if leCv x then some (leTempl x, leCont x) else none, origin := .launch k
    entryAddr := BitVec.ofNat 64 (q.base + 32 * (bitsAt q.head 0 32 % 2 ^ q.log2n)) }

/-- The first entry of a usable launch ring is good: its creation is asked for. -/
theorem exec_ringPoll_takes {l : Nat} (hctx : s.ctx? ctx = some c) (hreg : c.launch.find? (fun x => x.1 == k) = some reg)
    (hidle : s.launching ctx k = false) (hview : s.viewRing ctx qLaunch (some reg.2) = .ready q) (hused : q.used ≠ 0)
    (hl : s.entryLoc ctx q 32 q.head = .ok l) (hgood : ∀ n, (s.line n).chkBad = false)
    (hentry : (s.tally ctx 0 fun c => { c with sent := c.sent + 1 }).entryFault ctx (BitVec.ofNat 256 (s.mem.value l 32)) = none) :
    exec (.ringPoll ctx k) s = .next ((s.tally ctx 0 fun c => { c with sent := c.sent + 1 }).askCreation
      (launchCreation ctx k q (BitVec.ofNat 256 (s.mem.value l 32)))) := by
  have harm : exec (.ringPoll ctx k) s = .next (s.takeLaunch ctx k (s.launchFuel ctx k)) := rfl
  have hverify : s.verifyLine ctx (lineKey l) = s := verifyLines_good s ctx [lineKey l] hgood
  rw [harm, launchFuel_ready hctx hreg hview]
  simp only [State.takeLaunch, hctx, hreg, hidle, noteRing_good ctx _ hgood, hview, hused, hl, hverify, hentry, Bool.false_eq_true,
    if_false, launchCreation]

end Launch

/-! ## QUIESCENCE_WAVE (14 R312) -/

section Wave

variable {s : State} {ctx : BitVec 32} {c : Ctx}

theorem exec_quiescenceWave_first (hctx : s.ctx? ctx = some c) (hwave : c.wave = none) : exec (.quiescenceWave ctx) s =
    .next (s.modCtx ctx fun d => { d with waves := c.waves + 1, wave := some (s.totals c, false) }) := by
  have harm : exec (.quiescenceWave ctx) s = execQuiescenceWave ctx s := rfl
  simp only [harm, execQuiescenceWave, hctx, hwave]
  rw [modCtx_modCtx]
  · rfl
  · exact fun _ => rfl

theorem exec_quiescenceWave_rest (hctx : s.ctx? ctx = some c) (hwave : c.wave = some (s.totals c, false))
    (hrest : (s.totals c).balanced = true) : exec (.quiescenceWave ctx) s =
      .next ((s.modCtx ctx fun d => { d with waves := c.waves + 1, wave := some (s.totals c, true) }).record ctx
        { code := 0x33, addr := BitVec.ofNat 64 (c.waves + 1) }) := by
  have harm : exec (.quiescenceWave ctx) s = execQuiescenceWave ctx s := rfl
  simp only [harm, execQuiescenceWave, hctx, hwave, ne_eq, not_true_eq_false, if_false, hrest, Bool.not_true, Bool.or_self,
    Bool.false_eq_true]
  rw [modCtx_modCtx]
  · rfl
  · exact fun _ => rfl

theorem exec_quiescenceWave_told (hctx : s.ctx? ctx = some c) (hwave : c.wave = some (s.totals c, true)) :
    exec (.quiescenceWave ctx) s = .next (s.modCtx ctx fun d => { d with waves := c.waves + 1 }) := by
  have harm : exec (.quiescenceWave ctx) s = execQuiescenceWave ctx s := rfl
  simp only [harm, execQuiescenceWave, hctx, hwave, ne_eq, not_true_eq_false, if_false, Bool.true_or, if_true]

end Wave

/-- Settles O46: a message whose turn has come is accepted, waits, is a stray or leaves; a ring in use gives its first entry or takes the
oldest held record; a wave equal to the one before reports a context at rest once. -/
theorem messagesAndRings : Obligations.MessagesAndRings := by
  unfold Obligations.MessagesAndRings
  refine ⟨⟨?accepted, ?waits, ?stray, ?refused, ?peer, ?bind, ?deliver, ?overflow, ?reported, fun _ _ _ => rfl⟩,
    ?launch, ?held, ?wave⟩
  case accepted =>
    intro k s m c hk hturn hown hfirst hctx hroom
    obtain ⟨d, hd, hmbox⟩ := mbox_accepted (k := k) hctx fun x => { x with mseq := x.mseq + 1, held := x.held ++ [(x.mseq, m.words)] }
    refine ⟨_, d, (exec_messageAccept_own hk hturn hown hfirst).trans (congrArg _ (arriveMessage_accepted hown (by rw [hctx]; rfl)
      (acceptMessage_room hctx hroom))), rfl, hd, ?_, ?_, rfl, rfl, rfl⟩
    · rw [hmbox]
    · rw [hmbox]
  case waits =>
    intro k s m hk hturn hown hfirst hctx hfull hnew
    have hlt := (List.getElem?_eq_some_iff.1 hk).1
    exact ⟨_, _, (exec_messageAccept_own hk hturn hown hfirst).trans (congrArg _ (arriveMessage_waits hown hctx hfull hnew)),
      List.getElem?_set_self hlt, rfl, rfl, rfl, List.length_set, rfl, rfl, rfl⟩
  case stray =>
    intro k s m d hk hturn hown hfirst hctx hport hd
    obtain ⟨hfab, htiles, hinsts, e, he, hcount⟩ := strayMessage_counted (s := s.dropMessage k) m hd
    refine ⟨_, e, (exec_messageAccept_own hk hturn hown hfirst).trans (congrArg _ (arriveMessage_nowhere hown hctx)), ?_⟩
    rw [State.messageNowhere, hport]
    exact ⟨congrArg Fabric.msgs hfab, he, hcount, htiles, hinsts⟩
  case refused =>
    intro k s m p hk hturn hown hfirst hctx hport
    rw [exec_messageAccept_own hk hturn hown hfirst, arriveMessage_nowhere hown hctx, State.messageNowhere, hport]
    rfl
  case peer =>
    exact fun k s m p x hk hturn hpeer hsent hway hx hmbox =>
      ⟨_, exec_messageAccept_peer hk hturn hpeer hsent hway hx hmbox, sendTo_leaves ..⟩
  case bind => exact fun k s b hk hb hturn => ⟨_, rfl, exec_messageAccept_bind hk hb hturn⟩
  case deliver => exact fun ctx m s c n w rest t => exec_handlerDelivery
  case overflow =>
    rintro k s m w hk hwaits hnew hdue rfl
    exact exec_mailboxOverflow_due hk hwaits hnew hdue
  case reported => exact fun k s m => exec_mailboxOverflow_reported
  case launch =>
    intro ctx k s c reg q l hctx hreg hidle hview hused hl hgood hentry
    exact ⟨_, rfl, exec_ringPoll_takes hctx hreg hidle hview hused hl hgood hentry, exec_launchNotify_ready hctx hreg hview⟩
  case held =>
    intro ctx s c f rest q l hctx hheld hview hmbv hen hroom hl hgood
    have hexec := exec_faultRecordHeldWrite hctx hheld hview hmbv hen hroom hl hgood
    obtain ⟨hkept, hout, hpending⟩ := recordWritten_kept (f := f) hctx hheld q l rest.length
    obtain ⟨d, hd, hparts⟩ := Option.map_eq_some_iff.1 hpending
    obtain ⟨rfl, hnotes⟩ := Prod.mk.inj hparts
    cases hmode : q.notify with
    | false =>
      rw [hmode, if_neg Bool.false_ne_true] at hexec
      exact ⟨_, d, hexec, hd, rfl, hkept.tiles, nofun, fun hcanon => recordWritten_bytes ⟨hcanon, hgood⟩ q l _⟩
    | true =>
      obtain ⟨e, he, hrest, hleaves, hwaits⟩ := notify_ctx (q.vec.setWidth 16) hd
      rw [carries_of_pkg hkept.pkg, carries_of_pkg hkept.pkg, hout, hnotes] at hleaves hwaits
      rw [hmode, if_pos rfl] at hexec
      refine ⟨_, e, hexec, he, hrest, (rings_notify _ _ _).tiles.trans hkept.tiles, fun _ => ⟨hleaves, hwaits⟩, fun hcanon => ?_⟩
      rw [notify_mem]
      exact recordWritten_bytes ⟨hcanon, hgood⟩ q l _
  case wave =>
    exact fun ctx s c hctx => ⟨exec_quiescenceWave_first hctx, exec_quiescenceWave_rest hctx, exec_quiescenceWave_told hctx⟩

end Sys2Proof.Rings
end

section
/-! The family 13_queues, fault records: O33. The 512 bits of a record are its fields one after another, from CODE at the low end to SEQ
at the high end (13 R277). -/

namespace Sys2Proof.Records

open Machine Laws

/-- A field of a number that has its bits there. -/
theorem extractLsb'_ofNat {w a n N f : Nat} (hw : a + n ≤ w) (h : N / 2 ^ a % 2 ^ n = f % 2 ^ n) :
    (BitVec.ofNat w N).extractLsb' a n = BitVec.ofNat n f := by
  apply BitVec.eq_of_toNat_eq
  obtain ⟨k, rfl⟩ := Nat.le.dest hw
  rw [BitVec.extractLsb'_toNat, BitVec.toNat_ofNat, BitVec.toNat_ofNat, Nat.shiftRight_eq_div_pow, ← h, Nat.add_assoc, Nat.pow_add _ a,
    Nat.mod_mul_right_div_self, Nat.pow_add, Nat.mod_mul_right_mod]

theorem extractLsb'_ofNat_eq {w a n N : Nat} {x : BitVec n} (hw : a + n ≤ w) (h : N / 2 ^ a % 2 ^ n = x.toNat) :
    (BitVec.ofNat w N).extractLsb' a n = x := by
  rw [extractLsb'_ofNat hw (h.trans (Nat.mod_eq_of_lt x.isLt).symm), BitVec.ofNat_toNat, BitVec.setWidth_eq]

theorem getLsbD_ofNat {w a N : Nat} {b : Bool} (hw : a < w) (h : N / 2 ^ a % 2 = b.toNat) : (BitVec.ofNat w N).getLsbD a = b := by
  rw [BitVec.getLsbD_ofNat, Nat.testBit_eq_decide_div_mod_eq, h]
  cases b <;> simp [hw]

theorem priorField_lt (r : RecSpec) : r.priorField < 2 ^ 40 := by
  unfold RecSpec.priorField
  split
  · decide
  · exact Nat.mod_lt _ (by decide)

theorem priorField_some {r : RecSpec} {p : BitVec 64} (h : r.prior = some p) :
    BitVec.ofNat 40 r.priorField = ((p - r.pitch).sshiftRight 4).setWidth 40 := by
  rw [RecSpec.priorField, h]
  apply BitVec.eq_of_toNat_eq
  simp

/-- Settles O33: each field is the number at its place in the sum, as every field below it is less than its room. -/
theorem recordLayout : Obligations.RecordLayout := by
  unfold Obligations.RecordLayout
  intro r ctx seq hcode hcause hslot hlsid hexit b
  have hstall := r.stall.toNat_lt
  have hirrev := r.irrev.toNat_lt
  have hcommit := r.commit.toNat_lt
  have hpriorv := r.prior.isSome.toNat_lt
  have hctx := ctx.isLt
  have hrecord := r.record.isLt
  have htag := r.tag.isLt
  have hpitch := r.pitch.isLt
  have hprior := priorField_lt r
  have haddr := r.addr.isLt
  refine ⟨extractLsb'_ofNat (by decide) ?code, extractLsb'_ofNat (by decide) ?cause, getLsbD_ofNat (by decide) ?stall,
    getLsbD_ofNat (by decide) ?irrev, getLsbD_ofNat (by decide) ?commit, getLsbD_ofNat (by decide) ?priorv,
    extractLsb'_ofNat (f := 0) (by decide) ?zero, extractLsb'_ofNat_eq (by decide) ?ctx, extractLsb'_ofNat_eq (by decide) ?record,
    extractLsb'_ofNat_eq (by decide) ?tag, extractLsb'_ofNat (f := 0) (by decide) ?zeroWord, extractLsb'_ofNat_eq (by decide) ?pitch,
    extractLsb'_ofNat (by decide) ?slot, extractLsb'_ofNat (by decide) ?lsid, extractLsb'_ofNat (by decide) ?exit,
    fun p hp => (extractLsb'_ofNat (f := r.priorField) (by decide) ?prior).trans (priorField_some hp),
    extractLsb'_ofNat_eq (by decide) ?addr, extractLsb'_ofNat (by decide) ?prog, extractLsb'_ofNat (by decide) ?seq⟩
  all_goals omega

end Sys2Proof.Records
end

section
/-! The family 13_queues, services: O50. Each service is one call of its tile: what it answers is `State.serviceDone` with its status on
what it has done, and an invalidation, once begun, answers later (06 R121-R123). -/

namespace Sys2Proof.Services

open Machine Laws Rings

variable {t : Nat} {s : State} {r : Run} {c : SvcCall}

/-! ## LOG (13 R281) -/

/-- The bytes of a log entry: two words of the caller, and the TAG of its caller. -/
theorem logEntry_eq (v w : BitVec 64) (inst : BitVec 32) :
    logEntry v w inst = toBytes v.toNat 8 ++ toBytes (w.toNat % 2 ^ 16) 2 ++ [0, 0] ++ toBytes inst.toNat 4 := by
  have hzero : toBytes 0 2 = [0, 0] := rfl
  rw [logEntry, bitsAt, Nat.pow_zero, Nat.div_one, hzero]

section Log

variable {ctx : BitVec 32} {x : Ctx} {q : Qcb} (hctx : s.ctx? ctx = some x) (hview : s.viewRing ctx qLog x.logQ = .ready q)
  (hgood : ∀ n, (s.line n).chkBad = false)
include hctx hview hgood

theorem appendLog_full (bs : List Byte) (hfull : q.full = true) : s.appendLog ctx bs = (s, false) := by
  simp only [State.appendLog, hctx, noteRing_good ctx x.logQ hgood, hview, hfull, if_true]

theorem appendLog_room {l : Nat} (bs : List Byte) (hroom : q.full = false) (hl : s.entryLoc ctx q 16 q.tail = .ok l) :
    s.appendLog ctx bs = (s.ringAppend ctx q l bs, true) := by
  simp only [State.appendLog, hctx, noteRing_good ctx x.logQ hgood, hview, hroom, hl, Bool.false_eq_true, if_false]

end Log

theorem exec_svcLog (h : s.service? t 0x001 = some (r, c)) {u : State} {done : Bool}
    (happend : s.appendLog r.ctx (logEntry c.l c.r r.tag) = (u, done)) :
    exec (.svcLog t) s = .next (u.serviceDone t (if done then 0 else 1)) := by
  have harm : exec (.svcLog t) s = execSvcLog t s := rfl
  simp only [harm, execSvcLog, h, happend]

/-! ## RESUME (18 R372-R374) -/

theorem exec_svcResume (h : s.service? t 0x101 = some (r, c)) {u : State} {status : Nat} (hresume : s.resume c.l c.r = (u, status)) :
    exec (.svcResume t) s = .next (u.serviceDone t status) := by
  have harm : exec (.svcResume t) s = execSvcResume t s := rfl
  simp only [harm, execSvcResume, h, hresume]

section Resume

variable {seq ctl : BitVec 64} {ctx : BitVec 32} (hctx : ctx = BitVec.ofNat 32 (bitsAt ctl 32 32))

theorem resume_malformed (h : bitsAt ctl 2 30 ≠ 0) : s.resume seq ctl = (s, 2) := by
  simp only [State.resume, if_pos h]

include hctx

/-- No record of the context with that SEQ awaits a RESUME. -/
theorem resume_unknown {x : Ctx} (hx : s.ctx? ctx = some x) (hnone : ∀ w ∈ x.await, w.seq % 2 ^ 64 ≠ seq.toNat) :
    s.resume seq ctl = (s, 2) := by
  have hfind : x.await.find? (fun w => w.seq % 2 ^ 64 == seq.toNat) = none :=
    List.find?_eq_none.2 fun w hw => by simpa using hnone w hw
  simp only [State.resume, ← hctx, hx, Option.bind_some, hfind, ite_self]

/-- The record named awaits a RESUME: the action is performed and the record superseded, or the action is refused. -/
theorem resume_found (hz : bitsAt ctl 2 30 = 0) {x : Ctx} {w : Await} (hx : s.ctx? ctx = some x)
    (hw : x.await.find? (fun w => w.seq % 2 ^ 64 == seq.toNat) = some w) :
    s.resume seq ctl = if s.allows w (actionOf ctl) then
      ((s.modCtx ctx fun y => { y with await := y.await.filter fun z => z != w }).act w (actionOf ctl), 0) else (s, 2) := by
  simp only [State.resume, hz, ne_eq, not_true_eq_false, if_false, ← hctx, hx, Option.bind_some, hw]

end Resume

/-! ## TLBINV (16 R344) -/

/-- What a service makes of the invalidation it asks for: it begins, and where none is asked for the service is refused. -/
def began (s : State) (t : Nat) : Option Invalidation → State
  | none => s.serviceDone t 2
  | some v => s.invalidate v

theorem exec_svcTlbinv (h : s.service? t 0x100 = some (r, c)) (hidle : s.invalidating t = false) :
    exec (.svcTlbinv t) s = .next (began s t (s.invalidation c.l c.r (.svc t))) := by
  have harm : exec (.svcTlbinv t) s = execSvcTlbinv t s := rfl
  simp only [harm, execSvcTlbinv, h, hidle, Bool.false_eq_true, if_false]
  cases s.invalidation c.l c.r (.svc t) with
  | none => rfl
  | some v => rfl

/-! ## MIGRATE (16 R348, R349) -/

section Migrate

variable (h : s.service? t 0x102 = some (r, c)) (hidle : s.invalidating t = false)
include h hidle

theorem exec_svcMigrate_unread {f : FaultInfo} (hdesc : s.migDesc t r c.l = .error f) :
    exec (.svcMigrate t) s = if f.code = 0 ∧ c.r = 0 then .next s else .next (s.serviceDone t 2) := by
  have harm : exec (.svcMigrate t) s = execSvcMigrate t s := rfl
  simp only [harm, execSvcMigrate, h, hidle, hdesc, Bool.false_eq_true, if_false]
  rfl

theorem exec_svcMigrate_malformed {d : BitVec 256} (hdesc : s.migDesc t r c.l = .ok d) (hr : c.r ≠ 0) :
    exec (.svcMigrate t) s = .next (s.serviceDone t 2) := by
  have harm : exec (.svcMigrate t) s = execSvcMigrate t s := rfl
  simp only [harm, execSvcMigrate, h, hidle, hdesc, hr, decide_false, Bool.false_and, Bool.false_eq_true, if_false]

theorem exec_svcMigrate_waits {d : BitVec 256} (hdesc : s.migDesc t r c.l = .ok d) (hr : c.r = 0) (hwaits : s.migWaits d = true) :
    exec (.svcMigrate t) s = .next s := by
  have harm : exec (.svcMigrate t) s = execSvcMigrate t s := rfl
  simp only [harm, execSvcMigrate, h, hidle, hdesc, hr, hwaits, decide_true, Bool.true_and, Bool.false_eq_true, if_false, if_true]

theorem exec_svcMigrate_goes {d : BitVec 256} (hdesc : s.migDesc t r c.l = .ok d) (hr : c.r = 0) (hwaits : s.migWaits d = false) :
    exec (.svcMigrate t) s = .next (began s t (s.migration t d)) := by
  have harm : exec (.svcMigrate t) s = execSvcMigrate t s := rfl
  simp only [harm, execSvcMigrate, h, hidle, hdesc, hr, hwaits, Bool.and_false, Bool.false_eq_true, if_false, if_true]
  cases s.migration t d with
  | none => rfl
  | some v => rfl

end Migrate

/-- Settles O50: each service answers with the status of what it found, on the state that its one operation leaves. -/
theorem services : Obligations.Services := by
  unfold Obligations.Services
  refine ⟨?log, ?resume, ?tlbinv, ?migrate⟩
  case log =>
    intro t s r c x q l h hctx hview hgood
    refine ⟨fun hfull => ?_, fun hroom hl => ?_⟩
    · rw [exec_svcLog h (appendLog_full hctx hview hgood _ hfull), if_neg Bool.false_ne_true]
    · rw [exec_svcLog h (appendLog_room hctx hview hgood _ hroom hl), if_pos rfl, logEntry_eq]
  case resume =>
    intro t s r c ctx h hctx
    refine ⟨fun hbad => exec_svcResume h (resume_malformed hbad), fun x w hz hx hw => ?_,
      fun x hx hnone => exec_svcResume h (resume_unknown hctx hx hnone)⟩
    have hfound := resume_found hctx hz hx hw
    exact ⟨fun hno => exec_svcResume h (hfound.trans (by rw [hno, if_neg Bool.false_ne_true])),
      fun hyes => exec_svcResume h (hfound.trans (if_pos hyes))⟩
  case tlbinv =>
    intro t s r c h hidle
    rw [exec_svcTlbinv h hidle]
    exact ⟨fun hnone => by rw [hnone, began], fun v hsome => by rw [hsome, began]⟩
  case migrate =>
    intro t s r c h hidle
    refine ⟨fun f hdesc hrefused => ?_, fun f hdesc hcode hr => ?_, fun d => exec_svcMigrate_malformed h hidle,
      fun d hr hdesc => exec_svcMigrate_waits h hidle hdesc hr, fun d hr hdesc hgoes => ?_⟩
    · rw [exec_svcMigrate_unread h hidle hdesc, if_neg (by tauto)]
    · rw [exec_svcMigrate_unread h hidle hdesc, if_pos ⟨hcode, hr⟩]
    · rw [exec_svcMigrate_goes h hidle hdesc hr hgoes]
      exact ⟨fun hnone => by rw [hnone, began], fun v hsome => by rw [hsome, began]⟩

end Sys2Proof.Services
end

section
/-! The family 13_queues, owners: whose contexts, instances and runs a state has. Records, stores and accesses that waited change none of
it: what they do to one of these leaves it with its number or its context (09 R199; 13 R277-R280). -/

namespace Sys2Proof.Contexts

open Machine Laws

/-- The numbers of the contexts, the contexts of the instances, and of each tile the context of its run. -/
def owners (s : State) : List (BitVec 32) × List (BitVec 32) × (Nat → Option (BitVec 32)) :=
  (s.ctxs.map Ctx.id, s.insts.map Inst.ctx, fun t => (s.run? t).map Run.ctx)

/-! ## Named updates -/

theorem owners_of_parts {s u : State} (hc : u.ctxs = s.ctxs) (hi : u.insts = s.insts) (ht : u.tiles = s.tiles) : owners u = owners s := by
  simp only [owners, State.run?, State.tile, hc, hi, ht]

@[simp] theorem owners_modCtx (s : State) (id : BitVec 32) (f : Ctx → Ctx) (hf : ∀ c, (f c).id = c.id) : owners (s.modCtx id f) = owners s := by
  refine Prod.ext ?_ rfl
  refine List.map_map.trans (List.map_congr_left fun c _ => ?_)
  dsimp only [Function.comp]
  split
  · exact hf c
  · rfl

@[simp] theorem owners_modRec (s : State) (id idx : Nat) (f : Rec → Rec) : owners (s.modRec id idx f) = owners s := by
  refine Prod.ext rfl (Prod.ext ?_ rfl)
  refine List.map_map.trans (List.map_congr_left fun i _ => ?_)
  dsimp only [Function.comp]
  split <;> rfl

theorem owners_setRun {s : State} {t : Nat} {r q : Run} (h : s.run? t = some r) (hq : q.ctx = r.ctx) :
    owners (s.setRun t q) = owners s := by
  refine Prod.ext rfl (Prod.ext rfl (funext fun u => ?_))
  show ((s.setRun t q).run? u).map Run.ctx = (s.run? u).map Run.ctx
  rw [run?_setRun]
  split
  · next hu => rw [hu, h, Option.map_some, Option.map_some, hq]
  · rfl

@[simp] theorem owners_modRun (s : State) (t : Nat) (f : Run → Run) (hf : ∀ r, (f r).ctx = r.ctx) : owners (s.modRun t f) = owners s := by
  unfold State.modRun
  split
  · next r h => exact owners_setRun h (hf r)
  · rfl

/-- A change of every value that keeps its key and a part of it keeps that part of what is read. -/
theorem kvGet_map_part {α β : Type} (part : α → β) (d : α) (g : Nat × α → Nat × α) (hkey : ∀ x, (g x).1 = x.1)
    (hpart : ∀ x, part (g x).2 = part x.2) (l : List (Nat × α)) (k : Nat) : part (kvGet d (l.map g) k) = part (kvGet d l k) := by
  induction l with
  | nil => rfl
  | cons x rest ih =>
    rw [List.map_cons, kvGet, kvGet, hkey]
    split
    · exact hpart x
    · exact ih

/-- A change of every tile that leaves its run there, of the same context. -/
theorem owners_mapTiles (s : State) (g : Nat × Tile → Nat × Tile) (hkey : ∀ x, (g x).1 = x.1)
    (hrun : ∀ x, (g x).2.run.map Run.ctx = x.2.run.map Run.ctx) : owners { s with tiles := s.tiles.map g } = owners s :=
  Prod.ext rfl (Prod.ext rfl (funext fun t => kvGet_map_part (fun v : Tile => v.run.map Run.ctx) {} g hkey hrun s.tiles t))

@[simp] theorem owners_modLine (s : State) (k : Nat) (f : LineMeta → LineMeta) : owners (s.modLine k f) = owners s := rfl

@[simp] theorem owners_store (s : State) (l : Nat) (bs : List Byte) (p : Bool) : owners (s.store l bs p) = owners s := by
  rw [store_else]
  rfl

@[simp] theorem owners_sendPort (s : State) (p : PortSel) (chan : Nat) (o : Out) : owners (s.sendPort p chan o) = owners s :=
  owners_of_parts (sendPort_ctxs s p chan o) (sendPort_insts s p chan o) (sendPort_tiles s p chan o)

@[simp] theorem owners_touchPad (s : State) (l : List Nat) : owners (s.touchPad l) = owners s :=
  have h := MatrixUnit.onlyRead_touchPad s l
  owners_of_parts h.ctxs h.insts h.tiles

@[simp] theorem owners_setFull (f : Bool) (l : List Nat) (s : State) : owners (s.setFull f l) = owners s := by
  induction l generalizing s with
  | nil => rfl
  | cons k rest ih =>
    rw [State.setFull]
    split
    · exact ih s
    · exact ih _

/-! ## Rings and mailboxes (13 R272-R280) -/

@[simp] theorem owners_noteLine (s : State) (ctx : BitVec 32) (k : Nat) : owners (s.noteLine ctx k) = owners s := by
  unfold State.noteLine State.failLine State.countMismatch
  split
  · simp
  · rfl

@[simp] theorem owners_noteRing (s : State) (ctx : BitVec 32) (q : Option QcbReg) : owners (s.noteRing ctx q) = owners s := by
  unfold State.noteRing
  split
  · rfl
  · split
    · rfl
    · split
      · exact owners_noteLine s ctx _
      · rfl

@[simp] theorem owners_qcbWord (s : State) (ctx : BitVec 32) (l o w : Nat) : owners (s.qcbWord ctx l o w) = owners s := by
  rw [State.qcbWord, owners_store, owners_noteLine]

@[simp] theorem owners_notify (s : State) (ctx : BitVec 32) (v : BitVec 16) : owners (s.notify ctx v) = owners s := by
  unfold State.notify
  split
  · rfl
  · exact owners_modCtx s ctx _ fun _ => rfl

@[simp] theorem owners_ringAppend (s : State) (ctx : BitVec 32) (q : Qcb) (l : Nat) (bs : List Byte) :
    owners (s.ringAppend ctx q l bs) = owners s := by
  unfold State.ringAppend
  dsimp only
  split <;> simp

theorem owners_acceptMessage {s u : State} {ctx : BitVec 32} {m : Nat} {w : BitVec 512} (h : s.acceptMessage ctx m w = some u) :
    owners u = owners s := by
  unfold State.acceptMessage at h
  split at h
  · cases h
  · dsimp only at h
    split at h
    · cases h
      exact owners_modCtx s ctx _ fun _ => rfl
    · cases h

theorem owners_mailRecord {s u : State} {ctx : BitVec 32} {w : BitVec 512} (h : s.mailRecord ctx w = some u) : owners u = owners s := by
  unfold State.mailRecord at h
  split at h
  · cases h
  · split at h
    · cases h
    · exact owners_acceptMessage h

/-- What a mailbox takes, or what is done instead of it. -/
theorem owners_mailOr {s u : State} (ctx : BitVec 32) (w : BitVec 512) (h : owners u = owners s) :
    owners ((s.mailRecord ctx w).getD u) = owners s := by
  cases hmail : s.mailRecord ctx w with
  | none => exact h
  | some v => exact owners_mailRecord hmail

/-! ## Records (13 R277-R280) -/

@[simp] theorem owners_holdRecord (s : State) (ctx : BitVec 32) (q : Option Qcb) (f : FaultRec) :
    owners (s.holdRecord ctx q f) = owners s := by
  unfold State.holdRecord
  split
  · rfl
  · have hheld : ∀ g : Ctx → Ctx, (∀ c, (g c).id = c.id) → owners (s.modCtx ctx g) = owners s := owners_modCtx s ctx
    dsimp only
    split
    · cases q with
      | none => simp
      | some q => simp
    · cases q with
      | none => rfl
      | some q => exact owners_qcbWord s _ _ _ _

@[simp] theorem owners_faultRingError (s : State) (ctx : BitVec 32) (q : Option Qcb) (f : FaultInfo) :
    owners (s.faultRingError ctx q f) = owners s := by
  unfold State.faultRingError
  cases q with
  | none => simp
  | some q =>
    refine (owners_mailOr _ _ rfl).trans ?_
    simp [State.qcbErr]

@[simp] theorem owners_unringed (s : State) (ctx : BitVec 32) (f : FaultRec) : owners (s.unringed ctx f) = owners s :=
  owners_mailOr ctx _ (owners_holdRecord s ctx none f)

@[simp] theorem owners_ringRecord (s : State) (ctx : BitVec 32) (q : Qcb) (f : FaultRec) : owners (s.ringRecord ctx q f) = owners s := by
  unfold State.ringRecord
  split
  · rfl
  · split
    · simp
    · split
      · simp
      · split <;> simp

@[simp] theorem owners_deliverRecord (s : State) (ctx : BitVec 32) (f : FaultRec) : owners (s.deliverRecord ctx f) = owners s := by
  unfold State.deliverRecord
  split
  · rfl
  · dsimp only
    split
    · simp
    · simp
    · simp
    · exact (owners_mailOr ctx _ (owners_ringRecord _ ctx _ f)).trans (owners_noteRing s ctx _)

@[simp] theorem owners_record (s : State) (ctx : BitVec 32) (r : RecSpec) : owners (s.record ctx r) = owners s := by
  unfold State.record
  split
  · rfl
  · exact (owners_deliverRecord _ _ _).trans (owners_modCtx s ctx _ fun _ => rfl)

@[simp] theorem owners_recordAwait (s : State) (ctx : BitVec 32) (r : RecSpec) (o : AwaitOf) :
    owners (s.recordAwait ctx r o) = owners s := by
  simp [State.recordAwait]

/-! ## Lines read and written for a context (09 R206; 19 R402) -/

@[simp] theorem owners_verifyLine (s : State) (ctx : BitVec 32) (k : Nat) : owners (s.verifyLine ctx k) = owners s := by
  unfold State.verifyLine State.failLine State.countMismatch
  split
  · simp
  · rfl

@[simp] theorem owners_verifyLines (ctx : BitVec 32) (l : List Nat) (s : State) : owners (s.verifyLines ctx l) = owners s := by
  induction l generalizing s with
  | nil => rfl
  | cons k rest ih => exact (ih _).trans (owners_verifyLine s ctx k)

@[simp] theorem owners_readLine (s : State) (ctx : BitVec 32) (k : Nat) : owners (s.readLine ctx k) = owners s := by
  unfold State.readLine State.gotPoison State.countMismatch
  split
  · simp
  · exact owners_verifyLine s ctx k

@[simp] theorem owners_storeFor (s : State) (ctx : BitVec 32) (l : Nat) (bs : List Byte) (p : Bool) :
    owners (s.storeFor ctx l bs p) = owners s := by
  unfold State.storeFor
  split <;> simp

/-! ## Accesses that waited (09 R199) -/

theorem owners_stallTask (s : State) (r : Run) (seq : Nat) (x : Resume) (b : Bool) : owners (s.stallTask r seq x b) = owners s := by
  refine owners_mapTiles s _ (fun y => ?_) fun y => ?_
  · split
    · split <;> rfl
    · rfl
  · split
    · next q hq =>
      split
      · rw [hq]
        rfl
      · rfl
    · rfl

theorem owners_takeFault (s : State) (t : Nat) (spec : RecSpec) (x : Resume) (b : Bool) : owners (s.takeFault t spec x b) = owners s := by
  unfold State.takeFault
  split
  · rfl
  · next r _ =>
    rw [owners_recordAwait, owners_modRec, owners_stallTask]

theorem owners_syncPerform (s : State) (t : Nat) (r : Run) (a : ImmAccess) (m : SyncMode) (vec : Bool) (d : BitVec 1024) :
    owners (s.syncPerform t r a m vec d) = owners s := by
  unfold State.syncPerform State.answerImm
  cases m with
  | readfull | consume | peek | fill | produce | clear => simp [SyncMode.writes, SyncMode.after]

theorem owners_syncDo (s : State) (t : Nat) (r : Run) (a : ImmAccess) (m : SyncMode) (vec : Bool) (d : BitVec 1024) :
    owners (s.syncDo t r a m vec d) = owners s := by
  unfold State.syncDo State.faultImm
  split
  · split
    · rfl
    · exact owners_takeFault s _ _ _ _
  · exact owners_syncPerform s t r a m vec d

theorem owners_peerSync (s : State) (port : Nat) (ctx : BitVec 32) (loc : Nat) (m : SyncMode) (vec : Bool) (d : BitVec 1024) (p : Bool) :
    owners (s.peerSync port ctx loc m vec d p) = owners s := by
  unfold State.peerSync State.answerPeer
  cases m with
  | readfull | consume | peek | fill | produce | clear => simp [SyncMode.writes, SyncMode.after]

theorem owners_grant (s : State) (t k : Nat) : owners (s.grant t k) = owners s := by
  unfold State.grant
  split
  · rfl
  · next r h =>
    split
    · rfl
    · exact owners_setRun h rfl

theorem ctx_examineRun (s : State) (t : Nat) (r : Run) : (s.examineRun t r).ctx = r.ctx := by
  unfold State.examineRun
  split
  · split <;> rfl
  · rfl

theorem owners_examine (s : State) : owners s.examine = owners s :=
  owners_mapTiles s _ (fun _ => rfl) fun x => by
    rw [Option.map_map]
    exact congrArg (fun f => x.2.run.map f) (funext (ctx_examineRun s x.1))

theorem owners_serveEntry (s : State) (e : RetryEntry) : owners (s.serveEntry e) = owners s := by
  unfold State.serveEntry
  dsimp only
  split
  · exact owners_peerSync (s.delist e) _ _ _ _ _ _ _
  · exact owners_sendPort _ _ _ _
  · exact owners_grant (s.delist e) _ _
  · split
    · rfl
    · split
      · rfl
      · exact owners_syncDo (s.delist e) _ _ _ _ _ _

theorem owners_serveFrom (n : Nat) (s : State) : owners (s.serveFrom n) = owners s := by
  induction n generalizing s with
  | zero => rfl
  | succ n ih =>
    rw [State.serveFrom]
    split
    · rfl
    · rw [ih, owners_serveEntry, owners_examine]

/-- The accesses and claims that go on there leave all contexts, instances and runs to their owners. -/
@[simp] theorem owners_serve (s : State) : owners s.serve = owners s := owners_serveFrom _ s

end Sys2Proof.Contexts
end

section
/-! The family 13_queues, the end of a context: O55. The runs of a destroyed context are undone, its bank memory is zero, what is kept of
it at the dispatchers is discarded, and the lines it held in HBM4 and DDR-5 are scrambled (19 R389-R391). -/

namespace Sys2Proof.Contexts

open Machine Laws

/-! ## Lists whose keys need not rise -/

theorem kvGet_kvErase_ne {α : Type} (d : α) (l : List (Nat × α)) {k j : Nat} (h : j ≠ k) : kvGet d (kvErase l k) j = kvGet d l j := by
  induction l with
  | nil => rfl
  | cons x rest ih =>
    rw [kvErase]
    split
    · next hx => rw [kvGet, if_neg (hx ▸ h.symm)]
    · rw [kvGet, kvGet, ih]

theorem kvGet_kvSet_ne {α : Type} [DecidableEq α] (d : α) (l : List (Nat × α)) {k j : Nat} (v : α) (h : j ≠ k) :
    kvGet d (kvSet d l k v) j = kvGet d l j := by
  unfold kvSet
  split
  · exact kvGet_kvErase_ne d l h
  · exact kvGet_kvPut_ne d l v h

/-- What is read is the default, or is listed. -/
theorem kvGet_eq_or_mem {α : Type} (d : α) (l : List (Nat × α)) (k : Nat) : kvGet d l k = d ∨ (k, kvGet d l k) ∈ l := by
  induction l with
  | nil => exact .inl rfl
  | cons x rest ih =>
    rw [kvGet]
    split
    · next h => exact .inr (h ▸ List.mem_cons_self)
    · exact ih.imp_right (List.mem_cons_of_mem _)

theorem read_writes_ne (bs : List Byte) (m : Memory) {a b : Nat} (h : b < a ∨ a + bs.length ≤ b) : (m.writes a bs).read b = m.read b := by
  induction bs generalizing m a with
  | nil => rfl
  | cons x rest ih =>
    rw [List.length_cons] at h
    exact (ih _ (by omega)).trans (kvGet_kvSet_ne _ _ _ (by omega))

theorem line_modLine_ne (s : State) {k j : Nat} (f : LineMeta → LineMeta) (h : j ≠ k) : (s.modLine k f).line j = s.line j :=
  kvGet_kvSet_ne _ _ _ h

/-! ## A run is undone (18 R376) -/

/-- Memory and lines alone differ. -/
def LinesOnly (s u : State) : Prop := u = { s with mem := u.mem, lines := u.lines }

theorem LinesOnly.trans {s p u : State} (h : LinesOnly s p) (g : LinesOnly p u) : LinesOnly s u := MatrixUnit.stored_trans h g

theorem linesOnly_unclaim (l : List Claim) (s : State) : LinesOnly s (s.unclaim l) := by
  induction l generalizing s with
  | nil => rfl
  | cons c rest ih =>
    rw [State.unclaim]
    split
    · exact .trans (p := s.modLine _ _) rfl (ih _)
    · exact ih s

theorem linesOnly_resetLine (s : State) (k : Nat) : LinesOnly s (s.resetLine k) := by
  rw [LinesOnly, State.resetLine, State.setLine]

theorem linesOnly_resetLines (l : List Nat) (s : State) : LinesOnly s (s.resetLines l) := by
  induction l generalizing s with
  | nil => rfl
  | cons k rest ih =>
    unfold State.resetLines
    exact (linesOnly_resetLine s k).trans (ih _)

theorem linesOnly_untouch (l : List Nat) (s : State) : LinesOnly s (s.untouch l) := by
  induction l generalizing s with
  | nil => rfl
  | cons k rest ih => exact .trans (p := s.modLine _ _) rfl (ih _)

theorem LinesOnly.tiles {s u : State} (h : LinesOnly s u) : u.tiles = s.tiles := by rw [h]

theorem LinesOnly.fab {s u : State} (h : LinesOnly s u) : u.fab = s.fab := by rw [h]

theorem tiles_undoRun (s : State) (t : Nat) (r : Run) : (s.undoRun t r).tiles = (s.modTile t fun v => v.dropRun r).tiles := by
  simp only [State.undoRun, State.clearWr, State.supersede, State.restoreStreams, State.dropRetry, State.modTile, State.setTile, State.tile,
    (linesOnly_untouch _ _).tiles, (linesOnly_resetLines _ _).tiles, modCtx_tiles, (linesOnly_unclaim _ _).tiles]

theorem run?_undoRun (s : State) (t u : Nat) (r : Run) : (s.undoRun t r).run? u = if u = t then none else s.run? u := by
  have htile : (s.undoRun t r).tile u = (s.modTile t fun v => v.dropRun r).tile u :=
    congrArg (fun l => kvGet ({} : Tile) l u) (tiles_undoRun s t r)
  rw [State.run?, htile, tile_modTile]
  split <;> rfl

theorem retry_undoRun {s : State} (h : s.fab.retry = []) (t : Nat) (r : Run) : (s.undoRun t r).fab.retry = [] := by
  simp only [State.undoRun, State.clearWr, State.supersede, State.restoreStreams, State.dropRetry, modTile_fab,
    (linesOnly_untouch _ _).fab, (linesOnly_resetLines _ _).fab, modCtx_fab, (linesOnly_unclaim _ _).fab, h, List.filter_nil]

theorem run?_undoRuns (l : List (Nat × Run)) (s : State) (u : Nat) :
    (s.undoRuns l).run? u = if u ∈ l.map Prod.fst then none else s.run? u := by
  induction l generalizing s with
  | nil => rfl
  | cons x rest ih =>
    rw [State.undoRuns, ih, run?_undoRun, List.map_cons]
    grind

theorem retry_undoRuns {s : State} (h : s.fab.retry = []) (l : List (Nat × Run)) : (s.undoRuns l).fab.retry = [] := by
  induction l generalizing s with
  | nil => exact h
  | cons x rest ih => exact ih (retry_undoRun h x.1 x.2)

/-! ## Placed entries leave (13 R290) -/

theorem run?_dropPlaced (s : State) (t u : Nat) (p : Placed) : (s.dropPlaced t p).run? u = s.run? u := by
  have htiles : (s.dropPlaced t p).tiles = (s.modTile t fun v =>
      { v with queue := v.queue.filter fun q => !(q.inst == p.inst && q.idx == p.idx && q.twin == p.twin) }).tiles := by
    simp only [State.dropPlaced, State.supersede, State.modTile, State.setTile, State.tile, modCtx_tiles, (linesOnly_resetLines _ _).tiles]
  have htile := congrArg (fun l => kvGet ({} : Tile) l u) htiles
  refine (congrArg Tile.run (htile.trans (tile_modTile s t u _))).trans ?_
  split
  · next h => rw [h, State.run?]
  · rfl

theorem retry_dropPlaced (s : State) (t : Nat) (p : Placed) : (s.dropPlaced t p).fab.retry = s.fab.retry := by
  simp only [State.dropPlaced, State.supersede, modTile_fab, modCtx_fab, (linesOnly_resetLines _ _).fab]

theorem run?_dropPlaces (l : List (Nat × Placed)) (s : State) (u : Nat) : (s.dropPlaces l).run? u = s.run? u := by
  induction l generalizing s with
  | nil => rfl
  | cons x rest ih => exact (ih _).trans (run?_dropPlaced s x.1 u x.2)

theorem retry_dropPlaces (l : List (Nat × Placed)) (s : State) : (s.dropPlaces l).fab.retry = s.fab.retry := by
  induction l generalizing s with
  | nil => rfl
  | cons x rest ih => exact (ih _).trans (retry_dropPlaced s x.1 x.2)

/-- A tile that runs a task is listed among those that do. -/
theorem mem_running {s : State} {t : Nat} {r : Run} (h : s.run? t = some r) : (t, r) ∈ s.running := by
  rcases kvGet_eq_or_mem ({} : Tile) s.tiles t with hdef | hmem
  · rw [State.run?, State.tile, hdef] at h
    cases h
  · exact List.mem_filterMap.2 ⟨_, hmem, by rw [show (kvGet ({} : Tile) s.tiles t).run = some r from h, Option.map_some]⟩

/-- No task of a killed context runs. -/
theorem ctx_of_run?_killCtx {s : State} {ctx : BitVec 32} {t : Nat} {r : Run} (h : (s.killCtx ctx).run? t = some r) : r.ctx ≠ ctx := by
  rw [State.killCtx, run?_dropPlaces, run?_undoRuns] at h
  split at h
  · cases h
  · next hout =>
    intro hctx
    exact hout (List.mem_map.2 ⟨(t, r), List.mem_filter.2 ⟨mem_running h, by simpa using hctx⟩, rfl⟩)

theorem retry_killCtx {s : State} (h : s.fab.retry = []) (ctx : BitVec 32) : (s.killCtx ctx).fab.retry = [] := by
  rw [State.killCtx, retry_dropPlaces, retry_undoRuns h]

/-! ## Bank memory is zero (09 R198; 19 R391) -/

/-- The releases under way to bank memory change lines alone. -/
theorem linesOnly_released (l : List Nat) (s : State) :
    LinesOnly s (l.foldl (fun s k => s.modLine k fun m => { m with full := true }) s) := by
  induction l generalizing s with
  | nil => rfl
  | cons k rest ih => exact .trans (p := s.modLine _ _) rfl (ih _)

theorem tiles_zeroBank (s : State) (ctx : BitVec 32) : (s.zeroBank ctx).tiles = s.tiles := (linesOnly_released _ s).tiles

theorem retry_zeroBank (s : State) (ctx : BitVec 32) : (s.zeroBank ctx).fab.retry = s.fab.retry :=
  have h := congrArg Fabric.retry (linesOnly_released (s.releasesTo ctx) s).fab
  h

theorem run?_zeroBank (s : State) (ctx : BitVec 32) (t : Nat) : (s.zeroBank ctx).run? t = s.run? t :=
  congrArg (fun l => (kvGet ({} : Tile) l t).run) (tiles_zeroBank s ctx)

theorem read_filter (m : Memory) {keep : Host.Cell → Bool} {l : Nat} (h : ∀ b, keep (l, b) = false) :
    Memory.read { cells := m.cells.filter keep } l = 0 := by
  rcases kvGet_eq_or_mem unlistedByte (m.cells.filter keep) l with hdef | hmem
  · exact hdef
  · exact absurd (List.mem_filter.1 hmem).2 (by simp [h])

theorem ofBank_iff {ctx : BitVec 32} {l : Nat} :
    ofBank ctx l = true ↔ locSpace l = spBank ∧ locPkg l = 0 ∧ locCtx l = ctx.toNat := by
  simp [ofBank, and_assoc]

/-- A line lies where its bytes do. -/
theorem ofBank_line (ctx : BitVec 32) (l : Nat) : ofBank ctx (128 * lineKey l) = ofBank ctx l := by
  simp only [ofBank, locSpace, locPkg, locCtx, lineKey]
  have h1 : 128 * (l / 128) / 2 ^ 96 = l / 2 ^ 96 := by omega
  have h2 : 128 * (l / 128) / 2 ^ 84 = l / 2 ^ 84 := by omega
  have h3 : 128 * (l / 128) / 2 ^ 52 = l / 2 ^ 52 := by omega
  rw [h1, h2, h3]

theorem read_zeroBank (s : State) {ctx : BitVec 32} {l : Nat} (h : ofBank ctx l = true) : (s.zeroBank ctx).mem.read l = 0 :=
  read_filter _ fun _ => by simp [h]

theorem pois_zeroBank (s : State) {ctx : BitVec 32} {k : Nat} (h : ofBank ctx (128 * k) = true) :
    ((s.zeroBank ctx).line k).pois = false := by
  rcases kvGet_eq_or_mem ({} : LineMeta) (s.zeroBank ctx).lines k with hdef | hmem
  · exact congrArg LineMeta.pois hdef
  · obtain ⟨⟨j, m⟩, _, hx⟩ := List.mem_filterMap.1 hmem
    show (kvGet ({} : LineMeta) (s.zeroBank ctx).lines k).pois = false
    generalize kvGet ({} : LineMeta) (s.zeroBank ctx).lines k = v at hx
    split at hx
    · next hout =>
      cases hx
      rw [h] at hout
      cases hout
    · split at hx
      · cases hx
        rfl
      · cases hx

/-! ## Lines scrambled (19 R390, R399) -/

section Scramble

variable (s : State) (k : Nat) (bs : List Byte) (p : Bool) (h : bs.length = 128)
include h

theorem store_eq_storeLine : s.store (128 * k) bs p = s.storeLine (128 * k) bs p := by
  rw [State.store, Peers.cutLines_within (by omega) (by omega), State.storeCut, Nat.sub_self, List.drop_zero, List.take_length]
  rfl

theorem line_store_ne {j : Nat} (hj : j ≠ k) : (s.store (128 * k) bs p).line j = s.line j := by
  rw [store_eq_storeLine s k bs p h]
  exact line_modLine_ne _ _ (by rw [lineKey]; omega)

end Scramble

theorem length_freeBytes (k n : Nat) : (freeBytes k n).length = n := by simp [freeBytes]

/-- One line scrambled. -/
def scrambled (s : State) (k : Nat) : State :=
  (({ s with free := s.free + 128 } : State).store (128 * k) (freeBytes s.free 128) (s.line k).pois).modLine k fun m => { m with chk := 1 }

theorem scramble_cons (s : State) (k : Nat) (rest : List Nat) : s.scramble (k :: rest) = (scrambled s k).scramble rest := rfl

theorem chkBad_scrambled (s : State) (k : Nat) : ((scrambled s k).line k).chkBad = true := by
  rw [scrambled, State.modLine, MatrixUnit.line_setLine_of_ne (fun hm => by cases congrArg LineMeta.chk hm), if_pos rfl]
  rfl

theorem line_scrambled_ne (s : State) {k j : Nat} (h : j ≠ k) : (scrambled s k).line j = s.line j :=
  (line_modLine_ne _ _ h).trans (line_store_ne _ k _ _ (length_freeBytes _ _) h)

theorem read_scrambled_ne (s : State) {k a : Nat} (h : lineKey a ≠ k) : (scrambled s k).mem.read a = s.mem.read a := by
  rw [scrambled, modLine_mem, store_mem]
  refine read_writes_ne _ _ ?_
  rw [length_freeBytes]
  rw [lineKey] at h
  omega

theorem scramble_ne (l : List Nat) (s : State) {k : Nat} (h : k ∉ l) :
    (s.scramble l).line k = s.line k ∧ ∀ a, lineKey a = k → (s.scramble l).mem.read a = s.mem.read a := by
  induction l generalizing s with
  | nil => exact ⟨rfl, fun _ _ => rfl⟩
  | cons j rest ih =>
    obtain ⟨hj, hrest⟩ := not_or.1 (List.mem_cons.not.1 h)
    obtain ⟨hline, hread⟩ := ih (scrambled s j) hrest
    rw [scramble_cons]
    exact ⟨hline.trans (line_scrambled_ne s hj), fun a ha => (hread a ha).trans (read_scrambled_ne s (ha ▸ hj))⟩

theorem chkBad_scramble (l : List Nat) (s : State) {k : Nat} (h : k ∈ l ∨ (s.line k).chkBad = true) :
    ((s.scramble l).line k).chkBad = true := by
  induction l generalizing s with
  | nil => exact h.resolve_left List.not_mem_nil
  | cons j rest ih =>
    rw [scramble_cons]
    refine ih (scrambled s j) ?_
    by_cases hj : k = j
    · exact .inr (hj ▸ chkBad_scrambled s k)
    · rw [line_scrambled_ne s hj]
      exact h.imp_left fun hmem => (List.mem_cons.1 hmem).resolve_left hj

/-! ## CTX_DESTROY (19 R391) -/

/-- The lines whose keys go with a context. -/
def linesLost (s : State) (ctx : BitVec 32) : List Nat :=
  match s.ctx? ctx with
  | some c => s.linesHeld c
  | none => []

/-- The state in which nothing of a context is kept: its tasks are killed, its bank memory is zero, and the rest is discarded. -/
def withoutCtx (s : State) (ctx : BitVec 32) : State := ((s.killCtx ctx).zeroBank ctx).discardCtx ctx

theorem destroyCtx_eq (s : State) (ctx : BitVec 32) :
    s.destroyCtx ctx = (withoutCtx s ctx).serve.scramble (linesLost s ctx) := rfl

/-- A line whose keys go is one of HBM4 or DDR-5, not of bank memory (19 R399). -/
theorem not_ofBank_of_lost {s : State} {ctx c : BitVec 32} {k : Nat} (h : k ∈ linesLost s ctx) : ofBank c (128 * k) = false := by
  unfold linesLost at h
  split at h
  · have hkept := (List.mem_filter.1 h).2
    simp only [Bool.and_eq_true] at hkept
    obtain ⟨⟨hsealed, _⟩, _⟩ := hkept
    simp only [sealedAt, Bool.and_eq_true, Bool.or_eq_true, beq_iff_eq] at hsealed
    obtain ⟨_, hspace⟩ := hsealed
    refine Bool.eq_false_iff.2 fun hbank => ?_
    obtain ⟨hbank, _⟩ := ofBank_iff.1 hbank
    rw [hbank] at hspace
    revert hspace
    decide
  · cases h

theorem owners_destroyCtx (s : State) (ctx : BitVec 32) :
    owners (s.destroyCtx ctx) = owners (withoutCtx s ctx) := by
  obtain ⟨htiles, hctxs, hinsts, _⟩ := scramble_keeps (linesLost s ctx) (withoutCtx s ctx).serve
  rw [destroyCtx_eq, owners_of_parts hctxs hinsts htiles, owners_serve]

theorem run?_discardCtx (s : State) (ctx : BitVec 32) (t : Nat) : (s.discardCtx ctx).run? t = s.run? t := by
  refine kvGet_map_part Tile.run {} _ (fun x => ?_) (fun x => ?_) s.tiles t
  · rfl
  · dsimp only
    split <;> rfl

/-- What is left when all of a context is discarded is of another. -/
theorem ne_of_mem_filter {α : Type} {f : α → BitVec 32} {ctx : BitVec 32} {l : List α} {x : α} (h : x ∈ l.filter fun y => f y != ctx) :
    f x ≠ ctx := bne_iff_ne.1 (List.mem_filter.1 h).2

/-- The context of a run is that of its tile among the owners. -/
theorem ctx_of_owners {s u : State} (h : owners u = owners s) {t : Nat} {r : Run} (hr : u.run? t = some r) :
    ∃ q, s.run? t = some q ∧ q.ctx = r.ctx := by
  have howner : (u.run? t).map Run.ctx = (s.run? t).map Run.ctx := congrFun (congrArg (fun x => x.2.2) h) t
  rw [hr, Option.map_some] at howner
  exact Option.map_eq_some_iff.1 howner.symm

section Destroyed

variable (s : State) (ctx : BitVec 32)

theorem ctxs_destroyCtx : ∀ c ∈ (s.destroyCtx ctx).ctxs, c.id ≠ ctx := by
  intro c hc
  have hids : (s.destroyCtx ctx).ctxs.map Ctx.id = (withoutCtx s ctx).ctxs.map Ctx.id :=
    congrArg Prod.fst (owners_destroyCtx s ctx)
  obtain ⟨d, hd, hid⟩ := List.mem_map.1 (hids ▸ List.mem_map_of_mem hc)
  exact hid ▸ ne_of_mem_filter hd

theorem insts_destroyCtx : ∀ i ∈ (s.destroyCtx ctx).insts, i.ctx ≠ ctx := by
  intro i hi
  have hctxs : (s.destroyCtx ctx).insts.map Inst.ctx = (withoutCtx s ctx).insts.map Inst.ctx :=
    congrArg (fun x => x.2.1) (owners_destroyCtx s ctx)
  obtain ⟨j, hj, hctx⟩ := List.mem_map.1 (hctxs ▸ List.mem_map_of_mem hi)
  exact hctx ▸ ne_of_mem_filter hj

theorem runs_destroyCtx {t : Nat} {r : Run} (h : (s.destroyCtx ctx).run? t = some r) : r.ctx ≠ ctx := by
  obtain ⟨q, hq, hctx⟩ := ctx_of_owners (owners_destroyCtx s ctx) h
  rw [withoutCtx, run?_discardCtx, run?_zeroBank] at hq
  exact hctx ▸ ctx_of_run?_killCtx hq

end Destroyed

/-- Where no access waits, a context is destroyed without one going on. -/
theorem destroyCtx_of_no_retry {s : State} (h : s.fab.retry = []) (ctx : BitVec 32) :
    s.destroyCtx ctx = (withoutCtx s ctx).scramble (linesLost s ctx) := by
  have hretry : (withoutCtx s ctx).fab.retry = [] := (retry_zeroBank _ ctx).trans (retry_killCtx h ctx)
  rw [destroyCtx_eq, MatrixUnit.serve_of_no_retry hretry]

/-- What lies in bank memory of the context is zero and not poisoned. -/
theorem bank_destroyCtx {s : State} (h : s.fab.retry = []) {ctx : BitVec 32} {l : Nat} (hl : ofBank ctx l = true) :
    (s.destroyCtx ctx).mem.read l = 0 ∧ ((s.destroyCtx ctx).line (lineKey l)).pois = false := by
  have hbank : ofBank ctx (128 * lineKey l) = true := (ofBank_line ctx l).trans hl
  have hkept : lineKey l ∉ linesLost s ctx := fun hlost => Bool.false_ne_true ((not_ofBank_of_lost hlost).symm.trans hbank)
  obtain ⟨hline, hread⟩ := scramble_ne _ (withoutCtx s ctx) hkept
  rw [destroyCtx_of_no_retry h, hline, hread l rfl]
  exact ⟨read_zeroBank _ hl, pois_zeroBank _ hbank⟩

/-- A line that the context held fails its check value. -/
theorem chkBad_destroyCtx {s : State} (h : s.fab.retry = []) {ctx : BitVec 32} {c : Ctx} (hc : s.ctx? ctx = some c) {k : Nat}
    (hk : k ∈ s.linesHeld c) : ((s.destroyCtx ctx).line k).chkBad = true := by
  rw [destroyCtx_of_no_retry h]
  refine chkBad_scramble _ _ (.inl ?_)
  rw [linesLost, hc]
  exact hk

/-! ## CTX_CREATE (19 R389, R390) -/

theorem createCtx_eq (s : State) {d : List Byte} (h : (wordAt d 0).setWidth 32 ≠ (0 : BitVec 32)) :
    s.createCtx d = { s with
      free := s.free + 4
      ctxs := s.ctxs ++ [({ id := (wordAt d 0).setWidth 32, keys := freshKeys s.free } : Ctx).described d] } := by
  have hid : BitVec.ofNat 32 (bitsAt (wordAt d 0) 0 32) = (wordAt d 0).setWidth 32 := by
    apply BitVec.eq_of_toNat_eq
    simp [bitsAt]
  rw [State.createCtx, hid]
  exact if_neg h

/-- Settles O55: what a context leaves is filtered out of each list, its bank memory is filtered out of memory and lines, and what the
scrambled lines hold lies elsewhere. -/
theorem contextLife : Obligations.ContextLife := by
  unfold Obligations.ContextLife
  refine ⟨fun s d hid => ?created, fun s ctx => ⟨?gone, insts_destroyCtx s ctx, fun t r => runs_destroyCtx s ctx, ?left⟩⟩
  case created =>
    rw [createCtx_eq s hid]
    exact ⟨_, rfl, rfl, rfl, by simp [Ctx.described, bitsAt], rfl, rfl, rfl, rfl, rfl, rfl, rfl, rfl, rfl, rfl, rfl, rfl⟩
  case gone =>
    exact List.find?_eq_none.2 fun c hc => by simpa using ctxs_destroyCtx s ctx c hc
  case left =>
    rintro u rfl hretry
    obtain ⟨_, _, _, hropes, hfab, _⟩ := scramble_keeps (linesLost s ctx) (withoutCtx s ctx)
    rw [← destroyCtx_of_no_retry hretry] at hropes hfab
    have hparked := congrArg Fabric.parked hfab
    have hcreations := congrArg Fabric.creations hfab
    have hcopies := congrArg Fabric.copies hfab
    exact ⟨fun l hspace hpkg hctx => bank_destroyCtx hretry (ofBank_iff.2 ⟨hspace, hpkg, hctx⟩),
      fun x hx => ne_of_mem_filter (hropes ▸ hx), fun d hd => ne_of_mem_filter (hparked ▸ hd),
      fun c hc => ne_of_mem_filter (hcreations ▸ hc), fun c hc => ne_of_mem_filter (hcopies ▸ hc), ctxs_destroyCtx s ctx,
      fun c k hc hk => chkBad_destroyCtx hretry hc hk⟩

end Sys2Proof.Contexts
end

section
/-! The family 14_dispatch, steps: O3, O4 and O7. -/
namespace Sys2Proof.Steps
open Machine Laws

/-- Settles O3: each word is read by its row and format. -/
theorem decodeWords : Obligations.DecodeWords := by
  unfold Obligations.DecodeWords
  decide

theorem runHere_decoded {s : State} {e : Env} {w : Word} {i : Instr} (he : s.env? = some e) (hw : e.p.words[e.k]? = some w)
    (hi : decode w = .ok i) : s.runHere = exec i s := by
  simp [State.runHere, he, hw, hi]

/-- Settles O4: the slot that moves is the cursor's by default, else the one its turn names; both run what the word decodes to. -/
theorem stepRunsDecoded : Obligations.StepRunsDecoded := by
  refine ⟨fun s e w i ha hg he hw hi => ?_, fun s dt t k rest u e w i ha hu hc he hw hi => ?_, fun s dt i rest u ha hu hadm => ?_⟩
  · have hmove : (s.tick 1).move .auto = exec i (s.tick 1) := by
      simp only [State.move, State.byDefault, hg, if_true]
      exact runHere_decoded he hw hi
    simp [step, ha, hmove]
  · have hmove : (({ s with agenda := rest } : State).tick dt).move (.slot t k) = exec i u := by
      subst hu
      simp only [State.move, State.runSlot, hc, if_true]
      exact runHere_decoded he hw hi
    simp [step, ha, hmove]
  · have hmove : (({ s with agenda := rest } : State).tick dt).move (.event i) = exec i u := by
      subst hu
      simp [State.move, State.occur, hadm]
    simp [step, ha, hmove]

/-- What reads as zero byte by byte has the value zero. -/
theorem value_eq_zero {m : Memory} (h : ∀ a, m.read a = 0) (a n : Nat) : m.value a n = 0 := by
  have hb : m.bytes a n = List.replicate n 0 := by
    induction n generalizing a with
    | zero => rfl
    | succ n ih => simp [Memory.bytes, h, ih, List.replicate_succ]
  have hz : ∀ n, leNat (List.replicate n (0#8)) = 0 := fun n => by
    induction n with
    | zero => rfl
    | succ n ih => simp [List.replicate_succ, leNat, ih]
  rw [Memory.value, hb]
  exact hz n

theorem lineData_reset (k : Nat) : State.reset.lineData k = 0 := by
  rw [State.lineData, value_eq_zero fun a => rfl]
  rfl

/-- Settles O7: nothing is listed, so every byte and every line reads as its default. -/
theorem resetState : Obligations.ResetState :=
  ⟨⟨by decide, by decide⟩, fun k => ⟨rfl, lineData_reset k⟩, by decide, rfl, rfl, rfl, fun _ => ⟨rfl, rfl, rfl, rfl⟩,
    by decide, rfl, rfl⟩

end Sys2Proof.Steps
end

section
/-! The family 09_memory_catalogue, the canonical form of memory and lines: what an operation of the state keeps. -/

namespace Sys2Proof.Canon
open Machine Laws

/-- `Canonical`, as one fact that every operation of the state keeps. -/
def Formed (s : State) : Prop := Canonical s

/-- The lines are in their canonical form. -/
def LinesFormed (l : List (Nat × LineMeta)) : Prop := kvWf {} l = true

@[simp] theorem Formed.mem {s : State} (h : Formed s) : s.mem.wf = true := h.1

@[simp] theorem Formed.lines {s : State} (h : Formed s) : LinesFormed s.lines := h.2

/-- A state is formed by its memory and lines alone. -/
@[simp] theorem formed_mk (m : Memory) (l ti c i r f d p cy fo fr ag o) :
    Formed ⟨m, l, ti, c, i, r, f, d, p, cy, fo, fr, ag, o⟩ ↔ m.wf = true ∧ LinesFormed l := Iff.rfl

@[simp] theorem linesFormed_kvSet {l : List (Nat × LineMeta)} (h : LinesFormed l) (k : Nat) (m : LineMeta) :
    LinesFormed (kvSet {} l k m) := kvWf_kvSet k m h

@[simp] theorem linesFormed_filter {l : List (Nat × LineMeta)} (h : LinesFormed l) (p) : LinesFormed (l.filter p) :=
  kvWf_filter p h

@[simp] theorem wf_writes {m : Memory} (h : m.wf = true) (a : Nat) (bs : List Byte) : (m.writes a bs).wf = true :=
  writes_wf a bs h

@[simp] theorem wf_filter {m : Memory} (h : m.wf = true) (p) : Memory.wf { cells := m.cells.filter p } = true := filter_wf p h

@[simp] theorem formed_ite (c : Prop) [Decidable c] (s t : State) :
    Formed (if c then s else t) ↔ (c → Formed s) ∧ (¬c → Formed t) := by
  split <;> simp_all

theorem Formed.ite {c : Prop} [Decidable c] {s t : State} (hs : Formed s) (ht : Formed t) : Formed (if c then s else t) := by
  split <;> assumption

/-- What is neither memory nor lines may be anything. -/
theorem Formed.rest {s : State} {ti c i r f d p cy fo fr ag o} (h : Formed s) :
    Formed ⟨s.mem, s.lines, ti, c, i, r, f, d, p, cy, fo, fr, ag, o⟩ := h

theorem Formed.of_rings {s t : State} (k : RingsOnly s t) (h : Formed s) : Formed t := ⟨k.mem h.1, k.lines h.2⟩

@[simp] theorem formed_getD {o : Option State} {s : State} (ho : ∀ t, o = some t → Formed t) (hs : Formed s) :
    Formed (o.getD s) := by
  cases o <;> simp_all

/-- The state that a command leaves. -/
def stateOf : CmdEnd → State
  | .done s _ _ => s
  | .waits s => s

@[simp] theorem formed_done (s : State) (a b : Nat) : Formed (stateOf (.done s a b)) ↔ Formed s := Iff.rfl
@[simp] theorem formed_waits (s : State) : Formed (stateOf (.waits s)) ↔ Formed s := Iff.rfl

/-- An answer that is a next state, formed where the state was. -/
def Leads (s : State) (x : Host.Outcome State Fault Refusal) : Prop := ∃ t, x = .next t ∧ (Formed s → Formed t)

@[simp] theorem leads_next (s t : State) : Leads s (.next t) ↔ (Formed s → Formed t) := by
  simp [Leads]

theorem Leads.next {s t : State} (h : Formed s → Formed t) : Leads s (.next t) := ⟨t, rfl, h⟩

@[simp] theorem leads_ite (c : Prop) [Decidable c] (s : State) (x y) :
    Leads s (if c then x else y) ↔ (c → Leads s x) ∧ (¬c → Leads s y) := by
  split <;> simp_all

variable {s : State}

/-! ## Memory and lines -/

@[simp] theorem Formed.setLine {k m} (h : Formed s) : Formed (s.setLine k m) := ⟨h.1, setLine_lines_wf k m h.2⟩
@[simp] theorem Formed.modLine {k f} (h : Formed s) : Formed (s.modLine k f) := h.setLine
@[simp] theorem Formed.store {l bs p} (h : Formed s) : Formed (s.store l bs p) := h.of_rings (rings_store s l bs p)

/-! ## Tiles, instances, dies and ports -/

@[simp] theorem Formed.setCtx {c} (h : Formed s) : Formed (s.setCtx c) := h
@[simp] theorem Formed.modCtx {id f} (h : Formed s) : Formed (s.modCtx id f) := h
@[simp] theorem Formed.modPort {p f} (h : Formed s) : Formed (s.modPort p f) := h
@[simp] theorem Formed.setTile {t v} (h : Formed s) : Formed (s.setTile t v) := h
@[simp] theorem Formed.modTile {t f} (h : Formed s) : Formed (s.modTile t f) := h
@[simp] theorem Formed.setRun {t r} (h : Formed s) : Formed (s.setRun t r) := h
@[simp] theorem Formed.modRun {t f} (h : Formed s) : Formed (s.modRun t f) := by
  unfold State.modRun
  split <;> simp [h]

@[simp] theorem Formed.setPitch {t p} (h : Formed s) : Formed (s.setPitch t p) := h.modRun
@[simp] theorem Formed.modCluster {c f} (h : Formed s) : Formed (s.modCluster c f) := h
@[simp] theorem Formed.modInst {id f} (h : Formed s) : Formed (s.modInst id f) := h
@[simp] theorem Formed.modRec {id idx f} (h : Formed s) : Formed (s.modRec id idx f) := h
@[simp] theorem Formed.modDie {d f} (h : Formed s) : Formed (s.modDie d f) := h
@[simp] theorem Formed.count {d f} (h : Formed s) : Formed (s.count d f) := h
@[simp] theorem Formed.nextFree (h : Formed s) : Formed s.nextFree := h

/-! ## Packets, rings and records (13 R271-R280; 18 R386) -/

@[simp] theorem Formed.sendPort {p chan o} (h : Formed s) : Formed (s.sendPort p chan o) := by simp [State.sendPort, h]
@[simp] theorem Formed.resend {p f} (h : Formed s) : Formed (s.resend p f) := h
@[simp] theorem Formed.sendTo {l chan o} (h : Formed s) : Formed (s.sendTo l chan o) := by
  unfold State.sendTo
  split <;> simp [h]

@[simp] theorem Formed.answerPeer {port bs pois checks} (h : Formed s) : Formed (s.answerPeer port bs pois checks) := by
  simp [State.answerPeer, h]

@[simp] theorem Formed.faultPeer {port code} (h : Formed s) : Formed (s.faultPeer port code) := by simp [State.faultPeer, h]
@[simp] theorem Formed.notify {ctx vec} (h : Formed s) : Formed (s.notify ctx vec) := h.of_rings (rings_notify s ctx vec)
@[simp] theorem Formed.noteLine {ctx key} (h : Formed s) : Formed (s.noteLine ctx key) := h.of_rings (rings_noteLine s ctx key)
@[simp] theorem Formed.noteRing {ctx q} (h : Formed s) : Formed (s.noteRing ctx q) := h.of_rings (rings_noteRing s ctx q)
@[simp] theorem Formed.qcbWord {ctx l o w} (h : Formed s) : Formed (s.qcbWord ctx l o w) := h.of_rings (rings_qcbWord s ctx l o w)
@[simp] theorem Formed.qcbErr {ctx q} (h : Formed s) : Formed (s.qcbErr ctx q) := h.qcbWord
@[simp] theorem Formed.ringAppend {ctx q l bs} (h : Formed s) : Formed (s.ringAppend ctx q l bs) :=
  h.of_rings (rings_append s ctx q l bs)

@[simp] theorem Formed.record {ctx r} (h : Formed s) : Formed (s.record ctx r) := h.of_rings (rings_record s ctx r)
@[simp] theorem Formed.recordAwait {ctx r o} (h : Formed s) : Formed (s.recordAwait ctx r o) :=
  h.of_rings (rings_recordAwait s ctx r o)

@[simp] theorem Formed.ringError {ctx va f} (h : Formed s) : Formed (s.ringError ctx va f) :=
  h.of_rings (rings_ringErr s ctx va f)
theorem Formed.acceptMessage {t : State} {ctx m w} (h : Formed s) (ht : s.acceptMessage ctx m w = some t) : Formed t :=
  h.of_rings (rings_accept ht)

/-! ## Lines read and written for a context (09 R206; 19 R402) -/

@[simp] theorem Formed.countMismatch {ctx} (h : Formed s) : Formed (s.countMismatch ctx) := h
@[simp] theorem Formed.failLine {ctx k} (h : Formed s) : Formed (s.failLine ctx k) := h.of_rings (rings_failLine s ctx k)
@[simp] theorem Formed.verifyLine {ctx k} (h : Formed s) : Formed (s.verifyLine ctx k) := h.of_rings (rings_verifyLine s ctx k)
@[simp] theorem Formed.verifyLines {ctx l} (h : Formed s) : Formed (s.verifyLines ctx l) := h.of_rings (rings_verifyLines s ctx l)
@[simp] theorem Formed.gotPoison {ctx l p} (h : Formed s) : Formed (s.gotPoison ctx l p) := h.of_rings (rings_gotPoison s ctx l p)
@[simp] theorem Formed.readLine {ctx k} (h : Formed s) : Formed (s.readLine ctx k) := h.of_rings (rings_readLine s ctx k)
@[simp] theorem Formed.readLines {ctx l} (h : Formed s) : Formed (s.readLines ctx l) := h.of_rings (rings_readLines s ctx l)
@[simp] theorem Formed.storeFor {ctx l bs p} (h : Formed s) : Formed (s.storeFor ctx l bs p) :=
  h.of_rings (rings_storeFor s ctx l bs p)

@[simp] theorem Formed.tellLines {ctx l} (h : Formed s) : Formed (s.tellLines ctx l) := by
  induction l generalizing s with
  | nil => exact h
  | cons k rest ih => exact ih h.record

@[simp] theorem Formed.tellMismatches {l} (h : Formed s) : Formed (s.tellMismatches l) := by
  induction l generalizing s with
  | nil => exact h
  | cons c rest ih => exact ih h.modCtx.tellLines

@[simp] theorem Formed.verifyWords {ctx va n} (h : Formed s) : Formed (s.verifyWords ctx va n) := by
  induction n generalizing s va with
  | zero => exact h
  | succ n ih =>
    unfold State.verifyWords
    split <;> simp [ih, h]

@[simp] theorem Formed.verifyWalk {die ctx f} (h : Formed s) : Formed (s.verifyWalk die ctx f) := by
  unfold State.verifyWalk
  repeat' split
  all_goals simp [h]

/-! ## Taking a fault, and returning from one (18 R371-R373) -/

@[simp] theorem Formed.stallTask {r n x b} (h : Formed s) : Formed (s.stallTask r n x b) := h
@[simp] theorem Formed.takeFault {t sp r b} (h : Formed s) : Formed (s.takeFault t sp r b) := by
  unfold State.takeFault
  split
  · exact h
  · exact h.stallTask.modRec.recordAwait

@[simp] theorem Formed.retryFault {t} (h : Formed s) : Formed (s.retryFault t) := by
  unfold State.retryFault
  repeat' split
  all_goals simp [h]

/-! ## An instruction of a pitch (03 R59-R61) -/

@[simp] theorem Formed.touchPad {l} (h : Formed s) : Formed (s.touchPad l) := by
  induction l generalizing s with
  | nil => exact h
  | cons k rest ih =>
    unfold State.touchPad
    split <;> simp [ih, h]

@[simp] theorem Formed.envStore {e : Env} {p c} (h : Formed e.s) : Formed (e.store p c) := h
@[simp] theorem Formed.fireAt {i act} {e : Env} (h : Formed e.s) : Formed (fireAt i act e) := by
  unfold Machine.fireAt
  dsimp only
  split
  case h_4 =>
    simp only [formed_ite, h.envStore, implies_true, true_and]
    intro _ _ _
    split
    · exact h.envStore.touchPad.readLines.verifyWalk
    all_goals exact h.envStore.touchPad.readLines
  all_goals exact h.envStore

end Sys2Proof.Canon
end

section
/-! The canonical form: instructions of a pitch, their accesses and matrix work. -/

namespace Sys2Proof.Canon
open Machine Laws
variable {s : State} {e : Env} {c : CmdEnd}

@[simp] theorem Formed.storePiece {t pois p} (h : Formed s) : Formed (s.storePiece t pois p) := by
  simp [State.storePiece, h]

@[simp] theorem Formed.storePieces {t pois n} (h : Formed s) : Formed (s.storePieces t pois n) := by
  induction n generalizing s with
  | nil => exact h
  | cons x rest ih => exact ih h.storePiece

@[simp] theorem Formed.applyStores {t n} (h : Formed s) : Formed (s.applyStores t n) := by
  induction n generalizing s with
  | nil => exact h
  | cons x rest ih => exact ih h.storePieces

@[simp] theorem Formed.seenLines {bs} {l : List SectorRead} {ks : List Nat} (h : Formed s) :
    Formed (ks.foldl (fun s k => s.modLine k fun m =>
      m.seen ((boundSectors bs).filter fun o => lineKey o == k) (l.filter fun x => lineKey x.loc == k)) s) := by
  induction ks generalizing s with
  | nil => exact h
  | cons k rest ih => exact ih h.modLine

theorem wf_sectors {m : Memory} {l : List SectorRead} (h : m.wf = true) :
    (l.foldl (fun m x => m.writes x.loc (toBytes x.data.toNat 16)) m).wf = true := by
  induction l generalizing m with
  | nil => exact h
  | cons x rest ih => exact ih (writes_wf _ _ h)

@[simp] theorem Formed.asRead {bs l} (h : Formed s) : Formed (s.asRead bs l) := by
  unfold State.asRead
  exact Formed.seenLines ⟨wf_sectors h.1, h.2⟩

@[simp] theorem Formed.envReadSector {i} (h : Formed e.s) : Formed (e.readSector i) := by
  unfold Env.readSector
  repeat' split
  · exact h
  · exact h
  · exact h.envStore.rest.touchPad.readLine
  · exact h

@[simp] theorem Formed.padWrite {t off bs pois} (h : Formed s) : Formed (s.padWrite t off bs pois) := by
  simp [State.padWrite, h]

@[simp] theorem Formed.padWriteLines {t off bs n} (h : Formed s) : Formed (s.padWriteLines t off bs n) := by
  induction n generalizing s with
  | nil => exact h
  | cons x rest ih => exact ih h.padWrite

@[simp] theorem Formed.setFull {f n} (h : Formed s) : Formed (s.setFull f n) := by
  induction n generalizing s with
  | nil => exact h
  | cons x rest ih => simp [State.setFull, ih, h]

@[simp] theorem Formed.passRows {t arr acc crow scl iacc zacc row n m} (h : Formed s) :
    Formed (s.passRows t arr acc crow scl iacc zacc row n m) := by
  induction n generalizing s t arr acc crow m with
  | zero => exact h
  | succ n ih => exact ih h.setTile

@[simp] theorem Formed.storeRows {t acc w rows k} (h : Formed s) : Formed (s.storeRows t acc w rows k) := by
  induction rows generalizing s k with
  | zero => exact h
  | succ n ih => exact ih (h.padWrite.setFull.ite h.padWrite)

@[simp] theorem Formed.statRows {t acc w} (h : Formed s) : Formed (s.statRows t acc w) := h.padWriteLines
@[simp] theorem Formed.scaleRows {t acc exp w n m} (h : Formed s) : Formed (s.scaleRows t acc exp w n m) := by
  induction n generalizing s t acc m with
  | zero => exact h
  | succ n ih => exact ih h.setTile

@[simp] theorem Formed.examine (h : Formed s) : Formed (s.examine) := h
theorem Formed.fired {i act} (h : Formed s) : Formed (outcomeOr s (fire i act s)) := by
  unfold fire
  split
  · exact h
  · next e he => exact Formed.fireAt (by rwa [(env_state he).1])

@[simp] theorem Formed.fireFirst {i} (h : Formed s) : Formed (fireFirst s i) := by
  unfold Machine.fireFirst
  split
  case h_26 => exact h
  all_goals exact h.fired

@[simp] theorem Formed.fireSlot {k w} (h : Formed s) : Formed (s.fireSlot k w) := by
  unfold State.fireSlot
  split
  · exact h
  · exact h.modRun.fireFirst

@[simp] theorem Formed.fireSlots {n m} (h : Formed s) : Formed (s.fireSlots n m) := by
  induction m generalizing s n with
  | nil => exact h
  | cons x rest ih => exact ih h.fireSlot

@[simp] theorem Formed.beginPitch {t p} (h : Formed s) : Formed (s.beginPitch t p) := by
  unfold State.beginPitch
  split
  · exact h
  · exact h.setRun.rest.fireSlots.modRun.rest

@[simp] theorem Formed.fetchNext {t r} (h : Formed s) : Formed (s.fetchNext t r) := by
  unfold State.fetchNext
  dsimp only
  split
  · exact h.readLines.verifyWalk.takeFault
  · exact h.readLines.beginPitch

theorem leads_pitchFetch (tile) : Leads s (execPitchFetch tile s) := by
  unfold execPitchFetch
  repeat' split
  all_goals simp +contextual

theorem Formed.overwritten {a bs k m} (h : Formed s) : Formed (({ s with mem := s.mem.writes a bs } : State).setLine k m) :=
  Formed.setLine ⟨writes_wf a bs h.1, h.2⟩

@[simp] theorem Formed.resetLine {key} (h : Formed s) : Formed (s.resetLine key) := h.overwritten
@[simp] theorem Formed.resetLines {l} (h : Formed s) : Formed (s.resetLines l) := by
  induction l generalizing s with
  | nil => exact h
  | cons k rest ih =>
    unfold State.resetLines
    exact ih h.resetLine

@[simp] theorem Formed.untouch {n} (h : Formed s) : Formed (s.untouch n) := by
  induction n generalizing s with
  | nil => exact h
  | cons x rest ih => exact ih h.modLine

@[simp] theorem Formed.clearWr {t} (h : Formed s) : Formed (s.clearWr t) := h.untouch
@[simp] theorem Formed.resetPad {t} (h : Formed s) : Formed (s.resetPad t) := by
  simp [State.resetPad, h]

@[simp] theorem Formed.turnTile {t ctx} (h : Formed s) : Formed (s.turnTile t ctx) := by
  simp [State.turnTile, h]

@[simp] theorem Formed.dropRetry {t} (h : Formed s) : Formed (s.dropRetry t) := h
@[simp] theorem Formed.unclaim {n} (h : Formed s) : Formed (s.unclaim n) := by
  induction n generalizing s with
  | nil => exact h
  | cons x rest ih => simp [State.unclaim, ih, h]

@[simp] theorem Formed.restoreStreams {r} (h : Formed s) : Formed (s.restoreStreams r) := h
@[simp] theorem Formed.releaseStreams {r} (h : Formed s) : Formed (s.releaseStreams r) := h
@[simp] theorem Formed.supersede {ctx t copies} (h : Formed s) : Formed (s.supersede ctx t copies) := h
@[simp] theorem Formed.undoRun {t r} (h : Formed s) : Formed (s.undoRun t r) :=
  h.unclaim.dropRetry.restoreStreams.supersede.resetLines.clearWr.modTile.rest

@[simp] theorem Formed.dropPlaced {t p} (h : Formed s) : Formed (s.dropPlaced t p) := h.resetLines.supersede.modTile.rest
@[simp] theorem Formed.pendAgain {inst idx} (h : Formed s) : Formed (s.pendAgain inst idx) := h
@[simp] theorem Formed.undoRuns {n} (h : Formed s) : Formed (s.undoRuns n) := by
  induction n generalizing s with
  | nil => exact h
  | cons x rest ih => exact ih h.undoRun

@[simp] theorem Formed.unplaceOne {t p} (h : Formed s) : Formed (s.unplaceOne t p) := by
  simp [State.unplaceOne, h]

@[simp] theorem Formed.unplaceAll {t n} (h : Formed s) : Formed (s.unplaceAll t n) := by
  induction n generalizing s with
  | nil => exact h
  | cons x rest ih => exact ih h.unplaceOne

@[simp] theorem Formed.emptyQueue {t} (h : Formed s) : Formed (s.emptyQueue t) := h.unplaceAll
@[simp] theorem Formed.dropPlaces {n} (h : Formed s) : Formed (s.dropPlaces n) := by
  induction n generalizing s with
  | nil => exact h
  | cons x rest ih => exact ih h.dropPlaced

@[simp] theorem Formed.rollback {inst idx} (h : Formed s) : Formed (s.rollback inst idx) := h.undoRuns.dropPlaces
@[simp] theorem Formed.tally {ctx die f} (h : Formed s) : Formed (s.tally ctx die f) := h
@[simp] theorem Formed.abandonTask {inst idx e} (h : Formed s) : Formed (s.abandonTask inst idx e) := h.rollback.modRec.pendAgain
@[simp] theorem Formed.leaveRopes {inst idx} (h : Formed s) : Formed (s.leaveRopes inst idx) := h
@[simp] theorem Formed.reapInst {inst} (h : Formed s) : Formed (s.reapInst inst) := by
  unfold State.reapInst
  repeat' split
  all_goals simp [h]

@[simp] theorem Formed.endRecord {inst idx st counted} (h : Formed s) : Formed (s.endRecord inst idx st counted) := by
  unfold State.endRecord
  dsimp only
  repeat' split
  · exact h
  · exact h.modRec.tally.leaveRopes.reapInst
  · exact h.modRec.leaveRopes.reapInst

@[simp] theorem Formed.spillOne {ctx die} (h : Formed s) : ∀ u, (s.spillOne ctx die) = some u → Formed u := by
  unfold State.spillOne
  repeat' split
  all_goals simp [h]

theorem Formed.makeRoom {ctx die n} (h : Formed s) : ∀ u, s.makeRoom ctx die n = some u → Formed u := by
  induction n generalizing s with
  | zero => simp [State.makeRoom]
  | succ n ih =>
    intro u hu
    unfold State.makeRoom at hu
    split at hu
    · cases hu
    · split at hu
      · cases hu; exact h
      · split at hu
        · cases hu
        · next t ht => exact ih (h.spillOne t ht) u hu

theorem Formed.room {ctx die} (h : Formed s) : ∀ u, s.room ctx die = some u → Formed u := h.makeRoom
theorem Formed.reload {inst idx} (h : Formed s) : ∀ u, s.reload inst idx = some u → Formed u := by
  intro u hu
  unfold State.reload at hu
  split at hu
  · cases hu
  · split at hu
    · cases hu
    · split at hu
      · split at hu
        · cases hu
        · obtain ⟨t, ht, rfl⟩ := Option.map_eq_some_iff.1 hu
          exact (h.verifyWords.modRec.room t ht).count
      · cases hu
        exact h

@[simp] theorem Formed.toPending {inst idx} (h : Formed s) : Formed (s.toPending inst idx) := by
  unfold State.toPending
  split
  · next t i ht hi => exact (h.reload t ht).modRec.tally
  · exact h

@[simp] theorem Formed.reloadStuck {n} (h : Formed s) : Formed (s.reloadStuck n) := by
  induction n generalizing s with
  | zero => exact h
  | succ n ih =>
    unfold State.reloadStuck
    repeat' split
    all_goals simp [ih, h]

@[simp] theorem Formed.killTask {inst idx} (h : Formed s) : Formed (s.killTask inst idx) := by
  unfold State.killTask
  split
  · exact h
  · exact h.rollback.endRecord.reloadStuck

@[simp] theorem Formed.freeTile {t r} (h : Formed s) : Formed (s.freeTile t r) := h.clearWr.releaseStreams.modTile.rest
@[simp] theorem Formed.combine {ctx n m f pois} (h : Formed s) : Formed (s.combine ctx n m f pois) := h.verifyLines.storeFor
@[simp] theorem Formed.reduce {ctx n m} (h : Formed s) : Formed (s.reduce ctx n m) := by
  unfold State.reduce
  split <;> simp [h]

@[simp] theorem Formed.answerImm {t tok} (h : Formed s) : Formed (s.answerImm t tok) := h.modRun
@[simp] theorem Formed.faultImm {t r a code cause} (h : Formed s) : Formed (s.faultImm t r a code cause) := by
  unfold State.faultImm
  split <;> simp [h]

@[simp] theorem Formed.syncPerform {t r a m vec data} (h : Formed s) : Formed (s.syncPerform t r a m vec data) := by
  cases m
  case readfull => exact h.touchPad.readLine.answerImm
  case peek => exact h.touchPad.answerImm
  case consume => exact h.setFull.touchPad.readLine.answerImm
  case clear => exact h.setFull.answerImm
  all_goals exact h.storeFor.setFull.answerImm

@[simp] theorem Formed.syncDo {t r a m vec data} (h : Formed s) : Formed (s.syncDo t r a m vec data) := by
  simp [State.syncDo, h]

@[simp] theorem Formed.atomicPerform {t r a n signed f wpois} (h : Formed s) :
    Formed (s.atomicPerform t r a n signed f wpois) := by
  unfold State.atomicPerform
  dsimp only
  split
  · exact h.touchPad.readLine.storeFor.answerImm
  · exact h.touchPad.readLine.answerImm

@[simp] theorem Formed.enlist {e} (h : Formed s) : Formed (s.enlist e) := h
@[simp] theorem Formed.delist {e} (h : Formed s) : Formed (s.delist e) := h
@[simp] theorem Formed.grant {t k} (h : Formed s) : Formed (s.grant t k) := by
  unfold State.grant
  repeat' split
  all_goals simp [h]

@[simp] theorem Formed.peerSync {port ctx loc m vec data pois} (h : Formed s) :
    Formed (s.peerSync port ctx loc m vec data pois) := by
  cases m
  case readfull => exact h.verifyLine.answerPeer
  case peek => exact h.answerPeer
  case consume => exact h.verifyLine.setFull.answerPeer
  case clear => exact h.setFull.answerPeer
  all_goals exact h.storeFor.setFull.answerPeer

@[simp] theorem Formed.peerClaim {port key} (h : Formed s) : Formed (s.peerClaim port key) := h.modLine.answerPeer
@[simp] theorem Formed.serveEntry {e} (h : Formed s) : Formed (s.serveEntry e) := by
  unfold State.serveEntry
  dsimp only
  repeat' split
  all_goals simp [h]

@[simp] theorem Formed.serveFrom {n} (h : Formed s) : Formed (s.serveFrom n) := by
  induction n generalizing s with
  | zero => exact h
  | succ n ih =>
    unfold State.serveFrom
    split
    · exact h
    · exact ih h.examine.serveEntry

@[simp] theorem Formed.serve (h : Formed s) : Formed (s.serve) := h.serveFrom
@[simp] theorem Formed.syncAbsent {t r a m vec} (h : Formed s) : Formed (s.syncAbsent t r a m vec) :=
  (h.readLine.ite h).answerImm

@[simp] theorem Formed.syncArrive {t r a m vec data} (h : Formed s) : Formed (s.syncArrive t r a m vec data) := by
  simp [State.syncArrive, h]

@[simp] theorem Formed.claimArrive {t k c} (h : Formed s) : Formed (s.claimArrive t k c) := by
  simp [State.claimArrive, h]

@[simp] theorem Formed.claimsArrive {t n} (h : Formed s) : Formed (s.claimsArrive t n) := by
  induction n generalizing s with
  | nil => exact h
  | cons x rest ih => simp [State.claimsArrive, ih, h]

@[simp] theorem Formed.syncSent {t} (h : Formed s) : Formed (s.syncSent t) := by
  unfold State.syncSent
  repeat' split
  all_goals simp [h]

theorem leads_syncAccessArrive (tile) : Leads s (execSyncAccessArrive tile s) := by
  unfold execSyncAccessArrive
  repeat' split
  all_goals simp +contextual

theorem leads_retryListBusyResend (tile) : Leads s (execRetryListBusyResend tile s) := by
  unfold execRetryListBusyResend
  simp +contextual

end Sys2Proof.Canon
end

section
/-! The canonical form: publication, graph tables, placement and errors. -/

namespace Sys2Proof.Canon
open Machine Laws
variable {s : State} {e : Env} {c : CmdEnd}

@[simp] theorem Formed.takeId (h : Formed s) : Formed s.takeId := h
@[simp] theorem Formed.issueCopy {t r p k lsid d} (h : Formed s) : Formed (s.issueCopy t r p k lsid d) := h
@[simp] theorem Formed.issueMatrix {t r p k lsid op} (h : Formed s) : Formed (s.issueMatrix t r p k lsid op) :=
  h.modRun.ite h.modTile
@[simp] theorem Formed.modInPort {inst idx port f} (h : Formed s) : Formed (s.modInPort inst idx port f) := h
@[simp] theorem Formed.belayEffect {t r0 p x} (h : Formed s) : Formed (s.belayEffect t r0 p x) := by
  unfold State.belayEffect
  repeat' split
  all_goals simp [h]

@[simp] theorem Formed.belayEffects {t r0 p n} (h : Formed s) : Formed (s.belayEffects t r0 p n) := by
  induction n generalizing s with
  | nil => exact h
  | cons x rest ih => exact ih h.belayEffect

@[simp] theorem Formed.sendArrival {t r key} (h : Formed s) : Formed (s.sendArrival t r key) := h
@[simp] theorem Formed.modRope {ctx key f} (h : Formed s) : Formed (s.modRope ctx key f) := h
@[simp] theorem Formed.answerArrival {a member} (h : Formed s) : Formed (s.answerArrival a member) := h.ite (h.modRun.ite h)
@[simp] theorem Formed.landArrival {a} (h : Formed s) : Formed (s.landArrival a) := h.modRope.answerArrival
@[simp] theorem Formed.dropArrival {a} (h : Formed s) : Formed (s.dropArrival a) := h
@[simp] theorem Formed.flushArrivals {t key n} (h : Formed s) : Formed (s.flushArrivals t key n) := by
  induction n generalizing s with
  | zero => exact h
  | succ n ih =>
    unfold State.flushArrivals
    split
    · exact h
    · exact ih h.dropArrival.landArrival

@[simp] theorem Formed.leaveRope {ctx key inst idx} (h : Formed s) : Formed (s.leaveRope ctx key inst idx) := h
@[simp] theorem Formed.belayRopes {t r l} (h : Formed s) : Formed (s.belayRopes t r l) := by
  induction l generalizing s with
  | nil => exact h
  | cons x rest ih =>
    unfold State.belayRopes
    split
    next => cases ‹_ :: _ = []›
    next l heq => cases heq; exact ih h.flushArrivals.leaveRope
    next l heq =>
      cases heq
      refine ih ?_
      split
      · exact h.sendArrival
      · exact h
    next heq => cases heq; exact ih h

@[simp] theorem Formed.twinEnter {t} (h : Formed s) : Formed (s.twinEnter t) := by
  unfold State.twinEnter
  split <;> simp [h]

@[simp] theorem Formed.enterCommit {t p} (h : Formed s) : Formed (s.enterCommit t p) := by
  unfold State.enterCommit
  repeat' split
  · exact h
  · exact h.setRun.modRec
  · exact h.setRun.modRec.twinEnter
  · exact h.setRun.modRec.twinEnter

@[simp] theorem Formed.takeMatFault {t inCommit} (h : Formed s) : Formed (s.takeMatFault t inCommit) := by
  unfold State.takeMatFault
  repeat' split
  all_goals simp [h]

@[simp] theorem Formed.afterBelay {t p prior done} (h : Formed s) : Formed (s.afterBelay t p prior done) := by
  unfold State.afterBelay
  repeat' split
  all_goals simp [h]

@[simp] theorem Formed.abortTask {p r prior} (h : Formed s) : Formed (s.abortTask p r prior) := h.record.killTask
@[simp] theorem Formed.belay {t p} (h : Formed s) : Formed (s.belay t p) := by
  unfold State.belay
  dsimp only
  repeat' split
  · exact h
  · exact h.setRun.applyStores.belayEffects.modTile.abortTask
  · exact h.setRun.applyStores.belayEffects.modTile.belayRopes.abortTask
  · exact h.setRun.applyStores.belayEffects.modTile.enterCommit.takeMatFault
  · exact h.setRun.applyStores.belayEffects.modTile.belayRopes.enterCommit.takeMatFault
  · exact h.setRun.applyStores.belayEffects.modTile.modRun.afterBelay
  · exact h.setRun.applyStores.belayEffects.modTile.belayRopes.modRun.afterBelay
  · exact h.setRun.applyStores.belayEffects.modTile.afterBelay
  · exact h.setRun.applyStores.belayEffects.modTile.belayRopes.afterBelay

@[simp] theorem Formed.finishPitch {t} (h : Formed s) : Formed (s.finishPitch t) := by
  unfold State.finishPitch
  repeat' split
  all_goals simp [h]

@[simp] theorem Formed.nextService {t k n} (h : Formed s) : Formed (s.nextService t k n) := by
  induction n generalizing s t k with
  | zero => exact h
  | succ n ih =>
    unfold State.nextService
    repeat' split
    all_goals simp [ih, h]

@[simp] theorem Formed.serviceDone {t status} (h : Formed s) : Formed (s.serviceDone t status) := by
  unfold State.serviceDone
  repeat' split
  all_goals simp [h]

@[simp] theorem Formed.proceed {t r p} (h : Formed s) : Formed (s.proceed t r p) := by
  unfold State.proceed
  split <;> simp [h]

@[simp] theorem Formed.exhaust {t} (h : Formed s) : Formed (s.exhaust t) := by
  unfold State.exhaust
  repeat' split
  all_goals simp [h]

theorem leads_pitchExhaustion (tile) : Leads s (execPitchExhaustion tile s) := by
  unfold execPitchExhaustion
  all_goals simp +contextual

theorem leads_spillPlaceFreed (tile) : Leads s (execSpillPlaceFreed tile s) := by
  unfold execSpillPlaceFreed
  all_goals simp +contextual

@[simp] theorem Formed.belayImm {t r p a tok} (h : Formed s) : Formed (s.belayImm t r p a tok) := h.setRun.belay
@[simp] theorem Formed.ropeJoin {r key idx} (h : Formed s) : ∀ u, (s.ropeJoin r key idx) = some u → Formed u.1 := by
  unfold State.ropeJoin
  repeat' split
  all_goals simp [h]

@[simp] theorem Formed.performImm {t r a} (h : Formed s) : Formed (s.performImm t r a) := by
  unfold State.performImm
  split
  · exact h
  · exact h.ite (h.faultImm.ite h.atomicPerform)
  · exact h.ite (h.faultImm.ite h.atomicPerform)
  · exact h.ite (h.faultImm.ite h.atomicPerform)
  · split
    · exact h
    · split
      · exact h.faultImm
      · next x hx => exact (h.ropeJoin x hx).answerImm
  · split
    · exact h
    · split
      · exact h.answerImm
      · exact h.setRun

@[simp] theorem Formed.completeImm {t} (h : Formed s) : Formed (s.completeImm t) := by
  unfold State.completeImm
  repeat' split
  all_goals simp [h]

@[simp] theorem Formed.reachImm {t} (h : Formed s) : Formed (s.reachImm t) := by
  unfold State.reachImm
  repeat' split
  all_goals simp [h]

theorem leads_immediateAccessComplete (tile) : Leads s (execImmediateAccessComplete tile s) := by
  unfold execImmediateAccessComplete
  all_goals simp +contextual

theorem leads_ropeArrival (k) : Leads s (execRopeArrival k s) := by
  unfold execRopeArrival
  repeat' split
  all_goals simp +contextual

@[simp] theorem Formed.verifyTemplate {ctx t} (h : Formed s) : Formed (s.verifyTemplate ctx t) := h.verifyWords.verifyWords
@[simp] theorem Formed.verdictOf {ctx templ} (h : Formed s) : Formed (s.verdictOf ctx templ).1 := by
  unfold State.verdictOf
  repeat' split
  all_goals simp [h]

@[simp] theorem Formed.writeLife (h : Formed s) : Formed s.writeLife := by
  simp [State.writeLife, h]

@[simp] theorem Formed.lifeDue (h : Formed s) : Formed s.lifeDue := h.writeLife.ite h
@[simp] theorem Formed.emptyQueues {n} (h : Formed s) : Formed (s.emptyQueues n) := by
  induction n generalizing s with
  | nil => exact h
  | cons x rest ih => exact ih h.emptyQueue

@[simp] theorem Formed.checkCluster {c} (h : Formed s) : Formed (s.checkCluster c) := h.modCluster.emptyQueues.ite h
@[simp] theorem Formed.failShared {c} (h : Formed s) : Formed (s.failShared c) := h.modCluster.emptyQueues.ite h
@[simp] theorem Formed.changeTile {t st} (h : Formed s) : Formed (s.changeTile t st) :=
  h.ite h.modTile.unplaceAll.checkCluster.writeLife
@[simp] theorem Formed.age {t} (h : Formed s) : Formed (s.age t) := h.ite h.changeTile
@[simp] theorem Formed.blame {t} (h : Formed s) : Formed (s.blame t) := by
  unfold State.blame
  dsimp only
  split <;> simp [h]

@[simp] theorem Formed.checkClusters {n} (h : Formed s) : Formed (s.checkClusters n) := by
  induction n generalizing s with
  | nil => exact h
  | cons x rest ih => exact ih h.checkCluster

@[simp] theorem Formed.drainedOver {t} (h : Formed s) : Formed (s.drainedOver t) := h.changeTile.ite h
@[simp] theorem Formed.drainsOver {n} (h : Formed s) : Formed (s.drainsOver n) := by
  induction n generalizing s with
  | nil => exact h
  | cons x rest ih => exact ih (h.drainedOver.ite h)

@[simp] theorem Formed.issuePrefetch {t p d} (h : Formed s) : Formed (s.issuePrefetch t p d) := by
  simp [State.issuePrefetch, h]

@[simp] theorem Formed.issuePrefetches {t p ren n} (h : Formed s) : Formed (s.issuePrefetches t p ren n) := by
  induction n generalizing s with
  | nil => exact h
  | cons x rest ih => exact ih h.issuePrefetch

@[simp] theorem Formed.modPlaced {t p f} (h : Formed s) : Formed (s.modPlaced t p f) := h
@[simp] theorem Formed.markRunnable {t p} (h : Formed s) : Formed (s.markRunnable t p) := h
@[simp] theorem Formed.startEntry {t p} (h : Formed s) : Formed (s.startEntry t p) :=
  h.modPlaced.markRunnable.ite h.turnTile.modPlaced.issuePrefetches
@[simp] theorem Formed.kickFrom {t n m} (h : Formed s) : Formed (s.kickFrom t n m) := by
  induction m generalizing s t n with
  | nil => exact h
  | cons x rest ih => exact ih (h.startEntry.ite h)

@[simp] theorem Formed.kick {t} (h : Formed s) : Formed (s.kick t) := h.kickFrom
@[simp] theorem Formed.afterRun {t} (h : Formed s) : Formed (s.afterRun t) := h.drainedOver.kick
@[simp] theorem Formed.modCopy {id f} (h : Formed s) : Formed (s.modCopy id f) := h
@[simp] theorem Formed.reportTwinCopy {c f} (h : Formed s) : Formed (s.reportTwinCopy c f) := by
  unfold State.reportTwinCopy
  dsimp only
  repeat' split
  all_goals simp [h]

@[simp] theorem Formed.reportCopy {c f} (h : Formed s) : Formed (s.reportCopy c f) := by
  unfold State.reportCopy
  dsimp only
  repeat' split
  · exact h.reportTwinCopy
  · exact h.modCopy.recordAwait
  · exact h.modCopy.recordAwait.setRun.modRec
  · exact h.modCopy.recordAwait

@[simp] theorem Formed.settleCopy {id} (h : Formed s) : Formed (s.settleCopy id) := by
  unfold State.settleCopy
  repeat' split
  all_goals simp [h]

@[simp] theorem Formed.elementsDone {id n} (h : Formed s) : Formed (s.elementsDone id n) := h.modCopy.settleCopy
@[simp] theorem Formed.landBytes {ctx loc bs pois mark} (h : Formed s) : Formed (s.landBytes ctx loc bs pois mark) :=
  h.storeFor.ite h.storeFor.modLine
@[simp] theorem Formed.landFull {key mark} (h : Formed s) : Formed (s.landFull key mark) := h.modLine.serve
@[simp] theorem Formed.countPoison {id t key} (h : Formed s) : Formed (s.countPoison id t key) := by
  unfold State.countPoison
  split <;> simp [h]

@[simp] theorem Formed.wholeLine {id key} (h : Formed s) : Formed (s.wholeLine id key) := by
  unfold State.wholeLine
  split <;> simp [h]

@[simp] theorem Formed.landElem {c t i data pois} (h : Formed s) : Formed (s.landElem c t i data pois) :=
  ((h.landBytes.countPoison.ite h.landBytes).wholeLine.ite (h.landBytes.countPoison.ite h.landBytes)).landFull.ite
    (h.landBytes.countPoison.ite h.landBytes)

@[simp] theorem Formed.storeElem {c e} (h : Formed s) : Formed (s.storeElem c e) :=
  (h.storeFor.modCopy.ite h.storeFor).wholeLine.ite (h.storeFor.modCopy.ite h.storeFor)

@[simp] theorem Formed.received {ctx die} (h : Formed s) : Formed (s.received ctx die) := h
@[simp] theorem Formed.stray {ctx die n addr tag} (h : Formed s) : Formed (s.stray ctx die n addr tag) := h.count.record
@[simp] theorem Formed.lower {i idx amt} (h : Formed s) : Formed (s.lower i idx amt) := by
  unfold State.lower
  split <;> simp [h]

@[simp] theorem Formed.lowerSlot {d inst idx gen templ tag} (h : Formed s) : Formed (s.lowerSlot d inst idx gen templ tag) := by
  unfold State.lowerSlot
  repeat' split
  all_goals simp [h]

@[simp] theorem Formed.decNowhere {d addr tag} (h : Formed s) : Formed (s.decNowhere d addr tag) := by
  unfold State.decNowhere
  split <;> simp [h]

@[simp] theorem Formed.lowerTagged {d templ tag idx} (h : Formed s) : Formed (s.lowerTagged d templ tag idx) := by
  unfold State.lowerTagged
  split <;> simp [h]

@[simp] theorem Formed.lowerRemote {d loc va tag} (h : Formed s) : Formed (s.lowerRemote d loc va tag) := by
  unfold State.lowerRemote
  split <;> simp [h]

@[simp] theorem Formed.addDec {d} (h : Formed s) : Formed (s.addDec d) := h
@[simp] theorem Formed.sendDec {d pkg loc va tag} (h : Formed s) : Formed (s.sendDec d pkg loc va tag) := by
  unfold State.sendDec
  split <;> simp [h]

@[simp] theorem Formed.applyDec {d} (h : Formed s) : Formed (s.applyDec d) := by
  unfold State.applyDec
  split <;> simp [h]

theorem leads_decrementApply (k) : Leads s (execDecrementApply k s) := by
  unfold execDecrementApply
  repeat' split
  all_goals simp +contextual

@[simp] theorem Formed.decAnswer {d} (h : Formed s) : Formed (s.decAnswer d) := by
  unfold State.decAnswer
  split <;> simp [h]

theorem leads_strayDecrementAnswer (k) : Leads s (execStrayDecrementAnswer k s) := by
  unfold execStrayDecrementAnswer
  repeat' split
  all_goals simp +contextual

@[simp] theorem Formed.strays {ctx die templ tag n} (h : Formed s) : Formed (s.strays ctx die templ tag n) := by
  induction n generalizing s with
  | nil => exact h
  | cons x rest ih => exact ih h.stray

@[simp] theorem Formed.verifyTables {c t} (h : Formed s) : Formed (s.verifyTables c t) :=
  h.verifyWords.ite h.verifyWords.verifyWords
@[simp] theorem Formed.startZero {inst n} (h : Formed s) : Formed (s.startZero inst n) := by
  induction n generalizing s with
  | nil => exact h
  | cons x rest ih => exact ih (h.toPending.ite h)

@[simp] theorem Formed.launchError {ctx queue q va f} (h : Formed s) : Formed (s.launchError ctx queue q va f) := by
  unfold State.launchError
  split <;> simp [h]

@[simp] theorem Formed.advanceHead {ctx q} (h : Formed s) : Formed (s.advanceHead ctx q) := h.qcbWord
@[simp] theorem Formed.askCreation {c} (h : Formed s) : Formed (s.askCreation c) := h
@[simp] theorem Formed.takeLaunch {ctx queue n} (h : Formed s) : Formed (s.takeLaunch ctx queue n) := by
  induction n generalizing s with
  | zero => exact h
  | succ n ih =>
    unfold State.takeLaunch
    split
    · exact h
    · split
      · exact h
      · refine h.ite ?_
        dsimp only
        split
        · exact h.noteRing
        · exact h.noteRing.launchError
        · exact h.noteRing.launchError
        · refine h.noteRing.ite ?_
          split
          · exact h.noteRing.launchError
          · split
            · exact ih h.noteRing.verifyLine.tally.record.received.advanceHead
            · exact h.noteRing.verifyLine.tally.askCreation

@[simp] theorem Formed.passLaunch {ctx queue} (h : Formed s) : Formed (s.passLaunch ctx queue) := by
  unfold State.passLaunch
  repeat' split
  all_goals simp [h]

@[simp] theorem Formed.creationOver {c die} (h : Formed s) : Formed (s.creationOver c die) := by
  unfold State.creationOver
  split <;> simp [h]

@[simp] theorem Formed.refuseCreation {c f addr} (h : Formed s) : Formed (s.refuseCreation c f addr) := by
  unfold State.refuseCreation
  split <;> simp [h]

@[simp] theorem Formed.delivered {c} (h : Formed s) : Formed (s.delivered c) := by
  unfold State.delivered
  split <;> simp [h]

theorem Formed.buildInst {c t ren ws} (h : Formed s) : ∀ u, s.buildInst c t ren ws = some u → Formed u := by
  intro u hu
  obtain ⟨v, hv, rfl⟩ := Option.map_eq_some_iff.1 hu
  exact (h.rest.room v hv).strays.startZero.delivered

@[simp] theorem Formed.tryCreate {k c} (h : Formed s) : Formed (s.tryCreate k c) := by
  have hv : Formed (s.verdictOf c.ctx c.templ).1 := h.verdictOf
  unfold State.tryCreate
  dsimp only
  split
  · exact hv.rest.refuseCreation
  · split
    · exact hv.rest.refuseCreation
    · refine hv.ite (hv.ite ?_)
      split
      · exact hv.rest.verifyWalk.refuseCreation
      · split
        · exact hv.rest.verifyWalk.refuseCreation
        · split
          · exact hv
          · next u hu => exact (hv.rest.verifyTables.buildInst u hu).creationOver

theorem leads_instanceCreate (k) : Leads s (execInstanceCreate k s) := by
  unfold execInstanceCreate
  repeat' split
  all_goals simp +contextual

@[simp] theorem Formed.deliverMessage {c m} (h : Formed s) : Formed (s.deliverMessage c m) := by
  unfold State.deliverMessage
  dsimp only
  repeat' split
  all_goals simp [h]

theorem leads_handlerDelivery (ctx mbox) : Leads s (execHandlerDelivery ctx mbox s) := by
  unfold execHandlerDelivery
  repeat' split
  all_goals simp +contextual

@[simp] theorem Formed.dropDelivery {ctx m} (h : Formed s) : Formed (s.dropDelivery ctx m) := h
@[simp] theorem Formed.bindMbox {ctx templ ctl} (h : Formed s) : Formed (s.bindMbox ctx templ ctl) :=
  h.dropDelivery.modCtx.verdictOf.modCtx
@[simp] theorem Formed.unbindMbox {ctx m} (h : Formed s) : Formed (s.unbindMbox ctx m) := h
@[simp] theorem Formed.strayMessage {m} (h : Formed s) : Formed (s.strayMessage m) := h.count.record.received
@[simp] theorem Formed.dropMessage {k} (h : Formed s) : Formed (s.dropMessage k) := h
@[simp] theorem Formed.setMessage {k m} (h : Formed s) : Formed (s.setMessage k m) := h
@[simp] theorem Formed.waitMessage {k m} (h : Formed s) : Formed (s.waitMessage k m) := h.ite h.takeId.setMessage
@[simp] theorem Formed.messageDone {k m} (h : Formed s) : Formed (s.messageDone k m) := h
@[simp] theorem Formed.peerAnswer {k m} (h : Formed s) : Formed (s.peerAnswer k m) :=
  h.rest.dropMessage.strayMessage.ite (h.rest.waitMessage.ite h.rest.dropMessage)

@[simp] theorem Formed.messageNowhere {k m} (h : Formed s) : Formed (s.messageNowhere k m) := by
  unfold State.messageNowhere
  split <;> simp [h]

@[simp] theorem Formed.arriveMessage {k m} (h : Formed s) : Formed (s.arriveMessage k m) := by
  unfold State.arriveMessage
  split
  · exact h.peerAnswer.ite (h.setMessage.sendTo.ite h.dropMessage.strayMessage)
  · refine h.messageNowhere.ite ?_
    split
    · next t ht => exact (h.acceptMessage ht).messageDone
    · exact h.waitMessage

@[simp] theorem Formed.arriveBind {k} (h : Formed s) : Formed (s.arriveBind k) := by
  unfold State.arriveBind
  repeat' split
  all_goals simp [h]

theorem leads_messageAccept (k) : Leads s (execMessageAccept k s) := by
  unfold execMessageAccept
  repeat' split
  all_goals simp +contextual

theorem leads_mailboxOverflow (k) : Leads s (execMailboxOverflow k s) := by
  unfold execMailboxOverflow
  repeat' split
  all_goals simp +contextual

@[simp] theorem Formed.verifyRemotes {r n} (h : Formed s) : Formed (s.verifyRemotes r n) := by
  induction n generalizing s with
  | nil => exact h
  | cons x rest ih => exact ih (h.verifyWords.ite h)

@[simp] theorem Formed.refuse {t r spec} (h : Formed s) : Formed (s.refuse t r spec) := by
  unfold State.refuse
  dsimp only
  repeat' split
  all_goals simp [h]

@[simp] theorem Formed.checkOne {t r k e} (h : Formed s) : ∀ u, (s.checkOne t r k e) = .ok u → Formed u := by
  unfold State.checkOne
  repeat' split
  all_goals simp [h]

theorem Formed.checkSet {t r k l} (h : Formed s) : ∀ u, s.checkSet t r k l = .ok u → Formed u := by
  induction l generalizing s k with
  | nil => intro u hu; cases hu; exact h
  | cons e rest ih =>
    intro u hu
    unfold State.checkSet at hu
    split at hu
    · cases hu
    · next v hv => exact ih (h.checkOne v hv) u hu

theorem Formed.checkList {t r k l} (h : Formed s) : ∀ u, s.checkList t r k l = .ok u → Formed u := by
  induction l generalizing s k with
  | nil => intro u hu; cases hu; exact h
  | cons x rest ih =>
    intro u hu
    unfold State.checkList at hu
    split at hu
    · split at hu
      · cases hu
      · exact ih h.modRun u hu
    · exact ih h u hu

@[simp] theorem Formed.dropChecks {t} (h : Formed s) : Formed (s.dropChecks t) := by
  unfold State.dropChecks
  split
  · exact h
  · exact h.setRun.unclaim.dropRetry.serve

@[simp] theorem Formed.failCheck {t spec} (h : Formed s) : Formed (s.failCheck t spec) := h.dropChecks.takeFault
@[simp] theorem Formed.commitChecks {t r} (h : Formed s) : Formed (s.commitChecks t r) := by
  unfold State.commitChecks
  split
  · exact h.refuse
  · split
    · exact h.ite h.verifyWalk.failCheck
    · next u hu =>
      split
      · exact h.verifyWalk.failCheck
      · dsimp only
        split
        · exact h.ite h.verifyWalk.failCheck
        · next v hv => exact Formed.modRun (Formed.checkList (h.checkSet u hu).verifyWords.verifyRemotes v hv)

theorem leads_commitChecks (tile) : Leads s (execCommitChecks tile s) := by
  unfold execCommitChecks
  repeat' split
  all_goals simp +contextual

theorem Formed.foldl_write {l : List Nat} (f : Nat → Nat) (g : Nat → Byte) (h : Formed s) :
    Formed (l.foldl (fun (s : State) b => { s with mem := s.mem.write (f b) (g b) }) s) := by
  induction l generalizing s with
  | nil => exact h
  | cons b rest ih => exact ih ⟨write_wf _ _ h.1, h.2⟩

@[simp] theorem Formed.publishSector {x i} (h : Formed s) : Formed (s.publishSector x i) :=
  h.ite (h.foldl_write (fun b => x.line.loc + b) fun b => BitVec.ofNat 8 (x.line.data.toNat / 2 ^ (8 * b))).modLine

@[simp] theorem Formed.logHistory {t r} (h : Formed s) : Formed (s.logHistory t r) := by
  simp [State.logHistory, h]

@[simp] theorem Formed.handover {t r n} (h : Formed s) : Formed (s.handover t r n) :=
  h.takeId.rest.logHistory.modRec.freeTile.afterRun
theorem leads_handover (tile) : Leads s (execHandover tile s) := by
  unfold execHandover
  repeat' split
  all_goals simp +contextual

@[simp] theorem Formed.modPub {id f} (h : Formed s) : Formed (s.modPub id f) := h
theorem Formed.publish {id f} (h : Formed s) (hf : ∀ u, Formed u → Formed (f u)) : Formed (s.publish id f) := hf s h
@[simp] theorem Formed.performSector {p x} (h : Formed s) : Formed (s.performSector p x) := by
  unfold State.performSector
  split
  · exact h
  · exact h.ite ((h.ite h.verifyLine).publish fun _ hu => hu.publishSector).modPub

theorem leads_reductionApply (pub k) : Leads s (execReductionApply pub k s) := by
  unfold execReductionApply
  repeat' split
  case h_1.isFalse => exact .next fun h => (h.verifyLine.publish fun _ hu => hu.reduce).modPub
  all_goals simp +contextual

@[simp] theorem Formed.release {ctx x} (h : Formed s) : Formed (s.release ctx x) := h.storeFor.modLine
@[simp] theorem Formed.performRelease {p k} (h : Formed s) : Formed (s.performRelease p k) := by
  unfold State.performRelease
  split
  · exact h
  · exact h.ite ((h.ite h.verifyLine).publish fun _ hu => hu.release).modPub.serve

theorem leads_publicationStep2 (pub k) : Leads s (execPublicationStep2 pub k s) := by
  unfold execPublicationStep2
  repeat' split
  all_goals simp +contextual

@[simp] theorem Formed.sendBind {b} (h : Formed s) : Formed (s.sendBind b) := h
@[simp] theorem Formed.sendGraph {p i e remote} (h : Formed s) : Formed (s.sendGraph p i e remote) := by
  unfold State.sendGraph
  split <;> simp [h]

@[simp] theorem Formed.sendGraphs {p i n} (h : Formed s) : Formed (s.sendGraphs p i n) := by
  induction n generalizing s with
  | nil => exact h
  | cons x rest ih => exact ih h.sendGraph

@[simp] theorem Formed.mixCreations {n} (h : Formed s) : Formed (s.mixCreations n) := h.ite h
theorem leads_publicationStep3 (pub) : Leads s (execPublicationStep3 pub s) := by
  unfold execPublicationStep3
  repeat' split
  case h_2.isTrue => exact .next fun h => h.sendGraphs.mixCreations.modPub
  all_goals simp

@[simp] theorem Formed.retire {pub} (h : Formed s) : Formed (s.retire pub) := by
  unfold State.retire
  split
  · exact h
  · exact h.rest.endRecord.reloadStuck.ite h

@[simp] theorem Formed.retireOver {n} (h : Formed s) : Formed (s.retireOver n) := by
  induction n generalizing s with
  | nil => exact h
  | cons x rest ih => exact ih h.retire

theorem leads_taskRetired (pub) : Leads s (execTaskRetired pub s) := by
  unfold execTaskRetired
  all_goals simp +contextual

@[simp] theorem Formed.lineLanded {c} (h : Formed s) : Formed (s.lineLanded c) := by
  unfold State.lineLanded
  split <;> simp [h]

@[simp] theorem Formed.applyOnce {c} (h : Formed s) : Formed (s.applyOnce c) := by
  unfold State.applyOnce
  dsimp only
  split
  · exact h.storeFor
  · exact h.storeFor
  · exact h.combine.modLine.lineLanded

@[simp] theorem Formed.applyContribution {c} (h : Formed s) : Formed (s.applyContribution c) := by
  unfold State.applyContribution
  dsimp only
  split
  · exact h.verifyLine.publish fun _ hu => hu.applyOnce
  · exact h.verifyLine.applyOnce

@[simp] theorem Formed.drainHeld {loc n} (h : Formed s) : Formed (s.drainHeld loc n) := by
  induction n generalizing s with
  | zero => exact h
  | succ n ih =>
    unfold State.drainHeld
    split
    · exact h
    · exact ih h.examine.rest.applyContribution

@[simp] theorem Formed.dupSeq {n} (h : Formed s) : Formed (s.dupSeq n) := by
  unfold State.dupSeq
  split <;> simp [h]

@[simp] theorem Formed.arriveContribution {c} (h : Formed s) : ∀ u, (s.arriveContribution c) = some u → Formed u := by
  unfold State.arriveContribution
  dsimp only
  repeat' split
  all_goals simp [h]

theorem leads_orderedContributionArrive (k) : Leads s (execOrderedContributionArrive k s) := by
  unfold execOrderedContributionArrive
  split
  · simp
  · split
    · simp
    · split
      · next t ht => exact .next fun h => (h.arriveContribution t ht).rest
      · exact .next fun h => h

theorem leads_orderedBusyResend (k) : Leads s (execOrderedBusyResend k s) := by
  unfold execOrderedBusyResend
  repeat' split
  all_goals simp +contextual

@[simp] theorem Formed.discardOthers {t n} (h : Formed s) : Formed (s.discardOthers t n) := h.undoRuns
@[simp] theorem Formed.choose {inst idx t} (h : Formed s) : Formed (s.choose inst idx t) :=
  h.discardOthers.dropPlaces.modRun.modRec
@[simp] theorem Formed.voteThree {inst idx a b c} (h : Formed s) : Formed (s.voteThree inst idx a b c) := by
  unfold State.voteThree
  dsimp only
  repeat' split
  · exact h.record.choose.blame
  · exact h.record.choose.blame
  · exact h.record
  · exact h.record.killTask
  · exact h.record.abandonTask

theorem leads_twinDigestCompare (inst idx) : Leads s (execTwinDigestCompare inst idx s) := by
  unfold execTwinDigestCompare
  repeat' split
  all_goals simp +contextual

end Sys2Proof.Canon
end

section
/-! The canonical form: responses, copies, streams, queues and services. -/

namespace Sys2Proof.Canon
open Machine Laws
variable {s : State} {e : Env} {c : CmdEnd}

@[simp] theorem Formed.supersedeRun {t r} (h : Formed s) : Formed (s.supersedeRun t r) := h
@[simp] theorem Formed.takeDog {t r} (h : Formed s) : Formed (s.takeDog t r) := by
  unfold State.takeDog
  dsimp only
  repeat' split
  · exact h.count.dropChecks.supersedeRun.takeFault.modRun
  · exact h.count.record
  · exact h.count.record.killTask.serve
  · exact h.count.record.abandonTask.serve

theorem leads_watchdogExpiry (tile) : Leads s (execWatchdogExpiry tile s) := by
  unfold execWatchdogExpiry
  repeat' split
  all_goals simp +contextual

@[simp] theorem Formed.withdrawImm {t r} (h : Formed s) : Formed (s.withdrawImm t r) := h
theorem leads_waitWithdrawal (tile) : Leads s (execWaitWithdrawal tile s) := by
  unfold execWaitWithdrawal
  repeat' split
  all_goals simp +contextual

@[simp] theorem Formed.respond {i} (h : Formed s) : Formed (respond s i) := by
  cases i
  case ldb | ldbu | ldh | ldhu | ldw | ldwu | ldd | ldv | ldvx | mwait | rand | vrand | vdraw | vdrawm => exact h.fired
  all_goals exact h

@[simp] theorem Formed.readAhead {i} (h : Formed s) : Formed (s.readAhead i) := by
  unfold State.readAhead
  split
  · exact h
  next e he =>
    have h : Formed e.s := (env_state he).1 ▸ h
    split
    · exact h.envReadSector
    · exact (env_state he).1 ▸ h

theorem leads_memoryResponse (tile slot) : Leads s (execMemoryResponse tile slot s) := by
  unfold execMemoryResponse
  dsimp only
  repeat' split
  case h_2.isTrue.isFalse => exact .next fun h => (h.rest (fo := tile)).setPitch.respond.rest
  case h_2.isFalse.isTrue => exact .next fun h => (h.rest (fo := tile)).setPitch.readAhead.rest
  all_goals exact .next id

@[simp] theorem Formed.discardRecord {i idx} (h : Formed s) : Formed (s.discardRecord i idx) := by
  unfold State.discardRecord
  dsimp only
  split
  · exact h
  · exact (h.ite (h.rollback.modCtx.modRec.ite h.rollback.modCtx.modRec.tally).leaveRopes)

@[simp] theorem Formed.discardRecords {i n} (h : Formed s) : Formed (s.discardRecords i n) := by
  induction n generalizing s with
  | nil => exact h
  | cons x rest ih => exact ih h.discardRecord

@[simp] theorem Formed.loseGraph {inst idx} (h : Formed s) : Formed (s.loseGraph inst idx) := by
  unfold State.loseGraph
  dsimp only
  split
  · exact h
  · exact (h.ite h.record.modInst.discardRecords.reapInst.reloadStuck.serve)

@[simp] theorem Formed.rereadRecord {inst idx} (h : Formed s) : Formed (s.rereadRecord inst idx) := by
  unfold State.rereadRecord
  repeat' split
  all_goals simp [h]

theorem leads_uncorrectableError (site) : Leads s (execUncorrectableError site s) := by
  unfold execUncorrectableError
  repeat' split
  all_goals simp +contextual

@[simp] theorem Formed.trace {die bs} (h : Formed s) : Formed (s.trace die bs) := by
  unfold State.trace
  dsimp only
  split
  · exact h
  · exact (h.noteLine.ite (h.noteLine.count.ite h.noteLine.noteLine.store.noteLine.store))

@[simp] theorem Formed.bindPorts {i idx n} (h : Formed s) : Formed (s.bindPorts i idx n) := by
  induction n generalizing s with
  | nil => exact h
  | cons x rest ih => exact ih (h.ite h)

@[simp] theorem Formed.wake {t} (h : Formed s) : Formed (s.wake t) := h.modCluster.ite h
@[simp] theorem Formed.reloadLine {c x} (h : Formed s) : Formed (s.reloadLine c x) := h.verifyLine.store.ite h
@[simp] theorem Formed.reloadLines {c} {l : List ((Nat × List Byte) × Nat)} (h : Formed s) :
    Formed (l.foldl (fun s x => s.reloadLine c x) s) := by
  induction l generalizing s with
  | nil => exact h
  | cons x rest ih => exact ih h.reloadLine

@[simp] theorem Formed.reloadBank {ctx} (h : Formed s) : Formed (s.reloadBank ctx) := by
  unfold State.reloadBank
  split
  · exact h
  · exact h.ite h.reloadLines.modCtx

@[simp] theorem Formed.place {die k t tiles xdie} (h : Formed s) : Formed (s.place die k t tiles xdie) := by
  unfold State.place
  dsimp only
  split
  · exact h.reloadBank.count.modDie.trace.modTile.modRec.bindPorts.wake.kick
  · exact h.reloadBank

@[simp] theorem Formed.reportUnplaceable {i idx f} (h : Formed s) : Formed (s.reportUnplaceable i idx f) := h.modRec.recordAwait
@[simp] theorem Formed.checkPlace {i idx x} (h : Formed s) : Formed (s.checkPlace i idx x) := by
  unfold State.checkPlace
  split <;> simp [h]

@[simp] theorem Formed.checkPin {i idx x} (h : Formed s) : Formed (s.checkPin i idx x) := by
  unfold State.checkPin
  split <;> simp [h]

@[simp] theorem Formed.checkPending {i idx} (h : Formed s) : Formed (s.checkPending i idx) := by
  unfold State.checkPending
  split <;> simp [h]

@[simp] theorem Formed.checkRecs {i n} (h : Formed s) : Formed (s.checkRecs i n) := by
  induction n generalizing s with
  | nil => exact h
  | cons x rest ih => exact ih h.checkPending

@[simp] theorem Formed.checkDie {die n} (h : Formed s) : Formed (s.checkDie die n) := by
  induction n generalizing s with
  | nil => exact h
  | cons x rest ih => exact ih (h.checkRecs.ite h)

@[simp] theorem Formed.claimTile {k t} (h : Formed s) : Formed (s.claimTile k t) := by
  unfold State.claimTile
  dsimp only
  split
  · exact h
  · exact h.count.trace.emptyQueue.modTile

@[simp] theorem Formed.claimFor {die n} (h : Formed s) : Formed (s.claimFor die n) := by
  induction n generalizing s with
  | nil => exact h
  | cons x rest ih =>
    unfold State.claimFor
    repeat' split
    all_goals simp [ih, h]

@[simp] theorem Formed.noteBlocked {die n} (h : Formed s) : Formed (s.noteBlocked die n) := by
  induction n generalizing s with
  | nil => exact h
  | cons x rest ih => exact ih h.modRec

@[simp] theorem Formed.placeFirst {die all l} (h : Formed s) : Formed (s.placeFirst die all l) := by
  induction l with
  | nil => exact h.claimFor
  | cons k rest ih =>
    unfold State.placeFirst
    dsimp only
    split
    · exact h.place
    · exact ih

theorem leads_placement (die reports) : Leads s (execPlacement die reports s) := by
  unfold execPlacement
  dsimp only
  repeat' split
  · exact .next fun h => h.checkDie
  · exact .next fun h => h.checkDie.noteBlocked.placeFirst

@[simp] theorem Formed.placeAcross {die n} (h : Formed s) : Formed (s.placeAcross die n) := by
  induction n generalizing s with
  | nil => exact h
  | cons x rest ih =>
    unfold State.placeAcross
    dsimp only
    repeat' split
    all_goals simp [ih, h]

theorem leads_crossDiePlacement (die) : Leads s (execCrossDiePlacement die s) := by
  unfold execCrossDiePlacement
  all_goals simp +contextual

@[simp] theorem Formed.noteDies {n} (h : Formed s) : Formed (s.noteDies n) := by
  induction n generalizing s with
  | nil => exact h
  | cons x rest ih => exact ih (h.ite h.noteBlocked.modDie)

@[simp] theorem Formed.endClaims {n} (h : Formed s) : Formed (s.endClaims n) := by
  induction n generalizing s with
  | nil => exact h
  | cons x rest ih =>
    unfold State.endClaims
    repeat' split
    all_goals simp [ih, h]

@[simp] theorem Formed.runnable {t p} (h : Formed s) : Formed (s.runnable t p) := h.ite (h.kick.ite (h.markRunnable.ite h))
theorem leads_taskRunnable (tile inst idx) : Leads s (execTaskRunnable tile inst idx s) := by
  unfold execTaskRunnable
  repeat' split
  all_goals simp +contextual

@[simp] theorem Formed.startTask {t p} (h : Formed s) : Formed (s.startTask t p) := by
  unfold State.startTask
  dsimp only
  split
  · exact h.turnTile.rest.takeId.modTile.modRec.kick
  · exact h

theorem leads_taskStart (tile) : Leads s (execTaskStart tile s) := by
  unfold execTaskStart
  repeat' split
  all_goals simp +contextual

theorem leads_quiescenceWave (ctx) : Leads s (execQuiescenceWave ctx s) := by
  unfold execQuiescenceWave
  dsimp only
  repeat' split
  · exact .next fun h => h
  · exact .next fun h => h.modCtx.modCtx
  · exact .next fun h => h.modCtx.modCtx
  · exact .next fun h => h.modCtx
  · exact .next fun h => h.modCtx.modCtx.record

@[simp] theorem Formed.stallCopy {id f} (h : Formed s) : Formed (s.stallCopy id f) := by
  unfold State.stallCopy
  dsimp only
  repeat' split
  · exact h
  · exact h.verifyWalk.modCopy.settleCopy
  · exact h.modCopy.settleCopy

@[simp] theorem Formed.flyElem {id i src dst} (h : Formed s) : Formed (s.flyElem id i src dst) := h
@[simp] theorem Formed.issueElem {c} (h : Formed s) : Formed (s.issueElem c) := by
  unfold State.issueElem
  split <;> simp [h]

@[simp] theorem Formed.follow {c} (h : Formed s) : Formed (s.follow c) := h
@[simp] theorem Formed.issueRead {c} (h : Formed s) : Formed (s.issueRead c) := by
  unfold State.issueRead
  repeat' split
  all_goals simp [h]

@[simp] theorem Formed.issueGroup {n} (h : Formed s) : Formed (s.issueGroup n) := by
  induction n generalizing s with
  | nil => exact h
  | cons x rest ih =>
    unfold State.issueGroup
    repeat' split
    all_goals simp [ih, h]

@[simp] theorem Formed.issueLine {c} (h : Formed s) : Formed (s.issueLine c) := by
  unfold State.issueLine
  split <;> simp [h]

@[simp] theorem Formed.sendLine {c op ty n} (h : Formed s) : Formed (s.sendLine c op ty n) := by
  unfold State.sendLine
  dsimp only
  split <;> simp [h]

@[simp] theorem Formed.cutCopy {id} (h : Formed s) : Formed (s.cutCopy id) := h
@[simp] theorem Formed.takePacket {c q k} (h : Formed s) : Formed (s.takePacket c q k) :=
  h.modInPort.stallCopy.ite ((h.modInPort.cutCopy.ite h.modInPort).ite h.modInPort.modCopy)
@[simp] theorem Formed.issueSin {c port} (h : Formed s) : Formed (s.issueSin c port) := by
  unfold State.issueSin
  repeat' split
  all_goals simp [h]

theorem leads_copyElementTranslate (copy) : Leads s (execCopyElementTranslate copy s) := by
  unfold execCopyElementTranslate
  repeat' split
  all_goals simp +contextual

@[simp] theorem Formed.takeAll {n data pois m} (h : Formed s) : Formed (s.takeAll n data pois m) := by
  induction m generalizing s with
  | nil => exact h
  | cons x rest ih => exact ih h.modCopy

@[simp] theorem Formed.touchRead {c e} (h : Formed s) : Formed (s.touchRead c e) := h.touchPad.ite h
@[simp] theorem Formed.readElem {c e} (h : Formed s) : Formed (s.readElem c e) := by
  unfold State.readElem
  dsimp only
  split
  · exact (h.touchRead.readLine.takeAll.sendLine.ite h.touchRead.readLine.takeAll)
  · exact (h.touchRead.readLine.takeAll.elementsDone.ite h.touchRead.readLine.takeAll)
  · exact h.touchRead.readLine.takeAll
  · exact h.touchRead.readLine.takeAll
  · exact h.touchRead.readLine.takeAll

@[simp] theorem Formed.entryOver {c k e} (h : Formed s) : Formed (s.entryOver c k e) := h.modCopy.ite h.modCopy.elementsDone
@[simp] theorem Formed.feedPort {c r port k e} (h : Formed s) : Formed (s.feedPort c r port k e) :=
  h.modCopy.entryOver.ite (h.setRun.modCopy.entryOver.ite h)
@[simp] theorem Formed.broadcast {c e} (h : Formed s) : Formed (s.broadcast c e) := h.landElem.ite h.modCopy
@[simp] theorem Formed.writeElem {c k e} (h : Formed s) : Formed (s.writeElem c k e) := by
  unfold State.writeElem
  repeat' split
  all_goals simp [h]

theorem leads_copyElementComplete (copy entry) : Leads s (execCopyElementComplete copy entry s) := by
  unfold execCopyElementComplete
  repeat' split
  all_goals simp +contextual

theorem leads_copyStampWrite (copy) : Leads s (execCopyStampWrite copy s) := by
  unfold execCopyStampWrite
  dsimp only
  repeat' split
  · exact .next fun h => h
  · exact .next fun h => h
  · exact .next fun h => h.stallCopy
  · exact .next fun h => h
  · exact .next fun h => h.storeFor.modCopy.landFull
  · exact .next fun h => h.storeFor.modCopy
  · exact .next fun h => h

theorem leads_copyComplete (copy) : Leads s (execCopyComplete copy s) := by
  unfold execCopyComplete
  dsimp only
  repeat' split
  · exact .next fun h => h
  · exact .next fun h => h.modCopy.modRun.twinEnter
  · exact .next fun h => h
  · exact .next fun h => h.modCopy
  · exact .next fun h => h

@[simp] theorem Formed.modJob {t k f} (h : Formed s) : Formed (s.modJob t k f) := h
@[simp] theorem Formed.readPad {t ls} (h : Formed s) : Formed (s.readPad t ls) := by
  unfold State.readPad
  split <;> simp [h]

@[simp] theorem Formed.streamRow {t k fmt bs pois} (h : Formed s) : Formed (s.streamRow t k fmt bs pois) := by
  unfold State.streamRow
  dsimp only
  repeat' split
  · exact h
  · exact h.readPad.passRows.modJob
  · exact h

@[simp] theorem Formed.matrixStop {t k code} (h : Formed s) : Formed (s.matrixStop t k code) := by
  unfold State.matrixStop
  split <;> simp [h]

@[simp] theorem Formed.packetRows {t k j p} (h : Formed s) : Formed (s.packetRows t k j p) := by
  unfold State.packetRows
  repeat' split
  all_goals simp [h]

@[simp] theorem Formed.feedMma {t port n} (h : Formed s) : Formed (s.feedMma t port n) := by
  induction n generalizing s with
  | zero => exact h
  | succ n ih =>
    unfold State.feedMma
    repeat' split
    case h_2.isTrue => exact ih h.modInPort.packetRows
    all_goals simp [h]

@[simp] theorem Formed.feedPorts {t n} (h : Formed s) : Formed (s.feedPorts t n) := by
  induction n generalizing s with
  | nil => exact h
  | cons x rest ih => exact ih h.feedMma

@[simp] theorem Formed.feed {t} (h : Formed s) : Formed (s.feed t) := h.feedPorts
@[simp] theorem Formed.startJob {t k j} (h : Formed s) : Formed (s.startJob t k j) := h.modJob.feed
theorem leads_matrixOpStart (tile) : Leads s (execMatrixOpStart tile s) := by
  unfold execMatrixOpStart
  dsimp only
  repeat' split
  all_goals simp +contextual

@[simp] theorem Formed.readJob {t j} (h : Formed s) : Formed (s.readJob t j) := h.readPad
@[simp] theorem Formed.performJob {t j} (h : Formed s) : Formed (s.performJob t j) := by
  unfold State.performJob
  split <;> simp [h]

@[simp] theorem Formed.endJob {t k j} (h : Formed s) : Formed (s.endJob t k j) := h.modTile.modRun.serve.twinEnter
theorem leads_matrixOpComplete (tile k) : Leads s (execMatrixOpComplete tile k s) := by
  unfold execMatrixOpComplete
  dsimp only
  repeat' split
  · exact .next fun h => h
  · exact .next fun h => h
  · exact .next fun h => h
  · exact .next fun h => h.feed
  · exact .next fun h => h.feed.endJob
  · exact .next fun h => h.feed
  · exact .next fun h => h.performJob.endJob
  · exact .next fun h => h.readJob.performJob.endJob

@[simp] theorem Formed.armedRow {t k j arr acc a w} (h : Formed s) : Formed (s.armedRow t k j arr acc a w) := by
  unfold State.armedRow
  dsimp only
  refine Formed.ite (Formed.ite (Formed.endJob (.ite (.setFull ?row) ?row)) (Formed.serve (.modJob (.ite (.setFull ?row) ?row)))) h
  exact h.readPad.passRows.padWrite.setFull

theorem leads_armedMmaRow (tile k) : Leads s (execArmedMmaRow tile k s) := by
  unfold execArmedMmaRow
  repeat' split
  all_goals simp +contextual

theorem leads_streamPacketArrive (tile port good) : Leads s (execStreamPacketArrive tile port good s) := by
  unfold execStreamPacketArrive
  dsimp only
  repeat' split
  · exact .next fun h => h
  · exact .next fun h => h.modInPort.setRun.feed
  · exact .next fun h => h.modInPort.setRun
  · exact .next fun h => h
  · exact .next fun h => h

theorem leads_streamAcknowledge (tile port) : Leads s (execStreamAcknowledge tile port s) := by
  unfold execStreamAcknowledge
  repeat' split
  all_goals simp +contextual

@[simp] theorem Formed.reread {t ctx k} (h : Formed s) : Formed (s.reread t ctx k).1 := by
  unfold State.reread
  split <;> simp [h]

@[simp] theorem Formed.rereadAll {t ctx n} (h : Formed s) : Formed (s.rereadAll t ctx n).1 := by
  induction n generalizing s with
  | nil => exact h
  | cons x rest ih => exact ih h.reread

theorem leads_streamResendRequest (tile port) : Leads s (execStreamResendRequest tile port s) := by
  unfold execStreamResendRequest
  dsimp only
  repeat' split
  all_goals simp +contextual

@[simp] theorem Formed.unhold {ctx q n} (h : Formed s) : Formed (s.unhold ctx q n) := by
  unfold State.unhold
  split <;> simp [h]

@[simp] theorem Formed.faultRingError {ctx q f} (h : Formed s) : Formed (s.faultRingError ctx q f) :=
  h.of_rings (rings_ringError s ctx q f)

theorem Formed.mailRecord {t : State} {ctx w} (h : Formed s) (ht : s.mailRecord ctx w = some t) : Formed t :=
  h.of_rings (rings_mail ht)

@[simp] theorem Formed.writeHeld {ctx q f n} (h : Formed s) : Formed (s.writeHeld ctx q f n) := by
  unfold State.writeHeld
  split
  · exact h
  · split
    · exact h.faultRingError
    · exact h.unhold.ringAppend

theorem leads_faultRecordHeldWrite (ctx) : Leads s (execFaultRecordHeldWrite ctx s) := by
  unfold execFaultRecordHeldWrite
  split
  · exact .next id
  split
  · exact .next id
  dsimp only
  split
  · refine .next fun h => formed_getD (fun t ht => ?_) h.noteRing
    obtain ⟨u, hu, rfl⟩ := Option.map_eq_some_iff.mp ht
    exact (h.noteRing.mailRecord hu).unhold
  · exact .next fun h => h.noteRing.faultRingError
  · exact .next fun h => h.noteRing.faultRingError
  · split
    next t ht => exact .next fun h => (h.noteRing.mailRecord ht).unhold
    next => exact .next fun h => h.noteRing.writeHeld

theorem leads_ringPoll (ctx queue) : Leads s (execRingPoll ctx queue s) := by
  unfold execRingPoll
  all_goals simp +contextual

theorem leads_launchNotify (ctx queue) : Leads s (execLaunchNotify ctx queue s) := by
  unfold execLaunchNotify
  repeat' split
  all_goals simp +contextual

@[simp] theorem Formed.logError {ctx q va f} (h : Formed s) : Formed (s.logError ctx q va f) := by
  unfold State.logError
  split <;> simp [h]

@[simp] theorem Formed.appendLog {ctx bs} (h : Formed s) : Formed (s.appendLog ctx bs).1 := by
  unfold State.appendLog
  dsimp only
  repeat' split
  all_goals simp [h]

theorem leads_svcLog (tile) : Leads s (execSvcLog tile s) := by
  unfold execSvcLog
  repeat' split
  all_goals simp +contextual

@[simp] theorem Formed.restall {t} (h : Formed s) : Formed (s.restall t) := by
  unfold State.restall
  repeat' split
  all_goals simp [h]

@[simp] theorem Formed.retryTask {t code} (h : Formed s) : Formed (s.retryTask t code) := (h.modRun.ite h).retryFault.restall
@[simp] theorem Formed.continueCopy {c seq} (h : Formed s) : Formed (s.continueCopy c seq) := by
  unfold State.continueCopy
  dsimp only
  split
  · exact h.modCopy
  · exact (h.modCopy.setRun.modRec.restall.ite h.modCopy)

@[simp] theorem Formed.abandonPrefetch {c} (h : Formed s) : Formed (s.abandonPrefetch c) := h.rollback.pendAgain
@[simp] theorem Formed.recheck {inst idx} (h : Formed s) : Formed (s.recheck inst idx) := by
  unfold State.recheck
  dsimp only
  repeat' split
  · exact h
  · exact h.verifyWalk.reportUnplaceable
  · exact h.verifyWords.modRec.checkPlace
  · exact h.verifyWords.modRec

@[simp] theorem Formed.act {w a} (h : Formed s) : Formed (s.act w a) := by
  unfold State.act
  repeat' split
  all_goals simp [h]

@[simp] theorem Formed.resume {seq ctl} (h : Formed s) : Formed (s.resume seq ctl).1 := by
  unfold State.resume
  dsimp only
  repeat' split
  all_goals simp [h]

theorem leads_svcResume (tile) : Leads s (execSvcResume tile s) := by
  unfold execSvcResume
  repeat' split
  all_goals simp +contextual

end Sys2Proof.Canon
end

section
/-! The canonical form: translation, wear, the host, sessions and ports, reset. -/

namespace Sys2Proof.Canon
open Machine Laws
variable {s : State} {e : Env} {c : CmdEnd}

@[simp] theorem Formed.dropCached {v} (h : Formed s) : Formed (s.dropCached v) := h
@[simp] theorem Formed.invalidate {v} (h : Formed s) : Formed (s.invalidate v) := h
theorem leads_svcTlbinv (tile) : Leads s (execSvcTlbinv tile s) := by
  unfold execSvcTlbinv
  repeat' split
  all_goals simp +contextual

theorem leads_svcMigrate (tile) : Leads s (execSvcMigrate tile s) := by
  unfold execSvcMigrate
  repeat' split
  all_goals simp +contextual

/-- Cells moved by one distance keep their order; what is not moved lies wholly before or after them. -/
theorem wf_move {m : Memory} (src dst n : Nat) (h : m.wf = true) : (m.move src dst n).wf = true := by
  obtain ⟨hlt, hne⟩ := kvWf_iff.1 h
  refine kvWf_iff.2 ⟨?_, fun x hx => ?_⟩
  · refine List.pairwise_append.2 ⟨List.pairwise_append.2 ⟨hlt.filter _, ?_, ?_⟩, hlt.filter _, ?_⟩
    · refine List.pairwise_map.2 ((hlt.filter _).imp_of_mem fun ha hb hab => ?_)
      simp only [List.mem_filter, decide_eq_true_eq, Bool.and_eq_true] at ha hb
      dsimp only
      omega
    all_goals
      simp only [List.mem_append, List.mem_map, List.mem_filter, decide_eq_true_eq, Bool.and_eq_true]
    · rintro a ⟨_, ha⟩ _ ⟨c, _, rfl⟩
      dsimp only
      omega
    · rintro a (⟨_, ha⟩ | ⟨c, hc, rfl⟩) b hb
      · omega
      · dsimp only
        omega
  · simp only [Memory.move, List.mem_append, List.mem_map, List.mem_filter] at hx
    rcases hx with (hx | ⟨c, hc, rfl⟩) | hx
    · exact hne x hx.1
    · exact hne c hc.1
    · exact hne x hx.1

theorem linesFormed_foldl {m l : List (Nat × LineMeta)} (h : LinesFormed l) :
    LinesFormed (m.foldl (fun (l : List (Nat × LineMeta)) x => kvSet {} l x.1 x.2) l) := by
  induction m generalizing l with
  | nil => exact h
  | cons x rest ih => exact ih (linesFormed_kvSet h x.1 x.2)

@[simp] theorem Formed.moveFrame {src dst n} (h : Formed s) : Formed (s.moveFrame src dst n) := by
  unfold State.moveFrame
  by_cases hd : absentLoc dst = true
  · simp [hd, h]
  · simp only [hd, formed_mk]
    exact ⟨wf_move src dst n h.mem, linesFormed_foldl (linesFormed_filter h.lines _)⟩

@[simp] theorem Formed.moveClaim {a b} (h : Formed s) : Formed (s.moveClaim a b) := h.ite h.modLine.modLine
/-- A fold keeps the form that each of its steps keeps. -/
theorem Formed.foldl {α : Type} {f : State → α → State} {l : List α} (hf : ∀ s x, Formed s → Formed (f s x)) (h : Formed s) :
    Formed (l.foldl f s) := by
  induction l generalizing s with
  | nil => exact h
  | cons x rest ih => exact ih (hf s x h)

@[simp] theorem Formed.moveCommits {ctx src dst n m} (h : Formed s) : Formed (s.moveCommits ctx src dst n m) := by
  induction m generalizing s with
  | nil => exact h
  | cons x rest ih => exact ih ((h.foldl fun _ _ h => h.moveClaim).setRun.ite h)

@[simp] theorem Formed.carryFrame {ctx a b n} (h : Formed s) : Formed (s.carryFrame ctx a b n) :=
  h.ite h.verifyLines.moveFrame.moveCommits
@[simp] theorem Formed.writeGroup {n e m} (h : Formed s) : Formed (s.writeGroup n e m) := by
  induction m generalizing s with
  | zero => exact h
  | succ n ih => exact ih h.store

@[simp] theorem Formed.migrate {ctx t old new entry} (h : Formed s) : Formed (s.migrate ctx t old new entry) := by
  unfold State.migrate
  dsimp only
  split
  · exact h.carryFrame.writeGroup.serviceDone
  · exact h.serviceDone

theorem Formed.invalidated {v report} (hr : ∀ p i s, Formed s → Formed (report p i s)) (h : Formed s) :
    Formed (s.invalidated v report) := by
  unfold State.invalidated
  split
  · exact h.serviceDone
  · exact h.migrate
  · exact hr _ _ _ h

theorem Formed.completeInv {k report} (hr : ∀ p i s, Formed s → Formed (report p i s)) (h : Formed s) :
    Formed (s.completeInv k report) := by
  unfold State.completeInv
  split
  · exact h
  · exact (h.rest.invalidated hr).ite h

@[simp] theorem Formed.fillTlb {unit size ctx va x} (h : Formed s) : Formed (s.fillTlb unit size ctx va x) := h
@[simp] theorem Formed.fillNodes {die n} (h : Formed s) : Formed (s.fillNodes die n) := h
@[simp] theorem Formed.fill {t ctx va} (h : Formed s) : Formed (s.fill t ctx va) := by
  unfold State.fill
  dsimp only
  repeat' split
  · exact h
  · exact h.fillTlb
  · exact h.fillNodes
  · exact h.fillNodes
  · exact h.fillNodes.fillTlb.fillTlb
  · exact h.fillNodes.fillTlb.fillTlb

theorem leads_translationWalk (tile ctx va) : Leads s (execTranslationWalk tile ctx va s) := by
  unfold execTranslationWalk
  repeat' split
  all_goals simp +contextual

@[simp] theorem Formed.checkQuota {ctx} (h : Formed s) : Formed (s.checkQuota ctx) := by
  unfold State.checkQuota
  split <;> simp [h]

@[simp] theorem Formed.chargeAll {part b n} (h : Formed s) : Formed (s.chargeAll part b n) := by
  induction n generalizing s with
  | nil => exact h
  | cons x rest ih => exact ih h.modCtx.checkQuota

@[simp] theorem Formed.wearInterval {t} (h : Formed s) : Formed (s.wearInterval t) := h.modTile.rest.chargeAll.age
theorem leads_wearIntervalEnd (tile) : Leads s (execWearIntervalEnd tile s) := by
  unfold execWearIntervalEnd
  repeat' split
  all_goals simp +contextual

@[simp] theorem Formed.wearIntervals {t n} (h : Formed s) : Formed (s.wearIntervals t n) := by
  induction n generalizing s with
  | zero => exact h
  | succ n ih => exact ih h.wearInterval

@[simp] theorem Formed.wearTiles {n} (h : Formed s) : Formed (s.wearTiles n) := by
  induction n generalizing s with
  | nil => exact h
  | cons x rest ih => exact ih (h.ite h.wearIntervals)

@[simp] theorem Formed.wearSince {old} (h : Formed s) : Formed (s.wearSince old) := h.wearTiles
theorem leads_monitorSample (tile bti rates) : Leads s (execMonitorSample tile bti rates s) := by
  unfold execMonitorSample
  repeat' split
  all_goals simp +contextual

theorem leads_drainedTimeout (tile) : Leads s (execDrainedTimeout tile s) := by
  unfold execDrainedTimeout
  all_goals simp +contextual

theorem leads_lifetimeRecordWrite : Leads s (execLifetimeRecordWrite s) := by
  unfold execLifetimeRecordWrite
  all_goals simp +contextual

@[simp] theorem Formed.scanTile {t} (h : Formed s) : Formed (s.scanTile t) := h.resetPad.modTile
@[simp] theorem Formed.scanTiles {n} (h : Formed s) : Formed (s.scanTiles n) := by
  induction n generalizing s with
  | nil => exact h
  | cons x rest ih => exact ih h.scanTile

theorem leads_infieldTestStart (cluster) : Leads s (execInfieldTestStart cluster s) := by
  unfold execInfieldTestStart
  repeat' split
  all_goals simp +contextual

@[simp] theorem Formed.suspectEntries {n} (h : Formed s) : Formed (s.suspectEntries n) := by
  induction n generalizing s with
  | nil => exact h
  | cons x rest ih => exact ih h.record

@[simp] theorem Formed.suspectAll {c n m} (h : Formed s) : Formed (s.suspectAll c n m) := by
  induction m generalizing s with
  | nil => exact h
  | cons x rest ih => exact ih h.record.suspectEntries

@[simp] theorem Formed.suspect {c failed shared} (h : Formed s) : Formed (s.suspect c failed shared) := h.suspectAll
@[simp] theorem Formed.tileFailed {t} (h : Formed s) : Formed (s.tileFailed t) := by
  unfold State.tileFailed
  split <;> simp [h]

@[simp] theorem Formed.tilePassed {t} (h : Formed s) : Formed (s.tilePassed t) := (h.modTile.changeTile.ite h.modTile).ite h
@[simp] theorem Formed.testTiles {failed n} (h : Formed s) : Formed (s.testTiles failed n) := by
  induction n generalizing s with
  | nil => exact h
  | cons x rest ih => exact ih (h.tileFailed.ite h.tilePassed)

theorem leads_infieldTestResult (cluster failed shared) : Leads s (execInfieldTestResult cluster failed shared s) := by
  unfold execInfieldTestResult
  dsimp only
  repeat' split
  · exact .next fun h => h
  · exact .next fun h => h.modCluster.modCluster.testTiles
  · exact .next fun h => h.modCluster.suspect.testTiles.failShared
  · exact .next fun h => h.modCluster.suspect.testTiles

@[simp] theorem Formed.evict {c t} (h : Formed s) : Formed (s.evict c t) := by
  unfold State.evict
  split <;> simp [h]

@[simp] theorem Formed.evictAll {c n} (h : Formed s) : Formed (s.evictAll c n) := by
  induction n generalizing s with
  | nil => exact h
  | cons x rest ih => exact ih h.evict

@[simp] theorem Formed.changeTiles {st n} (h : Formed s) : Formed (s.changeTiles st n) := by
  induction n generalizing s with
  | nil => exact h
  | cons x rest ih => exact ih h.changeTile

@[simp] theorem Formed.tellShrink {id n} (h : Formed s) : Formed (s.tellShrink id n) := by
  induction n generalizing s with
  | nil => exact h
  | cons x rest ih => exact ih h.record

@[simp] theorem Formed.shrink {id} (h : Formed s) : Formed (s.shrink id) := by
  simp [State.shrink, h]

@[simp] theorem Formed.replace {c id spareFailed} (h : Formed s) : Formed (s.replace c id spareFailed) :=
  h.shrink.ite (h.scanTiles.testTiles.rest.modDie.ite h.scanTiles.testTiles.modDie.shrink)
@[simp] theorem Formed.retireCluster {c spareFailed} (h : Formed s) : Formed (s.retireCluster c spareFailed) := by
  unfold State.retireCluster
  dsimp only
  exact h.changeTiles.modCluster.replace.writeLife

theorem leads_clusterRetire (cluster spareFailed) : Leads s (execClusterRetire cluster spareFailed s) := by
  unfold execClusterRetire
  split
  · exact .next id
  · exact .next id
  · split
    · exact .next fun h => h.retireCluster
    · exact .next id
  · exact .next fun h => h.evictAll.serve.retireCluster

theorem leads_thermalThreshold (cluster celsius) : Leads s (execThermalThreshold cluster celsius s) := by
  unfold execThermalThreshold
  all_goals simp +contextual

@[simp] theorem Formed.setCapped {n m} (h : Formed s) : Formed (s.setCapped n m) := by
  induction m generalizing s with
  | nil => exact h
  | cons x rest ih => exact ih h.modCluster

theorem leads_powerCapWindow (watts lowered) : Leads s (execPowerCapWindow watts lowered s) := by
  unfold execPowerCapWindow
  all_goals simp +contextual

theorem leads_clusterClockGate (cluster) : Leads s (execClusterClockGate cluster s) := by
  unfold execClusterClockGate
  all_goals simp +contextual

@[simp] theorem Formed.refuse1 {p} (h : Formed s) : Formed (s.refuse1 p) := h
@[simp] theorem Formed.scramble {l} (h : Formed s) : Formed (s.scramble l) := by
  induction l generalizing s with
  | nil => exact h
  | cons k rest ih => exact ih h.rest.store.modLine

@[simp] theorem Formed.hostReadParts {p session n} (h : Formed s) : Formed (s.hostReadParts p session n).1 := by
  induction n generalizing s with
  | nil => exact h
  | cons x rest ih =>
    unfold State.hostReadParts
    repeat' split
    all_goals simp [ih, h]

@[simp] theorem Formed.hostBytes {p session a n} (h : Formed s) : Formed (s.hostBytes p session a n).1 := h.hostReadParts
@[simp] theorem Formed.hostWriteParts {p session a bs n} (h : Formed s) : Formed (s.hostWriteParts p session a bs n) := by
  induction n generalizing s with
  | nil => exact h
  | cons x rest ih =>
    unfold State.hostWriteParts
    repeat' split
    all_goals simp [ih, h]

@[simp] theorem Formed.hostStore {p session a bs} (h : Formed s) : Formed (s.hostStore p session a bs) := h.hostWriteParts
theorem leads_hostRead (port session addr len) : Leads s (execHostRead port session addr len s) := by
  unfold execHostRead
  repeat' split
  all_goals simp +contextual

theorem leads_hostWrite (port session addr bytes) : Leads s (execHostWrite port session addr bytes s) := by
  unfold execHostWrite
  repeat' split
  all_goals simp +contextual

@[simp] theorem Formed.errRing {n} (h : Formed s) : Formed (s.errRing n) := by
  unfold State.errRing
  split <;> simp [h]

@[simp] theorem Formed.putCompletion {q index status result} (h : Formed s) : Formed (s.putCompletion q index status result) :=
  h.ringAppend
@[simp] theorem Formed.tellStatus {p} (h : Formed s) : Formed (s.tellStatus p) := by
  unfold State.tellStatus
  repeat' split
  all_goals simp [h]

@[simp] theorem Formed.tendRings {p} (h : Formed s) : Formed (s.tendRings p) := h.noteLine.errRing.tellStatus.errRing
@[simp] theorem Formed.decline (h : Formed s) : Formed (stateOf s.decline) := h
@[simp] theorem Formed.wrong (h : Formed s) : Formed (stateOf s.wrong) := h
@[simp] theorem Formed.ok (h : Formed s) : Formed (stateOf s.ok) := h
@[simp] theorem Formed.noteHead {p} (h : Formed s) : Formed (s.noteHead p) := by
  unfold State.noteHead
  split <;> simp [h]

@[simp] theorem Formed.complete {p index status result} (h : Formed s) : Formed (s.complete p index status result) := by
  unfold State.complete
  split <;> simp [h]

@[simp] theorem Formed.concluded {p index} (h : Formed (stateOf c)) : Formed (State.concluded p index c) := by
  cases c with
  | done s status result => exact Formed.complete h
  | waits s => exact h

theorem Formed.command {p session n act} (hact : ∀ s c, Formed s → Formed (stateOf (act s c))) (h : Formed s) :
    Formed (s.command p session n act) := by
  have hr : Formed (if p < 2 then s.tendRings p else s) := h.tendRings.ite h
  unfold State.command
  split
  · exact h
  dsimp only
  split
  · exact hr
  · exact hr.noteHead.complete.ite (hr.noteHead.ite (hr.noteHead.complete.ite
      ((hact _ _ hr.noteHead).concluded.ite hr.noteHead.complete)))

@[simp] theorem Formed.operand {p session a n} (h : Formed s) : Formed (s.operand p session a n).1 := h.hostBytes
@[simp] theorem Formed.createCtx {d} (h : Formed s) : Formed (s.createCtx d) := by
  unfold State.createCtx
  dsimp only
  split
  · exact h.rest.modCtx.checkQuota
  · exact h.rest

@[simp] theorem Formed.actCtxCreate {p session c} (h : Formed s) : Formed (stateOf (State.actCtxCreate p session s c)) := by
  unfold State.actCtxCreate
  dsimp only
  repeat' split
  · exact h.decline
  · exact h.wrong
  · exact h.decline
  · exact h.operand.createCtx.ok

theorem leads_ctxCreate (port session) : Leads s (execCtxCreate port session s) :=
  .next fun h => h.command fun _ _ h => h.actCtxCreate

@[simp] theorem Formed.killCtx {ctx} (h : Formed s) : Formed (s.killCtx ctx) := h.undoRuns.dropPlaces
theorem linesFormed_filterMap {l : List (Nat × LineMeta)} {f : Nat × LineMeta → Option (Nat × LineMeta)} (h : LinesFormed l)
    (hf : ∀ x y, f x = some y → y.1 = x.1 ∧ (x.2 ≠ {} → y.2 ≠ {})) : LinesFormed (l.filterMap f) := by
  obtain ⟨hlt, hne⟩ := kvWf_iff.1 h
  refine kvWf_iff.2 ⟨hlt.filterMap f fun a b hab x hx y hy => ?_, fun y hy => ?_⟩
  · rw [(hf a x hx).1, (hf b y hy).1]
    exact hab
  · obtain ⟨x, hx, hxy⟩ := List.mem_filterMap.1 hy
    exact (hf x y hxy).2 (hne x hx)

@[simp] theorem Formed.zeroBank {ctx} (h : Formed s) : Formed (s.zeroBank ctx) := by
  unfold State.zeroBank
  have hs : Formed ((s.releasesTo ctx).foldl (fun s k => s.modLine k fun m => { m with full := true }) s) :=
    h.foldl fun _ _ h => h.modLine
  refine ⟨wf_filter hs.mem _, linesFormed_filterMap hs.lines fun x y hxy => ?_⟩
  split at hxy
  · cases hxy
    exact ⟨rfl, id⟩
  · split at hxy
    · cases hxy
      exact ⟨rfl, fun _ h => by cases h⟩
    · cases hxy

@[simp] theorem Formed.discardCtx {ctx} (h : Formed s) : Formed (s.discardCtx ctx) := h
@[simp] theorem Formed.destroyCtx {ctx} (h : Formed s) : Formed (s.destroyCtx ctx) := h.killCtx.zeroBank.discardCtx.serve.scramble
@[simp] theorem Formed.actCtxDestroy {c} (h : Formed s) : Formed (stateOf (s.actCtxDestroy c)) := by
  unfold State.actCtxDestroy
  split <;> simp [h]

theorem leads_ctxDestroy (port session) : Leads s (execCtxDestroy port session s) :=
  .next fun h => h.command fun _ _ h => h.actCtxDestroy

@[simp] theorem Formed.actCtxSet {c} (h : Formed s) : Formed (stateOf (s.actCtxSet c)) := by
  unfold State.actCtxSet
  dsimp only
  split
  · exact h.decline
  · exact h.modCtx.checkQuota.ok

theorem leads_ctxSet (port session) : Leads s (execCtxSet port session s) :=
  .next fun h => h.command fun _ _ h => h.actCtxSet

@[simp] theorem Formed.spillBank {x base} (h : Formed s) : Formed (s.spillBank x base) :=
  (h.foldl fun _ _ h => h.store).modCtx

@[simp] theorem Formed.actSliceAssign {p session c} (h : Formed s) : Formed (stateOf (State.actSliceAssign p session s c)) := by
  unfold State.actSliceAssign
  dsimp only
  split
  · exact h.decline
  · split
    · exact h.wrong
    · split
      · exact h.decline
      · exact (h.operand.reloadBank.modCtx.ite h.operand.reloadBank.modCtx.spillBank).ok

theorem leads_sliceAssign (port session) : Leads s (execSliceAssign port session s) :=
  .next fun h => h.command fun _ _ h => h.actSliceAssign

@[simp] theorem Formed.dropLaunch {ctx queue} (h : Formed s) : Formed (s.dropLaunch ctx queue) := h
@[simp] theorem Formed.actQcbSet {c} (h : Formed s) : Formed (stateOf (s.actQcbSet c)) := by
  unfold State.actQcbSet
  dsimp only
  split
  · exact h.decline
  · split
    · exact h.dropLaunch.modCtx.ok
    · exact h.modCtx.ok
    · exact h.modCtx.ok
    · exact h.decline

theorem leads_qcbSet (port session) : Leads s (execQcbSet port session s) :=
  .next fun h => h.command fun _ _ h => h.actQcbSet

@[simp] theorem Formed.actTlbinv {p c} (h : Formed s) : Formed (stateOf (State.actTlbinv p s c)) := by
  unfold State.actTlbinv
  split <;> simp [h]

theorem leads_hostTlbinv (port session) : Leads s (execHostTlbinv port session s) :=
  .next fun h => h.command fun _ _ h => h.actTlbinv

theorem leads_invalidationComplete (k) : Leads s (execInvalidationComplete k s) := by
  unfold execInvalidationComplete
  repeat' split
  · exact .next id
  · exact .next fun h => h.completeInv fun _ _ _ h => h.complete
  · exact .next id

@[simp] theorem Formed.expel {ctx n} (h : Formed s) : Formed (s.expel ctx n) := by
  induction n generalizing s with
  | nil => exact h
  | cons x rest ih => exact ih h.unplaceAll

@[simp] theorem Formed.actDrainFor {p c} (h : Formed s) : Formed (stateOf (State.actDrainFor p s c)) := by
  simp [State.actDrainFor, h]

theorem leads_drainFor (port session) : Leads s (execDrainFor port session s) :=
  .next fun h => h.command fun _ _ h => h.actDrainFor

@[simp] theorem Formed.countDrain {ts n} (h : Formed s) : Formed (s.countDrain ts n) := by
  induction n generalizing s with
  | nil => exact h
  | cons x rest ih => exact ih (h.count.ite h)

@[simp] theorem Formed.releaseDrains (h : Formed s) : Formed s.releaseDrains := h
theorem leads_drainComplete (k) : Leads s (execDrainComplete k s) := by
  unfold execDrainComplete
  dsimp only
  repeat' split
  · exact .next id
  · exact .next fun h => h.rest.releaseDrains.countDrain.complete
  · exact .next id

@[simp] theorem Formed.actRestore {margin c} (h : Formed s) : Formed (stateOf (State.actRestore margin s c)) := by
  unfold State.actRestore
  dsimp only
  repeat' split
  · exact h.decline
  · exact h.modTile.changeTile.ok
  · exact h.decline

theorem leads_restore (port session margin) : Leads s (execRestore port session margin s) :=
  .next fun h => h.command fun _ _ h => h.actRestore

@[simp] theorem Formed.actTraceSet {c} (h : Formed s) : Formed (stateOf (s.actTraceSet c)) := by
  unfold State.actTraceSet
  dsimp only
  repeat' split
  all_goals simp [h]

theorem leads_traceSet (port session) : Leads s (execTraceSet port session s) :=
  .next fun h => h.command fun _ _ h => h.actTraceSet

@[simp] theorem Formed.actTableRegion {c} (h : Formed s) : Formed (stateOf (s.actTableRegion c)) := by
  unfold State.actTableRegion
  dsimp only
  repeat' split
  all_goals simp [h]

theorem leads_tableRegion (port session) : Leads s (execTableRegion port session s) :=
  .next fun h => h.command fun _ _ h => h.actTableRegion

@[simp] theorem Formed.actCounterRead {c} (h : Formed s) : Formed (stateOf (s.actCounterRead c)) := by
  unfold State.actCounterRead
  dsimp only
  split <;> simp [h]

theorem leads_counterRead (port session) : Leads s (execCounterRead port session s) :=
  .next fun h => h.command fun _ _ h => h.actCounterRead

@[simp] theorem Formed.actPodAttach {p session c} (h : Formed s) : Formed (stateOf (State.actPodAttach p session s c)) := by
  unfold State.actPodAttach
  dsimp only
  repeat' split
  all_goals simp [h]

theorem leads_podAttach (port session) : Leads s (execPodAttach port session s) :=
  .next fun h => h.command fun _ _ h => h.actPodAttach

@[simp] theorem Formed.attestation {nonce ctx} (h : Formed s) : Formed (s.attestation nonce ctx).1 := h
@[simp] theorem Formed.actAttest {p session c} (h : Formed s) : Formed (stateOf (State.actAttest p session s c)) :=
  h.operand.attestation.hostStore.ok

theorem leads_attest (port session) : Leads s (execAttest port session s) :=
  .next fun h => h.command fun _ _ h => h.actAttest

@[simp] theorem Formed.absentPeer {port n reads writes} (h : Formed s) : Formed (s.absentPeer port n reads writes) :=
  (h.refuse1.ite h).answerPeer.ite (h.refuse1.ite h)
@[simp] theorem Formed.peerReadParts {ctx n} (h : Formed s) : Formed (s.peerReadParts ctx n).1 := by
  induction n generalizing s with
  | nil => exact h
  | cons x rest ih =>
    unfold State.peerReadParts
    repeat' split
    all_goals simp [ih, h]

@[simp] theorem Formed.peerWriteParts {port ctx a bs pois l} (h : Formed s) :
    Formed (s.peerWriteParts port ctx a bs pois l) := by
  induction l generalizing s with
  | nil => exact h
  | cons x rest ih =>
    unfold State.peerWriteParts
    dsimp only
    split
    · exact ih h.refuse1
    · exact ih h.gotPoison.storeFor

@[simp] theorem Formed.enlistPeer {port key w} (h : Formed s) : Formed (s.enlistPeer port key w) := h.enlist.ite h.sendPort
@[simp] theorem Formed.peerSyncArrive {port ctx n m vec data pois} (h : Formed s) : Formed (s.peerSyncArrive port ctx n m vec data pois) :=
  h.faultPeer.ite (h.peerSync.serve.ite h.enlistPeer)
@[simp] theorem Formed.peerClaimArrive {port key} (h : Formed s) : Formed (s.peerClaimArrive port key) :=
  h.enlistPeer.ite h.peerClaim
@[simp] theorem Formed.peerAtomic {port ctx n m f pois} (h : Formed s) : Formed (s.peerAtomic port ctx n m f pois) := by
  unfold State.peerAtomic
  dsimp only
  split
  · exact h.verifyLine.storeFor.answerPeer
  · exact h.verifyLine.answerPeer

@[simp] theorem Formed.peerContribution {ctx n q op pois} (h : Formed s) : Formed (s.peerContribution ctx n q op pois) := h
@[simp] theorem Formed.peerDecrement {port ctx a tag amt n} (h : Formed s) : Formed (s.peerDecrement port ctx a tag amt n) :=
  h.faultPeer.ite h.addDec
@[simp] theorem Formed.peerMessage {port ctx sender mbox words} (h : Formed s) : Formed (s.peerMessage port ctx sender mbox words) :=
  h.faultPeer.ite h
@[simp] theorem Formed.peerAt {port n m} (h : Formed s) : Formed (s.peerAt port n m) := by
  unfold State.peerAt
  repeat' split
  all_goals simp [h]

@[simp] theorem Formed.peerRequest {port a q} (h : Formed s) : Formed (s.peerRequest port a q) := by
  unfold State.peerRequest
  repeat' split
  all_goals simp [h]

@[simp] theorem Formed.passLink {port chan} (h : Formed s) : Formed (s.passLink port chan) := h
theorem leads_peerAccess (port addr k) : Leads s (execPeerAccess port addr k s) := by
  unfold execPeerAccess
  repeat' split
  all_goals simp +contextual

@[simp] theorem Formed.setConn {c} (h : Formed s) : Formed (s.setConn c) := h
@[simp] theorem Formed.spdmRespond {x m ready bs} (h : Formed s) : Formed (s.respond x m ready bs) := by
  unfold State.respond
  split <;> exact h

@[simp] theorem Formed.negotiate {x m ready f} (h : Formed s) : Formed (s.negotiate x m ready f) :=
  (h.setConn.ite h).spdmRespond.ite h

theorem leads_getVersion (side) : Leads s (execGetVersion side s) := by
  unfold execGetVersion
  all_goals simp +contextual

theorem leads_getCapabilities (side) : Leads s (execGetCapabilities side s) := by
  unfold execGetCapabilities
  all_goals simp +contextual

theorem leads_negotiateAlgorithms (offer) : Leads s (execNegotiateAlgorithms offer s) := by
  unfold execNegotiateAlgorithms
  dsimp only
  repeat' split
  all_goals simp +contextual

theorem leads_getDigests (side) : Leads s (execGetDigests side s) := by
  unfold execGetDigests
  all_goals simp +contextual

theorem leads_getCertificate (side) : Leads s (execGetCertificate side s) := by
  unfold execGetCertificate
  all_goals simp +contextual

theorem leads_challenge (side nonce) : Leads s (execChallenge side nonce s) := by
  unfold execChallenge
  split
  · exact .next fun h => h.spdmRespond.ite h.spdmRespond
  · exact .next id

theorem leads_getMeasurements (side nonce) : Leads s (execGetMeasurements side nonce s) := by
  unfold execGetMeasurements
  repeat' split
  · exact .next fun h => h.attestation.spdmRespond
  · exact .next fun h => h.spdmRespond
  · exact .next fun h => h.spdmRespond
  · exact .next id

theorem leads_keyExchange (side) : Leads s (execKeyExchange side s) := by
  unfold execKeyExchange
  split
  · exact .next fun h => (Formed.ite h.rest h).spdmRespond
  · exact .next id

@[simp] theorem Formed.modSession {n f} (h : Formed s) : Formed (s.modSession n f) := h
@[simp] theorem Formed.dropSession {n} (h : Formed s) : Formed (s.dropSession n) := h
theorem leads_finish (side session good) : Leads s (execFinish side session good s) := by
  unfold execFinish
  split
  · exact .next fun h => h.spdmRespond.ite h
  · split
    · exact .next fun h => h.spdmRespond
    · exact .next fun h => (h.modSession.ite h.dropSession).spdmRespond

@[simp] theorem Formed.failLocked {session} (h : Formed s) : Formed (s.failLocked session) := h
theorem leads_keyUpdate (side session good) : Leads s (execKeyUpdate side session good s) := by
  unfold execKeyUpdate
  split
  · exact .next fun h => h.spdmRespond.ite h
  · split
    · exact .next fun h => h.spdmRespond
    · exact .next fun h => (h.modSession.ite h.failLocked).spdmRespond

theorem leads_endSession (side session) : Leads s (execEndSession side session s) := by
  unfold execEndSession
  split
  · exact .next fun h => h.spdmRespond.ite h
  · exact .next fun h => h.failLocked.dropSession.spdmRespond

theorem leads_lockPort (port session) : Leads s (execLockPort port session s) := by
  unfold execLockPort
  repeat' split
  all_goals simp +contextual

@[simp] theorem Formed.tellNotes (h : Formed s) : Formed s.tellNotes := h
theorem leads_startPort (port session) : Leads s (execStartPort port session s) := by
  unfold execStartPort
  dsimp only
  repeat' split
  · exact .next fun h => h.modPort.resend.tellNotes
  · exact .next fun h => h.modPort.resend
  · exact .next fun h => h

theorem leads_stopPort (port) : Leads s (execStopPort port s) := by
  unfold execStopPort
  repeat' split
  all_goals simp +contextual

theorem leads_portConfigChange (port change) : Leads s (execPortConfigChange port change s) := by
  unfold execPortConfigChange
  all_goals simp +contextual

@[simp] theorem Formed.arrivedTo {p chan seq} (h : Formed s) : Formed (s.arrivedTo p chan seq) := h
theorem leads_linkReplay (port what failed) : Leads s (execLinkReplay port what failed s) := by
  unfold execLinkReplay
  dsimp only
  repeat' split
  · exact .next fun h => h.modPort.refuse1.rest
  · exact .next fun h => h.modPort.refuse1.rest
  · exact .next fun h => h.modPort.rest
  · exact .next fun h => h.modPort.rest
  · exact .next fun h => h.modPort.arrivedTo.resend
  · exact .next fun h => h.modPort.arrivedTo.resend
  · exact .next fun h => h

theorem leads_linkReset (port) : Leads s (execLinkReset port s) := by
  unfold execLinkReset
  repeat' split
  all_goals simp +contextual

@[simp] theorem Formed.fullReset (h : Formed s) : Formed s.fullReset :=
  Formed.checkClusters ⟨wf_filter h.mem _, linesFormed_filter h.lines _⟩

@[simp] theorem Formed.haltReset (h : Formed s) : Formed s.haltReset := h
@[simp] theorem Formed.packageReset (h : Formed s) : Formed s.packageReset := h.haltReset.ite h.fullReset
theorem leads_supplyGood : Leads s (execSupplyGood s) := by
  unfold execSupplyGood
  all_goals simp +contextual

theorem leads_managementReset : Leads s (execManagementReset s) := by
  unfold execManagementReset
  repeat' split
  all_goals simp +contextual

theorem leads_powerFailure : Leads s (execPowerFailure s) := by
  unfold execPowerFailure
  repeat' split
  all_goals simp +contextual

theorem leads_microcodeLoad (version digest weights good) : Leads s (execMicrocodeLoad version digest weights good s) := by
  unfold execMicrocodeLoad
  repeat' split
  all_goals simp +contextual

@[simp] theorem Formed.destroyAll {n} (h : Formed s) : Formed (s.destroyAll n) := by
  induction n generalizing s with
  | nil => exact h
  | cons x rest ih => exact ih h.destroyCtx

@[simp] theorem Formed.loseSpilled {n} (h : Formed s) : Formed (s.loseSpilled n) := by
  induction n generalizing s with
  | nil => exact h
  | cons x rest ih =>
    unfold State.loseSpilled
    repeat' split
    all_goals simp [ih, h]

@[simp] theorem Formed.loseOldKeys (h : Formed s) : Formed s.loseOldKeys := by
  unfold State.loseOldKeys
  split
  · exact h
  · exact h.rest.loseSpilled.scramble

theorem leads_debugToken (good) : Leads s (execDebugToken good s) := by
  unfold execDebugToken
  dsimp only
  repeat' split
  · exact .next fun h => h.destroyAll.loseOldKeys.rest
  · exact .next fun h => h

@[simp] theorem Formed.freezeNow (h : Formed s) : Formed s.freezeNow := by
  simp [State.freezeNow, h]

theorem leads_freeze : Leads s (execFreeze s) := by
  unfold execFreeze
  all_goals simp +contextual

theorem leads_frzNAssert (cycles) : Leads s (execFrzNAssert cycles s) := by
  unfold execFrzNAssert
  repeat' split
  all_goals simp +contextual

theorem leads_powerCapSet (watts) : Leads s (execPowerCapSet watts s) := by
  unfold execPowerCapSet
  repeat' split
  all_goals simp +contextual

@[simp] theorem Formed.notIdle {n} (h : Formed s) : Formed (s.notIdle n) := by
  induction n generalizing s with
  | nil => exact h
  | cons x rest ih => exact ih (h.modCluster.ite h)

@[simp] theorem Formed.tick {dt} (h : Formed s) : Formed (s.tick dt) := by
  unfold State.tick
  split
  · exact h.rest.notIdle.wearSince
  · exact h

@[simp] theorem Formed.aim {t k} (h : Formed s) : Formed (s.aim t k) := h.modRun.rest
@[simp] theorem Formed.envBadWord {x} (h : Formed e.s) : Formed (e.badWord x) := h
@[simp] theorem Formed.endChange (h : Formed s) : Formed s.endChange := by
  simp [State.endChange, h]

@[simp] theorem Formed.settled (h : Formed s) : Formed s.settled :=
  h.endChange.drainsOver.lifeDue.retireOver.noteDies.endClaims.releaseDrains.examine.tellMismatches

end Sys2Proof.Canon
end

section
/-! The canonical form: O5 and O6, the step answers a next state and keeps the form. -/

namespace Sys2Proof.Canon
open Machine Laws
variable {s : State} {e : Env} {c : CmdEnd}
/-! ## The step -/

/-- With a pitch in the window, an instruction of it answers a next state. -/
theorem leads_fire (i act) (h : ∃ e, s.env? = some e) : Leads s (fire i act s) := by
  have hf : Formed s → Formed (outcomeOr s (fire i act s)) := fun h => h.fired
  obtain ⟨e, he⟩ := h
  rw [fire_env he] at hf ⊢
  exact .next hf

/-- An event has a lemma of its own; an instruction of a pitch is fired. -/
theorem leads_exec (i : Instr) (h : encode i = none ∨ ∃ e, s.env? = some e) : Leads s (exec i s) := by
  cases i with
  | pitchFetch tile => exact leads_pitchFetch tile
  | pitchExhaustion tile => exact leads_pitchExhaustion tile
  | immediateAccessComplete tile => exact leads_immediateAccessComplete tile
  | syncAccessArrive tile => exact leads_syncAccessArrive tile
  | retryListBusyResend tile => exact leads_retryListBusyResend tile
  | memoryResponse tile slot => exact leads_memoryResponse tile slot
  | uncorrectableError site => exact leads_uncorrectableError site
  | watchdogExpiry tile => exact leads_watchdogExpiry tile
  | waitWithdrawal tile => exact leads_waitWithdrawal tile
  | commitChecks tile => exact leads_commitChecks tile
  | handover tile => exact leads_handover tile
  | publicationStep2 pub k => exact leads_publicationStep2 pub k
  | publicationStep3 pub => exact leads_publicationStep3 pub
  | taskRetired pub => exact leads_taskRetired pub
  | twinDigestCompare inst idx => exact leads_twinDigestCompare inst idx
  | decrementApply k => exact leads_decrementApply k
  | placement die reports => exact leads_placement die reports
  | crossDiePlacement die => exact leads_crossDiePlacement die
  | taskRunnable tile inst idx => exact leads_taskRunnable tile inst idx
  | taskStart tile => exact leads_taskStart tile
  | copyElementTranslate copy => exact leads_copyElementTranslate copy
  | copyElementComplete copy entry => exact leads_copyElementComplete copy entry
  | copyStampWrite copy => exact leads_copyStampWrite copy
  | copyComplete copy => exact leads_copyComplete copy
  | reductionApply pub k => exact leads_reductionApply pub k
  | orderedContributionArrive k => exact leads_orderedContributionArrive k
  | orderedBusyResend k => exact leads_orderedBusyResend k
  | streamPacketArrive tile port good => exact leads_streamPacketArrive tile port good
  | streamAcknowledge tile port => exact leads_streamAcknowledge tile port
  | streamResendRequest tile port => exact leads_streamResendRequest tile port
  | matrixOpStart tile => exact leads_matrixOpStart tile
  | matrixOpComplete tile k => exact leads_matrixOpComplete tile k
  | armedMmaRow tile k => exact leads_armedMmaRow tile k
  | faultRecordHeldWrite ctx => exact leads_faultRecordHeldWrite ctx
  | ringPoll ctx queue => exact leads_ringPoll ctx queue
  | launchNotify ctx queue => exact leads_launchNotify ctx queue
  | instanceCreate k => exact leads_instanceCreate k
  | messageAccept k => exact leads_messageAccept k
  | handlerDelivery ctx mbox => exact leads_handlerDelivery ctx mbox
  | mailboxOverflow k => exact leads_mailboxOverflow k
  | ropeArrival k => exact leads_ropeArrival k
  | svcLog tile => exact leads_svcLog tile
  | svcTlbinv tile => exact leads_svcTlbinv tile
  | svcResume tile => exact leads_svcResume tile
  | svcMigrate tile => exact leads_svcMigrate tile
  | invalidationComplete k => exact leads_invalidationComplete k
  | translationWalk tile ctx va => exact leads_translationWalk tile ctx va
  | quiescenceWave ctx => exact leads_quiescenceWave ctx
  | wearIntervalEnd tile => exact leads_wearIntervalEnd tile
  | monitorSample tile bti rates => exact leads_monitorSample tile bti rates
  | drainedTimeout tile => exact leads_drainedTimeout tile
  | infieldTestStart cluster => exact leads_infieldTestStart cluster
  | infieldTestResult cluster failed shared => exact leads_infieldTestResult cluster failed shared
  | clusterRetire cluster spareFailed => exact leads_clusterRetire cluster spareFailed
  | lifetimeRecordWrite => exact leads_lifetimeRecordWrite
  | drainComplete k => exact leads_drainComplete k
  | spillPlaceFreed tile => exact leads_spillPlaceFreed tile
  | thermalThreshold cluster celsius => exact leads_thermalThreshold cluster celsius
  | powerCapWindow watts lowered => exact leads_powerCapWindow watts lowered
  | clusterClockGate cluster => exact leads_clusterClockGate cluster
  | ctxCreate port session => exact leads_ctxCreate port session
  | ctxDestroy port session => exact leads_ctxDestroy port session
  | ctxSet port session => exact leads_ctxSet port session
  | sliceAssign port session => exact leads_sliceAssign port session
  | qcbSet port session => exact leads_qcbSet port session
  | hostTlbinv port session => exact leads_hostTlbinv port session
  | drainFor port session => exact leads_drainFor port session
  | restore port session margin => exact leads_restore port session margin
  | traceSet port session => exact leads_traceSet port session
  | tableRegion port session => exact leads_tableRegion port session
  | counterRead port session => exact leads_counterRead port session
  | podAttach port session => exact leads_podAttach port session
  | attest port session => exact leads_attest port session
  | hostRead port session addr len => exact leads_hostRead port session addr len
  | hostWrite port session addr bytes => exact leads_hostWrite port session addr bytes
  | peerAccess port addr req => exact leads_peerAccess port addr req
  | getVersion side => exact leads_getVersion side
  | getCapabilities side => exact leads_getCapabilities side
  | negotiateAlgorithms offer => exact leads_negotiateAlgorithms offer
  | getDigests side => exact leads_getDigests side
  | getCertificate side => exact leads_getCertificate side
  | challenge side nonce => exact leads_challenge side nonce
  | getMeasurements side nonce => exact leads_getMeasurements side nonce
  | keyExchange side => exact leads_keyExchange side
  | finish side session good => exact leads_finish side session good
  | keyUpdate side session good => exact leads_keyUpdate side session good
  | endSession side session => exact leads_endSession side session
  | lockPort port session => exact leads_lockPort port session
  | startPort port session => exact leads_startPort port session
  | stopPort port => exact leads_stopPort port
  | portConfigChange port change => exact leads_portConfigChange port change
  | linkReplay port what failed => exact leads_linkReplay port what failed
  | linkReset port => exact leads_linkReset port
  | supplyGood => exact leads_supplyGood
  | managementReset => exact leads_managementReset
  | microcodeLoad version digest weights good => exact leads_microcodeLoad version digest weights good
  | debugToken good => exact leads_debugToken good
  | freeze => exact leads_freeze
  | frzNAssert cycles => exact leads_frzNAssert cycles
  | powerCapSet watts => exact leads_powerCapSet watts
  | powerFailure => exact leads_powerFailure
  | strayDecrementAnswer k => exact leads_strayDecrementAnswer k
  | _ => exact leads_fire _ _ (h.resolve_left nofun)

theorem leads_runHere : Leads s s.runHere := by
  unfold State.runHere
  split
  · exact .next id
  next e he =>
    split
    · exact leads_exec _ (.inr ⟨e, he⟩)
    · exact .next fun h => Formed.envBadWord (by rwa [(env_state he).1])

/-- What a state reached from `s`, and no less formed, leads to. -/
theorem Leads.trans {t : State} {x} (hf : Formed s → Formed t) (h : Leads t x) : Leads s x := by
  obtain ⟨u, rfl, hu⟩ := h
  exact .next fun hs => hu (hf hs)

theorem leads_runSlot (t k) : Leads s (s.runSlot t k) := by
  unfold State.runSlot
  split
  · exact leads_runHere.trans fun h => h.aim
  · exact .next id

theorem leads_reexamine (t k) : Leads s (s.reexamine t k) := by
  unfold State.reexamine
  split
  · obtain ⟨u, hu, hf⟩ := (leads_runHere (s := s.aim t k)).trans fun h => h.aim
    rw [hu]
    exact .next fun h => h.ite (hf h).rest
  · exact .next id

theorem leads_occur (i) : Leads s (s.occur i) := by
  unfold State.occur
  split
  next ha =>
    simp only [State.admits, Bool.and_eq_true, Option.isNone_iff_eq_none] at ha
    exact leads_exec i (.inl ha.1.1.1)
  next => exact .next id

/-! ## The events of the default choice -/

/-- An event of the default choice leads on from every state. -/
def DeedLeads (d : Deed) : Prop := ∀ s, Leads s (d.run s)

theorem leads_deed {d : Deed} (h : DeedLeads d) (s) : Leads s (d.occur s) := by
  unfold Deed.occur
  repeat' split
  · exact h s
  · exact .next id
  · exact .next id
  · exact h s

theorem deedLeads_eachOf {α : Type} {l : List α} {f : Nat → State → Host.Outcome State Fault Refusal} (hf : ∀ k s, Leads s (f k s)) :
    ∀ d ∈ eachOf l f, DeedLeads d := by
  simp only [eachOf, List.mem_map]
  rintro d ⟨k, _, rfl⟩
  exact hf k

theorem deedLeads_pitch (t : Nat) (p : Pitch) :
    ∀ d ∈ (List.range p.slots.length).map fun k => deedOf t fun s => s.reexamine t k, DeedLeads d := by
  simp only [List.mem_map]
  rintro d ⟨k, _, rfl⟩
  exact fun s => leads_reexamine t k

theorem deedLeads_tile (t r v) : ∀ d ∈ tileDeeds t r v, DeedLeads d := by
  intro d hd
  simp only [tileDeeds, List.mem_append, List.mem_cons, List.not_mem_nil, or_false, List.mem_flatMap] at hd
  rcases hd with ((hd | hd) | ⟨k, _, hd⟩) | ⟨p, _, hd⟩
  · split at hd
    · exact deedLeads_pitch t _ d hd
    · cases hd
  · rcases hd with rfl | rfl | rfl | rfl | rfl | rfl | rfl | rfl | rfl | rfl | rfl | rfl | rfl | rfl
    · exact fun s => leads_watchdogExpiry t
    · exact fun s => leads_waitWithdrawal t
    · exact fun s => leads_pitchFetch t
    · exact fun s => leads_pitchExhaustion t
    · exact fun s => leads_svcLog t
    · exact fun s => leads_svcTlbinv t
    · exact fun s => leads_svcResume t
    · exact fun s => leads_svcMigrate t
    · exact fun s => leads_syncAccessArrive t
    · exact fun s => leads_immediateAccessComplete t
    · exact fun s => leads_retryListBusyResend t
    · exact fun s => leads_commitChecks t
    · exact fun s => leads_handover t
    · exact fun s => leads_matrixOpStart t
  · rcases hd with rfl | rfl
    · exact fun s => leads_matrixOpComplete t k
    · exact fun s => leads_armedMmaRow t k
  · rcases hd with rfl | rfl | rfl
    · exact fun s => leads_streamPacketArrive t p true
    · exact fun s => leads_streamAcknowledge t p
    · exact fun s => leads_streamResendRequest t p

theorem deedLeads_copy (x) : ∀ d ∈ copyDeeds x, DeedLeads d := by
  intro d hd
  simp only [copyDeeds, List.mem_append, List.mem_cons, List.not_mem_nil, or_false] at hd
  rcases hd with hd | rfl | rfl | rfl
  · exact deedLeads_eachOf (fun k s => leads_copyElementComplete x.id k) d hd
  · exact fun s => leads_copyElementTranslate x.id
  · exact fun s => leads_copyStampWrite x.id
  · exact fun s => leads_copyComplete x.id

theorem deedLeads_pub (p) : ∀ d ∈ pubDeeds p, DeedLeads d := by
  intro d hd
  simp only [pubDeeds, List.mem_append, List.mem_map, List.mem_cons, List.not_mem_nil, or_false] at hd
  rcases hd with (⟨k, _, rfl⟩ | ⟨k, _, rfl⟩) | rfl | rfl
  · exact fun s => leads_reductionApply p.id k
  · exact fun s => leads_publicationStep2 p.id k
  · exact fun s => leads_publicationStep3 p.id
  · exact fun s => leads_taskRetired p.id

theorem deedLeads_ctx (x) : ∀ d ∈ ctxDeeds x, DeedLeads d := by
  intro d hd
  simp only [ctxDeeds, List.mem_append, List.mem_map, List.mem_cons] at hd
  rcases hd with (rfl | ⟨q, _, rfl⟩) | ⟨m, _, rfl⟩
  · exact fun s => leads_faultRecordHeldWrite x.id
  · exact fun s => leads_ringPoll x.id q.1
  · exact fun s => leads_handlerDelivery x.id m.1

theorem deedLeads_queue (t v) : ∀ d ∈ queueDeeds t v, DeedLeads d := by
  intro d hd
  simp only [queueDeeds, List.mem_append, List.mem_map, List.mem_singleton] at hd
  rcases hd with ⟨p, _, rfl⟩ | rfl
  · exact fun s => leads_taskRunnable t p.inst p.idx
  · exact fun s => leads_taskStart t

theorem deedLeads_served {l : List Deed} (h : ∀ d ∈ l, DeedLeads d) : ∀ d ∈ l.map Deed.served, DeedLeads d := by
  simp only [List.mem_map]
  rintro d ⟨x, hx, rfl⟩
  exact h x hx

theorem deedLeads_mapped {α : Type} {l : List α} {f : α → Deed} (h : ∀ x, DeedLeads (f x)) : ∀ d ∈ l.map f, DeedLeads d := by
  simp only [List.mem_map]
  rintro d ⟨x, _, rfl⟩
  exact h x

theorem deedLeads_flat {α : Type} {l : List α} {f : α → List Deed} (h : ∀ x, ∀ d ∈ f x, DeedLeads d) :
    ∀ d ∈ l.flatMap f, DeedLeads d := by
  simp only [List.mem_flatMap]
  rintro d ⟨x, _, hd⟩
  exact h x d hd

theorem deedLeads_append {l m : List Deed} (hl : ∀ d ∈ l, DeedLeads d) (hm : ∀ d ∈ m, DeedLeads d) : ∀ d ∈ l ++ m, DeedLeads d :=
  fun d hd => (List.mem_append.1 hd).elim (hl d) (hm d)

theorem deedLeads (s : State) : ∀ d ∈ s.deeds, DeedLeads d := by
  unfold State.deeds
  repeat' apply deedLeads_append
  · exact deedLeads_flat fun x => deedLeads_tile _ _ _
  · exact deedLeads_flat deedLeads_copy
  · exact deedLeads_flat deedLeads_pub
  · exact deedLeads_eachOf fun k s => leads_orderedContributionArrive k
  · exact deedLeads_eachOf fun k s => leads_orderedBusyResend k
  · exact deedLeads_served (deedLeads_append (deedLeads_eachOf fun k s => leads_decrementApply k)
      (deedLeads_mapped fun k s => leads_messageAccept k))
  · exact deedLeads_eachOf fun k s => leads_ropeArrival k
  · exact deedLeads_eachOf fun k s => leads_instanceCreate k
  · exact deedLeads_eachOf fun k s => leads_invalidationComplete k
  · exact deedLeads_served (deedLeads_eachOf fun k s => leads_drainComplete k)
  · exact deedLeads_flat deedLeads_ctx
  · exact deedLeads_flat fun i => deedLeads_mapped fun k s => leads_twinDigestCompare i.id k
  · exact deedLeads_flat fun x => deedLeads_queue _ _
  · exact deedLeads_mapped fun d s => leads_placement d false
  · exact deedLeads_mapped fun d s => leads_crossDiePlacement d
  · exact deedLeads_eachOf fun k s => leads_mailboxOverflow k

/-! ## What takes place -/

theorem mem_of_mem_rotateLeft {α : Type} {l : List α} {n : Nat} {x : α} (h : x ∈ l.rotateLeft n) : x ∈ l := by
  unfold List.rotateLeft at h
  dsimp only at h
  split at h
  · exact h
  · exact (List.mem_append.1 h).elim List.mem_of_mem_drop List.mem_of_mem_take

theorem deedLeads_tried {d : Deed} (h : d ∈ s.tried) : DeedLeads d := by
  unfold State.tried at h
  exact deedLeads s d (mem_of_mem_rotateLeft h)

theorem leads_byDefault : Leads s s.byDefault := by
  unfold State.byDefault
  repeat' split
  · exact leads_runHere
  · exact leads_runHere.trans fun h => h.rest
  next hd => exact leads_deed (deedLeads_tried (List.mem_of_find?_eq_some hd)) s
  · exact .next id
  · exact .next id

theorem leads_move (m) : Leads s (s.move m) := by
  cases m with
  | event i => exact leads_occur i
  | slot t k => exact leads_runSlot t k
  | auto => exact leads_byDefault

theorem leads_settle {x} (h : Leads s x) : Leads s (settle x) := by
  obtain ⟨t, rfl, ht⟩ := h
  exact .next fun hs => (ht hs).settled

theorem leads_step : Leads s (step s) := by
  unfold step
  split
  · exact leads_settle ((leads_move _).trans fun h => h.tick)
  · exact leads_settle ((leads_move _).trans fun h => h.rest.tick)

/-- Settles O5: the step leads on from every state. -/
theorem everyStepGoes : Obligations.EveryStepGoes := by
  intro s
  obtain ⟨t, ht, _⟩ := leads_step (s := s)
  exact ⟨t, ht⟩

/-- Settles O6: what the step leads to keeps the canonical form. -/
theorem stepKeepsMemory : Obligations.StepKeepsMemory := by
  intro s t hs ht
  obtain ⟨u, hu, hf⟩ := leads_step (s := s)
  rw [hu] at ht
  cases ht
  exact hf hs

end Sys2Proof.Canon
end

section
/-! The family 18_faults_reliability, returning from a fault: O32. -/
namespace Sys2Proof.Retried
open Machine Laws

/-- The task as RETRY leaves it (18 R373). -/
def resumed (s : State) (t : Nat) (r : Run) (resume : Resume) (c : Bool) : Run :=
  { r with
    phase := r.returnPhase resume c
    pitch := r.pitch.map fun p => { p with snap := s.csrSnap t r }
    cycleft := if resume = .watchdog then 2 ^ r.cyclim else r.cycleft
    watchdogDue := if resume = .watchdog then false else r.watchdogDue }

theorem tiles_retryFault {s : State} {t q : Nat} {r : Run} {resume : Resume} {c : Bool} (hr : s.run? t = some r)
    (hp : r.phase = .stalled q resume c) : (s.retryFault t).tiles = (s.setRun t (resumed s t r resume c)).tiles := by
  simp only [State.retryFault, hr, hp]
  rfl

/-- Settles O32: RETRY changes one run, and what that becomes is said once (`resumed`); each clause is one of its fields. -/
theorem returnsFromFault : Obligations.ReturnsFromFault := by
  intro s t r q resume c hr hp
  have htiles := tiles_retryFault hr hp
  have htile : ∀ n, (s.retryFault t).tile n = (s.setRun t (resumed s t r resume c)).tile n := fun n => by
    simp only [State.tile, htiles]
  obtain ⟨hmem, hlines, -⟩ := retryFault_keeps s t
  refine ⟨resumed s t r resume c, ?_, rfl, rfl, rfl, rfl, rfl, hmem, hlines, fun n hn => ?_, ?_, ?_, ?_, ?_, fun p hpitch => ?_⟩
  · rw [State.run?, htile, ← State.run?, run?_setRun_same]
  · rw [htile, State.setRun, tile_modTile, if_neg hn]
  · rintro rfl hsome
    simp [resumed, Run.returnPhase, hsome]
  · rintro rfl
    rfl
  · rintro (rfl | rfl) <;> rfl
  · rintro rfl
    exact ⟨rfl, rfl⟩
  · exact ⟨{ p with snap := s.csrSnap t r }, by simp [resumed, hpitch], rfl, rfl, rfl⟩

end Sys2Proof.Retried
end

section
/-! The family 14_dispatch, the watchdog: O39. -/
namespace Sys2Proof.Dogs
open Machine Laws Contexts

/-! ## Records and runs after an update -/

theorem rec?_modRec (s : State) (i k : Nat) (f : Rec → Rec) : (s.modRec i k f).rec? i k = (s.rec? i k).map f := by
  have hinst := inst?_modInst s i (fun v => { v with recs := v.recs.modify k f }) fun _ => rfl
  simp only [State.rec?, State.modRec, hinst]
  cases s.inst? i with
  | none => rfl
  | some v => simp

/-- What a task of the tile becomes when the task of `r` stalls (03 R76). -/
def stalledTile (r : Run) (n : Nat) (x : Resume) (b : Bool) (v : Tile) : Tile :=
  match v.run with
  | some q =>
    if r.sameTask q then { v with run := some (q.stall n x b), discards := v.discards + if q.firing then 1 else 0 } else v
  | none => v

theorem tile_stallTask (s : State) (t : Nat) (r : Run) (n : Nat) (x : Resume) (b : Bool) :
    (s.stallTask r n x b).tile t = stalledTile r n x b (s.tile t) := by
  have hmap : (s.stallTask r n x b).tiles = s.tiles.map fun v => (v.1, stalledTile r n x b v.2) := by
    refine List.map_congr_left fun v _ => ?_
    cases hv : v.2.run with
    | none => simp [stalledTile, hv]
    | some q => by_cases hq : r.sameTask q <;> simp [stalledTile, hv, hq]
  rw [State.tile, hmap]
  exact Arrivals.kvGet_map ({} : Tile) (stalledTile r n x b) s.tiles t

theorem run?_takeFault {s : State} {t : Nat} {r : Run} (spec : RecSpec) (x : Resume) (b : Bool) (h : s.run? t = some r) :
    (s.takeFault t spec x b).run? t = some (r.stall (s.nextSeq r.ctx) (if r.twin.isSome then .never else x) b) := by
  have htile : (s.takeFault t spec x b).tile t =
      stalledTile r (s.nextSeq r.ctx) (if r.twin.isSome then .never else x) b (s.tile t) := by
    simp only [State.takeFault, h]
    rw [State.tile, (rings_recordAwait _ _ _ _).tiles, modRec_tiles, ← State.tile, tile_stallTask]
  rw [State.run?, htile, stalledTile, show (s.tile t).run = some r from h]
  simp [Run.sameTask]

/-! ## What leaves the dies and the tiles as they are -/

theorem LinesOnly.dies {s u : State} (h : LinesOnly s u) : u.dies = s.dies := by rw [h]

theorem dies_undoRun (s : State) (t : Nat) (r : Run) : (s.undoRun t r).dies = s.dies := by
  simp only [State.undoRun, State.clearWr, State.supersede, State.restoreStreams, State.dropRetry, modTile_dies,
    LinesOnly.dies (linesOnly_untouch _ _), LinesOnly.dies (linesOnly_resetLines _ _), modCtx_dies,
    LinesOnly.dies (linesOnly_unclaim _ _)]

theorem dies_undoRuns (l : List (Nat × Run)) (s : State) : (s.undoRuns l).dies = s.dies := by
  induction l generalizing s with
  | nil => rfl
  | cons x rest ih => exact (ih _).trans (dies_undoRun s x.1 x.2)

theorem dies_dropPlaced (s : State) (t : Nat) (p : Placed) : (s.dropPlaced t p).dies = s.dies := by
  simp only [State.dropPlaced, State.supersede, modTile_dies, modCtx_dies, LinesOnly.dies (linesOnly_resetLines _ _)]

theorem dies_dropPlaces (l : List (Nat × Placed)) (s : State) : (s.dropPlaces l).dies = s.dies := by
  induction l generalizing s with
  | nil => rfl
  | cons x rest ih => exact (ih _).trans (dies_dropPlaced s x.1 x.2)

theorem dies_rollback (s : State) (inst idx : Nat) : (s.rollback inst idx).dies = s.dies :=
  (dies_dropPlaces _ _).trans (dies_undoRuns _ s)

/-- A task that is rolled back has no tile. -/
theorem run?_rollback {s : State} {t : Nat} {r : Run} (h : s.run? t = some r) : (s.rollback r.inst r.idx).run? t = none := by
  rw [State.rollback, run?_dropPlaces, run?_undoRuns, if_pos]
  exact List.mem_map.2 ⟨(t, r), List.mem_filter.2 ⟨mem_running h, by simp⟩, rfl⟩

theorem retry_rollback {s : State} (h : s.fab.retry = []) (inst idx : Nat) : (s.rollback inst idx).fab.retry = [] := by
  rw [State.rollback, retry_dropPlaces, retry_undoRuns h]

/-! ## What counts no watchdog -/

/-- The watchdogs a die has counted (17 R351). -/
def wdogs (s : State) (d : Nat) : Option (BitVec 64) := (s.dies[d]?).map fun y => y.dec.wdog

/-- Watchdogs counted, tiles and the retry list are the same. -/
structure Steady (s u : State) : Prop where
  dogs d : wdogs u d = wdogs s d
  tiles : u.tiles = s.tiles
  retry : u.fab.retry = s.fab.retry

theorem Steady.refl (s : State) : Steady s s := ⟨fun _ => rfl, rfl, rfl⟩

theorem Steady.trans {s u v : State} (h : Steady s u) (g : Steady u v) : Steady s v :=
  ⟨fun d => (g.dogs d).trans (h.dogs d), g.tiles.trans h.tiles, g.retry.trans h.retry⟩

theorem Steady.of_dies {s u : State} (hd : u.dies = s.dies) (ht : u.tiles = s.tiles) (hr : u.fab.retry = s.fab.retry) : Steady s u :=
  ⟨fun d => by rw [wdogs, wdogs, hd], ht, hr⟩

theorem Steady.of_rings {s u : State} (h : RingsOnly s u) : Steady s u := .of_dies h.dies h.tiles (congrArg Fabric.retry h.fab)

theorem steady_modRec (s : State) (i k : Nat) (f : Rec → Rec) : Steady s (s.modRec i k f) := .of_dies rfl rfl rfl

theorem wdogs_count (s : State) (e d : Nat) (f : Decisions → Decisions) :
    wdogs (s.count e f) d = if e = d then (s.dies[d]?).map (fun y => (f y.dec).wdog) else wdogs s d := by
  simp only [wdogs, State.count, State.modDie, List.getElem?_modify]
  cases s.dies[d]? <;> split <;> rfl

theorem steady_count (s : State) (e : Nat) {f : Decisions → Decisions} (hf : ∀ x, (f x).wdog = x.wdog) : Steady s (s.count e f) := by
  refine ⟨fun d => ?_, rfl, rfl⟩
  rw [wdogs_count]
  split
  · simp only [wdogs, hf]
  · rfl

theorem steady_spillOne {s u : State} {ctx : BitVec 32} {die : Nat} (h : s.spillOne ctx die = some u) : Steady s u := by
  unfold State.spillOne at h
  split at h
  · cases h
  · split at h
    · split at h
      · cases h
      · split at h
        · cases h
          exact (steady_modRec _ _ _ _).trans (steady_count _ _ fun _ => by rfl)
        · cases h
    · cases h

theorem steady_makeRoom {ctx : BitVec 32} {die fuel : Nat} {s u : State} (h : s.makeRoom ctx die fuel = some u) : Steady s u := by
  induction fuel generalizing s with
  | zero => cases h
  | succ fuel ih =>
    rw [State.makeRoom] at h
    split at h
    · cases h
    · split at h
      · cases h
        exact .refl _
      · split at h
        · cases h
        · rename_i hspill
          exact (steady_spillOne hspill).trans (ih h)

theorem steady_reload {s u : State} {id k : Nat} (h : s.reload id k = some u) : Steady s u := by
  unfold State.reload at h
  split at h
  · cases h
  · split at h
    · cases h
    · split at h
      · split at h
        · cases h
        · obtain ⟨v, hroom, rfl⟩ := Option.map_eq_some_iff.1 h
          have hverify := fun ctx va => Steady.of_rings (Errors.rings_verifyWords s ctx va 32)
          exact (hverify _ _).trans ((steady_modRec _ _ _ _).trans ((steady_makeRoom hroom).trans (steady_count _ _ fun _ => by rfl)))
      · cases h
        exact .refl s

theorem steady_toPending (s : State) (id k : Nat) : Steady s (s.toPending id k) := by
  unfold State.toPending
  split
  · rename_i u i hload _
    exact (steady_reload hload).trans (.of_dies rfl rfl rfl)
  · exact .refl s

theorem steady_reloadStuck (n : Nat) (s : State) : Steady s (s.reloadStuck n) := by
  induction n generalizing s with
  | zero => exact .refl s
  | succ n ih =>
    rw [State.reloadStuck]
    split
    · exact .refl s
    · exact (steady_toPending s _ _).trans (ih _)

theorem steady_reapInst (s : State) (inst : Nat) : Steady s (s.reapInst inst) := by
  unfold State.reapInst
  repeat' split
  all_goals exact .of_dies rfl rfl rfl

theorem steady_endRecord (s : State) (inst idx : Nat) (st : RecSt) (counted : Bool) : Steady s (s.endRecord inst idx st counted) := by
  unfold State.endRecord
  split
  · exact .refl s
  · dsimp only
    refine .trans ?_ (steady_reapInst _ inst)
    split <;> exact .of_dies rfl rfl rfl

/-! ## Losing the tile, and stalling -/

/-- A revocable task that is killed or abandoned counts no watchdog and has no tile. -/
theorem lostTile {s : State} {t : Nat} {r : Run} {u : State} (hr : s.run? t = some r) (hretry : s.fab.retry = [])
    (hu : Steady (s.rollback r.inst r.idx) u) : (∀ d, wdogs u.serve d = wdogs s d) ∧ u.serve.run? t = none := by
  rw [MatrixUnit.serve_of_no_retry (hu.retry.trans (retry_rollback hretry _ _))]
  refine ⟨fun d => (hu.dogs d).trans ?_, ?_⟩
  · rw [wdogs, wdogs, dies_rollback]
  · rw [State.run?, State.tile, hu.tiles]
    exact run?_rollback hr

/-- A task whose checks are dropped has its registers and stores. -/
def uncheckedRun (r : Run) : Run := { r with claims := [], remotes := [], bound := [], checked := false, via := [] }

theorem dropChecks_eq {s : State} {t : Nat} {r : Run} (hr : s.run? t = some r) (hretry : s.fab.retry = []) :
    s.dropChecks t = ((s.setRun t (uncheckedRun r)).unclaim r.claims).dropRetry t := by
  simp only [State.dropChecks, hr]
  refine MatrixUnit.serve_of_no_retry ?_
  simp [State.dropRetry, (linesOnly_unclaim _ _).fab, hretry]

theorem run?_dropChecks {s : State} {t : Nat} {r : Run} (hr : s.run? t = some r) (hretry : s.fab.retry = []) :
    (s.dropChecks t).run? t = some (uncheckedRun r) := by
  rw [dropChecks_eq hr hretry]
  simp only [State.run?, State.tile, State.dropRetry, (linesOnly_unclaim _ _).tiles]
  exact run?_setRun_same s t (uncheckedRun r)

theorem dies_dropChecks {s : State} {t : Nat} {r : Run} (hr : s.run? t = some r) (hretry : s.fab.retry = []) :
    (s.dropChecks t).dies = s.dies := by
  rw [dropChecks_eq hr hretry]
  simp only [State.dropRetry, LinesOnly.dies (linesOnly_unclaim _ _), setRun_dies]

/-! ## The watchdog is taken (14 R303) -/

/-- The state with the watchdog counted (17 R351). -/
def counted (s : State) (t : Nat) : State := s.count (tileDie t) fun d => { d with wdog := d.wdog + 1 }

theorem wdogs_counted {s : State} {t : Nat} {d : Die} (hd : s.dies[tileDie t]? = some d) :
    wdogs (counted s t) (tileDie t) = some (d.dec.wdog + 1) := by
  rw [counted, wdogs_count, if_pos rfl, hd]
  rfl

theorem exec_watchdog {s : State} {t : Nat} {r : Run} (hr : s.run? t = some r) (hnow : r.dogNow = true)
    (hbefore : r.dogBefore s.cycle = true) : exec (.watchdogExpiry t) s = .next (s.takeDog t r) := by
  have hexec : exec (.watchdogExpiry t) s = execWatchdogExpiry t s := rfl
  simp only [hexec, execWatchdogExpiry, hr, hnow, hbefore, Bool.and_self, if_true]

/-- The state in which an irrevocable task is found as its fault is taken. -/
def unchecked (s : State) (t : Nat) (r : Run) : State := ((counted s t).dropChecks t).supersedeRun t r

theorem takeDog_irrevocable {s : State} {t : Nat} {r : Run} (h : r.irrevocable = true) : s.takeDog t r =
    ((unchecked s t r).takeFault t r.dogSpec r.dogResume r.inCommit).modRun t fun r => { r with watchdogDue := false } := by
  simp only [State.takeDog, h, if_true]
  rfl

theorem takeDog_revocable {s : State} {t : Nat} {r : Run} {x : Rec} (h : r.irrevocable = false) (hx : s.rec? r.inst r.idx = some x) :
    s.takeDog t r = (if 2 ≤ x.dogs then ((counted s t).record r.ctx r.dogSpec).killTask r.inst r.idx
      else ((counted s t).record r.ctx r.dogSpec).abandonTask r.inst r.idx .dog).serve := by
  have hrec : ((counted s t).record r.ctx r.dogSpec).rec? r.inst r.idx = some x := by
    simp only [State.rec?, State.inst?, (rings_record _ _ _).insts]
    exact hx
  simp only [counted] at hrec
  simp only [State.takeDog, h, hrec, counted]
  rfl

section Irrevocable
variable {s : State} {t : Nat} {r : Run}

theorem run?_unchecked (hr : s.run? t = some r) (hretry : s.fab.retry = []) : (unchecked s t r).run? t = some (uncheckedRun r) := by
  exact run?_dropChecks (s := counted s t) hr hretry

theorem run?_takeDog (h : r.irrevocable = true) (htwin : r.twin = none) (hr : s.run? t = some r) (hretry : s.fab.retry = []) :
    ∃ n, (s.takeDog t r).run? t = some { (uncheckedRun r).stall n r.dogResume r.inCommit with watchdogDue := false } := by
  have hrun := run?_takeFault r.dogSpec r.dogResume r.inCommit (run?_unchecked hr hretry)
  rw [show (uncheckedRun r).twin = none from htwin] at hrun
  rw [takeDog_irrevocable h, run?_modRun, if_pos rfl, hrun]
  exact ⟨_, rfl⟩

theorem dies_takeDog (h : r.irrevocable = true) (hr : s.run? t = some r) (hretry : s.fab.retry = []) :
    (s.takeDog t r).dies = (counted s t).dies := by
  obtain ⟨-, -, hdies, -⟩ := takeFault_keeps (unchecked s t r) t r.dogSpec r.dogResume r.inCommit
  rw [takeDog_irrevocable h, modRun_dies, hdies]
  exact dies_dropChecks (s := counted s t) hr hretry

end Irrevocable

section Revocable
variable {s : State} {t : Nat} {r : Run} {x : Rec}

/-- A revocable task is lost with its tile, and only its expiry is counted. -/
theorem takeDog_lost (h : r.irrevocable = false) (hx : s.rec? r.inst r.idx = some x) (hr : s.run? t = some r)
    (hretry : s.fab.retry = []) :
    (∀ d, wdogs (s.takeDog t r) d = wdogs (counted s t) d) ∧ (s.takeDog t r).run? t = none := by
  have hrings := rings_record (counted s t) r.ctx r.dogSpec
  have hrun : ((counted s t).record r.ctx r.dogSpec).run? t = some r := by
    simp only [State.run?, State.tile, hrings.tiles]
    exact hr
  have hretry' : ((counted s t).record r.ctx r.dogSpec).fab.retry = [] := (congrArg Fabric.retry hrings.fab).trans hretry
  have hdogs : ∀ d, wdogs ((counted s t).record r.ctx r.dogSpec) d = wdogs (counted s t) d := (Steady.of_rings hrings).dogs
  rw [takeDog_revocable h hx]
  have hlost : ∀ u, Steady (((counted s t).record r.ctx r.dogSpec).rollback r.inst r.idx) u →
      (∀ d, wdogs u.serve d = wdogs (counted s t) d) ∧ u.serve.run? t = none := fun u hu =>
    ⟨fun d => ((lostTile hrun hretry' hu).1 d).trans (hdogs d), (lostTile hrun hretry' hu).2⟩
  split
  · refine hlost _ ?_
    unfold State.killTask
    split
    · next hnone =>
      simp only [State.rec?, State.inst?, hrings.insts] at hnone
      exact absurd (hx.symm.trans hnone) nofun
    · exact (steady_endRecord _ _ _ _ _).trans (steady_reloadStuck _ _)
  · exact hlost _ (.of_dies rfl rfl rfl)

/-- The first two times in a row the task is PENDING again (14 R303). -/
theorem rec?_takeDog (h : r.irrevocable = false) (hx : s.rec? r.inst r.idx = some x) (hretry : s.fab.retry = [])
    (hdogs : x.dogs < 2) : ∃ y, (s.takeDog t r).rec? r.inst r.idx = some y ∧ y.st = .pending ∧ y.dogs = x.dogs + 1 := by
  have hrings := rings_record (counted s t) r.ctx r.dogSpec
  have hretry' : ((counted s t).record r.ctx r.dogSpec).fab.retry = [] := (congrArg Fabric.retry hrings.fab).trans hretry
  have hrec : (((counted s t).record r.ctx r.dogSpec).rollback r.inst r.idx).rec? r.inst r.idx = some x := by
    simp only [State.rec?, State.inst?, Errors.insts_rollback, hrings.insts]
    exact hx
  have hretry'' : (((counted s t).record r.ctx r.dogSpec).abandonTask r.inst r.idx .dog).fab.retry = [] := retry_rollback hretry' _ _
  rw [takeDog_revocable h hx, if_neg (by omega), MatrixUnit.serve_of_no_retry hretry'']
  rw [State.abandonTask, State.pendAgain, rec?_modRec, rec?_modRec, hrec]
  exact ⟨_, rfl, rfl, rfl⟩

end Revocable

/-- Settles O39: an expiry that is not yet taken is a turn without effect; one that is taken counts first, and then a rollback takes the tile
or a fault stalls the run. -/
theorem watchdog : Obligations.Watchdog := by
  refine ⟨fun t s r hr hno => ?_, fun t s r hr hnow hbefore hretry => ⟨fun x d hcase hd => ?_, fun hirr htwin => ?_, fun x hrev hx => ?_⟩⟩
  · have hexec : exec (.watchdogExpiry t) s = execWatchdogExpiry t s := rfl
    rcases hno with hno | hno <;> simp [hexec, execWatchdogExpiry, hr, hno]
  · refine ⟨_, exec_watchdog hr hnow hbefore, ?_⟩
    refine .trans ?_ (wdogs_counted hd)
    rcases hcase with ⟨hirr, -⟩ | ⟨hrev, hx⟩
    · rw [dies_takeDog hirr hr hretry]
      rfl
    · exact (takeDog_lost hrev hx hr hretry).1 _
  · obtain ⟨n, hrun⟩ := run?_takeDog hirr htwin hr hretry
    exact ⟨_, _, n, r.dogResume, r.inCommit, exec_watchdog hr hnow hbefore, hrun, rfl, rfl, rfl, rfl, rfl, rfl⟩
  · exact ⟨_, exec_watchdog hr hnow hbefore, (takeDog_lost hrev hx hr hretry).2, rec?_takeDog hrev hx hretry⟩

end Sys2Proof.Dogs
end

section
/-! The families 10_memory_instructions and 18_faults_reliability, commit checks and twins: O41. -/
namespace Sys2Proof.CommitChecks
open Machine Laws Contexts Dogs

/-! ## The refusal (18 R375) -/

theorem lowestAddr_isSome {a : BitVec 64} {l : List (BitVec 64)} (h : a ∈ l) : (lowestAddr l).isSome = true := by
  have hkeep : ∀ (l : List (BitVec 64)) (o : Option (BitVec 64)), o.isSome = true ∨ l ≠ [] →
      (l.foldl (fun b a => match b with
        | none => some a
        | some x => if a.ult x then some a else some x) o).isSome = true := by
    intro l
    induction l with
    | nil => exact fun o ho => ho.resolve_right (absurd rfl)
    | cons a rest ih =>
      refine fun o _ => ih _ (.inl ?_)
      cases o with
      | none => rfl
      | some x => dsimp only; split <;> rfl
  exact hkeep l none (.inr (List.ne_nil_of_mem h))

theorem firstPoison_isSome {l : ShadowLine} (h : l.pois ≠ 0) : l.firstPoison.isSome = true := by
  rw [ShadowLine.firstPoison, Option.isSome_map, List.find?_isSome]
  by_contra hno
  refine h (BitVec.eq_of_getLsbD_eq fun i hi => ?_)
  simpa using fun hb => hno ⟨i, List.mem_range.2 hi, hb⟩

theorem refusal_isSome {r : Run} (h : (∃ l ∈ r.shadow, l.pois ≠ 0) ∨ (∃ e ∈ r.commit, e.pois = true) ∨ r.ctlPois = true) :
    r.refusal.isSome = true := by
  unfold Run.refusal
  split
  · rfl
  next hlow =>
    split
    · rfl
    next hfind =>
      rcases h with ⟨l, hl, hp⟩ | ⟨e, he, hp⟩ | hctl
      · obtain ⟨a, ha⟩ := Option.isSome_iff_exists.1 (firstPoison_isSome hp)
        have hsome := lowestAddr_isSome (List.mem_filterMap.2 ⟨l, hl, ha⟩)
        rw [hlow] at hsome
        cases hsome
      · exact absurd hp (List.find?_eq_none.1 hfind e he)
      · rw [if_pos hctl]
        rfl

/-! ## The commit checks (10 R226) -/

theorem exec_commitChecks {s : State} {t : Nat} {r : Run} (hr : s.run? t = some r) (hp : r.phase = .committing)
    (hc : r.checked = false) (ht : r.twin = none) (hd : r.watchdogDue = false) (hm : r.matFault = none) (hw : s.waitsDone t r = true) :
    exec (.commitChecks t) s = .next (s.commitChecks t r) := by
  have hexec : exec (.commitChecks t) s = execCommitChecks t s := rfl
  simp [hexec, execCommitChecks, hr, hp, hc, ht, hd, hm, hw, Run.dogBefore]

theorem commitChecks_refused {s : State} {t : Nat} {r : Run} {f : RecSpec} (h : r.refusal = some f) :
    s.commitChecks t r = s.refuse t r f := by
  simp only [State.commitChecks, h]

/-- A revocable task that is refused loses its tile. -/
theorem run?_refuse {s : State} {t : Nat} {r : Run} {x : Rec} {f : RecSpec} (hr : s.run? t = some r) (hrev : r.irrevocable = false)
    (hx : s.rec? r.inst r.idx = some x) : (s.refuse t r f).run? t = none := by
  have hrings := rings_record s r.ctx f
  have hrun : (s.record r.ctx f).run? t = some r := by
    simp only [State.run?, State.tile, hrings.tiles]
    exact hr
  have hrec : (s.record r.ctx f).rec? r.inst r.idx = some x := by
    simp only [State.rec?, State.inst?, hrings.insts]
    exact hx
  have hlost : ∀ u : State, u.tiles = ((s.record r.ctx f).rollback r.inst r.idx).tiles → u.run? t = none := fun u hu => by
    rw [State.run?, State.tile, hu]
    exact run?_rollback hrun
  simp only [State.refuse, hrev, hrec]
  refine hlost _ ?_
  split
  · cases ‹false = true›
  · split
    · simp only [State.killTask, hrec]
      exact ((steady_endRecord _ _ _ _ _).trans (steady_reloadStuck _ _)).tiles
    · rfl

theorem verifyRemotes_local {s : State} (r : Run) {l : List (BitVec 32 × BitVec 64)} (h : ∀ x ∈ l, sucScope x.1 ≠ 3) :
    s.verifyRemotes r l = s := by
  induction l with
  | nil => rfl
  | cons x rest ih =>
    rw [State.verifyRemotes, if_neg (h x List.mem_cons_self)]
    exact ih fun y hy => h y (List.mem_cons_of_mem x hy)

theorem checkList_local {s : State} (t k : Nat) (r : Run) {l : List (BitVec 32 × BitVec 64)} (h : ∀ x ∈ l, sucScope x.1 ≠ 3) :
    s.checkList t r k l = .ok s := by
  induction l generalizing k with
  | nil => rfl
  | cons x rest ih =>
    rw [State.checkList, if_neg (h x List.mem_cons_self)]
    exact ih _ fun y hy => h y (List.mem_cons_of_mem x hy)

theorem checkedVas_local {r : Run} {l : List (BitVec 32 × BitVec 64)} (hc : r.commit = []) (h : ∀ x ∈ l, sucScope x.1 ≠ 3) :
    r.checkedVas l = [] := by
  simp only [Run.checkedVas, hc, List.filterMap_nil, List.nil_append, List.filterMap_eq_nil_iff]
  exact fun x hx => if_neg (h x hx)

theorem commitChecks_passed {s : State} {t : Nat} {r : Run} {l : List (BitVec 32 × BitVec 64)} (hr : s.run? t = some r)
    (href : r.refusal = none) (hc : r.commit = []) (hl : s.successorsOf r = .ok l) (h : ∀ x ∈ l, sucScope x.1 ≠ 3)
    (hgood : ∀ k, (s.line k).chkBad = false) : s.commitChecks t r = s.setRun t { r with checked := true, via := [] } := by
  simp only [State.commitChecks, href, hc, State.checkSet, hl, Errors.verifyWords_good hgood, verifyRemotes_local r h,
    checkList_local _ _ r h, checkedVas_local hc h, List.flatMap_nil, State.modRun, hr]

/-! ## Twins (18 R380) -/

theorem twinAt_mem {s : State} {inst idx pos : Nat} {a : Nat × Run} (h : s.twinAt inst idx pos = some a) : a ∈ s.runsOf inst idx :=
  List.mem_of_find?_eq_some h

theorem firstTwin_eq (s : State) (a b : Nat × Run) : s.firstTwin a b = a.1 ∨ s.firstTwin a b = b.1 := by
  simp only [State.firstTwin]
  split
  · exact .inl rfl
  · exact .inr rfl

theorem run?_discardOthers (s : State) (t n : Nat) (l : List (Nat × Run)) :
    (s.discardOthers t l).run? n = if n ≠ t ∧ n ∈ l.map Prod.fst then none else s.run? n := by
  rw [State.discardOthers, run?_undoRuns]
  congr 1
  simp only [List.mem_map, List.mem_filter, bne_iff_ne, eq_iff_iff]
  grind

/-- The task that is chosen publishes, and the others have no tile. -/
theorem run?_choose (s : State) (inst idx t n : Nat) : (s.choose inst idx t).run? n =
    if n = t then (s.run? t).map fun r => { r with voted := true, phase := .committing }
    else if n ∈ (s.runsOf inst idx).map Prod.fst then none else s.run? n := by
  have hmod : (s.choose inst idx t).run? n = (((s.discardOthers t (s.runsOf inst idx)).dropPlaces
    ((s.discardOthers t (s.runsOf inst idx)).placesOf inst idx)).modRun t fun r => { r with voted := true, phase := .committing }).run? n := rfl
  rw [hmod, run?_modRun, run?_dropPlaces, run?_dropPlaces, run?_discardOthers, run?_discardOthers]
  by_cases hn : n = t
  · simp [hn]
  · simp only [hn, if_false, ne_eq, not_false_eq_true, true_and]

/-- Settles O41: what a refusal is found on is tried in order, and the choice between twins undoes every run of the record but one. -/
theorem commitChecksAndTwins : Obligations.CommitChecksAndTwins := by
  refine ⟨⟨fun r => refusal_isSome, fun t s r hr hp hc ht hd hm hw => ?_⟩, fun inst idx s a b ha hb hthird hne => ⟨fun hsame hra hrb => ?_, fun hdiff => ?_⟩⟩
  · rw [exec_commitChecks hr hp hc ht hd hm hw]
    refine ⟨fun f href hirr => ?_, fun f x href hrev hx => ?_, fun l href hcommit hl hlocal hgood => ?_⟩
    · rw [commitChecks_refused href, State.refuse, if_pos hirr]
    · exact ⟨_, rfl, commitChecks_refused href ▸ run?_refuse hr hrev hx⟩
    · rw [commitChecks_passed hr href hcommit hl hlocal hgood]
  all_goals have hexec : exec (.twinDigestCompare inst idx) s = execTwinDigestCompare inst idx s := rfl
  · have hnext : exec (.twinDigestCompare inst idx) s = .next (s.choose inst idx (s.firstTwin a b)) := by
      simp [hexec, execTwinDigestCompare, ha, hb, hthird, hsame]
    have hrun : ∃ r, s.run? (s.firstTwin a b) = some r := by
      rcases firstTwin_eq s a b with h | h
      · exact ⟨_, h ▸ hra⟩
      · exact ⟨_, h ▸ hrb⟩
    obtain ⟨r, hr⟩ := hrun
    refine ⟨_, _, _, hnext, rfl, by rw [run?_choose, if_pos rfl, hr]; rfl, rfl, rfl, fun n hn hab => ?_⟩
    rw [run?_choose, if_neg hn, if_pos]
    rcases hab with rfl | rfl
    · exact List.mem_map_of_mem (twinAt_mem ha)
    · exact List.mem_map_of_mem (twinAt_mem hb)
  · simp [hexec, execTwinDigestCompare, ha, hb, hthird, hdiff]

end Sys2Proof.CommitChecks
end

section
/-! The family 14_dispatch, placement and the start of a task: O44. -/
namespace Sys2Proof.Placing
open Machine Laws Contexts Dogs

/-! ## The best tile (14 R297, R298) -/

theorem total_le_of_betterTile {s : State} {k : Cand} {a b : Nat} (h : s.betterTile k a b = true) :
    (s.score k b).total ≤ (s.score k a).total := by
  simp only [State.betterTile, Bool.or_eq_true, Bool.and_eq_true, decide_eq_true_eq] at h
  omega

theorem total_le_of_not_betterTile {s : State} {k : Cand} {a b : Nat} (h : ¬s.betterTile k a b = true) :
    (s.score k a).total ≤ (s.score k b).total := by
  simp only [State.betterTile, Bool.or_eq_true, Bool.and_eq_true, decide_eq_true_eq] at h
  omega

theorem bestTile_eq_none {s : State} {k : Cand} {l : List Nat} (h : s.bestTile k l = none) : l = [] := by
  cases l with
  | nil => rfl
  | cons t rest =>
    rw [State.bestTile] at h
    split at h
    · cases h
    · split at h <;> cases h

theorem bestTile_best {s : State} {k : Cand} {l : List Nat} {t : Nat} (h : s.bestTile k l = some t) :
    t ∈ l ∧ ∀ u ∈ l, (s.score k u).total ≤ (s.score k t).total := by
  induction l generalizing t with
  | nil => cases h
  | cons a rest ih =>
    rw [State.bestTile] at h
    split at h
    next hnone =>
      cases h
      rw [bestTile_eq_none hnone]
      simp
    next u hu =>
      obtain ⟨hmem, hbest⟩ := ih hu
      split at h
      next hbetter =>
        cases h
        exact ⟨List.mem_cons_of_mem a hmem, List.forall_mem_cons.2 ⟨total_le_of_betterTile hbetter, hbest⟩⟩
      next hworse =>
        cases h
        have hle := total_le_of_not_betterTile hworse
        exact ⟨List.mem_cons_self, List.forall_mem_cons.2 ⟨le_rfl, fun v hv => (hbest v hv).trans hle⟩⟩

/-! ## What a die notes of its tasks (14 R296) -/

theorem inst?_modInst_any (s : State) (i j : Nat) (f : Inst → Inst) (hf : ∀ v, (f v).id = v.id) :
    (s.modInst i f).inst? j = (s.inst? j).map fun v => if v.id == i then f v else v := by
  have hid : ∀ v : Inst, (if v.id == i then f v else v).id = v.id := fun v => by split <;> simp [hf]
  simp only [State.inst?, State.modInst, List.find?_map, Function.comp_def, hid]

theorem inst?_modRec_any (s : State) (i k j : Nat) (f : Rec → Rec) : (s.modRec i k f).inst? j =
    (s.inst? j).map fun v => if v.id == i then { v with recs := v.recs.modify k f } else v :=
  inst?_modInst_any s i j (fun v => { v with recs := v.recs.modify k f }) fun _ => rfl

theorem rec?_modRec_any (s : State) (i k j n : Nat) (f : Rec → Rec) :
    (s.modRec i k f).rec? j n = if j = i ∧ n = k then (s.rec? j n).map f else s.rec? j n := by
  simp only [State.rec?, inst?_modRec_any]
  cases hv : s.inst? j with
  | none => simp
  | some v =>
    have hid : v.id = j := by simpa using List.find?_some hv
    by_cases hj : j = i <;> by_cases hk : n = k <;> simp [hid, hj, hk, Ne.symm]

/-- States that differ at most in what is noted of candidates. -/
structure Noted (s u : State) : Prop where
  rest : ∃ l, u = { s with insts := l }
  rename i : (u.inst? i).map Inst.rename = (s.inst? i).map Inst.rename
  recs i k : (u.rec? i k).map (fun x => { x with blocked := none }) = (s.rec? i k).map fun x => { x with blocked := none }

theorem Noted.refl (s : State) : Noted s s := ⟨⟨_, rfl⟩, fun _ => rfl, fun _ _ => rfl⟩

theorem Noted.trans {s u v : State} (h : Noted s u) (g : Noted u v) : Noted s v := by
  obtain ⟨⟨l, rfl⟩, hr, hx⟩ := h
  obtain ⟨⟨m, rfl⟩, gr, gx⟩ := g
  exact ⟨⟨m, rfl⟩, fun i => (gr i).trans (hr i), fun i k => (gx i k).trans (hx i k)⟩

theorem noted_modRec (s : State) (i k : Nat) (b : Rec → Option Nat) : Noted s (s.modRec i k fun x => { x with blocked := b x }) := by
  refine ⟨⟨_, rfl⟩, fun j => ?_, fun j n => ?_⟩
  · rw [inst?_modRec_any]
    cases s.inst? j with
    | none => rfl
    | some v => simp only [Option.map_some]; split <;> rfl
  · rw [rec?_modRec_any]
    split
    · simp [Option.map_map, Function.comp_def]
    · rfl

theorem noted_noteBlocked (die : Nat) (l : List Cand) (s : State) : Noted s (s.noteBlocked die l) := by
  induction l generalizing s with
  | nil => exact .refl s
  | cons k rest ih => exact (noted_modRec s _ _ _).trans (ih _)

theorem Noted.rec? {s u : State} (h : Noted s u) {i k : Nat} {x : Rec} (hx : s.rec? i k = some x) :
    ∃ b, u.rec? i k = some { x with blocked := b } := by
  have hrec := h.recs i k
  rw [hx] at hrec
  obtain ⟨y, hy, hyx⟩ := Option.map_eq_some_iff.1 hrec
  refine ⟨y.blocked, hy.trans ?_⟩
  cases x; cases y
  cases hyx
  rfl

theorem Noted.inst? {s u : State} (h : Noted s u) {i : Nat} {v : Inst} (hv : s.inst? i = some v) : ∃ w, u.inst? i = some w := by
  have hrename := h.rename i
  rw [hv] at hrename
  obtain ⟨w, hw, -⟩ := Option.map_eq_some_iff.1 hrename
  exact ⟨w, hw⟩

theorem Noted.words {s u : State} (h : Noted s u) (i k : Nat) : (u.rec? i k).map Rec.words = (s.rec? i k).map Rec.words := by
  have hrec := congrArg (Option.map Rec.words) (h.recs i k)
  simpa only [Option.map_map, Function.comp_def] using hrec

theorem Noted.eligibles {s u : State} (h : Noted s u) (k : Cand) (l : List Nat) : u.eligibles k l = s.eligibles k l := by
  cases hx : s.rec? k.inst k.idx with
  | none =>
    have hrec := h.recs k.inst k.idx
    rw [hx, Option.map_none, Option.map_eq_none_iff] at hrec
    obtain ⟨⟨m, rfl⟩, -, -⟩ := h
    simp only [State.eligibles, hx, hrec]
    rfl
  | some x =>
    obtain ⟨b, hb⟩ := h.rec? hx
    obtain ⟨⟨m, rfl⟩, -, -⟩ := h
    simp only [State.eligibles, hx, hb, show State.ctx? { s with insts := m } k.ctx = s.ctx? k.ctx from rfl]
    cases s.ctx? k.ctx <;> rfl

theorem Noted.score {s u : State} (h : Noted s u) (k : Cand) (t : Nat) : u.score k t = s.score k t := by
  have hwords := h.words k.inst k.idx
  have hrename := h.rename k.inst
  obtain ⟨⟨m, rfl⟩, -, -⟩ := h
  simp only [State.score, hwords, hrename]
  rfl

theorem Noted.bestTile {s u : State} (h : Noted s u) (k : Cand) (l : List Nat) : u.bestTile k l = s.bestTile k l := by
  have hbetter : ∀ a b, u.betterTile k a b = s.betterTile k a b := fun a b => by
    have ha := h.score k a
    have hb := h.score k b
    obtain ⟨⟨m, rfl⟩, -, -⟩ := h
    simp only [State.betterTile, ha, hb]
    rfl
  induction l with
  | nil => rfl
  | cons a rest ih => simp only [State.bestTile, ih, hbetter]

theorem Noted.tiles {s u : State} (h : Noted s u) : u.tiles = s.tiles := by
  obtain ⟨⟨m, rfl⟩, -, -⟩ := h
  rfl

/-! ## What placing, and starting entries, leaves of tiles and records -/

/-- What names an entry of a placed queue. -/
def Placed.key (p : Placed) : Nat × Nat × Option Nat := (p.inst, p.idx, p.twin)

/-- The record has a tile and does not run. -/
def RecSt.seated (x : RecSt) : Prop := x = .placed ∨ x = .runnable

/-- Tasks that run, entries of queues and records with a tile are the same, empty accumulators stay empty. -/
structure Queued (s u : State) : Prop where
  runs n : u.run? n = s.run? n
  queue t : (u.tile t).queue.map Placed.key = (s.tile t).queue.map Placed.key
  acc t : (s.tile t).acc = [] → (u.tile t).acc = []
  recs i k x : s.rec? i k = some x → RecSt.seated x.st → ∃ y, u.rec? i k = some y ∧ RecSt.seated y.st

theorem Queued.of_parts {s u : State} (ht : u.tiles = s.tiles) (hi : u.insts = s.insts) : Queued s u where
  runs n := by rw [State.run?, State.run?, State.tile, State.tile, ht]
  queue t := by rw [State.tile, State.tile, ht]
  acc t h := by rwa [State.tile, ht]
  recs i k x hx hs := ⟨x, by rwa [State.rec?, State.inst?, hi], hs⟩

theorem Queued.refl (s : State) : Queued s s := .of_parts rfl rfl

theorem Queued.trans {s u v : State} (h : Queued s u) (g : Queued u v) : Queued s v where
  runs n := (g.runs n).trans (h.runs n)
  queue t := (g.queue t).trans (h.queue t)
  acc t ha := g.acc t (h.acc t ha)
  recs i k x hx hs := by
    obtain ⟨y, hy, hys⟩ := h.recs i k x hx hs
    exact g.recs i k y hy hys

theorem queued_modTile (s : State) (t : Nat) (f : Tile → Tile) (hrun : (f (s.tile t)).run = (s.tile t).run)
    (hq : (f (s.tile t)).queue.map Placed.key = (s.tile t).queue.map Placed.key)
    (ha : (s.tile t).acc = [] → (f (s.tile t)).acc = []) : Queued s (s.modTile t f) where
  runs n := by
    rw [State.run?, State.run?, tile_modTile]
    split
    · next h => rw [h, hrun]
    · rfl
  queue n := by
    rw [tile_modTile]
    split
    · next h => rw [h, hq]
    · rfl
  acc n h := by
    rw [tile_modTile]
    split
    · next hn => exact ha (hn ▸ h)
    · exact h
  recs i k x hx hs := ⟨x, hx, hs⟩

theorem queued_modRec (s : State) (i k : Nat) (f : Rec → Rec) (hf : ∀ x, RecSt.seated x.st → RecSt.seated (f x).st) :
    Queued s (s.modRec i k f) where
  runs _ := rfl
  queue _ := rfl
  acc _ h := h
  recs j n x hx hs := by
    rw [rec?_modRec_any, hx]
    split
    · exact ⟨f x, rfl, hf x hs⟩
    · exact ⟨x, rfl, hs⟩

theorem queued_modPlaced (s : State) (t : Nat) (p : Placed) (f : Placed → Placed) (hf : ∀ q, Placed.key (f q) = Placed.key q) :
    Queued s (s.modPlaced t p f) := by
  refine queued_modTile s t _ rfl ?_ id
  rw [List.map_map]
  refine List.map_congr_left fun q _ => ?_
  rw [Function.comp_apply]
  split
  · exact hf q
  · rfl

theorem queued_markRunnable (s : State) (t : Nat) (p : Placed) : Queued s (s.markRunnable t p) := by
  refine (queued_modPlaced s t p _ fun _ => by rfl).trans (queued_modRec _ _ _ _ fun x hx => ?_)
  rcases hx with h | h <;> simp [h, RecSt.seated]

theorem queued_turnTile (s : State) (t : Nat) (c : BitVec 32) : Queued s (s.turnTile t c) := by
  unfold State.turnTile
  split
  · exact .refl s
  · exact (show Queued s (s.resetPad t) from .of_parts rfl rfl).trans (queued_modTile (s.resetPad t) t _ (by rfl) (by rfl) fun _ => by rfl)

theorem queued_issuePrefetch (s : State) (t : Nat) (p : Placed) (d : CopyDesc) : Queued s (s.issuePrefetch t p d) := by
  unfold State.issuePrefetch
  dsimp only
  split <;> exact .of_parts rfl rfl

theorem queued_issuePrefetches (t : Nat) (p : Placed) (ren : List (BitVec 64)) (l : List Pref) (s : State) :
    Queued s (s.issuePrefetches t p ren l) := by
  induction l generalizing s with
  | nil => exact .refl s
  | cons x rest ih => exact (queued_issuePrefetch s t p _).trans (ih _)

theorem queued_startEntry (s : State) (t : Nat) (p : Placed) : Queued s (s.startEntry t p) := by
  unfold State.startEntry
  dsimp only
  split
  · exact (queued_modPlaced s t p _ fun _ => by rfl).trans (queued_markRunnable _ t p)
  · exact (queued_turnTile s t _).trans ((queued_modPlaced _ t p _ fun _ => by rfl).trans (queued_issuePrefetches t p _ _ _))

theorem queued_kickFrom (t : Nat) (l : List Placed) (s : State) (ahead : List Placed) : Queued s (s.kickFrom t ahead l) := by
  induction l generalizing s ahead with
  | nil => exact .refl s
  | cons p rest ih =>
    rw [State.kickFrom]
    refine .trans ?_ (ih _ _)
    split
    · exact queued_startEntry s t p
    · exact .refl s

theorem queued_kick (s : State) (t : Nat) : Queued s (s.kick t) := queued_kickFrom t _ s []

/-! ## Placing (14 R293, R296, R299) -/

theorem rings_reloadLine (s : State) (c : Ctx) (x : (Nat × List Byte) × Nat) : RingsOnly s (s.reloadLine c x) := by
  unfold State.reloadLine
  dsimp only
  split
  · exact (rings_verifyLine s _ _).trans (rings_store _ _ _ _)
  · exact .refl s

theorem rings_reloadLines (c : Ctx) (l : List ((Nat × List Byte) × Nat)) (s : State) :
    RingsOnly s (l.foldl (fun s x => s.reloadLine c x) s) := by
  induction l generalizing s with
  | nil => exact .refl s
  | cons x rest ih => exact (rings_reloadLine s c x).trans (ih _)

theorem rings_reloadBank (s : State) (c : BitVec 32) : RingsOnly s (s.reloadBank c) := by
  unfold State.reloadBank
  split
  · exact .refl s
  · split
    · exact .refl s
    · exact (rings_reloadLines _ _ s).trans (rings_modCtx _ _ _)

theorem trace_parts (s : State) (d : Nat) (bs : List Byte) : (s.trace d bs).tiles = s.tiles ∧ (s.trace d bs).insts = s.insts := by
  have hnote := fun k => rings_noteLine s 0 k
  unfold State.trace
  dsimp only
  repeat' split
  · exact ⟨rfl, rfl⟩
  · exact ⟨(hnote _).tiles, (hnote _).insts⟩
  · exact ⟨(hnote _).tiles, (hnote _).insts⟩
  · have hrings := fun k l n bs m => (((hnote k).trans (rings_noteLine _ 0 l)).trans (rings_store _ n bs false)).trans (rings_noteLine _ 0 m)
    exact ⟨((hrings _ _ _ _ _).trans (rings_store _ _ _ _)).tiles, ((hrings _ _ _ _ _).trans (rings_store _ _ _ _)).insts⟩

theorem bindPorts_parts (i : Inst) (idx : Nat) (l : List (Nat × Binding)) (s : State) :
    (s.bindPorts i idx l).tiles = s.tiles ∧ (s.bindPorts i idx l).insts = s.insts := by
  induction l generalizing s with
  | nil => exact ⟨rfl, rfl⟩
  | cons x rest ih =>
    rw [State.bindPorts]
    dsimp only
    obtain ⟨ht, hi⟩ := ih _
    refine ⟨ht.trans ?_, hi.trans ?_⟩ <;> split <;> rfl

theorem queued_bindPorts (s : State) (i : Inst) (idx : Nat) (l : List (Nat × Binding)) : Queued s (s.bindPorts i idx l) :=
  .of_parts (bindPorts_parts i idx l s).1 (bindPorts_parts i idx l s).2

theorem queued_wake (s : State) (t : Nat) : Queued s (s.wake t) := by
  unfold State.wake
  split <;> exact .of_parts rfl rfl

/-- The die's counts and trace of a placement, the bank memory of its context brought back before. -/
def recorded (s : State) (die : Nat) (k : Cand) (t : Nat) (tiles : List Nat) (xdie : Bool) (i : Inst) : State :=
  let s := s.reloadBank k.ctx
  let n := s.reason k t tiles
  let bs := s.traceEntry k.ctx i.tag (recordVa i.templ k.idx) t n xdie (s.score k t).total
  ((s.count (tileDie t) fun d =>
    let d := d.bump n
    { d with plXdie := d.plXdie + if xdie then 1 else 0 }).modDie die fun d => d.served k).trace (tileDie t) bs

theorem recorded_parts (s : State) (die : Nat) (k : Cand) (t : Nat) (tiles : List Nat) (xdie : Bool) (i : Inst) :
    (recorded s die k t tiles xdie i).tiles = s.tiles ∧ (recorded s die k t tiles xdie i).insts = s.insts := by
  have hbank := rings_reloadBank s k.ctx
  exact ⟨(trace_parts _ _ _).1.trans hbank.tiles, (trace_parts _ _ _).2.trans hbank.insts⟩

/-- The entry stands in the tile's queue. -/
def seatedOn (s : State) (k : Cand) (t : Nat) : State :=
  (s.modTile t fun v => { v with queue := v.queue ++ [{ ctx := k.ctx, inst := k.inst, idx := k.idx, twin := k.twin }] }).modRec
    k.inst k.idx fun y => { y with st := if y.st = .pending then .placed else y.st, frozen := k.level, blocked := none }

theorem place_eq {s : State} {die : Nat} {k : Cand} {t : Nat} {tiles : List Nat} {xdie : Bool} {i : Inst} {x : Rec}
    (hi : s.inst? k.inst = some i) (hx : s.rec? k.inst k.idx = some x) : s.place die k t tiles xdie =
      (((seatedOn (recorded s die k t tiles xdie i) k t).bindPorts i k.idx (recBindings x.words)).wake t).kick t := by
  have hinsts := (rings_reloadBank s k.ctx).insts
  have hi' : (s.reloadBank k.ctx).inst? k.inst = some i := by simp only [State.inst?, hinsts]; exact hi
  have hx' : (s.reloadBank k.ctx).rec? k.inst k.idx = some x := by simp only [State.rec?, State.inst?, hinsts]; exact hx
  simp only [State.place, hi', hx']
  rfl

/-- A placed task has its entry, its record has a tile, and what runs goes on. -/
theorem place_seats {s : State} {k : Cand} {i : Inst} {x : Rec} (die t : Nat) (tiles : List Nat) (xdie : Bool)
    (hi : s.inst? k.inst = some i) (hx : s.rec? k.inst k.idx = some x) :
    (∃ p ∈ ((s.place die k t tiles xdie).tile t).queue, p.inst = k.inst ∧ p.idx = k.idx ∧ p.twin = k.twin) ∧
    (x.st = .pending → ∃ y, (s.place die k t tiles xdie).rec? k.inst k.idx = some y ∧ RecSt.seated y.st) ∧
    ∀ n, (s.place die k t tiles xdie).run? n = s.run? n := by
  obtain ⟨htiles, hinsts⟩ := recorded_parts s die k t tiles xdie i
  rw [place_eq hi hx]
  generalize recorded s die k t tiles xdie i = w at htiles hinsts
  have hq := ((queued_bindPorts (seatedOn w k t) i k.idx (recBindings x.words)).trans (queued_wake _ t)).trans (queued_kick _ t)
  refine ⟨?_, fun hp => ?_, fun n => (hq.runs n).trans ?_⟩
  · have hkey : (k.inst, k.idx, k.twin) ∈ ((seatedOn w k t).tile t).queue.map Placed.key := by
      refine List.mem_map.2 ⟨{ ctx := k.ctx, inst := k.inst, idx := k.idx, twin := k.twin }, ?_, rfl⟩
      simp only [seatedOn, State.tile, modRec_tiles]
      rw [← State.tile, tile_modTile_same]
      exact List.mem_append_right _ (List.mem_singleton_self _)
    rw [← hq.queue t] at hkey
    obtain ⟨p, hp, hpk⟩ := List.mem_map.1 hkey
    simp only [Placed.key, Prod.mk.injEq] at hpk
    exact ⟨p, hp, hpk⟩
  · have hrec : (seatedOn w k t).rec? k.inst k.idx = some { x with st := .placed, frozen := k.level, blocked := none } := by
      have hw : (w.modTile t fun v =>
          { v with queue := v.queue ++ [{ ctx := k.ctx, inst := k.inst, idx := k.idx, twin := k.twin }] }).rec? k.inst k.idx = some x := by
        simp only [State.rec?, State.inst?, modTile_insts, hinsts]
        exact hx
      rw [seatedOn, rec?_modRec, hw, Option.map_some, if_pos hp]
    exact hq.recs _ _ _ hrec (.inl rfl)
  · simp only [State.run?, seatedOn, State.tile, modRec_tiles]
    rw [← State.tile, tile_modTile]
    simp only [State.tile, htiles]
    split
    · next h => rw [h]
    · rfl

/-- The first task in the order of service with an eligible tile of the die is placed. -/
theorem placeFirst_eq {s : State} {die : Nat} {all before rest : List Cand} {k : Cand} {t : Nat}
    (hbefore : ∀ y ∈ before, s.eligibles y (dieTiles die) = []) (hbest : s.bestTile k (s.eligibles k (dieTiles die)) = some t) :
    s.placeFirst die all (before ++ k :: rest) = s.place die k t (s.eligibles k (dieTiles die)) false := by
  induction before with
  | nil => simp only [List.nil_append, State.placeFirst, hbest]
  | cons y ys ih =>
    have hy : s.bestTile y (s.eligibles y (dieTiles die)) = none := by rw [hbefore y List.mem_cons_self]; rfl
    simp only [List.cons_append, State.placeFirst, hy]
    exact ih fun z hz => hbefore z (List.mem_cons_of_mem y hz)

/-- A task that may not cross, or finds no tile, is passed over. -/
theorem placeAcross_append {s : State} {die : Nat} {before l : List Cand}
    (h : ∀ y ∈ before, s.crosses die y = false ∨ s.eligibles y (otherTiles die) = []) :
    s.placeAcross die (before ++ l) = s.placeAcross die l := by
  induction before with
  | nil => rfl
  | cons y ys ih =>
    have hrest := ih fun z hz => h z (List.mem_cons_of_mem y hz)
    simp only [List.cons_append, State.placeAcross]
    rcases h y List.mem_cons_self with hy | hy
    · simp only [hy, hrest]
      split <;> rfl
    · simp only [hy, State.bestTile, hrest]

theorem crosses_iff (s : State) (die : Nat) (k : Cand) : s.crosses die k = true ↔
    s.eligibles k (dieTiles die) = [] ∧ ∃ x b, s.rec? k.inst k.idx = some x ∧ x.blocked = some b ∧ b + 256 ≤ s.cycle := by
  unfold State.crosses
  split
  next b hb =>
    obtain ⟨x, hx, hxb⟩ := Option.bind_eq_some_iff.1 hb
    simp [hx, hxb, and_comm]
  next hb =>
    simp only [Bool.false_eq_true, false_iff, not_and, not_exists]
    rintro - x b hx hxb
    rw [hx, Option.bind_some, hxb] at hb
    cases hb

/-! ## An entry becomes RUNNABLE, a task starts (14 R300, R307; 03 R52) -/

theorem runnable_eq {s : State} {t : Nat} {p : Placed} (hp : p.runnable = false) (hissued : p.issued = true)
    (hdone : ∀ c ∈ s.prefetchesOf t p, c.done = true) : s.runnable t p = s.markRunnable t p := by
  have hall : ((s.prefetchesOf t p).all fun c => c.done) = true := List.all_eq_true.2 hdone
  simp only [State.runnable, hp, hissued, hall]
  rfl

theorem tile_markRunnable (s : State) (t n : Nat) (p : Placed) : (s.markRunnable t p).tile n =
    if n = t then { s.tile t with queue := (s.tile t).queue.map fun q => if q.same p then { q with runnable := true } else q }
    else s.tile n := by
  rw [State.markRunnable, State.tile, modRec_tiles, ← State.tile, State.modPlaced, tile_modTile]

/-- The state in which the task of an entry stands on its tile. -/
def started (s : State) (t : Nat) (i : Inst) (x : Rec) (p : Placed) : State :=
  let ids := (s.prefetchesOf t p).map Copy.id
  let s := s.turnTile t p.ctx
  let s : State := { s with fab := { s.fab with copies := s.fab.copies.filter fun c => !ids.contains c.id } }
  let q := (s.countPassed (s.tile t).queue p).filter fun y => !y.same p
  s.takeId.modTile t fun v =>
    { v with queue := q, run := some (s.newRun t i x p), acc := [], jobs := [], claim := if v.claim = some p.ctx then none else v.claim }

theorem startTask_eq {s : State} {t : Nat} {i : Inst} {x : Rec} {p : Placed} (hi : s.inst? p.inst = some i)
    (hx : s.rec? p.inst p.idx = some x) : s.startTask t p = ((started s t i x p).modRec p.inst p.idx fun y =>
      { y with st := if y.st = .placed ∨ y.st = .runnable then .running else y.st }).kick t := by
  simp only [State.startTask, hi, hx]
  rfl

theorem run?_started_ne (s : State) {t n : Nat} (i : Inst) (x : Rec) (p : Placed) (hn : n ≠ t) : (started s t i x p).run? n = s.run? n := by
  refine .trans ?_ ((queued_turnTile s t p.ctx).runs n)
  rw [started, State.run?, tile_modTile, if_neg hn]
  rfl

theorem run?_started (s : State) (t : Nat) (i : Inst) (x : Rec) (p : Placed) :
    ∃ w : State, (started s t i x p).run? t = some (w.newRun t i x p) ∧ ((started s t i x p).tile t).acc = [] :=
  ⟨_, congrArg Tile.run (tile_modTile_same _ t _), congrArg Tile.acc (tile_modTile_same _ t _)⟩

theorem length_args (i : Inst) (idx : Nat) (ws : List (BitVec 64)) : (i.args idx ws).length = 16 := by
  simp [Inst.args]

theorem newRun_args (w : State) (t : Nat) (i : Inst) (x : Rec) (p : Placed) {k : Nat} (hk : k < 16) :
    (w.newRun t i x p).g[k]? = (i.args p.idx x.words)[k]?.map fun v => { v := v, pois := false } := by
  simp only [State.newRun]
  rw [List.getElem?_append_left (by simp [length_args, hk]), List.getElem?_map]

theorem newRun_rest (w : State) (t : Nat) (i : Inst) (x : Rec) (p : Placed) {k : Nat} (hk : 16 ≤ k) (hk' : k < 64) :
    (w.newRun t i x p).g[k]? = some { v := 0, pois := false } := by
  simp only [State.newRun]
  rw [List.getElem?_append_right (by simp [length_args, hk]), List.getElem?_replicate_of_lt (by simp [length_args]; omega)]

theorem newRun_vectors (w : State) (t : Nat) (i : Inst) (x : Rec) (p : Placed) {k : Nat} (hk : k < 32) :
    (w.newRun t i x p).vr[k]? = some { v := 0, pois := false } := List.getElem?_replicate_of_lt hk

/-- Settles O44: the reports that come first leave every eligible tile as it was, so the first task with one is placed where its score is
best; a start reads the record and sets one run. -/
theorem placement : Obligations.Placement := by
  refine ⟨⟨fun s k l t h => bestTile_best h, fun die s => rfl, ?_, ?_, ?_, crosses_iff, ?_, fun _ _ _ _ => rfl⟩, ?_, ?_⟩
  · intro die s before k rest t i x hcheck hservice hbefore hbest hi hx
    have hnoted := noted_noteBlocked die (s.service die) s
    have hexec : exec (.placement die false) s =
        .next ((s.noteBlocked die (s.service die)).place die k t ((s.noteBlocked die (s.service die)).eligibles k (dieTiles die)) false) := by
      have hrun : exec (.placement die false) s = execPlacement die false s := rfl
      simp only [hrun, execPlacement, hcheck]
      rw [← placeFirst_eq (all := s.service die) (rest := rest) (fun y hy => (hnoted.eligibles y _).trans (hbefore y hy))
        (by rw [hnoted.bestTile, hnoted.eligibles, hbest]), ← hservice]
      rfl
    obtain ⟨b, hb⟩ := hnoted.rec? hx
    obtain ⟨w, hw⟩ := hnoted.inst? hi
    obtain ⟨hentry, hst, hruns⟩ := place_seats die t _ false hw hb
    exact ⟨_, hexec, hentry, hst, fun n => (hruns n).trans (by rw [State.run?, State.run?, State.tile, State.tile, hnoted.tiles])⟩
  · intro die s before k rest t i x hcheck hservice hbefore hcross hbest hi hx
    have hexec : exec (.crossDiePlacement die) s = .next (s.place die k t (s.eligibles k (otherTiles die)) true) := by
      have hrun : exec (.crossDiePlacement die) s = execCrossDiePlacement die s := rfl
      simp only [hrun, execCrossDiePlacement, hcheck, hservice, placeAcross_append hbefore, State.placeAcross, hbest, hcross, if_true]
    obtain ⟨hentry, -, hruns⟩ := place_seats die t _ true hi hx
    exact ⟨_, hexec, hentry, hruns⟩
  · intro die s hcheck hnone
    have hrun : exec (.crossDiePlacement die) s = execCrossDiePlacement die s := rfl
    have hall := placeAcross_append (l := []) hnone
    rw [List.append_nil] at hall
    simp only [hrun, execCrossDiePlacement, hcheck, hall]
    rfl
  · intro s die k x hx
    simp only [State.noteBlocked, rec?_modRec, hx, Option.map_some]
    cases s.eligibles k (dieTiles die) <;> rfl
  · intro t inst idx s p hfind hissued hdone
    obtain ⟨hrunnable, hmem⟩ := And.intro (List.find?_some hfind) (List.mem_of_find?_eq_some hfind)
    simp only [Bool.and_eq_true, Bool.not_eq_true'] at hrunnable
    have hexec : exec (.taskRunnable t inst idx) s = .next (s.markRunnable t p) := by
      have hrun : exec (.taskRunnable t inst idx) s = execTaskRunnable t inst idx s := rfl
      simp only [hrun, execTaskRunnable, hfind, runnable_eq hrunnable.2 hissued hdone]
    have hsame : p.same p = true := by simp [Placed.same]
    refine ⟨_, hexec, ⟨{ p with runnable := true }, ?_, hsame, rfl⟩, rfl, fun n hn => ?_⟩
    · rw [tile_markRunnable, if_pos rfl]
      exact List.mem_map.2 ⟨p, hmem, if_pos hsame⟩
    · rw [tile_markRunnable, if_neg hn]
  · intro t s p i x hfree hentry hi hx
    have hexec : exec (.taskStart t) s = .next (s.startTask t p) := by
      have hrun : exec (.taskStart t) s = execTaskStart t s := rfl
      simp only [hrun, execTaskStart, hfree, hentry]
    obtain ⟨w, hw, hacc⟩ := run?_started s t i x p
    have hkick := queued_kick ((started s t i x p).modRec p.inst p.idx fun y =>
      { y with st := if y.st = .placed ∨ y.st = .runnable then .running else y.st }) t
    rw [startTask_eq hi hx] at hexec
    exact ⟨_, w.newRun t i x p, hexec, (hkick.runs t).trans hw, rfl, rfl, rfl, rfl, rfl, rfl, rfl, rfl, rfl,
      fun k hk => newRun_args w t i x p hk, fun k hk hk' => newRun_rest w t i x p hk hk', fun k hk => newRun_vectors w t i x p hk,
      hkick.acc t hacc, fun n hn => (hkick.runs n).trans (run?_started_ne s i x p hn)⟩

end Sys2Proof.Placing
end

section
/-! The family 15_graph_tables, decrements and ropes: O45. -/
namespace Sys2Proof.Graphs
open Machine Laws Contexts Dogs Placing

/-! ## Decrements (15 R324) -/

/-- The decrement has left those on their way. -/
def arrived (s : State) (k : Nat) : State := { s with fab := { s.fab with decs := s.fab.decs.eraseIdx k } }

theorem exec_decrement {s : State} {k : Nat} {d : Decrement} (hk : s.fab.decs[k]? = some d) (ha : d.answered = false)
    (hl : s.linkDown d.way = false) : exec (.decrementApply k) s = .next ((arrived s k).applyDec d) := by
  have hexec : exec (.decrementApply k) s = execDecrementApply k s := rfl
  simp [hexec, execDecrementApply, hk, ha, hl, arrived]

theorem linkDown_way_slot {s : State} {d : Decrement} {inst idx gen : Nat} {templ : BitVec 64} {tag : BitVec 32}
    (h : d.target = .slot inst idx gen templ tag) : s.linkDown d.way = false := by
  have hway : d.way = 0 := by simp only [Decrement.way, h]
  rw [hway]
  rfl

/-- A decrement by slot is received, and goes to the record as it is there. -/
theorem applyDec_slot {s : State} {d : Decrement} {inst idx gen : Nat} {templ : BitVec 64} {tag : BitVec 32} {i : Inst} {x : Rec}
    (ht : d.target = .slot inst idx gen templ tag) (hi : s.inst? inst = some i) (hx : i.recs[idx]? = some x) :
    s.applyDec d = if x.gen ≠ gen then (s.received i.ctx i.die).stray i.ctx i.die 1 templ tag
      else (s.received i.ctx i.die).lower i idx d.amt := by
  simp only [State.applyDec, ht, State.lowerSlot, hi, hx]

theorem inst?_id {s : State} {n : Nat} {i : Inst} (h : s.inst? n = some i) : i.id = n := by
  simpa using List.find?_some h

theorem rec?_of_inst? {s : State} {n idx : Nat} {i : Inst} {x : Rec} (h : s.inst? n = some i) (hx : i.recs[idx]? = some x) :
    s.rec? n idx = some x := by
  simp only [State.rec?, h, hx]

theorem lower_part {s : State} {i : Inst} {idx amt : Nat} {x : Rec} (hx : i.recs[idx]? = some x) (hst : x.st = .waiting)
    (hlt : amt < x.counter.toNat) : s.lower i idx amt = s.modRec i.id idx fun x => { x with counter := x.counter - BitVec.ofNat 32 amt } := by
  have hne : x.counter ≠ 0 := by
    rintro h
    rw [h] at hlt
    exact absurd hlt (Nat.not_lt_zero _)
  simp only [State.lower, hx, hst]
  rw [if_neg (by simpa using hne), if_pos hlt]

theorem lower_all {s : State} {i : Inst} {idx amt : Nat} {x : Rec} (hx : i.recs[idx]? = some x) (hst : x.st = .waiting)
    (heq : amt = x.counter.toNat) (hne : x.counter ≠ 0) :
    s.lower i idx amt = (s.modRec i.id idx fun x => { x with counter := 0 }).toPending i.id idx := by
  simp only [State.lower, hx, hst, heq]
  rw [if_neg (by simpa using hne), if_neg (lt_irrefl _), if_neg (lt_irrefl _)]

/-- A record that stands in graph memory becomes PENDING without more. -/
theorem toPending_here {s : State} {n idx : Nat} {i : Inst} {x : Rec} (hi : s.inst? n = some i) (hx : i.recs[idx]? = some x)
    (hs : x.spilled = false) : s.toPending n idx =
      (s.modRec n idx fun x => { x with st := .pending, since := s.cycle }).tally i.ctx i.die fun c => { c with created := c.created + 1 } := by
  have hload : s.reload n idx = some s := by simp [State.reload, hi, hx, hs]
  simp only [State.toPending, hload, hi]

theorem stray_counts (s : State) (c : BitVec 32) (die n : Nat) (a : BitVec 64) (tag : BitVec 32) :
    (s.stray c die n a tag).fab = s.fab ∧ (s.stray c die n a tag).insts = s.insts ∧ (s.stray c die n a tag).tiles = s.tiles ∧
      (s.stray c die n a tag).pkg = s.pkg ∧
      ∀ d, s.dies[die]? = some d → ((s.stray c die n a tag).dies[die]?).map (fun y => y.dec.stray) = some (d.dec.stray + 1) := by
  have hrec := rings_record (s.count die fun d => { d with stray := d.stray + 1 }) c { code := fcStray, cause := n, addr := a, tag := tag }
  refine ⟨hrec.fab, hrec.insts, hrec.tiles, hrec.pkg, fun d hd => ?_⟩
  rw [State.stray, hrec.dies]
  simp [State.count, State.modDie, hd]

theorem decrement_slot {s : State} {k : Nat} {d : Decrement} {inst idx gen : Nat} {templ : BitVec 64} {tag : BitVec 32} {i : Inst}
    {x : Rec} (hk : s.fab.decs[k]? = some d) (ha : d.answered = false) (ht : d.target = .slot inst idx gen templ tag)
    (hi : s.inst? inst = some i) (hx : i.recs[idx]? = some x) :
    (x.gen = gen → x.st = .waiting → d.amt < x.counter.toNat →
       ∃ u, exec (.decrementApply k) s = .next u ∧ u.fab.decs = s.fab.decs.eraseIdx k ∧
         u.rec? inst idx = some { x with counter := x.counter - BitVec.ofNat 32 d.amt } ∧ u.mem = s.mem ∧ u.tiles = s.tiles) ∧
    (x.gen = gen → x.st = .waiting → d.amt = x.counter.toNat → x.counter ≠ 0 → x.spilled = false →
       ∃ u y, exec (.decrementApply k) s = .next u ∧ u.fab.decs = s.fab.decs.eraseIdx k ∧ u.rec? inst idx = some y ∧
         y.st = .pending ∧ y.counter = 0 ∧ u.mem = s.mem ∧ u.tiles = s.tiles) ∧
    (x.gen ≠ gen →
       ∃ u, exec (.decrementApply k) s = .next u ∧ u.fab.decs = s.fab.decs.eraseIdx k ∧ u.insts = s.insts ∧
         ∀ c, s.dies[i.die]? = some c → (u.dies[i.die]?).map (fun y => y.dec.stray) = some (c.dec.stray + 1)) := by
  have hexec := exec_decrement hk ha (linkDown_way_slot ht)
  rw [applyDec_slot (s := arrived s k) ht hi hx] at hexec
  have hrec : ((arrived s k).received i.ctx i.die).rec? inst idx = some x := rec?_of_inst? hi hx
  refine ⟨fun hgen hst hlt => ?_, fun hgen hst heq hne hs => ?_, fun hgen => ?_⟩
  · rw [if_neg (not_not_intro hgen), lower_part hx hst hlt, inst?_id hi] at hexec
    refine ⟨_, hexec, rfl, ?_, rfl, rfl⟩
    rw [rec?_modRec, hrec, Option.map_some]
  · rw [if_neg (not_not_intro hgen), lower_all hx hst heq hne, inst?_id hi] at hexec
    have hzero : (((arrived s k).received i.ctx i.die).modRec inst idx fun x => { x with counter := 0 }).inst? inst =
        some { i with recs := i.recs.modify idx fun x => { x with counter := 0 } } := by
      rw [inst?_modRec_any, show ((arrived s k).received i.ctx i.die).inst? inst = some i from hi]
      simp [inst?_id hi]
    rw [toPending_here (x := { x with counter := 0 }) hzero (by simp [hx]) hs] at hexec
    refine ⟨_, { x with st := .pending, counter := 0, since := s.cycle }, hexec, rfl, ?_, rfl, rfl, rfl, rfl⟩
    refine (rec?_modRec _ _ _ _).trans ?_
    rw [rec?_modRec, hrec]
    rfl
  · rw [if_pos hgen] at hexec
    obtain ⟨hfab, hinsts, -, -, hdies⟩ := stray_counts ((arrived s k).received i.ctx i.die) i.ctx i.die 1 templ tag
    exact ⟨_, hexec, congrArg Fabric.decs hfab, hinsts, hdies⟩

/-- A packet for a peer leaves the decrements, the instances and memory as they are. -/
theorem sendTo_sends {s : State} {l : Nat} (chan : Nat) (o : Out) :
    (s.sendTo l chan o).out = o :: s.out ∧ (s.sendTo l chan o).fab.decs = s.fab.decs ∧ (s.sendTo l chan o).insts = s.insts ∧
      (s.sendTo l chan o).mem = s.mem := by
  unfold State.sendTo
  split
  · next p hp => simp [sendPort_eq, List.find?_some hp]
  · exact ⟨rfl, rfl, rfl, rfl⟩

/-- A decrement for a peer leaves in a packet and waits for its answer. -/
theorem exec_sends {s : State} {k l : Nat} {d : Decrement} {o : Out} (hexec : exec (.decrementApply k) s = .next ((arrived s k).applyDec d))
    (hsent : (arrived s k).applyDec d = ((arrived s k).sendTo l 1 o).addDec { d with answered := true, pub := none }) :
    ∃ u, exec (.decrementApply k) s = .next u ∧ u.out = o :: s.out ∧
      u.fab.decs = s.fab.decs.eraseIdx k ++ [{ d with answered := true, pub := none }] ∧ u.insts = s.insts ∧ u.mem = s.mem := by
  obtain ⟨hout, hdecs, hinsts, hmem⟩ := sendTo_sends (s := arrived s k) (l := l) 1 o
  exact ⟨_, hexec.trans (congrArg _ hsent), hout, by rw [State.addDec, hdecs, arrived], hinsts, hmem⟩

theorem decrement_peer {s : State} {k n l : Nat} {d : Decrement} {va : BitVec 64} {tag : BitVec 32} {p : Peer}
    (hk : s.fab.decs[k]? = some d) (ha : d.answered = false) (ht : d.target = .remote n l va tag) (hn : n ≠ s.pkg.id.toNat)
    (hl : s.linkDown (locOf spHbm (n + 1) 0 0) = false) (hp : s.peer? n = some p) (hr : p.rdec = true) :
    ∃ u, exec (.decrementApply k) s = .next u ∧ u.out = .peerDecrement n d.ctx (locSpace l * 2 ^ 49 + locPa l) tag d.amt :: s.out ∧
       u.fab.decs = s.fab.decs.eraseIdx k ++ [{ d with answered := true, pub := none }] ∧ u.insts = s.insts ∧ u.mem = s.mem := by
  rw [show locSpace l * 2 ^ 49 + locPa l = peerAddr l from rfl]
  have hway : d.way = locOf spHbm (n + 1) 0 0 := by simp only [Decrement.way, ht]
  have hexec := exec_decrement hk ha (by rw [hway]; exact hl)
  have hsent : (arrived s k).applyDec d = ((arrived s k).sendTo (locOf spHbm (n + 1) 0 0) 1
      (.peerDecrement n d.ctx (peerAddr l) tag d.amt)).addDec { d with answered := true, pub := none } := by
    simp only [State.applyDec, ht, State.sendDec, show (arrived s k).pkg.id.toNat = s.pkg.id.toNat from rfl, if_neg hn,
      show (arrived s k).peer? n = some p from hp, hr, if_true]
  exact exec_sends hexec hsent

theorem decrement_nowhere {s : State} {k l p : Nat} {d : Decrement} {va : BitVec 64} {tag : BitVec 32}
    (hk : s.fab.decs[k]? = some d) (ha : d.answered = false) (ht : d.target = .remote s.pkg.id.toNat l va tag)
    (hl : s.linkDown d.way = false) (hc : s.ctx? d.ctx = none) (hp : d.port = some p) :
    exec (.decrementApply k) s = .next ((arrived s k).faultPeer p 0x2B) := by
  have hctx : (arrived s k).ctx? d.ctx = none := hc
  rw [exec_decrement hk ha hl]
  simp only [State.applyDec, ht, show (arrived s k).pkg.id.toNat = s.pkg.id.toNat from rfl, if_true, State.lowerRemote, State.templAt, hctx,
    Option.bind_none, Option.isNone_none, State.decNowhere, hp, fcStray]

/-! ## Ropes (15 R326, R328) -/

theorem advance_members (n : Nat) (x : Rope) : (x.advance n).members = x.members ∧ (x.advance n).key = x.key ∧ (x.advance n).ctx = x.ctx := by
  induction n generalizing x with
  | zero => exact ⟨rfl, rfl, rfl⟩
  | succ n ih =>
    rw [Rope.advance]
    split
    · exact ih _
    · exact ⟨rfl, rfl, rfl⟩

/-- A phase that a member has not passed is the rope's for now. -/
theorem advance_held {x : Rope} {m : Member} (hm : m ∈ x.members) (ha : m.a = x.phase) (n : Nat) : x.advance n = x := by
  cases n with
  | zero => rfl
  | succ n =>
    rw [Rope.advance, if_neg]
    rw [Bool.and_eq_true, List.all_eq_true, not_and]
    intro _ hall
    simpa [Member.beyond, ha] using hall m hm

/-- A phase that every member has passed by one is over, and the next is not. -/
theorem phase_complete {x : Rope} (hne : x.members ≠ []) (hall : ∀ m ∈ x.members, m.a = x.phase + 1) :
    x.complete.phase = x.phase + 1 := by
  obtain ⟨m, ms, hms⟩ := List.exists_cons_of_ne_nil hne
  have hone : ∀ p : BitVec 32, p + 1 - p = 1 := fun p => by bv_omega
  have hgo : (!x.members.isEmpty && x.members.all fun m => m.beyond x.phase) = true := by
    rw [Bool.and_eq_true, List.all_eq_true]
    refine ⟨by simp [hms], fun m hm => ?_⟩
    simp only [Member.beyond, hall m hm, hone, Bool.and_eq_true, bne_iff_ne, decide_eq_true_eq]
    exact ⟨by bv_omega, by decide⟩
  have hsteps : ∃ n, (x.members.map fun m => (m.a - x.phase).toNat).sum + 1 = n + 2 := by
    refine ⟨(ms.map fun m => (m.a - x.phase).toNat).sum, ?_⟩
    rw [hms, List.map_cons, List.sum_cons, hall m (hms ▸ List.mem_cons_self), hone]
    change 1 + _ + 1 = _
    omega
  obtain ⟨n, hn⟩ := hsteps
  rw [Rope.complete, hn, Rope.advance, if_pos hgo, advance_held (m := m) (by simp [hms]) (hall m (by simp [hms]))]

/-- What the arrival makes of a rope. -/
def joined (a : Arrival) (x : Rope) : Rope :=
  if x.key == a.key && x.ctx == a.ctx then
    ({ x with members := x.members.map fun y => if y.inst == a.inst && y.idx == a.idx then y.arrive a.n else y } : Rope).complete
  else x

theorem exec_ropeArrival {s : State} {k : Nat} {a : Arrival} (hk : s.fab.ropeArr[k]? = some a)
    (hfirst : ∀ b ∈ s.fab.ropeArr.take k, b.tile ≠ a.tile ∨ b.key ≠ a.key) :
    ∃ u, exec (.ropeArrival k) s = .next u ∧ u.fab.ropeArr.length + 1 = s.fab.ropeArr.length ∧ u.ropes = s.ropes.map (joined a) := by
  have hexec : exec (.ropeArrival k) s = execRopeArrival k s := rfl
  have hany : ((s.fab.ropeArr.take k).any fun b => b.tile == a.tile && b.key == a.key) = false := by
    rw [List.any_eq_false]
    intro b hb
    rcases hfirst b hb with h | h <;> simp [h]
  have hlen : (s.fab.ropeArr.eraseIdx k).length + 1 = s.fab.ropeArr.length := by
    have hlt : k < s.fab.ropeArr.length := (List.getElem?_eq_some_iff.1 hk).1
    rw [List.length_eraseIdx_of_lt hlt]
    omega
  refine ⟨_, by simp only [hexec, execRopeArrival, hk, hany]; rfl, ?_, ?_⟩
  · simp only [State.landArrival, State.answerArrival, State.modRope]
    split
    · exact hlen
    · split
      · simpa using hlen
      · simpa using hlen
  · simp only [State.landArrival, State.answerArrival, State.modRope]
    split
    · rfl
    · split
      · rw [modRun_ropes]
        rfl
      · rfl

theorem joined_other {a : Arrival} {x : Rope} (h : x.key ≠ a.key ∨ x.ctx ≠ a.ctx) : joined a x = x := by
  rw [joined, if_neg]
  rcases h with h | h <;> simp [h]

theorem joined_own {a : Arrival} {x : Rope} (hkey : x.key = a.key) (hctx : x.ctx = a.ctx) : joined a x =
    ({ x with members := x.members.map fun m =>
      if m.inst = a.inst ∧ m.idx = a.idx ∧ m.b + BitVec.ofNat 32 a.n = m.a then { m with a := m.a + 1 } else m } : Rope).complete := by
  have hm : ∀ m : Member, (if m.inst == a.inst && m.idx == a.idx then m.arrive a.n else m) =
      if m.inst = a.inst ∧ m.idx = a.idx ∧ m.b + BitVec.ofNat 32 a.n = m.a then { m with a := m.a + 1 } else m := fun m => by
    by_cases hi : m.inst = a.inst <;> by_cases hx : m.idx = a.idx <;> simp [hi, hx, Member.arrive]
  simp only [joined, hkey, hctx, beq_self_eq_true, Bool.and_self, if_true, hm]

theorem joined_spec (a : Arrival) (x : Rope) : (joined a x).key = x.key ∧ (joined a x).ctx = x.ctx ∧
    (x.key ≠ a.key ∨ x.ctx ≠ a.ctx → joined a x = x) ∧
    (x.key = a.key → x.ctx = a.ctx →
      (joined a x).members = x.members.map (fun m =>
        if m.inst = a.inst ∧ m.idx = a.idx ∧ m.b + BitVec.ofNat 32 a.n = m.a then { m with a := m.a + 1 } else m) ∧
      ((∃ m ∈ (joined a x).members, m.a = x.phase) → (joined a x).phase = x.phase) ∧
      ((joined a x).members ≠ [] → (∀ m ∈ (joined a x).members, m.a = x.phase + 1) → (joined a x).phase = x.phase + 1)) := by
  by_cases hown : x.key = a.key ∧ x.ctx = a.ctx
  · have heq := joined_own hown.1 hown.2
    obtain ⟨hmem, hkey, hctx⟩ := advance_members _ ({ x with members := x.members.map fun m =>
      if m.inst = a.inst ∧ m.idx = a.idx ∧ m.b + BitVec.ofNat 32 a.n = m.a then { m with a := m.a + 1 } else m } : Rope)
    rw [heq]
    refine ⟨hkey, hctx, fun h => ?_, fun _ _ => ⟨hmem, ?_, ?_⟩⟩
    · exact absurd h (by simp [hown])
    · rintro ⟨m, hm, ha⟩
      rw [Rope.complete, hmem] at hm
      rw [Rope.complete, advance_held hm ha]
    · intro hne hall
      rw [Rope.complete, hmem] at hne hall
      exact phase_complete hne hall
  · have hother : x.key ≠ a.key ∨ x.ctx ≠ a.ctx := by tauto
    rw [joined_other hother]
    exact ⟨rfl, rfl, fun _ => rfl, fun hk hc => absurd ⟨hk, hc⟩ hown⟩

/-! ## What parked decrements leave of the counters (15 R318) -/

theorem applyParked_spec {b : Nat} (l : List (Nat × Nat)) (cs : List Nat) (h : ∀ c ∈ cs, c < b) :
    (applyParked l cs).1.length = cs.length ∧ ∀ c ∈ (applyParked l cs).1, c < b := by
  induction l generalizing cs with
  | nil => exact ⟨rfl, h⟩
  | cons x rest ih =>
    obtain ⟨idx, amt⟩ := x
    simp only [applyParked]
    split
    · exact ih cs h
    · next n hn =>
      have hlt : n < b := h n (List.mem_of_getElem? hn)
      have hset : ∀ m, m ≤ n → ∀ c ∈ cs.set idx m, c < b := fun m hm c hc =>
        (List.mem_or_eq_of_mem_set hc).elim (h c) fun heq => by omega
      split
      · exact ih cs h
      · split
        · obtain ⟨hlen, hall⟩ := ih (cs.set idx 0) (hset 0 (Nat.zero_le n))
          exact ⟨hlen.trans List.length_set, hall⟩
        · obtain ⟨hlen, hall⟩ := ih (cs.set idx (n - amt)) (hset _ (Nat.sub_le n amt))
          exact ⟨hlen.trans List.length_set, hall⟩

theorem recCount_lt (ws : List (BitVec 64)) : recCount ws < 2 ^ 32 := Nat.mod_lt _ (by decide)

/-! ## The new instance, while room is made for it (15 R318, R321) -/

theorem filter_modRec (s : State) (id j k : Nat) (f : Rec → Rec) : (s.modRec j k f).insts.filter (fun v => v.id == id) =
    (s.insts.filter fun v => v.id == id).map fun v => if v.id == j then { v with recs := v.recs.modify k f } else v := by
  have hid : ∀ v : Inst, (if v.id == j then { v with recs := v.recs.modify k f } else v).id = v.id := fun v => by split <;> rfl
  simp only [State.modRec, State.modInst, List.filter_map, Function.comp_def, hid]

/-- A record of a new instance: one with a counter waits, one without has not been spilled. -/
def Young (x : Rec) : Prop := (x.counter ≠ 0 → x.st = .waiting) ∧ (x.spilled = true → x.counter ≠ 0)

/-- The instance `i₀` stands alone under its number, its records `Young` and with the words and counters they began with. -/
def Grows (i₀ : Inst) (s : State) : Prop :=
  ∃ i, s.insts.filter (fun v => v.id == i₀.id) = [i] ∧ { i with recs := [] } = { i₀ with recs := [] } ∧
    i.recs.map (fun x => (x.words, x.counter)) = i₀.recs.map (fun x => (x.words, x.counter)) ∧ ∀ x ∈ i.recs, Young x

variable {i₀ : Inst} {s : State}

theorem grows_of_insts {u : State} (hi : u.insts = s.insts) (h : Grows i₀ s) : Grows i₀ u := by
  rwa [Grows, hi]

theorem map_modify_same {f : Rec → Rec} (hf : ∀ x, ((f x).words, (f x).counter) = (x.words, x.counter)) (l : List Rec) (k : Nat) :
    (l.modify k f).map (fun x => (x.words, x.counter)) = l.map fun x => (x.words, x.counter) := by
  refine List.ext_getElem? fun n => ?_
  simp only [List.getElem?_map, List.getElem?_modify]
  cases l[n]? with
  | none => rfl
  | some x => simp only [Option.map_some]; split <;> simp [hf]

theorem grows_modRec (h : Grows i₀ s) (j k : Nat) {f : Rec → Rec} (hf : ∀ x, ((f x).words, (f x).counter) = (x.words, x.counter))
    (hy : ∀ i x, i ∈ s.insts → i.id = j → j = i₀.id → i.recs[k]? = some x → Young x → Young (f x)) : Grows i₀ (s.modRec j k f) := by
  obtain ⟨i, hi, hhead, hmap, hyoung⟩ := h
  rw [Grows, filter_modRec, hi]
  have hmem : i ∈ s.insts ∧ (i.id == i₀.id) = true := List.mem_filter.1 (hi ▸ List.mem_singleton_self i)
  by_cases hj : i.id = j
  · refine ⟨{ i with recs := i.recs.modify k f }, by simp [hj], hhead, (map_modify_same hf i.recs k).trans hmap, fun x hx => ?_⟩
    obtain ⟨n, hn⟩ := List.mem_iff_getElem?.1 hx
    rw [List.getElem?_modify] at hn
    obtain ⟨y, hget, hyx⟩ := Option.map_eq_some_iff.1 hn
    have hyy := hyoung y (List.mem_of_getElem? hget)
    split at hyx
    · next hk =>
      rw [← hyx]
      exact hy i y hmem.1 hj (hj ▸ by simpa using hmem.2) (hk ▸ hget) hyy
    · rwa [← hyx]
  · exact ⟨i, by simp [hj], hhead, hmap, hyoung⟩

/-- A record that is spilled has a counter. -/
theorem spillable_waits {ctx : BitVec 32} {die n k : Nat} (h : s.spillable ctx die = some (n, k)) :
    ∃ i ∈ s.insts, i.id = n ∧ ∀ x, i.recs[k]? = some x → x.counter ≠ 0 := by
  obtain ⟨i, hi, hfind⟩ := List.exists_of_findSome?_eq_some h
  obtain ⟨m, hm, heq⟩ := Option.map_eq_some_iff.1 hfind
  cases heq
  obtain ⟨hlt, hwait, -⟩ := List.findIdx?_eq_some_iff_getElem.1 hm
  refine ⟨i, (List.mem_filter.1 hi).1, rfl, fun x hx => ?_⟩
  rw [List.getElem?_eq_getElem hlt, Option.some_inj] at hx
  subst hx
  simp only [Bool.and_eq_true, bne_iff_ne] at hwait
  exact hwait.2

theorem grows_spillOne {u : State} {ctx : BitVec 32} {die : Nat} (h : Grows i₀ s) (hu : s.spillOne ctx die = some u) : Grows i₀ u := by
  unfold State.spillOne at hu
  split at hu
  · cases hu
  · split at hu
    next n k c hspill _ =>
      split at hu
      · cases hu
      · split at hu
        · cases hu
          refine grows_of_insts (s := s.modRec n k fun x => { x with spilled := true }) rfl (grows_modRec h n k (fun _ => rfl) ?_)
          intro i x hi hid hown hx hyoung
          obtain ⟨j, hj, hjid, hcounter⟩ := spillable_waits hspill
          obtain ⟨v, hv, -⟩ := h
          have honly : ∀ w ∈ s.insts, w.id = n → w = v := fun w hw hwid =>
            List.mem_singleton.1 (hv ▸ List.mem_filter.2 ⟨hw, by simp [hwid, hown]⟩)
          rw [honly i hi hid, ← honly j hj hjid] at hx
          exact ⟨hyoung.1, fun _ => hcounter x hx⟩
        · cases hu
    · cases hu

theorem grows_makeRoom {ctx : BitVec 32} {die fuel : Nat} {u : State} (h : Grows i₀ s) (hu : s.makeRoom ctx die fuel = some u) :
    Grows i₀ u := by
  induction fuel generalizing s with
  | zero => cases hu
  | succ fuel ih =>
    rw [State.makeRoom] at hu
    split at hu
    · cases hu
    · split at hu
      · cases hu
        exact h
      · split at hu
        · cases hu
        · next hspill => exact ih (grows_spillOne h hspill) hu

theorem Grows.inst? (h : Grows i₀ s) : ∃ i, s.inst? i₀.id = some i ∧ { i with recs := [] } = { i₀ with recs := [] } ∧
    i.recs.map (fun x => (x.words, x.counter)) = i₀.recs.map (fun x => (x.words, x.counter)) ∧ ∀ x ∈ i.recs, Young x := by
  obtain ⟨i, hi, hrest⟩ := h
  refine ⟨i, ?_, hrest⟩
  rw [State.inst?, ← List.head?_filter, hi]
  rfl

/-! ## Records whose counter is zero become PENDING -/

/-- The record is PENDING. -/
def Pends (s : State) (id k : Nat) : Prop := ∃ x, s.rec? id k = some x ∧ x.st = .pending

/-- What starting a record leaves as it is. -/
structure Starts (s u : State) : Prop where
  fab : u.fab = s.fab
  tiles : u.tiles = s.tiles
  pends id k : Pends s id k → Pends u id k

theorem Starts.refl (s : State) : Starts s s := ⟨rfl, rfl, fun _ _ => id⟩

theorem Starts.trans {s u v : State} (h : Starts s u) (g : Starts u v) : Starts s v :=
  ⟨g.fab.trans h.fab, g.tiles.trans h.tiles, fun id k hp => g.pends id k (h.pends id k hp)⟩

theorem starts_toPending (h : Grows i₀ s) {k : Nat} {x : Rec} (hx : i₀.recs[k]? = some x) (hc : x.counter = 0) :
    Grows i₀ (s.toPending i₀.id k) ∧ Starts s (s.toPending i₀.id k) ∧ Pends (s.toPending i₀.id k) i₀.id k := by
  obtain ⟨i, hi, -, hmap, hyoung⟩ := h.inst?
  have hget := congrArg (·[k]?) hmap
  simp only [List.getElem?_map, hx, Option.map_some] at hget
  obtain ⟨y, hy, hyx⟩ := Option.map_eq_some_iff.1 hget
  have hyc : y.counter = 0 := (Prod.mk.inj hyx).2.trans hc
  have hys : y.spilled = false := by
    by_contra hs
    exact (hyoung y (List.mem_of_getElem? hy)).2 (by simpa using hs) hyc
  rw [toPending_here hi hy hys]
  refine ⟨?_, ⟨rfl, rfl, fun n m => ?_⟩, ?_⟩
  · refine grows_of_insts (s := s.modRec i₀.id k fun x => { x with st := .pending, since := s.cycle }) rfl
      (grows_modRec h i₀.id k (fun _ => rfl) fun j z hj hjid _ hz hzy => ?_)
    obtain ⟨v, hv, -⟩ := h
    have honly : ∀ w ∈ s.insts, w.id = i₀.id → w = v := fun w hw hwid =>
      List.mem_singleton.1 (hv ▸ List.mem_filter.2 ⟨hw, by simp [hwid]⟩)
    have hji : j = i := (honly j hj hjid).trans (honly i (List.mem_of_find?_eq_some hi) (inst?_id hi)).symm
    rw [hji, hy, Option.some_inj] at hz
    subst hz
    exact ⟨fun hne => absurd hyc hne, hzy.2⟩
  · rintro ⟨z, hz, hzst⟩
    have hrec := rec?_modRec_any s i₀.id k n m fun x => { x with st := .pending, since := s.cycle }
    rw [hz] at hrec
    split at hrec
    · exact ⟨_, hrec, rfl⟩
    · exact ⟨z, hrec, hzst⟩
  · have hrec := rec?_modRec s i₀.id k fun x => { x with st := .pending, since := s.cycle }
    rw [rec?_of_inst? hi hy] at hrec
    exact ⟨_, hrec, rfl⟩

theorem starts_startZero (l : List (Nat × Nat)) (h : Grows i₀ s)
    (hl : ∀ k, (0, k) ∈ l → ∃ x, i₀.recs[k]? = some x ∧ x.counter = 0) :
    Grows i₀ (s.startZero i₀.id l) ∧ Starts s (s.startZero i₀.id l) ∧ ∀ k, (0, k) ∈ l → Pends (s.startZero i₀.id l) i₀.id k := by
  induction l generalizing s with
  | nil => exact ⟨h, .refl s, nofun⟩
  | cons x rest ih =>
    obtain ⟨c, k⟩ := x
    have hrest : ∀ n, (0, n) ∈ rest → ∃ x, i₀.recs[n]? = some x ∧ x.counter = 0 := fun n hn => hl n (List.mem_cons_of_mem _ hn)
    rw [State.startZero]
    split
    · next hc =>
      obtain ⟨x, hx, hxc⟩ := hl k (by rw [← hc]; exact List.mem_cons_self)
      obtain ⟨hgrow, hstart, hpend⟩ := starts_toPending h hx hxc
      obtain ⟨hg, hs, hp⟩ := ih hgrow hrest
      refine ⟨hg, hstart.trans hs, fun n hn => ?_⟩
      rcases List.mem_cons.1 hn with heq | hn
      · cases heq
        exact hs.pends _ _ hpend
      · exact hp n hn
    · next hc =>
      obtain ⟨hg, hs, hp⟩ := ih h hrest
      refine ⟨hg, hs, fun n hn => ?_⟩
      rcases List.mem_cons.1 hn with heq | hn
      · cases heq
        exact absurd rfl hc
      · exact hp n hn

/-! ## The creation of an instance (15 R318) -/

theorem insts_strays (ctx : BitVec 32) (die : Nat) (templ : BitVec 64) (tag : BitVec 32) (l : List Nat) (s : State) :
    (s.strays ctx die templ tag l).fab = s.fab ∧ (s.strays ctx die templ tag l).insts = s.insts ∧
      (s.strays ctx die templ tag l).tiles = s.tiles := by
  induction l generalizing s with
  | nil => exact ⟨rfl, rfl, rfl⟩
  | cons n rest ih =>
    obtain ⟨hf, hi, ht⟩ := ih (s.stray ctx die n templ tag)
    obtain ⟨hf', hi', ht', -⟩ := stray_counts s ctx die n templ tag
    exact ⟨hf.trans hf', hi.trans hi', ht.trans ht'⟩

theorem fab_spillOne {u : State} {ctx : BitVec 32} {die : Nat} (hu : s.spillOne ctx die = some u) : u.fab = s.fab := by
  unfold State.spillOne at hu
  split at hu
  · cases hu
  · split at hu
    · split at hu
      · cases hu
      · split at hu
        · cases hu
          rfl
        · cases hu
    · cases hu

theorem fab_makeRoom {ctx : BitVec 32} {die fuel : Nat} {u : State} (hu : s.makeRoom ctx die fuel = some u) : u.fab = s.fab := by
  induction fuel generalizing s with
  | zero => cases hu
  | succ fuel ih =>
    rw [State.makeRoom] at hu
    split at hu
    · cases hu
    · split at hu
      · cases hu
        rfl
      · split at hu
        · cases hu
        · next hspill => exact (ih hu).trans (fab_spillOne hspill)

theorem recs_newInst (c : Creation) (t : TemplInfo) (ren : List (BitVec 64)) {ws : List (List (BitVec 64))} {cs : List Nat}
    (hlen : cs.length = ws.length) : (s.newInst c t ren ws cs).recs.map Rec.words = ws ∧ (s.newInst c t ren ws cs).recs.length = cs.length := by
  constructor
  · simp only [State.newInst, List.map_map]
    exact List.map_fst_zip (le_of_eq hlen.symm)
  · simp [State.newInst, hlen]

theorem recs_newInst_get (c : Creation) (t : TemplInfo) (ren : List (BitVec 64)) {ws : List (List (BitVec 64))} {cs : List Nat}
    (hlen : cs.length = ws.length) {k n : Nat} (hk : cs[k]? = some n) :
    ∃ x, (s.newInst c t ren ws cs).recs[k]? = some x ∧ x.counter = BitVec.ofNat 32 n ∧ x.spilled = false ∧ x.st = .waiting := by
  have hw : k < ws.length := hlen ▸ (List.getElem?_eq_some_iff.1 hk).1
  have hzip : (ws.zip cs)[k]? = some (ws[k], n) := by
    rw [List.getElem?_zip_eq_some]
    exact ⟨List.getElem?_eq_getElem hw, hk⟩
  exact ⟨{ words := ws[k], counter := BitVec.ofNat 32 n }, by simp only [State.newInst, List.getElem?_map, hzip, Option.map_some], rfl, rfl, rfl⟩

theorem young_newInst {c : Creation} {t : TemplInfo} {ren : List (BitVec 64)} {ws : List (List (BitVec 64))} {cs : List Nat} :
    ∀ x ∈ (s.newInst c t ren ws cs).recs, Young x := by
  intro x hx
  obtain ⟨p, -, rfl⟩ := List.mem_map.1 hx
  exact ⟨fun _ => rfl, nofun⟩

/-- The counters of a new instance. -/
def State.firstCounters (s : State) (c : Creation) (ws : List (List (BitVec 64))) : List Nat :=
  (applyParked (s.parkedFor c.ctx c.templ c.tag) (ws.map recCount)).1

theorem length_firstCounters (s : State) (c : Creation) (ws : List (List (BitVec 64))) :
    (State.firstCounters s c ws).length = ws.length ∧ ∀ n ∈ State.firstCounters s c ws, n < 2 ^ 32 := by
  have hlt : ∀ n ∈ ws.map recCount, n < 2 ^ 32 := by
    simp only [List.mem_map]
    rintro n ⟨w, _, rfl⟩
    exact recCount_lt w
  obtain ⟨hlen, hall⟩ := applyParked_spec (s.parkedFor c.ctx c.templ c.tag) (ws.map recCount) hlt
  exact ⟨hlen.trans (List.length_map _), hall⟩

/-- The instance that a creation makes, its records as the image holds them. -/
def State.firstInst (s : State) (c : Creation) (t : TemplInfo) (ren : List (BitVec 64)) (ws : List (List (BitVec 64))) : Inst :=
  s.newInst c t ren ws (State.firstCounters s c ws)

theorem buildInst_spec {u : State} {c : Creation} {t : TemplInfo} {ren : List (BitVec 64)} {ws : List (List (BitVec 64))}
    (hu : s.buildInst c t ren ws = some u) (hspawn : c.origin = .spawn) (hid : ∀ x ∈ s.insts, x.id ≠ s.fab.nextId) :
    Grows (State.firstInst s c t ren ws) u ∧ (∀ k, (State.firstCounters s c ws)[k]? = some 0 → Pends u s.fab.nextId k) ∧
      u.tiles = s.tiles ∧ u.fab.creations = s.fab.creations ∧
      u.fab.parked = s.fab.parked.filter fun d => !d.isFor c.ctx c.templ c.tag := by
  obtain ⟨hlen, hlt⟩ := length_firstCounters s c ws
  obtain ⟨v, hroom, rfl⟩ := Option.map_eq_some_iff.1 hu
  have hnew : Grows (State.firstInst s c t ren ws) ({ s with
      insts := s.insts ++ [State.firstInst s c t ren ws]
      fab := { s.fab with nextId := s.fab.nextId + 1, parked := s.fab.parked.filter fun d => !d.isFor c.ctx c.templ c.tag } } : State) := by
    refine ⟨State.firstInst s c t ren ws, ?_, rfl, rfl, young_newInst⟩
    have hnone : s.insts.filter (fun v => v.id == s.fab.nextId) = [] :=
      List.filter_eq_nil_iff.2 fun x hx => by simpa using hid x hx
    rw [List.filter_append, show (State.firstInst s c t ren ws).id = s.fab.nextId from rfl, hnone]
    simp [show (State.firstInst s c t ren ws).id = s.fab.nextId from rfl]
  have hgrow := grows_makeRoom hnew hroom
  have hfab := fab_makeRoom hroom
  have htiles := (steady_makeRoom hroom).tiles
  obtain ⟨hsf, hsi, hst⟩ := insts_strays c.ctx (homeDie t c.tag) c.templ c.tag
    (applyParked (s.parkedFor c.ctx c.templ c.tag) (ws.map recCount)).2 v
  obtain ⟨hg, hs, hp⟩ := starts_startZero (State.firstCounters s c ws).zipIdx (grows_of_insts hsi hgrow) fun k hk => by
    obtain ⟨x, hx, hxc, -⟩ := recs_newInst_get (s := s) c t ren hlen (List.mem_zipIdx_iff_getElem?.1 hk)
    exact ⟨x, hx, hxc⟩
  simp only [State.delivered, hspawn]
  have hall := hs.fab.trans (hsf.trans hfab)
  exact ⟨hg, fun k hk => hp k (List.mem_zipIdx_iff_getElem?.2 hk), hs.tiles.trans (hst.trans htiles),
    (congrArg Fabric.creations hall).trans (by rfl), (congrArg Fabric.parked hall).trans (by rfl)⟩

theorem rings_verifyTables (s : State) (c : Creation) (t : TemplInfo) : RingsOnly s (s.verifyTables c t) := by
  unfold State.verifyTables
  dsimp only
  split
  · exact Errors.rings_verifyWords s _ _ _
  · exact (Errors.rings_verifyWords s _ _ _).trans (Errors.rings_verifyWords _ _ _ _)

/-- The creation has left those asked for. -/
def taken (s : State) (k : Nat) : State := { s with fab := { s.fab with creations := s.fab.creations.eraseIdx k } }

theorem exec_instanceCreate {u : State} {k : Nat} {c : Creation} {t : TemplInfo} {ws : List (List (BitVec 64))}
    (hk : s.fab.creations[k]? = some c) (hfirst : ∀ d ∈ s.fab.creations.take k, d.ctx ≠ c.ctx ∨ d.templ ≠ c.templ)
    (hspawn : c.origin = .spawn) (hren : c.rename = 0) (hv : s.verdictOf c.ctx c.templ = (s, .ok t)) (hbad : t.bad = none)
    (hroom : (s.insts.filter fun i => i.ctx == c.ctx && i.templ == c.templ && !i.lost).length < t.k)
    (hlive : s.liveInst c.ctx c.templ c.tag = none) (hws : s.newRecs c t = .ok ws)
    (hu : ((taken s k).verifyTables c t).buildInst c t (List.replicate t.nbuf 0) ws = some u) :
    exec (.instanceCreate k) s = .next (u.received c.ctx (homeDie t c.tag)) := by
  have hexec : exec (.instanceCreate k) s = execInstanceCreate k s := rfl
  have hany : ((s.fab.creations.take k).any fun d => d.ctx == c.ctx && d.templ == c.templ) = false := by
    rw [List.any_eq_false]
    intro d hd
    rcases hfirst d hd with h | h <;> simp [h]
  have htable : s.renameTable c t = .ok (List.replicate t.nbuf 0) := by rw [State.renameTable, if_pos hren]
  have htry : s.tryCreate k c = u.received c.ctx (homeDie t c.tag) := by
    simp only [taken] at hu
    simp only [State.tryCreate, hv, hbad, if_neg (Nat.not_le.2 hroom), hlive, htable, hws, hu, State.creationOver, hspawn]
    rfl
  simp only [hexec, execInstanceCreate, hk, hany, htry]
  rfl

/-- The new instance has the image's records, those with counter zero PENDING. -/
theorem new_instance {w u : State} {c : Creation} {t : TemplInfo} {ren : List (BitVec 64)} {ws : List (List (BitVec 64))}
    (hg : Grows (State.firstInst w c t ren ws) u) (hp : ∀ k, (State.firstCounters w c ws)[k]? = some 0 → Pends u w.fab.nextId k) :
    ∃ i, i ∈ u.insts ∧ { i with recs := [] } = { State.firstInst w c t ren ws with recs := [] } ∧ i.recs.map Rec.words = ws ∧
      ∀ x ∈ i.recs, (x.counter = 0 → x.st = .pending) ∧ (x.counter ≠ 0 → x.st = .waiting) := by
  obtain ⟨hlen, hlt⟩ := length_firstCounters w c ws
  obtain ⟨i, hi, hhead, hmap, hyoung⟩ := hg.inst?
  refine ⟨i, List.mem_of_find?_eq_some hi, hhead, ?_, fun x hx => ⟨fun hzero => ?_, (hyoung x hx).1⟩⟩
  · have hfst := congrArg (List.map Prod.fst) hmap
    simp only [List.map_map, Function.comp_def] at hfst
    exact hfst.trans (recs_newInst c t ren hlen).1
  · obtain ⟨n, hn⟩ := List.mem_iff_getElem?.1 hx
    have hget := congrArg (·[n]?) hmap
    simp only [List.getElem?_map, hn, Option.map_some] at hget
    obtain ⟨y, hy, hyx⟩ := Option.map_eq_some_iff.1 hget.symm
    have hltn : n < (State.firstCounters w c ws).length := by
      rw [← (recs_newInst c t ren hlen).2]
      exact (List.getElem?_eq_some_iff.1 hy).1
    obtain ⟨z, hz, hzc, -⟩ := recs_newInst_get (s := w) c t ren hlen (List.getElem?_eq_getElem hltn)
    have hyz : y = z := Option.some_inj.1 (hy.symm.trans hz)
    have hcount : (State.firstCounters w c ws)[n] = 0 := by
      have hmod : BitVec.ofNat 32 (State.firstCounters w c ws)[n] = 0 := hzc.symm.trans (hyz ▸ (Prod.mk.inj hyx).2.trans hzero)
      have hnat := congrArg BitVec.toNat hmod
      rw [BitVec.toNat_ofNat, Nat.mod_eq_of_lt (hlt _ (List.getElem_mem hltn))] at hnat
      exact hnat
    obtain ⟨v, hv, hvst⟩ := hp n (by rw [List.getElem?_eq_getElem hltn, hcount])
    have hxv : x = v := Option.some_inj.1 ((rec?_of_inst? hi hn).symm.trans hv)
    rw [hxv, hvst]

/-- Settles O45: a decrement finds its record by slot, an arrival advances its rope, and a creation that finds room leaves a new
instance that nothing but the spilling of its records with counters has touched. -/
theorem graphMemory : Obligations.GraphMemory := by
  refine ⟨⟨fun k s d inst idx gen templ tag i x hk ha ht hi hx => decrement_slot hk ha ht hi hx,
    fun k s d va tag n p l hk ha ht hn hl hp hr => decrement_peer hk ha ht hn hl hp hr, fun k s d va tag p l hk ha ht => ?_,
    fun k s d va tag p l hk ha ht hl hc hp => decrement_nowhere hk ha ht hl hc hp, fun k s a hk hfirst => ?_⟩,
    fun k s c t ws hk hfirst hspawn hren hv hbad hroom hlive hws hsome hid => ?_⟩
  · have hexec : exec (.strayDecrementAnswer k) s = execStrayDecrementAnswer k s := rfl
    simp only [hexec, execStrayDecrementAnswer, hk, ha, if_true, State.decAnswer, ht]
  · obtain ⟨u, hexec, hlen, hropes⟩ := exec_ropeArrival hk hfirst
    refine ⟨u, hexec, hlen, by rw [hropes, List.length_map], fun n x hx => ⟨joined a x, ?_, joined_spec a x⟩⟩
    rw [hropes, List.getElem?_map, hx, Option.map_some]
  · change (((taken s k).verifyTables c t).buildInst c t (List.replicate t.nbuf 0) ws).isSome = true at hsome
    obtain ⟨u, hu⟩ := Option.isSome_iff_exists.1 hsome
    have hexec := exec_instanceCreate hk hfirst hspawn hren hv hbad hroom hlive hws hu
    have hrings := rings_verifyTables (taken s k) c t
    generalize (taken s k).verifyTables c t = w at hu hrings
    have hfab : w.fab = (taken s k).fab := hrings.fab
    obtain ⟨hg, hp, htiles, hcreations, hparked⟩ := buildInst_spec hu hspawn (by
      rw [hrings.insts, hfab]
      exact hid)
    obtain ⟨i, hi, hhead, hwords, hzero⟩ := new_instance hg hp
    have hcounters : State.firstCounters w c ws = (applyParked (s.parkedFor c.ctx c.templ c.tag) (ws.map recCount)).1 := by
      simp only [State.firstCounters, State.parkedFor, hfab]
      rfl
    refine ⟨_, i, hexec, ?_, hi, congrArg Inst.ctx hhead, congrArg Inst.templ hhead, congrArg Inst.tag hhead, congrArg Inst.die hhead, ?_,
      congrArg Inst.prio hhead, congrArg Inst.rename hhead, congrArg Inst.cont hhead, ?_, hwords, hzero, fun d hd => ?_, ?_⟩
    · exact hcreations.trans (by rw [hfab]; rfl)
    · rw [← hcounters, (length_firstCounters w c ws).1, ← hwords, List.length_map]
    · refine (congrArg Inst.mbox hhead).trans ?_
      simp only [State.firstInst, State.newInst, hspawn]
    · have hd : d ∈ u.fab.parked := hd
      rw [hparked] at hd
      simpa using (List.mem_filter.1 hd).2
    · exact htiles.trans hrings.tiles

end Sys2Proof.Graphs
end

section
/-! The family 16_translation, translation caches, invalidations and MIGRATE: O51. -/
namespace Sys2Proof.Translating
open Machine Laws

/-! ## Translation caches (16 R339, R342) -/

/-- An entry of a unit that a lookup of an address would take. -/
def Matches (unit : Nat) (ctx : BitVec 32) (va : Nat) (e : TlbEntry) : Prop :=
  (e.unit == unit && e.ctx == ctx && e.va.toNat == va - va % pageBytes (leafSize e.leaf)) = true

/-- Whatever a lookup of the address in the unit finds is `x`. -/
def Only (s : State) (unit : Nat) (ctx : BitVec 32) (va : Nat) (x : Xlat) : Prop :=
  ∀ e ∈ s.pkg.tlb, Matches unit ctx va e → ({ leaf := e.leaf, level := e.level } : Xlat) = x

theorem only_of_miss {s : State} {unit : Nat} {ctx : BitVec 32} {va : Nat} (h : s.tlbHit unit ctx va = none) (x : Xlat) :
    Only s unit ctx va x := by
  rw [State.tlbHit, Option.map_eq_none_iff, List.find?_eq_none] at h
  exact fun e he hm => absurd hm (h e he)

theorem tlbHit_of_only {s : State} {unit : Nat} {ctx : BitVec 32} {va : Nat} {x : Xlat} {e : TlbEntry} (h : Only s unit ctx va x)
    (he : e ∈ s.pkg.tlb) (hm : Matches unit ctx va e) : s.tlbHit unit ctx va = some x := by
  rw [State.tlbHit]
  cases hf : s.pkg.tlb.find? fun e => e.unit == unit && e.ctx == ctx && e.va.toNat == va - va % pageBytes (leafSize e.leaf) with
  | none => exact absurd hm (List.find?_eq_none.1 hf e he)
  | some y =>
    have hy := List.find?_some hf
    rw [Option.map_some, h y (List.mem_of_find?_eq_some hf) hy]

/-- The entry of a leaf found for an address. -/
def entryOf (unit : Nat) (ctx : BitVec 32) (va : Nat) (x : Xlat) : TlbEntry :=
  { unit := unit, ctx := ctx, va := BitVec.ofNat 64 (x.base va), leaf := x.leaf, level := x.level }

theorem mem_fillTlb {s : State} {unit size : Nat} {ctx : BitVec 32} {va : Nat} {x : Xlat} {e : TlbEntry}
    (h : e ∈ (s.fillTlb unit size ctx va x).pkg.tlb) : e ∈ s.pkg.tlb ∨ e = entryOf unit ctx va x := by
  rcases List.mem_append.1 h with h | h
  · exact .inl (List.mem_filter.1 h).1
  · rcases List.mem_append.1 (List.mem_of_mem_drop h) with h | h
    · exact .inl (List.mem_filter.1 h).1
    · exact .inr (List.mem_singleton.1 h)

theorem entryOf_mem_fillTlb (s : State) (unit : Nat) {size : Nat} (ctx : BitVec 32) (va : Nat) (x : Xlat) (hs : 0 < size) :
    entryOf unit ctx va x ∈ (s.fillTlb unit size ctx va x).pkg.tlb := by
  refine List.mem_append_right _ ?_
  rw [List.drop_append_of_le_length (by simp; omega)]
  exact List.mem_append_right _ (List.mem_singleton_self _)

theorem matches_entryOf (unit : Nat) (ctx : BitVec 32) {va : Nat} (x : Xlat) (hva : va < 2 ^ 64) : Matches unit ctx va (entryOf unit ctx va x) := by
  have hbase : (BitVec.ofNat 64 (x.base va)).toNat = va - va % pageBytes (leafSize x.leaf) := by
    rw [BitVec.toNat_ofNat]
    exact Nat.mod_eq_of_lt (lt_of_le_of_lt (Nat.sub_le va _) hva)
  simp [Matches, entryOf, hbase]

theorem only_fillTlb {s : State} {unit : Nat} {ctx : BitVec 32} {va : Nat} {x : Xlat} (h : Only s unit ctx va x) (unit' size : Nat) :
    Only (s.fillTlb unit' size ctx va x) unit ctx va x := by
  intro e he hm
  rcases mem_fillTlb he with he | rfl
  · exact h e he hm
  · rfl

theorem tlbHit_fillTlb {s : State} {unit size : Nat} {ctx : BitVec 32} {va : Nat} {x : Xlat} (h : Only s unit ctx va x)
    (hva : va < 2 ^ 64) (hs : 0 < size) : (s.fillTlb unit size ctx va x).tlbHit unit ctx va = some x :=
  tlbHit_of_only (only_fillTlb h unit size) (entryOf_mem_fillTlb s unit ctx va x hs) (matches_entryOf unit ctx x hva)

/-- The nodes that a walk passes, from the root on. -/
def passed (s : State) (t : Nat) (ctx : BitVec 32) (va : Nat) : List NodeEntry :=
  match (s.ctx? ctx).bind Ctx.root with
  | some r => s.nodesFrom (tileDie t) ctx va 4 0 r.aper.toNat r.frame.toNat
  | none => []

/-- A walk that finds a leaf fills both units. -/
theorem fill_of_walk {s : State} {t : Nat} {ctx : BitVec 32} {va : Nat} {x : Xlat} (h1 : s.tlbHit t ctx va = none)
    (h2 : s.tlbHit (l2Unit (tileCluster t)) ctx va = none) (hw : s.walk (some (tileDie t)) ctx va = .ok x) : s.fill t ctx va =
      ((s.fillNodes (tileDie t) (passed s t ctx va)).fillTlb (l2Unit (tileCluster t)) l2Size ctx va x).fillTlb t l1Size ctx va x := by
  simp only [State.fill, h1, h2, hw]
  rfl

theorem exec_walk {s : State} {t : Nat} {ctx : BitVec 32} {va : BitVec 64} (hc : isCanonical va.toNat = true)
    (hm : s.migrating ctx va.toNat = false) : exec (.translationWalk t ctx va) s = .next (s.fill t ctx va.toNat) := by
  have hexec : exec (.translationWalk t ctx va) s = execTranslationWalk t ctx va s := rfl
  simp [hexec, execTranslationWalk, hc, hm]

/-! ## MIGRATE (16 R336, R349) -/

/-- A place that a list of cells does not hold reads from the rest. -/
theorem kvGet_append {α : Type} (d : α) {l : List (Nat × α)} (m : List (Nat × α)) {k : Nat} (h : ∀ x ∈ l, x.1 ≠ k) :
    kvGet d (l ++ m) k = kvGet d m k := by
  induction l with
  | nil => rfl
  | cons x rest ih =>
    rw [List.cons_append, kvGet, if_neg (h x List.mem_cons_self)]
    exact ih fun y hy => h y (List.mem_cons_of_mem x hy)

theorem kvGet_absent {α : Type} (d : α) {l : List (Nat × α)} {k : Nat} (h : ∀ x ∈ l, x.1 ≠ k) : kvGet d l k = d := by
  have hall := kvGet_append d [] h
  rwa [List.append_nil] at hall

/-- The cells of the old frame, moved, and others that lie beyond the new one. -/
theorem kvGet_moved {a b n k : Nat} (hk : k < n) (rest : List Host.Cell) (l : List Host.Cell) (hrest : ∀ x ∈ rest, b + n ≤ x.1) :
    kvGet unlistedByte (((l.filter fun c => a ≤ c.1 && c.1 < a + n).map fun c => (b + (c.1 - a), c.2)) ++ rest) (b + k) =
      kvGet unlistedByte l (a + k) := by
  induction l with
  | nil => exact kvGet_absent _ fun x hx => by have := hrest x hx; omega
  | cons c l ih =>
    rw [List.filter_cons]
    by_cases hc : a ≤ c.1 ∧ c.1 < a + n
    · rw [if_pos (by simpa using hc), List.map_cons, List.cons_append]
      simp only [kvGet]
      by_cases hck : c.1 = a + k
      · rw [if_pos (by omega), if_pos hck]
      · rw [if_neg (by omega), if_neg hck]
        exact ih
    · rw [if_neg (by simpa using hc)]
      simp only [kvGet]
      rw [if_neg (by omega)]
      exact ih

theorem read_move (m : Memory) (a b : Nat) {n k : Nat} (hk : k < n) : (m.move a b n).read (b + k) = m.read (a + k) := by
  rw [Memory.read, Memory.move]
  dsimp only
  rw [List.append_assoc, kvGet_append _ _ fun x hx => ?_, kvGet_moved hk _ _ fun x hx => by simpa using (List.mem_filter.1 hx).2]
  · rfl
  · have hlt : x.1 < b := by simpa using (List.mem_filter.1 hx).2
    omega

/-- Settles O51: a unit that misses has no entry for the address, so the leaf filled is the only one that matches; a frame that moves
displaces only what the new frame held. -/
theorem translations : Obligations.Translations := by
  refine ⟨fun t ctx va s hc hm => ⟨fun x hx => ?_, fun x hmiss hmiss2 hw => ?_, fun f hmiss hmiss2 hw => ?_⟩,
    fun s v => ⟨rfl, rfl, fun e he => ?_⟩, fun k s v hk hr => ⟨fun hno => ?_, ?_⟩, fun s a b n => ⟨fun hb k hk => ?_, fun hb => ?_⟩⟩
  · simp only [exec_walk hc hm, State.fill, hx]
  · refine ⟨_, exec_walk hc hm, ?_⟩
    rw [fill_of_walk hmiss hmiss2 hw]
    exact ⟨tlbHit_fillTlb (only_fillTlb (only_of_miss (by exact hmiss) x) _ _) va.isLt (by decide), rfl, rfl⟩
  · refine ⟨_, exec_walk hc hm, ?_⟩
    simp only [State.fill, hmiss, hmiss2, hw]
    exact ⟨rfl, rfl, rfl⟩
  · have hkept := (List.mem_filter.1 he).2
    rw [Bool.not_eq_true'] at hkept
    exact hkept
  · have hexec : exec (.invalidationComplete k) s = execInvalidationComplete k s := rfl
    have hoff : (v.holders.all (s.freed v) && !s.frameDown v) = false := by rcases hno with h | h <;> simp [h]
    simp [hexec, execInvalidationComplete, hk, hr, State.completeInv, hoff]
  · rintro u hall hdown rfl
    have hexec : exec (.invalidationComplete k) s = execInvalidationComplete k s := rfl
    have hnext : exec (.invalidationComplete k) s = .next (({ s with pkg := { s.pkg with invs := s.pkg.invs.eraseIdx k } } : State).invalidated v
        fun p index s => s.complete p index 0 0) := by
      simp only [hexec, execInvalidationComplete, hk, hr, State.completeInv, hall, hdown]
      rfl
    refine ⟨fun t ho => ?_, fun p i ho => ?_, fun t old new l ho => ?_⟩ <;> rw [hnext, State.invalidated, ho]
  · simp only [State.moveFrame, hb]
    exact read_move s.mem a b hk
  · simp only [State.moveFrame, hb, if_true]

end Sys2Proof.Translating
end

section
/-! The family 17_counters_wear, what contexts are charged: for O52. -/
namespace Sys2Proof.Wearing
open Machine Laws Contexts Dogs

/-! ## Charges, and what leaves them as they are (17 R359, R361) -/

/-- The contexts with what they have been charged. -/
def charges (s : State) : List (BitVec 32 × Nat) := s.ctxs.map fun c => (c.id, c.charge)

theorem charges_of_ctxs {s u : State} (h : u.ctxs = s.ctxs) : charges u = charges s := by rw [charges, h, charges]

theorem charges_modCtx (s : State) (id : BitVec 32) (f : Ctx → Ctx) (hf : ∀ c, ((f c).id, (f c).charge) = (c.id, c.charge)) :
    charges (s.modCtx id f) = charges s := by
  simp only [charges, State.modCtx, List.map_map]
  refine List.map_congr_left fun c _ => ?_
  rw [Function.comp_apply]
  split
  · exact hf c
  · rfl

theorem charges_noteLine (s : State) (ctx : BitVec 32) (k : Nat) : charges (s.noteLine ctx k) = charges s := by
  unfold State.noteLine State.failLine State.countMismatch
  split
  · exact ((charges_modCtx _ ctx _ fun _ => by rfl).trans (charges_modCtx _ ctx _ fun _ => by rfl)).trans rfl
  · rfl

theorem charges_noteRing (s : State) (ctx : BitVec 32) (q : Option QcbReg) : charges (s.noteRing ctx q) = charges s := by
  unfold State.noteRing
  repeat' split
  · rfl
  · rfl
  · exact charges_noteLine s ctx _
  · rfl

theorem charges_store (s : State) (l : Nat) (bs : List Byte) (p : Bool) : charges (s.store l bs p) = charges s := by
  by_cases hb : bs = []
  · subst hb; rfl
  · rw [store_else]; rfl

theorem charges_qcbWord (s : State) (ctx : BitVec 32) (l o w : Nat) : charges (s.qcbWord ctx l o w) = charges s := by
  rw [State.qcbWord, charges_store, charges_noteLine]

theorem charges_notify (s : State) (ctx : BitVec 32) (v : BitVec 16) : charges (s.notify ctx v) = charges s := by
  unfold State.notify
  split
  · rfl
  · exact charges_modCtx s ctx _ fun _ => by rfl

theorem charges_ringAppend (s : State) (ctx : BitVec 32) (q : Qcb) (l : Nat) (bs : List Byte) :
    charges (s.ringAppend ctx q l bs) = charges s := by
  unfold State.ringAppend
  dsimp only
  split
  · rw [charges_notify, charges_qcbWord, charges_store, charges_noteLine]
  · rw [charges_qcbWord, charges_store, charges_noteLine]

theorem charges_acceptMessage {s u : State} {ctx : BitVec 32} {m : Nat} {w : BitVec 512} (h : s.acceptMessage ctx m w = some u) :
    charges u = charges s := by
  unfold State.acceptMessage at h
  split at h
  · cases h
  · dsimp only at h
    split at h
    · cases h
      exact charges_modCtx s ctx _ fun _ => by rfl
    · cases h

theorem charges_mailRecord {s u : State} {ctx : BitVec 32} {w : BitVec 512} (h : s.mailRecord ctx w = some u) :
    charges u = charges s := by
  unfold State.mailRecord at h
  split at h
  · cases h
  · split at h
    · cases h
    · exact charges_acceptMessage h

/-- What a mailbox takes, or what is done instead of it. -/
theorem charges_mailOr {s u : State} (ctx : BitVec 32) (w : BitVec 512) (h : charges u = charges s) :
    charges ((s.mailRecord ctx w).getD u) = charges s := by
  cases hmail : s.mailRecord ctx w with
  | none => exact h
  | some v => exact charges_mailRecord hmail

theorem charges_holdRecord (s : State) (ctx : BitVec 32) (q : Option Qcb) (f : FaultRec) :
    charges (s.holdRecord ctx q f) = charges s := by
  unfold State.holdRecord
  split
  · rfl
  · dsimp only
    split
    · cases q with
      | none => exact charges_modCtx s ctx _ fun _ => by rfl
      | some q => exact (charges_qcbWord _ _ _ _ _).trans (charges_modCtx s ctx _ fun _ => by rfl)
    · cases q with
      | none => rfl
      | some q => exact charges_qcbWord s _ _ _ _

theorem charges_faultRingError (s : State) (ctx : BitVec 32) (q : Option Qcb) (f : FaultInfo) :
    charges (s.faultRingError ctx q f) = charges s := by
  have hseq : charges (s.modCtx ctx fun c => { c with seq := c.seq + 1 }) = charges s := charges_modCtx s ctx _ fun _ => by rfl
  unfold State.faultRingError
  cases q with
  | none => exact (charges_modCtx _ ctx _ fun _ => by rfl).trans hseq
  | some q => exact (charges_mailOr _ _ rfl).trans ((charges_qcbWord _ _ _ _ _).trans hseq)

theorem charges_ringRecord (s : State) (ctx : BitVec 32) (q : Qcb) (f : FaultRec) : charges (s.ringRecord ctx q f) = charges s := by
  unfold State.ringRecord
  split
  · rfl
  · split
    · exact charges_holdRecord s ctx none f
    · split
      · exact charges_holdRecord s ctx _ f
      · split
        · exact (charges_faultRingError _ ctx _ _).trans (charges_holdRecord s ctx none f)
        · exact charges_ringAppend s ctx q _ _

theorem charges_unringed (s : State) (ctx : BitVec 32) (f : FaultRec) : charges (s.unringed ctx f) = charges s :=
  charges_mailOr ctx _ (charges_holdRecord s ctx none f)

theorem charges_deliverRecord (s : State) (ctx : BitVec 32) (f : FaultRec) : charges (s.deliverRecord ctx f) = charges s := by
  unfold State.deliverRecord
  split
  · rfl
  · dsimp only
    split
    · exact (charges_unringed _ ctx f).trans (charges_noteRing s ctx _)
    · exact ((charges_faultRingError _ ctx _ _).trans (charges_unringed _ ctx f)).trans (charges_noteRing s ctx _)
    · exact ((charges_faultRingError _ ctx _ _).trans (charges_unringed _ ctx f)).trans (charges_noteRing s ctx _)
    · exact (charges_mailOr ctx _ (charges_ringRecord _ ctx _ f)).trans (charges_noteRing s ctx _)

theorem charges_record (s : State) (ctx : BitVec 32) (r : RecSpec) : charges (s.record ctx r) = charges s := by
  unfold State.record
  split
  · rfl
  · exact (charges_deliverRecord _ _ _).trans (charges_modCtx s ctx _ fun _ => by rfl)

theorem charges_checkQuota (s : State) (ctx : BitVec 32) : charges (s.checkQuota ctx) = charges s := by
  unfold State.checkQuota
  split
  · rfl
  · split
    · split
      · rfl
      · exact (charges_record _ _ _).trans (charges_modCtx s ctx _ fun _ => by rfl)
    · exact charges_modCtx s ctx _ fun _ => by rfl

/-! ## What a context is charged (17 R359) -/

/-- What a context has been charged. -/
def chargeOf (s : State) (c : BitVec 32) : Option Nat := (s.ctx? c).map Ctx.charge

theorem chargeOf_of_charges {s u : State} (h : charges u = charges s) (c : BitVec 32) : chargeOf u c = chargeOf s c := by
  have hfind (w : State) : chargeOf w c = ((charges w).find? fun x => x.1 == c).map Prod.snd := by
    simp only [chargeOf, charges, State.ctx?, List.find?_map, Option.map_map]
    rfl
  rw [hfind, h, hfind]

theorem chargeOf_eq_some {s : State} {c : BitVec 32} {n : Nat} (h : chargeOf s c = some n) : ∃ y, s.ctx? c = some y ∧ y.charge = n := by
  simpa only [chargeOf, Option.map_eq_some_iff] using h

theorem ctx?_id {s : State} {c : BitVec 32} {x : Ctx} (h : s.ctx? c = some x) : x.id = c :=
  eq_of_beq (List.find?_some (p := fun d : Ctx => d.id == c) h)

/-- A change of one context that keeps its number, as every context sees it. -/
theorem ctx?_modCtx_any (s : State) (i c : BitVec 32) (f : Ctx → Ctx) (hf : ∀ x, (f x).id = x.id) :
    (s.modCtx i f).ctx? c = (s.ctx? c).map fun x => if c = i then f x else x := by
  have hid : ((fun x : Ctx => x.id == c) ∘ fun x => if x.id == i then f x else x) = fun x => x.id == c := by
    funext x
    simp only [Function.comp_apply]
    split
    · rw [hf]
    · rfl
  simp only [State.ctx?, State.modCtx, List.find?_map, hid]
  cases h : s.ctxs.find? fun x => x.id == c with
  | none => rfl
  | some x =>
    have hx : x.id = c := ctx?_id h
    simp only [Option.map_some, hx, beq_iff_eq]

theorem chargeOf_charge (s : State) (i c : BitVec 32) (f : Nat → Nat) :
    chargeOf ((s.modCtx i fun x => { x with charge := f x.charge }).checkQuota i) c =
      (chargeOf s c).map fun n => if c = i then f n else n := by
  rw [chargeOf_of_charges (charges_checkQuota _ i), chargeOf, ctx?_modCtx_any s i c _ fun _ => by rfl, chargeOf, Option.map_map,
    Option.map_map]
  congr 1
  funext x
  simp only [Function.comp_apply]
  split <;> rfl

theorem chargeOf_chargeAll_unlisted (part b : Nat) (c : BitVec 32) (l : List (BitVec 32 × Nat)) :
    ∀ s : State, l.filter (fun y => y.1 == c) = [] → chargeOf (s.chargeAll part b l) c = chargeOf s c := by
  induction l with
  | nil => exact fun _ _ => rfl
  | cons y rest ih =>
    intro s hl
    obtain ⟨i, k⟩ := y
    rw [List.filter_cons] at hl
    split at hl
    · cases hl
    · next hne =>
      have hci : c ≠ i := fun h => hne (by simp [h])
      rw [State.chargeAll, ih _ hl, chargeOf_charge s i c fun n => min max3232 (n + part * k / b)]
      simp [hci]

theorem chargeOf_chargeAll_listed (part b : Nat) (c : BitVec 32) (k : Nat) (l : List (BitVec 32 × Nat)) :
    ∀ s : State, l.filter (fun y => y.1 == c) = [(c, k)] →
      chargeOf (s.chargeAll part b l) c = (chargeOf s c).map fun n => min max3232 (n + part * k / b) := by
  induction l with
  | nil => intro _ hl; cases hl
  | cons y rest ih =>
    intro s hl
    obtain ⟨i, m⟩ := y
    have hstep := chargeOf_charge s i c fun n => min max3232 (n + part * m / b)
    rw [List.filter_cons] at hl
    split at hl
    · obtain ⟨heq, hrest⟩ := List.cons.inj hl
      cases heq
      rw [State.chargeAll, chargeOf_chargeAll_unlisted part b c rest _ hrest, hstep]
      simp
    · next hne =>
      have hci : c ≠ i := fun h => hne (by simp [h])
      rw [State.chargeAll, ih _ hl, hstep]
      simp [hci]

/-! ## An interval in which no context reaches its quota (17 R361) -/

/-- A state that differs in what its contexts are charged alone. -/
structure Charged (s u : State) : Prop where
  rest : u = { s with ctxs := u.ctxs }
  ctx : ∀ c x, s.ctx? c = some x → ∃ y, u.ctx? c = some y ∧ { y with charge := x.charge, overQuota := x.overQuota } = x

theorem Charged.rfl {s : State} : Charged s s := ⟨by rfl, fun _ x h => ⟨x, h, by rfl⟩⟩

theorem Charged.trans {s u v : State} (h : Charged s u) (h' : Charged u v) : Charged s v where
  rest := by
    have hu := h.rest
    have hv := h'.rest
    rw [hv, hu]
  ctx c x hx := by
    obtain ⟨y, hy, hyx⟩ := h.ctx c x hx
    obtain ⟨z, hz, hzy⟩ := h'.ctx c y hy
    refine ⟨z, hz, ?_⟩
    rw [← hyx, ← hzy]

theorem charged_modCtx (s : State) (i : BitVec 32) (f : Ctx → Ctx)
    (hf : ∀ x, { f x with charge := x.charge, overQuota := x.overQuota } = x) : Charged s (s.modCtx i f) where
  rest := rfl
  ctx c x hx := by
    have hid (x : Ctx) : (f x).id = x.id := by conv_rhs => rw [← hf x]
    refine ⟨if c = i then f x else x, by rw [ctx?_modCtx_any s i c f hid, hx]; rfl, ?_⟩
    split
    · exact hf x
    · rfl

/-- Every context stays below its quota when it is charged up to some part more. -/
def Below (s : State) (n : Nat) : Prop := ∀ c ∈ s.ctxs, c.wquota = 0 ∨ c.charge + n < c.wquota

theorem below_modCtx {s : State} {n m : Nat} {i : BitVec 32} {f : Ctx → Ctx} (h : Below s n) (hm : m ≤ n)
    (hf : ∀ x, (f x).wquota = x.wquota ∧ (f x).charge + m ≤ x.charge + n) : Below (s.modCtx i f) m := by
  intro c hc
  obtain ⟨x, hx, rfl⟩ := List.mem_map.mp hc
  have hold := h x hx
  have hnew := hf x
  split
  · omega
  · omega

theorem below_checkQuota {s : State} {n : Nat} (i : BitVec 32) (h : Below s n) :
    s.checkQuota i = s ∨ s.checkQuota i = s.modCtx i fun c => { c with overQuota := false } := by
  unfold State.checkQuota
  split
  · exact .inl rfl
  · next c hc =>
    have hq := h c (List.mem_of_find?_eq_some hc)
    rw [if_neg (by simp only [Bool.and_eq_true, decide_eq_true_eq]; omega)]
    exact .inr rfl

theorem charged_chargeAll (part b : Nat) (l : List (BitVec 32 × Nat)) :
    ∀ s : State, Below s (part * (l.map Prod.snd).sum / b) → Charged s (s.chargeAll part b l) := by
  induction l with
  | nil => exact fun _ _ => Charged.rfl
  | cons y rest ih =>
    intro s hs
    obtain ⟨i, k⟩ := y
    have hsum : part * k / b + part * (rest.map Prod.snd).sum / b ≤ part * (((i, k) :: rest).map Prod.snd).sum / b := by
      rw [List.map_cons, List.sum_cons, Nat.mul_add]
      exact Nat.div_add_div_le_add_div
    have hcharge := charged_modCtx s i (fun x => { x with charge := min max3232 (x.charge + part * k / b) }) fun _ => by rfl
    have hbelow : Below (s.modCtx i fun x => { x with charge := min max3232 (x.charge + part * k / b) })
        (part * (rest.map Prod.snd).sum / b) :=
      below_modCtx hs ((Nat.le_add_left _ _).trans hsum) fun x => ⟨by rfl, by dsimp only; omega⟩
    rw [State.chargeAll]
    rcases below_checkQuota i hbelow with h | h
    · rw [h]
      exact hcharge.trans (ih _ hbelow)
    · rw [h]
      refine (hcharge.trans (charged_modCtx _ i _ fun _ => by rfl)).trans (ih _ ?_)
      exact below_modCtx hbelow le_rfl fun x => ⟨by rfl, le_rfl⟩

/-! ## What emptying queues leaves (14 R309; 17 R363) -/

/-- A state in which placed queues have been emptied: tiles, clusters and charges are otherwise as before. -/
structure Emptied (s u : State) : Prop where
  charge : charges u = charges s
  tile : ∀ t, u.tile t = { s.tile t with queue := (u.tile t).queue }
  marks : u.pkg.wearMarks = s.pkg.wearMarks
  cycle : u.cycle = s.cycle
  seq : u.pkg.commitSeq = s.pkg.commitSeq
  cluster : ∀ c, u.cluster c = { s.cluster c with retire := (u.cluster c).retire }
  retire : ∀ c, (s.cluster c).retire ≠ .no → (u.cluster c).retire = (s.cluster c).retire

theorem Emptied.refl (s : State) : Emptied s s := ⟨rfl, fun _ => rfl, rfl, rfl, rfl, fun _ => rfl, fun _ _ => rfl⟩

theorem Emptied.trans {s u v : State} (h : Emptied s u) (h' : Emptied u v) : Emptied s v where
  charge := h'.charge.trans h.charge
  tile t := by rw [h'.tile, h.tile]
  marks := h'.marks.trans h.marks
  cycle := h'.cycle.trans h.cycle
  seq := h'.seq.trans h.seq
  cluster c := by rw [h'.cluster, h.cluster]
  retire c hc := by
    have hu := h.retire c hc
    rw [h'.retire c (by rw [hu]; exact hc), hu]

/-- A state with the same tiles, contexts and package. -/
theorem emptied_of_eq {s u : State} (ht : u.tiles = s.tiles) (hc : charges u = charges s) (hp : u.pkg = s.pkg)
    (hn : u.cycle = s.cycle) : Emptied s u where
  charge := hc
  tile t := by rw [State.tile, ht]; rfl
  marks := by rw [hp]
  cycle := hn
  seq := by rw [hp]
  cluster c := by rw [State.cluster, hp]; rfl
  retire c _ := by rw [State.cluster, hp]; rfl

theorem emptied_modTile (s : State) (t : Nat) (f : List Placed → List Placed) :
    Emptied s (s.modTile t fun v => { v with queue := f v.queue }) where
  charge := rfl
  tile m := by
    rw [tile_modTile]
    split
    · next h => rw [h]
    · rfl
  marks := rfl
  cycle := rfl
  seq := rfl
  cluster _ := rfl
  retire _ _ := rfl

theorem emptied_resetLines (ks : List Nat) (s : State) : Emptied s (s.resetLines ks) :=
  have h : s.resetLines ks = { s with mem := _, lines := _ } := linesOnly_resetLines ks s
  emptied_of_eq (by rw [h]) (charges_of_ctxs (by rw [h])) (by rw [h]) (by rw [h])

theorem emptied_supersede (s : State) (ctx : BitVec 32) (t : Option Nat) (ids : List Nat) : Emptied s (s.supersede ctx t ids) :=
  emptied_of_eq rfl (charges_modCtx s ctx _ fun _ => by rfl) rfl rfl

theorem emptied_modRec (s : State) (i j : Nat) (f : Rec → Rec) : Emptied s (s.modRec i j f) := emptied_of_eq rfl rfl rfl rfl

theorem emptied_dropPlaced (s : State) (t : Nat) (p : Placed) : Emptied s (s.dropPlaced t p) :=
  (((emptied_resetLines _ s).trans (emptied_supersede _ _ _ _)).trans (emptied_modTile _ t _)).trans (emptied_of_eq rfl rfl rfl rfl)

theorem emptied_unplaceOne (s : State) (t : Nat) (p : Placed) : Emptied s (s.unplaceOne t p) := by
  unfold State.unplaceOne
  dsimp only
  split
  · exact (emptied_dropPlaced s t p).trans (emptied_modRec _ _ _ _)
  · exact emptied_dropPlaced s t p

theorem emptied_unplaceAll (t : Nat) (l : List Placed) : ∀ s : State, Emptied s (s.unplaceAll t l) := by
  induction l with
  | nil => exact Emptied.refl
  | cons p rest ih => exact fun s => (emptied_unplaceOne s t p).trans (ih _)

theorem emptied_emptyQueues (l : List Nat) : ∀ s : State, Emptied s (s.emptyQueues l) := by
  induction l with
  | nil => exact Emptied.refl
  | cons t rest ih => exact fun s => (emptied_unplaceAll t _ s).trans (ih _)

theorem emptied_checkCluster (s : State) (c : Nat) : Emptied s (s.checkCluster c) := by
  unfold State.checkCluster
  split
  · next h =>
    have hno : (s.cluster c).retire = .no := by
      simp only [Bool.and_eq_true, decide_eq_true_eq] at h
      exact h.1.2
    refine Emptied.trans ?_ (emptied_emptyQueues _ _)
    refine ⟨rfl, fun _ => rfl, rfl, rfl, rfl, fun d => ?_, fun d hd => ?_⟩
    · rw [cluster_modCluster]
      split
      · next h => rw [h]
      · rfl
    · rw [cluster_modCluster, if_neg]
      rintro rfl
      exact hd hno
  · exact Emptied.refl s

theorem emptied_writeLife (s : State) : Emptied s s.writeLife := by
  unfold State.writeLife
  dsimp only
  split <;> exact ⟨rfl, fun _ => rfl, rfl, rfl, rfl, fun _ => rfl, fun _ _ => rfl⟩

/-! ## Transitions of a tile (17 R362, R363) -/

/-- A tile as a transition makes it, with its queue as it was. -/
def turned (s : State) (t : Nat) (st : TileState) : Tile :=
  { s.tile t with
    moved := some (s.origin t, s.cycle)
    state := st, passes := 0, drainedAt := if st = .drained then s.cycle else (s.tile t).drainedAt
    idleEnd := if st = .retired then some (s.cycIdle t) else (s.tile t).idleEnd
    arrays := if st = .quarantined || st = .retired then (s.tile t).arrays.map fun w => { w with valid := false } else (s.tile t).arrays }

/-- A transition takes place, unless the tile is in its state already or changed to a graver one in this very cycle. -/
theorem changeTile_emptied (s : State) (t : Nat) (st : TileState)
    (h : ((s.tile t).state = st || (s.origin t != (s.tile t).state && (s.tile t).state.rank < st.rank)) = false) :
    Emptied (s.setTile t (turned s t st)) (s.changeTile t st) := by
  rw [State.changeTile, h, if_neg Bool.false_ne_true]
  exact ((emptied_unplaceAll t _ _).trans (emptied_checkCluster _ _)).trans (emptied_writeLife _)

end Sys2Proof.Wearing
end

section
/-! The family 17_counters_wear, wear intervals and samples: for O52. -/
namespace Sys2Proof.Wearing
open Machine Laws Contexts Dogs

/-! ## Ageing (17 R362) -/

/-- Ageing changes nothing where the state it comes to is the tile's at the start of the cycle. -/
theorem age_of_aged {s : State} {t : Nat} (h : (s.tile t).aged (s.origin t) = s.origin t) : s.age t = s := if_pos h

/-- What ageing keeps, whatever transition it brings. -/
theorem age_keeps (s : State) (t : Nat) : charges (s.age t) = charges s ∧ (s.age t).pkg.wearMarks = s.pkg.wearMarks ∧
    ((s.age t).tile t).life = (s.tile t).life ∧ ((s.age t).tile t).margin = (s.tile t).margin ∧
    ((s.age t).tile t).prevMargin = (s.tile t).prevMargin ∧ ((s.age t).tile t).af = (s.tile t).af := by
  have hsame : ∀ u : State, u = s → charges u = charges s ∧ u.pkg.wearMarks = s.pkg.wearMarks ∧
      (u.tile t).life = (s.tile t).life ∧ (u.tile t).margin = (s.tile t).margin ∧
      (u.tile t).prevMargin = (s.tile t).prevMargin ∧ (u.tile t).af = (s.tile t).af := by
    rintro u rfl
    exact ⟨rfl, rfl, rfl, rfl, rfl, rfl⟩
  unfold State.age
  dsimp only
  split
  · exact hsame s rfl
  · generalize (s.tile t).aged (s.origin t) = st
    cases hgo : ((s.tile t).state = st || (s.origin t != (s.tile t).state && (s.tile t).state.rank < st.rank) : Bool) with
    | true => exact hsame _ (by rw [State.changeTile, if_pos hgo])
    | false =>
      have h := changeTile_emptied s t st hgo
      have htile := h.tile t
      rw [tile_setTile, if_pos rfl] at htile
      rw [htile]
      exact ⟨h.charge, h.marks, rfl, rfl, rfl, rfl⟩

/-! ## The end of a wear interval (17 R358, R359) -/

theorem rings_checkQuota (s : State) (c : BitVec 32) : RingsOnly s (s.checkQuota c) := by
  unfold State.checkQuota
  split
  · exact RingsOnly.refl s
  · split
    · split
      · exact RingsOnly.refl s
      · exact (rings_modCtx s c _).trans (rings_record _ _ _)
    · exact rings_modCtx s c _

theorem rings_chargeAll (part b : Nat) (l : List (BitVec 32 × Nat)) : ∀ s : State, RingsOnly s (s.chargeAll part b l) := by
  induction l with
  | nil => exact RingsOnly.refl
  | cons y rest ih => exact fun s => ((rings_modCtx s y.1 _).trans (rings_checkQuota _ y.1)).trans (ih _)

/-- A tile at the end of an interval of which some cycles were busy. -/
def wornTile (s : State) (t b part : Nat) : Tile :=
  { s.tile t with
    busy := (s.tile t).busy.filter fun y => y.1 != s.intervals t
    life := min max3232 ((s.tile t).life + part + idleWear (interval - b) (s.tile t).af) }

/-- The state at the end of an interval, before contexts are charged. -/
def worn (s : State) (t b part : Nat) : State :=
  { s.setTile t (wornTile s t b part) with pkg := { s.pkg with wearMarks := kvPut s.pkg.wearMarks t (s.intervals t + 1) } }

theorem tile_of_tiles {s u : State} (h : u.tiles = s.tiles) (t : Nat) : u.tile t = s.tile t := by rw [State.tile, h, State.tile]

theorem worn_tile (s : State) (t b part : Nat) : (worn s t b part).tile t = wornTile s t b part := tile_setTile_same s t _

theorem worn_marks (s : State) (t b part : Nat) : kvGet 0 (worn s t b part).pkg.wearMarks t = s.intervals t + 1 :=
  (kvGet_kvPut 0 s.pkg.wearMarks t t _).trans (if_pos rfl)

theorem chargeOf_worn {s : State} {c : BitVec 32} {x : Ctx} (t b part : Nat) (h : s.ctx? c = some x) :
    chargeOf (worn s t b part) c = some x.charge := by
  have hw : (worn s t b part).ctxs = s.ctxs := rfl
  rw [chargeOf, State.ctx?, hw]
  exact congrArg (Option.map Ctx.charge) h

theorem busyIn_filter {v : Tile} {n k : Nat} {c : BitVec 32}
    (h : v.busy.filter (fun x => x.1 == n && x.2.1 == c) = [(n, c, k)]) : (v.busyIn n).filter (fun y => y.1 == c) = [(c, k)] := by
  rw [Tile.busyIn, List.filter_map, List.filter_filter]
  have hp : (fun a : Nat × BitVec 32 × Nat => ((fun y : BitVec 32 × Nat => y.1 == c) ∘ fun x => x.2) a && a.1 == n) =
      fun x => x.1 == n && x.2.1 == c := by
    funext x
    exact Bool.and_comm _ _
  rw [hp, h]
  rfl

/-- The state at the end of an interval, when contexts have been charged. -/
def billed (s : State) (t b part : Nat) : State := (worn s t b part).chargeAll part b ((s.tile t).busyIn (s.intervals t))

theorem rings_billed (s : State) (t b part : Nat) : RingsOnly (worn s t b part) (billed s t b part) := rings_chargeAll part b _ _

theorem wearInterval_billed (s : State) (t b : Nat) (hb : b = (((s.tile t).busyIn (s.intervals t)).map fun y => y.2).sum) :
    s.wearInterval t = (billed s t b (wearOf b (s.tile t).af)).age t := by
  subst hb
  rfl

theorem billed_tile (s : State) (t b part : Nat) : (billed s t b part).tile t = wornTile s t b part := by
  rw [tile_of_tiles (rings_billed s t b part).tiles, worn_tile]

theorem origin_of_tile {s u : State} {t : Nat} (hm : (u.tile t).moved = (s.tile t).moved) (hs : (u.tile t).state = (s.tile t).state)
    (hn : u.cycle = s.cycle) : u.origin t = s.origin t := by rw [State.origin, hm, hs, hn, State.origin]

theorem billed_origin (s : State) (t b part : Nat) : (billed s t b part).origin t = s.origin t :=
  origin_of_tile (by rw [billed_tile, wornTile]) (by rw [billed_tile, wornTile]) (rings_billed s t b part).cycle

theorem chargeOf_billed {s : State} {c : BitVec 32} {x : Ctx} {t k : Nat} (b part : Nat)
    (hf : (s.tile t).busy.filter (fun x => x.1 == s.intervals t && x.2.1 == c) = [(s.intervals t, c, k)]) (hx : s.ctx? c = some x) :
    chargeOf (billed s t b part) c = some (min max3232 (x.charge + part * k / b)) := by
  rw [billed, chargeOf_chargeAll_listed part b c k _ _ (busyIn_filter hf), chargeOf_worn t b part hx, Option.map_some]

theorem wearInterval_marks (s : State) (t : Nat) : kvGet 0 (s.wearInterval t).pkg.wearMarks t = s.intervals t + 1 := by
  obtain ⟨_, hmarks, _⟩ := age_keeps (billed s t _ (wearOf _ (s.tile t).af)) t
  rw [wearInterval_billed s t _ rfl, hmarks, (rings_billed _ _ _ _).pkg, worn_marks]

theorem wearInterval_life (s : State) (t b : Nat) (hb : b = (((s.tile t).busyIn (s.intervals t)).map fun y => y.2).sum) :
    ((s.wearInterval t).tile t).life = (wornTile s t b (wearOf b (s.tile t).af)).life := by
  obtain ⟨_, _, hlife, _⟩ := age_keeps (billed s t b (wearOf b (s.tile t).af)) t
  rw [wearInterval_billed s t b hb, hlife, billed_tile]

theorem wearInterval_charge {s : State} {t b k : Nat} {c : BitVec 32} {x : Ctx}
    (hb : b = (((s.tile t).busyIn (s.intervals t)).map fun y => y.2).sum)
    (hf : (s.tile t).busy.filter (fun x => x.1 == s.intervals t && x.2.1 == c) = [(s.intervals t, c, k)]) (hx : s.ctx? c = some x) :
    ∃ y, (s.wearInterval t).ctx? c = some y ∧ y.charge = min max3232 (x.charge + wearOf b (s.tile t).af * k / b) := by
  obtain ⟨hcharge, _⟩ := age_keeps (billed s t b (wearOf b (s.tile t).af)) t
  refine chargeOf_eq_some ?_
  rw [wearInterval_billed s t b hb, chargeOf_of_charges hcharge, chargeOf_billed b _ hf hx]

/-- Where no context reaches its quota and no transition is due, the end of an interval changes no more than charges. -/
theorem wearInterval_quiet (s : State) (t b : Nat) (hb : b = (((s.tile t).busyIn (s.intervals t)).map fun y => y.2).sum)
    (hq : Below s (wearOf b (s.tile t).af))
    (ha : (wornTile s t b (wearOf b (s.tile t).af)).aged (s.origin t) = s.origin t) :
    Charged (worn s t b (wearOf b (s.tile t).af)) (s.wearInterval t) := by
  rw [wearInterval_billed s t b hb]
  generalize wearOf b (s.tile t).af = part at hq ha
  rw [age_of_aged (by rw [billed_tile, billed_origin]; exact ha)]
  refine charged_chargeAll part b _ _ fun c hc => ?_
  have hle : part * (((s.tile t).busyIn (s.intervals t)).map Prod.snd).sum / b ≤ part := by
    refine Nat.div_le_of_le_mul ?_
    rw [hb, Nat.mul_comm]
  have := hq c hc
  omega

end Sys2Proof.Wearing
end

section
/-! The family 17_counters_wear, samples, the lifetime record and the clocks of clusters, and O52. -/
namespace Sys2Proof.Wearing
open Machine Laws Contexts Dogs

/-! ## Samples (17 R357) -/

theorem minOf_least (l : List Nat) (h : l ≠ []) : minOf l ∈ l ∧ ∀ x ∈ l, minOf l ≤ x := by
  induction l with
  | nil => exact absurd rfl h
  | cons a rest ih =>
    cases rest with
    | nil => simp [minOf]
    | cons b rest =>
      obtain ⟨hmem, hle⟩ := ih (List.cons_ne_nil b rest)
      have heq : minOf (a :: b :: rest) = min a (minOf (b :: rest)) := rfl
      refine ⟨?_, fun x hx => ?_⟩
      · rcases min_choice a (minOf (b :: rest)) with h | h
        · rw [heq, h]
          exact List.mem_cons_self
        · rw [heq, h]
          exact List.mem_cons_of_mem a hmem
      · rw [heq]
        rcases List.mem_cons.mp hx with rfl | hx
        · exact min_le_left _ _
        · exact (min_le_right _ _).trans (hle x hx)

theorem foldl_max_bounds (l : List Nat) : ∀ a, a ≤ l.foldl max a ∧ (∀ x ∈ l, x ≤ l.foldl max a) ∧ (l.foldl max a = a ∨ l.foldl max a ∈ l) := by
  induction l with
  | nil => simp
  | cons b rest ih =>
    intro a
    obtain ⟨hle, hall, hmem⟩ := ih (max a b)
    rw [List.foldl_cons]
    refine ⟨(le_max_left a b).trans hle, fun x hx => ?_, ?_⟩
    · rcases List.mem_cons.mp hx with rfl | hx
      · exact (le_max_right a x).trans hle
      · exact hall x hx
    · rcases hmem with h | h
      · rcases max_choice a b with hm | hm
        · exact .inl (h.trans hm)
        · exact .inr (by rw [h, hm]; exact List.mem_cons_self)
      · exact .inr (List.mem_cons_of_mem b h)

theorem foldl_max_greatest (l : List Nat) (h : l ≠ []) : l.foldl max 0 ∈ l ∧ ∀ x ∈ l, x ≤ l.foldl max 0 := by
  obtain ⟨_, hall, hmem⟩ := foldl_max_bounds l 0
  refine ⟨?_, hall⟩
  rcases hmem with hzero | hmem
  · obtain ⟨a, rest, rfl⟩ := List.exists_cons_of_ne_nil h
    have ha := hall a List.mem_cons_self
    have : a = (a :: rest).foldl max 0 := by omega
    rw [← this]
    exact List.mem_cons_self
  · exact hmem

/-- A tile when a sample has been taken of it. -/
def sampledTile (s : State) (t : Nat) (bti rates : List Nat) : Tile :=
  { s.tile t with
    sampledAt := s.tileTime t / samplePeriod * samplePeriod
    prevMargin := (s.tile t).margin, margin := minOf bti, af := min 65535 (rates.foldl max 0)
    em0 := BitVec.ofNat 64 (leNat (freeBytes s.free 8)), em1 := BitVec.ofNat 64 (leNat (freeBytes (s.free + 8) 8)) }

theorem exec_monitorSample {s : State} {t : Nat} {bti rates : List Nat} (hr : (s.tile t).state ≠ .retired) (hb : bti.length = 4)
    (hg : rates.length = 6) (hp : (s.tile t).sampledAt + samplePeriod ≤ s.tileTime t) :
    exec (.monitorSample t bti rates) s =
      .next (State.age { s.setTile t (sampledTile s t bti rates) with free := s.free + 16 } t) := by
  have hexec : exec (.monitorSample t bti rates) s = execMonitorSample t bti rates s := rfl
  rw [hexec, execMonitorSample, if_pos (by simp [hr, hb, hg, hp])]
  rfl

theorem exec_monitorSample_early {s : State} {t : Nat} {bti rates : List Nat} (hp : s.tileTime t < (s.tile t).sampledAt + samplePeriod) :
    exec (.monitorSample t bti rates) s = .next s := by
  have hexec : exec (.monitorSample t bti rates) s = execMonitorSample t bti rates s := rfl
  rw [hexec, execMonitorSample, if_neg]
  simp only [Bool.and_eq_true, decide_eq_true_eq]
  omega

theorem sampled_tile (s : State) (t n : Nat) (v : Tile) : State.tile { s.setTile t v with free := n } t = v := tile_setTile_same s t v

theorem sample_ages {s : State} {t : Nat} {v : Tile} (n : Nat) (hm : v.moved = (s.tile t).moved) (hs : v.state = (s.tile t).state)
    (ha : v.aged (s.origin t) = s.origin t) :
    State.age { s.setTile t v with free := n } t = { s.setTile t v with free := n } :=
  have ho : State.origin { s.setTile t v with free := n } t = s.origin t :=
    origin_of_tile (by rw [sampled_tile, hm]) (by rw [sampled_tile, hs]) rfl
  age_of_aged (by rw [sampled_tile, ho, ha])

/-! ## The end of the wait of a DRAINED tile (17 R363) -/

/-- A tile that becomes RETIRED. -/
theorem changeTile_retired_state (s : State) (t : Nat) : ((s.changeTile t .retired).tile t).state = .retired := by
  cases hgo : ((s.tile t).state = .retired || (s.origin t != (s.tile t).state && (s.tile t).state.rank < TileState.retired.rank) : Bool) with
  | true =>
    rw [State.changeTile, if_pos hgo]
    simpa [TileState.rank] using hgo
  | false =>
    have h := (changeTile_emptied s t .retired hgo).tile t
    rw [tile_setTile_same] at h
    rw [h]
    rfl

/-! ## The clocks of clusters (01 R22; 20 R410) -/

theorem setCapped_clusters (l m : List Nat) : ∀ s : State,
    s.setCapped l m = { s with pkg := { s.pkg with clusters := (s.setCapped l m).pkg.clusters } } := by
  induction m with
  | nil => exact fun _ => rfl
  | cons d rest ih =>
    intro s
    rw [State.setCapped]
    exact ih (s.modCluster d fun x => { x with capped := l.contains d })

theorem cluster_setCapped (l m : List Nat) (c : Nat) : ∀ s : State,
    (s.setCapped l m).cluster c = if c ∈ m then { s.cluster c with capped := l.contains c } else s.cluster c := by
  induction m with
  | nil => exact fun _ => rfl
  | cons d rest ih =>
    intro s
    rw [State.setCapped, ih, cluster_modCluster]
    by_cases hd : c = d
    · subst hd
      simp
    · simp [hd]

/-- What the power window lowers: every cluster where it names none and the cap is exceeded. -/
theorem toLower_eq (s : State) (w : Nat) (l : List Nat) (h : (∃ c ∈ l, c < 68) ∨ w ≤ s.pkg.powerCap) : s.toLower w l = l := by
  rw [State.toLower, if_neg]
  simp only [Bool.and_eq_true, decide_eq_true_eq, Bool.not_eq_true', List.any_eq_false, allClusters, List.mem_range]
  rintro ⟨hcap, hnone⟩
  rcases h with ⟨c, hc, hlt⟩ | h
  · exact hnone c hlt (List.contains_iff_mem.mpr hc)
  · omega

theorem toLower_lowers (s : State) (w : Nat) (l : List Nat) (h : s.pkg.powerCap < w) : ∃ c, c < 68 ∧ (s.toLower w l).contains c = true := by
  rw [State.toLower]
  split
  · exact ⟨0, by decide, by decide⟩
  · next hn =>
    simp only [Bool.and_eq_true, decide_eq_true_eq, h, true_and, Bool.not_eq_true', Bool.not_eq_false, List.any_eq_true, allClusters,
      List.mem_range] at hn
    exact hn

/-- The clusters whose lowering a power window may change. -/
def windowed (s : State) (l : List Nat) : List Nat := allClusters.filter fun c => l.contains c || (s.cluster c).capped

theorem capped_setCapped (s : State) (l : List Nat) (c : Nat) (hc : c < 68) :
    ((s.setCapped l (windowed s l)).cluster c).capped = l.contains c := by
  rw [cluster_setCapped]
  split
  · rfl
  · next h =>
    simp only [windowed, allClusters, List.mem_filter, List.mem_range, hc, true_and, Bool.or_eq_true, not_or, Bool.not_eq_true] at h
    rw [h.2, h.1]

/-- A state whose package notes the power of a window. -/
def watched (s : State) (w : Nat) : State := { s with pkg := { s.pkg with watts := w } }

theorem setCapped_keeps (s u : State) (l m : List Nat) (c : Nat) (hu : u.pkg.clusters = s.pkg.clusters) :
    { (u.setCapped l m).cluster c with capped := (s.cluster c).capped } = s.cluster c := by
  have hus : u.cluster c = s.cluster c := by rw [State.cluster, hu, State.cluster]
  rw [cluster_setCapped, hus]
  split <;> rfl

theorem heat_at (h : Heat) (d : Nat) : (105 ≤ d → h.at d = .stopped) ∧ (100 ≤ d → d < 105 → h.at d = .lowered) ∧
    (d < 95 → h.at d = .cool) ∧ (95 ≤ d → d < 100 → (h = .cool → h.at d = .cool) ∧ (h ≠ .cool → h.at d = .lowered)) := by
  refine ⟨fun hd => if_pos hd, fun hlo hhi => ?_, fun hd => ?_, fun hlo hhi => ?_⟩
  · rw [Heat.at, if_neg (by omega), if_pos hlo]
  · rw [Heat.at, if_neg (by omega), if_neg (by omega), if_pos hd]
  · rw [Heat.at, if_neg (by omega), if_neg (by omega), if_neg (by omega)]
    exact ⟨fun h => if_pos h, fun h => if_neg h⟩

/-! ## The lifetime record (17 R369) -/

theorem lifeNow_lists (s : State) (n : Nat) : (s.lifeNow n).valid = true ∧ (s.lifeNow n).count = n ∧ (s.lifeNow n).lcs = s.pkg.lcs ∧
    ∀ m v, (m, v) ∈ s.tiles → ∃ x, (m, x) ∈ (s.lifeNow n).tiles ∧ x.state = v.state ∧ x.life = v.life ∧ x.blame = v.blame ∧
      x.margin = v.margin ∧ x.af = v.af :=
  ⟨rfl, rfl, rfl, fun m v h => ⟨v.lifeData, List.mem_map.mpr ⟨(m, v), h, rfl⟩, rfl, rfl, rfl, rfl, rfl⟩⟩

/-- The record is written to the copy not written last. -/
theorem writeLife_copy (s : State) : ∃ x : LifeRecord,
    s.writeLife = (if s.pkg.lastIsA then { s with pkg := { s.pkg with lifeB := x, lifeAt := some s.cycle } }
      else { s with pkg := { s.pkg with lifeA := x, lifeAt := some s.cycle } }) ∧
    (∀ w, w = (if s.pkg.lastIsA then s.writeLife.pkg.lifeB else s.writeLife.pkg.lifeA) → w.valid = true ∧
      w.count = max s.pkg.lifeA.count s.pkg.lifeB.count + 1 ∧ w.lcs = s.pkg.lcs ∧
      ∀ n v, (n, v) ∈ s.tiles → ∃ x, (n, x) ∈ w.tiles ∧ x.state = v.state ∧ x.life = v.life ∧ x.blame = v.blame ∧
        x.margin = v.margin ∧ x.af = v.af) ∧
    (s.pkg.lastIsA = true → s.writeLife.pkg.lifeA = s.pkg.lifeA) ∧ (s.pkg.lastIsA = false → s.writeLife.pkg.lifeB = s.pkg.lifeB) := by
  have hlist := lifeNow_lists s (max s.pkg.lifeA.count s.pkg.lifeB.count + 1)
  refine ⟨s.lifeNow (max s.pkg.lifeA.count s.pkg.lifeB.count + 1), ?_⟩
  have heq : s.writeLife = (if s.pkg.lastIsA then
      { s with pkg := { s.pkg with lifeB := s.lifeNow (max s.pkg.lifeA.count s.pkg.lifeB.count + 1), lifeAt := some s.cycle } }
    else { s with pkg := { s.pkg with lifeA := s.lifeNow (max s.pkg.lifeA.count s.pkg.lifeB.count + 1), lifeAt := some s.cycle } }) := rfl
  refine ⟨heq, ?_⟩
  rw [heq]
  generalize s.lifeNow (max s.pkg.lifeA.count s.pkg.lifeB.count + 1) = l at hlist
  cases s.pkg.lastIsA with
  | true => exact ⟨fun w hw => by rw [hw]; exact hlist, fun _ => rfl, fun h => (Bool.noConfusion h)⟩
  | false => exact ⟨fun w hw => by rw [hw]; exact hlist, fun h => (Bool.noConfusion h), fun _ => rfl⟩

/-! ## The statement -/

theorem exec_wearIntervalEnd {s : State} {t : Nat} (hr : (s.tile t).state ≠ .retired)
    (hi : (s.intervals t + 1) * interval ≤ s.tileTime t) : exec (.wearIntervalEnd t) s = .next (s.wearInterval t) := by
  have hexec : exec (.wearIntervalEnd t) s = execWearIntervalEnd t s := rfl
  rw [hexec, execWearIntervalEnd, if_pos (by simp [hr, hi])]

theorem exec_wearIntervalEnd_early {s : State} {t : Nat} (hi : s.tileTime t < (s.intervals t + 1) * interval) :
    exec (.wearIntervalEnd t) s = .next s := by
  have hexec : exec (.wearIntervalEnd t) s = execWearIntervalEnd t s := rfl
  rw [hexec, execWearIntervalEnd, if_neg]
  simp only [Bool.and_eq_true, decide_eq_true_eq]
  omega

/-- What a quiet interval changes, part by part. -/
theorem charged_parts {s u : State} {t b part : Nat} (h : Charged (worn s t b part) u) :
    u.tile t = wornTile s t b part ∧ (∀ m, m ≠ t → u.tile m = s.tile m) ∧ u.mem = s.mem ∧ u.lines = s.lines ∧ u.insts = s.insts ∧
      u.fab = s.fab ∧ u.dies = s.dies ∧ u.out = s.out ∧
      u.pkg = { s.pkg with wearMarks := kvPut s.pkg.wearMarks t (s.intervals t + 1) } := by
  have htiles : u.tiles = (worn s t b part).tiles := by rw [h.rest]
  refine ⟨by rw [tile_of_tiles htiles, worn_tile], fun m hm => ?_, by rw [h.rest]; rfl, by rw [h.rest]; rfl, by rw [h.rest]; rfl,
    by rw [h.rest]; rfl, by rw [h.rest]; rfl, by rw [h.rest]; rfl, by rw [h.rest]; rfl⟩
  rw [tile_of_tiles htiles]
  exact (tile_setTile s t m _).trans (if_neg hm)

theorem busy_sum (v : Tile) (n : Nat) : ((v.busyIn n).map fun y => y.2).sum = ((v.busy.filter fun x => x.1 == n).map fun x => x.2.2).sum := by
  rw [Tile.busyIn, List.map_map]
  rfl

theorem sample_result (s : State) (t : Nat) (v : Tile) (n : Nat) :
    ((State.age { s.setTile t v with free := n } t).tile t).margin = v.margin ∧
      ((State.age { s.setTile t v with free := n } t).tile t).prevMargin = v.prevMargin ∧
      ((State.age { s.setTile t v with free := n } t).tile t).af = v.af := by
  obtain ⟨_, _, _, hm, hp, ha⟩ := age_keeps { s.setTile t v with free := n } t
  rw [hm, hp, ha, sampled_tile]
  exact ⟨rfl, rfl, rfl⟩

/-- Settles O52: an interval is a tile's wear, then charges, then ageing; where no quota is reached and no transition is due the last
two change charges alone. -/
theorem wearAndClocks : Obligations.WearAndClocks := by
  unfold Obligations.WearAndClocks
  refine ⟨⟨?_, ?_, ?_, ?_, ?_, ?_, ?_⟩, ?_, ?_, ?_⟩
  · intro t s n hr hn hi
    have hb := busy_sum (s.tile t) n
    subst hn
    refine ⟨s.wearInterval t, _, _, wornTile s t _ (wearOf _ (s.tile t).af), exec_wearIntervalEnd hr hi, rfl, rfl, wearInterval_marks s t,
      fun c k x hf hx => wearInterval_charge hb.symm hf hx, rfl, wearInterval_life s t _ hb.symm, fun hq ha => ?_⟩
    have hch := wearInterval_quiet s t _ hb.symm hq ha
    obtain ⟨htile, hother, hmem, hlines, hinsts, hfab, hdies, hout, hpkg⟩ := charged_parts hch
    exact ⟨htile, hother, hmem, hlines, hinsts, hfab, hdies, hout, hpkg, fun c x hx => hch.ctx c x hx⟩
  · exact fun t s hi => exec_wearIntervalEnd_early hi
  · exact fun t bti rates s hp => exec_monitorSample_early hp
  · intro t bti rates s hr hb hg hp
    obtain ⟨hm, hle⟩ := minOf_least bti (by rintro rfl; cases hb)
    obtain ⟨hmax, hge⟩ := foldl_max_greatest rates (by rintro rfl; cases hg)
    obtain ⟨hmargin, hprev, haf⟩ := sample_result s t (sampledTile s t bti rates) (s.free + 16)
    exact ⟨_, sampledTile s t bti rates, minOf bti, rates.foldl max 0, exec_monitorSample hr hb hg hp, hm, hle, hmax, hge, rfl, hmargin,
      hprev, haf, fun ha => sample_ages (s.free + 16) rfl rfl ha⟩
  · intro t s hd hrun hp
    have hexec : exec (.drainedTimeout t) s = .next (s.drainedOver t) := rfl
    refine ⟨s.changeTile t .retired, ?_, changeTile_retired_state s t⟩
    rw [hexec, State.drainedOver, if_pos (by simp only [hd, hrun, Option.isNone_none, Bool.and_true, decide_true, decide_eq_true hp])]
  · intro t s hp
    have hexec : exec (.drainedTimeout t) s = .next (s.drainedOver t) := rfl
    rw [hexec, State.drainedOver, if_neg]
    simp only [Bool.and_eq_true, decide_eq_true_eq]
    omega
  · intro s
    obtain ⟨x, heq, hw, hA, hB⟩ := writeLife_copy s
    exact ⟨s.writeLife, x, rfl, heq, hw, hA, hB⟩
  · exact fun c d s => ⟨(s.cluster c).heat.at d, rfl, heat_at _ d⟩
  · intro w l s
    have hexec : exec (.powerCapWindow w l) s =
        .next ((watched s w).setCapped (s.toLower w l) (windowed (watched s w) (s.toLower w l))) := rfl
    refine ⟨_, _, hexec, setCapped_clusters _ _ _, fun c => setCapped_keeps s _ _ _ c rfl, fun h c hc => ?_, fun h => ?_⟩
    · rw [capped_setCapped _ _ c hc, toLower_eq s w l h]
    · obtain ⟨c, hc, hl⟩ := toLower_lowers s w l h
      exact ⟨c, hc, by rw [capped_setCapped _ _ c hc, hl]⟩
  · intro c s hidle htest
    have hexec : exec (.clusterClockGate c) s = execClusterClockGate c s := rfl
    rw [hexec, execClusterClockGate]
    refine ⟨fun h => ?_, fun h => ?_⟩
    · rw [if_pos (by simp only [hidle, htest, Bool.not_false, Bool.and_true, decide_eq_true h])]
    · rw [if_neg]
      simp only [Bool.and_eq_true, decide_eq_true_eq]
      omega

end Sys2Proof.Wearing
end

section
/-! The family 17_counters_wear and 18_faults_reliability, tests and the retirement of clusters: O53. -/
namespace Sys2Proof.Testing
open Machine Laws Contexts Dogs Wearing

/-! ## Emptied queues (18 R383) -/

theorem tile_dropPlaced (s : State) (t m : Nat) (p : Placed) : (s.dropPlaced t p).tile m = if m = t then
    { s.tile t with queue := (s.tile t).queue.filter fun q => !(q.inst == p.inst && q.idx == p.idx && q.twin == p.twin) }
    else s.tile m := by
  have htiles : (s.dropPlaced t p).tiles = (s.modTile t fun v =>
      { v with queue := v.queue.filter fun q => !(q.inst == p.inst && q.idx == p.idx && q.twin == p.twin) }).tiles := by
    simp only [State.dropPlaced, State.supersede, State.modTile, State.setTile, State.tile, modCtx_tiles, (linesOnly_resetLines _ _).tiles]
  rw [tile_of_tiles htiles, tile_modTile]

theorem tile_unplaceOne (s : State) (t m : Nat) (p : Placed) : (s.unplaceOne t p).tile m = (s.dropPlaced t p).tile m := by
  unfold State.unplaceOne
  dsimp only
  split <;> rfl

/-- What one entry's removal leaves of the queues. -/
theorem mem_queue_unplaceOne {s : State} {t m : Nat} {p q : Placed} (h : q ∈ ((s.unplaceOne t p).tile m).queue) :
    q ∈ (s.tile m).queue ∧ (m = t → q ≠ p) := by
  rw [tile_unplaceOne, tile_dropPlaced] at h
  split at h
  · next hm =>
    obtain ⟨hq, hne⟩ := List.mem_filter.mp h
    exact ⟨hm ▸ hq, fun _ hp => by simp [hp] at hne⟩
  · next hm => exact ⟨h, fun h => absurd h hm⟩

theorem mem_queue_unplaceAll {t m : Nat} {q : Placed} (l : List Placed) : ∀ s : State,
    q ∈ ((s.unplaceAll t l).tile m).queue → q ∈ (s.tile m).queue ∧ (m = t → q ∉ l) := by
  induction l with
  | nil => exact fun _ h => ⟨h, fun _ => List.not_mem_nil⟩
  | cons p rest ih =>
    intro s h
    obtain ⟨hone, hrest⟩ := ih _ h
    obtain ⟨hq, hp⟩ := mem_queue_unplaceOne hone
    refine ⟨hq, fun hm hmem => ?_⟩
    rcases List.mem_cons.mp hmem with h | h
    · exact hp hm h
    · exact hrest hm h

/-- An emptied queue is empty, whatever else is emptied before and after it. -/
theorem queue_emptyQueues {t : Nat} (l : List Nat) : ∀ s : State, t ∈ l ∨ (s.tile t).queue = [] → ((s.emptyQueues l).tile t).queue = [] := by
  induction l with
  | nil => exact fun s h => h.resolve_left List.not_mem_nil
  | cons m rest ih =>
    intro s h
    rw [State.emptyQueues]
    refine ih _ ?_
    have hsub {q : Placed} (hq : q ∈ ((s.emptyQueue m).tile t).queue) := mem_queue_unplaceAll _ s hq
    by_cases hm : t = m
    · exact .inr (List.eq_nil_iff_forall_not_mem.mpr fun q hq => (hsub hq).2 hm (hm ▸ (hsub hq).1))
    · rcases h with h | h
      · exact .inl ((List.mem_cons.mp h).resolve_left hm)
      · exact .inr (List.eq_nil_iff_forall_not_mem.mpr fun q hq => by simpa [h] using (hsub hq).1)

theorem testDue_emptyQueues (s : State) (l : List Nat) (c : Nat) : ((s.emptyQueues l).cluster c).testDue = (s.cluster c).testDue := by
  rw [(emptied_emptyQueues l s).cluster c]

/-! ## The scan of a cluster (18 R383) -/

theorem scanTiles_pkg (l : List Nat) : ∀ s : State, (s.scanTiles l).pkg = s.pkg := by
  induction l with
  | nil => exact fun _ => rfl
  | cons t rest ih => exact fun s => ih _

theorem scanTile_tile (s : State) (t m : Nat) : (s.scanTile t).tile m =
    if m = t then { s.tile t with acc := [], arrays := (s.tile t).arrays.map fun w => { w with valid := false } } else s.tile m :=
  tile_modTile _ t m _

/-- What the scan leaves of a tile: its accumulators and arrays are clear when it is scanned or they were before. -/
theorem scanTiles_clear {t : Nat} (l : List Nat) : ∀ s : State,
    t ∈ l ∨ ((s.tile t).acc = [] ∧ ∀ w ∈ (s.tile t).arrays, w.valid = false) →
    ((s.scanTiles l).tile t).acc = [] ∧ ∀ w ∈ ((s.scanTiles l).tile t).arrays, w.valid = false := by
  induction l with
  | nil => exact fun s h => h.resolve_left List.not_mem_nil
  | cons m rest ih =>
    intro s h
    rw [State.scanTiles]
    refine ih _ ?_
    rw [scanTile_tile]
    split
    · refine .inr ⟨rfl, fun w hw => ?_⟩
      obtain ⟨x, _, rfl⟩ := List.mem_map.mp hw
      rfl
    · next hm => exact h.imp (fun h => (List.mem_cons.mp h).resolve_left hm) id

theorem scanTiles_state (l : List Nat) (t : Nat) : ∀ s : State, ((s.scanTiles l).tile t).state = (s.tile t).state := by
  induction l with
  | nil => exact fun _ => rfl
  | cons m rest ih =>
    intro s
    rw [State.scanTiles, ih, scanTile_tile]
    split
    · next h => rw [h]
    · rfl

/-! ## Tests of tiles (17 R363) -/

/-- A state in which some tiles may have changed; the others have no more than their queues emptied. -/
structure Elsewhere (l : List Nat) (s u : State) : Prop where
  tile : ∀ t, t ∉ l → u.tile t = { s.tile t with queue := (u.tile t).queue }
  cycle : u.cycle = s.cycle
  seq : u.pkg.commitSeq = s.pkg.commitSeq
  cluster : ∀ c, u.cluster c = { s.cluster c with retire := (u.cluster c).retire }
  retire : ∀ c, (s.cluster c).retire ≠ .no → (u.cluster c).retire = (s.cluster c).retire

theorem Elsewhere.tests {l : List Nat} {s u : State} (h : Elsewhere l s u) (c : Nat) : (u.cluster c).inTest = (s.cluster c).inTest ∧
    (u.cluster c).lastPass = (s.cluster c).lastPass ∧ (u.cluster c).passCommit = (s.cluster c).passCommit ∧
    (u.cluster c).history = (s.cluster c).history := by
  rw [h.cluster c]
  exact ⟨rfl, rfl, rfl, rfl⟩

theorem Elsewhere.of_emptied {l : List Nat} {s u : State} (h : Emptied s u) : Elsewhere l s u :=
  ⟨fun t _ => h.tile t, h.cycle, h.seq, h.cluster, h.retire⟩

theorem Elsewhere.mono {l m : List Nat} {s u : State} (h : Elsewhere l s u) (hl : ∀ t ∈ l, t ∈ m) : Elsewhere m s u :=
  { h with tile := fun t ht => h.tile t fun hm => ht (hl t hm) }

theorem Elsewhere.trans {l : List Nat} {s u v : State} (h : Elsewhere l s u) (h' : Elsewhere l u v) : Elsewhere l s v where
  tile t ht := by rw [h'.tile t ht, h.tile t ht]
  cycle := h'.cycle.trans h.cycle
  seq := h'.seq.trans h.seq
  cluster c := by rw [h'.cluster, h.cluster]
  retire c hc := by
    have hu := h.retire c hc
    rw [h'.retire c (by rw [hu]; exact hc), hu]

theorem elsewhere_setTile (s : State) (t : Nat) (v : Tile) : Elsewhere [t] s (s.setTile t v) where
  tile m hm := by
    rw [tile_setTile, if_neg (by simpa using hm)]
  cycle := rfl
  seq := rfl
  cluster _ := rfl
  retire _ _ := rfl

theorem elsewhere_changeTile (s : State) (t : Nat) (st : TileState) : Elsewhere [t] s (s.changeTile t st) := by
  cases hgo : ((s.tile t).state = st || (s.origin t != (s.tile t).state && (s.tile t).state.rank < st.rank) : Bool) with
  | true =>
    rw [State.changeTile, if_pos hgo]
    exact .of_emptied (.refl s)
  | false => exact (elsewhere_setTile s t _).trans (.of_emptied (changeTile_emptied s t st hgo))

theorem elsewhere_tileFailed (s : State) (t : Nat) : Elsewhere [t] s (s.tileFailed t) := by
  unfold State.tileFailed
  cases s.origin t with
  | normal => exact elsewhere_changeTile s t _
  | derated => exact elsewhere_changeTile s t _
  | quarantined => exact elsewhere_changeTile s t _
  | drained => exact .of_emptied (.refl s)
  | retired => exact .of_emptied (.refl s)

theorem elsewhere_tilePassed (s : State) (t : Nat) : Elsewhere [t] s (s.tilePassed t) := by
  unfold State.tilePassed
  dsimp only
  split
  · split
    · exact (elsewhere_setTile s t _).trans (elsewhere_changeTile _ t _)
    · exact elsewhere_setTile s t _
  · exact .of_emptied (.refl s)

/-- The test of one tile. -/
def tested (s : State) (failed : BitVec 16) (t : Nat) : State :=
  if failed.getLsbD (tileIndex t) then s.tileFailed t else s.tilePassed t

theorem elsewhere_tested (s : State) (failed : BitVec 16) (t : Nat) : Elsewhere [t] s (tested s failed t) := by
  unfold tested
  split
  · exact elsewhere_tileFailed s t
  · exact elsewhere_tilePassed s t

theorem testTiles_cons (s : State) (failed : BitVec 16) (t : Nat) (rest : List Nat) :
    s.testTiles failed (t :: rest) = (tested s failed t).testTiles failed rest := rfl

theorem elsewhere_testTiles (failed : BitVec 16) (l : List Nat) : ∀ s : State, Elsewhere l s (s.testTiles failed l) := by
  induction l with
  | nil => exact fun s => .of_emptied (.refl s)
  | cons t rest ih =>
    intro s
    rw [testTiles_cons]
    exact ((elsewhere_tested s failed t).mono fun m hm => by simp_all).trans ((ih _).mono fun m hm => List.mem_cons_of_mem t hm)

/-- A transition that nothing of the same cycle goes before. -/
theorem changeTile_state {s : State} {t : Nat} {st : TileState} (ho : s.origin t = (s.tile t).state) :
    ((s.changeTile t st).tile t).state = st := by
  by_cases hst : (s.tile t).state = st
  · rw [State.changeTile, if_pos (by simp [hst]), hst]
  · have h := (changeTile_emptied s t st (by simp [hst, ho])).tile t
    rw [tile_setTile_same] at h
    rw [h]
    rfl

/-- A RETIRED tile stays so in every test. -/
theorem changeTile_keeps_retired {s : State} {t : Nat} (st : TileState) (hs : (s.tile t).state = .retired)
    (ho : s.origin t ≠ .retired) : s.changeTile t st = s := by
  rw [State.changeTile, if_pos]
  cases st <;> simp [hs, ho, TileState.rank]

theorem tested_keeps_retired {s : State} (failed : BitVec 16) (t m : Nat) (hs : (s.tile m).state = .retired) :
    ((tested s failed t).tile m).state = .retired := by
  by_cases hm : m = t
  · subst hm
    unfold tested
    split
    · unfold State.tileFailed
      split
      · next ho => rw [changeTile_keeps_retired _ hs (by rw [ho]; decide), hs]
      · next ho => rw [changeTile_keeps_retired _ hs (by rw [ho]; decide), hs]
      · exact changeTile_retired_state s m
      · exact hs
      · exact hs
    · unfold State.tilePassed
      dsimp only
      split
      · next ho =>
        have hpass : ((s.modTile m fun v => { v with passes := v.passes + 1 }).tile m).state = .retired := by
          rw [tile_modTile_same]
          exact hs
        have hpo : (s.modTile m fun v => { v with passes := v.passes + 1 }).origin m = s.origin m :=
          origin_of_tile (by rw [tile_modTile_same]) (by rw [tile_modTile_same]) rfl
        split
        · rw [changeTile_keeps_retired _ hpass (by rw [hpo, ho]; decide), hpass]
        · exact hpass
      · exact hs
  · have h := (elsewhere_tested s failed t).tile m (by simpa using hm)
    rw [h]
    exact hs

theorem testTiles_keeps_retired (failed : BitVec 16) (m : Nat) (l : List Nat) : ∀ s : State, (s.tile m).state = .retired →
    ((s.testTiles failed l).tile m).state = .retired := by
  induction l with
  | nil => exact fun _ h => h
  | cons t rest ih => exact fun s h => ih _ (tested_keeps_retired failed t m h)

/-- The state of a tile that has failed its test (17 R363). -/
def failedState (st : TileState) : TileState :=
  match st with
  | .normal => .quarantined
  | .derated => .quarantined
  | .quarantined => .retired
  | .drained => .drained
  | .retired => .retired

theorem tileFailed_state {s : State} {t : Nat} (ho : s.origin t = (s.tile t).state) :
    ((s.tileFailed t).tile t).state = failedState (s.tile t).state := by
  unfold State.tileFailed
  rw [ho]
  cases hs : (s.tile t).state with
  | normal => exact changeTile_state ho
  | derated => exact changeTile_state ho
  | quarantined => exact changeTile_state ho
  | drained => exact hs
  | retired => exact hs

theorem testTiles_failed {failed : BitVec 16} {t : Nat} (hf : failed.getLsbD (tileIndex t) = true) (l : List Nat) : ∀ s : State,
    l.Nodup → t ∈ l → s.origin t = (s.tile t).state →
    ((s.testTiles failed l).tile t).state = failedState (s.tile t).state := by
  induction l with
  | nil => exact fun _ _ h => absurd h List.not_mem_nil
  | cons m rest ih =>
    intro s hl ht ho
    obtain ⟨hm, hrest⟩ := List.nodup_cons.mp hl
    rw [testTiles_cons]
    by_cases hmt : t = m
    · subst hmt
      rw [(elsewhere_testTiles failed rest _).tile t hm]
      have htested : tested s failed t = s.tileFailed t := if_pos hf
      rw [htested]
      exact tileFailed_state ho
    · have hkeep := elsewhere_tested s failed m
      have htile := hkeep.tile t (by simpa using hmt)
      rw [ih _ hrest ((List.mem_cons.mp ht).resolve_left hmt), htile]
      · rw [origin_of_tile (by rw [htile]) (by rw [htile]) hkeep.cycle, ho, htile]

/-! ## The tiles a test finds failing (18 R383) -/

/-- A sum of distinct powers of two has the bits of its terms. -/
theorem sum_pows (p : Nat → Bool) (n : Nat) : ((List.range n).map fun i => if p i then 2 ^ i else 0).sum < 2 ^ n ∧
    ∀ j, ((List.range n).map fun i => if p i then 2 ^ i else 0).sum.testBit j = (decide (j < n) && p j) := by
  induction n with
  | zero => simp
  | succ n ih =>
    obtain ⟨hlt, hbit⟩ := ih
    rw [List.range_succ, List.map_append, List.sum_append, List.map_singleton, List.sum_singleton, Nat.add_comm]
    generalize ((List.range n).map fun i => if p i then 2 ^ i else 0).sum = x at hlt hbit
    have hsum : (if p n then 2 ^ n else 0) + x < 2 ^ (n + 1) := by
      rw [Nat.pow_succ]
      split <;> omega
    refine ⟨hsum, fun j => ?_⟩
    rcases Nat.lt_trichotomy j n with hj | rfl | hj
    · have hp : ((if p n then 2 ^ n else 0) + x).testBit j = x.testBit j := by
        split
        · exact Nat.testBit_two_pow_add_gt hj x
        · rw [Nat.zero_add]
      rw [hp, hbit]
      simp [hj, Nat.lt_succ_of_lt hj]
    · have hx : x.testBit j = false := Nat.testBit_lt_two_pow hlt
      cases hpj : p j with
      | true => simp [Nat.testBit_two_pow_add_eq, hx]
      | false => simp [hx]
    · rw [Nat.testBit_lt_two_pow (hsum.trans_le (Nat.pow_le_pow_right (by decide) hj))]
      simp [show ¬ j < n + 1 by omega]

theorem mem_clusterTiles {c t : Nat} : t ∈ clusterTiles c ↔ ∃ i, i < 16 ∧ 16 * c + i = t := by simp [clusterTiles]

theorem clusterTiles_nodup (c : Nat) : (clusterTiles c).Nodup := by
  refine List.Nodup.map (fun i j h => ?_) List.nodup_range
  omega

/-- A RETIRED tile is not tested. -/
theorem testMask_bit {s : State} {c t : Nat} (failed : BitVec 16) (ht : t ∈ clusterTiles c) :
    (s.testMask c failed).getLsbD (tileIndex t) = (failed.getLsbD (tileIndex t) && (s.tile t).state != .retired) := by
  obtain ⟨i, hi, rfl⟩ := mem_clusterTiles.mp ht
  have hidx (j : Nat) (hj : j < 16) : tileIndex (16 * c + j) = j := by
    rw [tileIndex]
    omega
  have hsum : ((clusterTiles c).map fun t => if failed.getLsbD (tileIndex t) && (s.tile t).state != .retired then 2 ^ tileIndex t else 0).sum =
      ((List.range 16).map fun j => if failed.getLsbD j && (s.tile (16 * c + j)).state != .retired then 2 ^ j else 0).sum := by
    rw [clusterTiles, List.map_map]
    refine congrArg List.sum (List.map_congr_left fun j hj => ?_)
    rw [Function.comp_apply, hidx j (List.mem_range.mp hj)]
  rw [State.testMask, hsum, hidx i hi, BitVec.getLsbD_ofNat, (sum_pows _ 16).2]
  simp [hi]

/-! ## The suspect interval changes rings and contexts alone (18 R385) -/

theorem rings_suspectEntries (l : List History) : ∀ s : State, RingsOnly s (s.suspectEntries l) := by
  induction l with
  | nil => exact RingsOnly.refl
  | cons h rest ih => exact fun s => (rings_record s _ _).trans (ih _)

theorem rings_suspectAll (c : Nat) (l : List History) (ids : List (BitVec 32)) : ∀ s : State, RingsOnly s (s.suspectAll c l ids) := by
  induction ids with
  | nil => exact RingsOnly.refl
  | cons i rest ih => exact fun s => ((rings_record s _ _).trans (rings_suspectEntries _ _)).trans (ih _)

theorem rings_suspect (s : State) (c : Nat) (failed : BitVec 16) (shared : Bool) : RingsOnly s (s.suspect c failed shared) :=
  rings_suspectAll c _ _ s

/-! ## The result of a test (18 R383, R385) -/

theorem failShared_keeps (s : State) (c : Nat) : (∀ t, ((s.failShared c).tile t).state = (s.tile t).state) ∧
    ∀ d, ((s.failShared c).cluster d).inTest = (s.cluster d).inTest := by
  unfold State.failShared
  split
  · have h := emptied_emptyQueues (clusterTiles c) (s.modCluster c fun x => { x with retire := .shared })
    refine ⟨fun t => ?_, fun d => ?_⟩
    · rw [h.tile t]
      rfl
    · rw [h.cluster d, cluster_modCluster]
      split
      · next hd => rw [hd]
      · rfl
  · exact ⟨fun _ => rfl, fun _ => rfl⟩

/-- The state in which the tiles of a cluster are tested: the test is over, and a test passed or reported. -/
def reported (s : State) (c : Nat) (m : BitVec 16) (shared : Bool) : State :=
  let u := s.modCluster c fun x => { x with inTest := false }
  if m = 0 && !shared then
    u.modCluster c fun x => { x with lastPass := u.cycle, passCommit := u.pkg.commitSeq, history := [], truncated := false }
  else u.suspect c m shared

theorem exec_infieldTestResult {s : State} {c : Nat} (failed : BitVec 16) (shared : Bool) (ht : (s.cluster c).inTest = true) :
    exec (.infieldTestResult c failed shared) s =
      .next (if shared then
          ((reported s c (s.testMask c failed) shared).testTiles (s.testMask c failed) (clusterTiles c)).failShared c
        else (reported s c (s.testMask c failed) shared).testTiles (s.testMask c failed) (clusterTiles c)) := by
  have hexec : exec (.infieldTestResult c failed shared) s = execInfieldTestResult c failed shared s := rfl
  rw [hexec, execInfieldTestResult, ht, Bool.not_true, if_neg Bool.false_ne_true]
  dsimp only
  unfold reported
  dsimp only
  split
  · next h =>
    have hs : shared = false := by
      simp only [Bool.and_eq_true, Bool.not_eq_true'] at h
      exact h.2
    rw [hs, if_neg Bool.false_ne_true]
  · rfl

theorem reported_tile (s : State) (c : Nat) (m : BitVec 16) (shared : Bool) (t : Nat) : (reported s c m shared).tile t = s.tile t := by
  unfold reported
  dsimp only
  split
  · rfl
  · exact tile_of_tiles (rings_suspect _ c m shared).tiles t

theorem reported_cycle (s : State) (c : Nat) (m : BitVec 16) (shared : Bool) : (reported s c m shared).cycle = s.cycle := by
  unfold reported
  dsimp only
  split
  · rfl
  · exact (rings_suspect _ c m shared).cycle

theorem reported_inTest (s : State) (c : Nat) (m : BitVec 16) (shared : Bool) : ((reported s c m shared).cluster c).inTest = false := by
  unfold reported
  dsimp only
  split
  · simp [cluster_modCluster]
  · rw [State.cluster, (rings_suspect _ c m shared).pkg]
    exact congrArg Cluster.inTest ((cluster_modCluster s c c _).trans (if_pos rfl))

theorem reported_pass (s : State) (c : Nat) : (reported s c 0 false).cluster c =
    { s.cluster c with inTest := false, lastPass := s.cycle, passCommit := s.pkg.commitSeq, history := [], truncated := false } := by
  unfold reported
  simp [cluster_modCluster]
  rfl

/-! ## Retirement (17 R366) -/

theorem changeTiles_retire {t : Nat} (l : List Nat) : ∀ s : State, t ∈ l ∨ (s.tile t).state = .retired →
    ((s.changeTiles .retired l).tile t).state = .retired := by
  induction l with
  | nil => exact fun s h => h.resolve_left List.not_mem_nil
  | cons m rest ih =>
    intro s h
    rw [State.changeTiles]
    refine ih _ ?_
    by_cases hm : t = m
    · subst hm
      exact .inr (changeTile_retired_state s t)
    · refine h.imp (fun h => (List.mem_cons.mp h).resolve_left hm) fun h => ?_
      rw [(elsewhere_changeTile s m .retired).tile t (by simpa using hm)]
      exact h

/-- A tile's state and a cluster's retirement, once begun, outlast what puts the spare in a cluster's place. -/
def Retired (c : Nat) (s : State) : Prop := (s.cluster c).retire = .retired ∧ ∀ t ∈ clusterTiles c, (s.tile t).state = .retired

theorem Retired.of_parts {c : Nat} {s u : State} (h : Retired c s) (ht : u.tiles = s.tiles) (hc : u.pkg.clusters = s.pkg.clusters) :
    Retired c u := by
  refine ⟨?_, fun t hmem => ?_⟩
  · rw [State.cluster, hc]
    exact h.1
  · rw [tile_of_tiles ht]
    exact h.2 t hmem

theorem rings_tellShrink (id : Nat) (l : List Ctx) : ∀ s : State, RingsOnly s (s.tellShrink id l) := by
  induction l with
  | nil => exact RingsOnly.refl
  | cons c rest ih => exact fun s => (rings_record s _ _).trans (ih _)

/-- A package that has one logical id less, before its contexts are told. -/
def shrunk (s : State) (id : Nat) : State :=
  { s with pkg := { s.pkg with map := s.pkg.map.modify id fun m => { m with pres := false }, topogen := s.pkg.topogen + 1 } }

theorem retired_shrink {c : Nat} {s : State} (id : Nat) (h : Retired c s) : Retired c (s.shrink id) := by
  have hr : RingsOnly (shrunk s id) (s.shrink id) := rings_tellShrink id s.ctxs _
  refine h.of_parts hr.tiles ?_
  rw [hr.pkg]
  rfl

theorem retired_testTiles {c : Nat} {s : State} (failed : BitVec 16) (l : List Nat) (h : Retired c s) :
    Retired c (s.testTiles failed l) := by
  refine ⟨?_, fun t ht => testTiles_keeps_retired failed t l s (h.2 t ht)⟩
  rw [(elsewhere_testTiles failed l s).retire c (by rw [h.1]; decide), h.1]

theorem retired_scanTiles {c : Nat} {s : State} (l : List Nat) (h : Retired c s) : Retired c (s.scanTiles l) := by
  refine ⟨?_, fun t ht => by rw [scanTiles_state]; exact h.2 t ht⟩
  rw [State.cluster, scanTiles_pkg]
  exact h.1

theorem retired_replace {c : Nat} {s : State} (id : Nat) (spareFailed : BitVec 16) (h : Retired c s) :
    Retired c (s.replace c id spareFailed) := by
  unfold State.replace
  dsimp only
  split
  · exact retired_shrink id h
  · have htest := retired_testTiles spareFailed (clusterTiles (spareOf (c / 17))) (retired_scanTiles (clusterTiles (spareOf (c / 17))) h)
    split
    · exact htest.of_parts rfl rfl
    · exact retired_shrink id (htest.of_parts rfl rfl)

theorem retired_modCluster {c : Nat} {s : State} (h : ∀ t ∈ clusterTiles c, (s.tile t).state = .retired) :
    Retired c (s.modCluster c fun x => { x with retire := .retired }) := by
  refine ⟨?_, h⟩
  rw [cluster_modCluster, if_pos rfl]

theorem retired_writeLife {c : Nat} {s : State} (h : Retired c s) : Retired c s.writeLife := by
  have hlife := emptied_writeLife s
  refine ⟨?_, fun t ht => ?_⟩
  · rw [hlife.retire c (by rw [h.1]; decide), h.1]
  · rw [hlife.tile t]
    exact h.2 t ht

theorem retired_retireCluster (s : State) (c : Nat) (spareFailed : BitVec 16) : Retired c (s.retireCluster c spareFailed) := by
  have htiles : ∀ t ∈ clusterTiles c, ((s.changeTiles .retired (clusterTiles c)).tile t).state = .retired := fun t ht =>
    changeTiles_retire _ s (.inl ht)
  rw [State.retireCluster]
  generalize s.changeTiles .retired (clusterTiles c) = u at htiles
  exact retired_writeLife (retired_replace _ spareFailed (retired_modCluster htiles))

/-! ## The statement -/

theorem infieldTestStart_clauses (c : Nat) (s : State) (hin : s.inService c = true) (ht : (s.cluster c).inTest = false)
    (hr : (s.cluster c).retire = .no) :
    (s.idleCluster c = true →
      ∃ u, exec (.infieldTestStart c) s = .next u ∧ (u.cluster c).inTest = true ∧
        ∀ t ∈ clusterTiles c, (u.tile t).acc = [] ∧ ∀ w ∈ (u.tile t).arrays, w.valid = false) ∧
    (s.idleCluster c = false → (s.cluster c).testDue = false → (s.cluster c).lastPass + 2 ^ 32 ≤ s.cycle →
      ∃ u, exec (.infieldTestStart c) s = .next u ∧ (u.cluster c).testDue = true ∧ ∀ t ∈ clusterTiles c, (u.tile t).queue = []) ∧
    (s.idleCluster c = false → s.cycle < (s.cluster c).lastPass + 2 ^ 32 → exec (.infieldTestStart c) s = .next s) := by
  have hexec : exec (.infieldTestStart c) s = execInfieldTestStart c s := rfl
  have hgo : (!s.inService c || (s.cluster c).inTest || (s.cluster c).retire != .no) = false := by rw [hin, ht, hr]; rfl
  rw [hexec, execInfieldTestStart, hgo, if_neg Bool.false_ne_true]
  refine ⟨fun hidle => ?_, fun hidle hdue hp => ?_, fun hidle hp => ?_⟩
  · rw [if_pos hidle]
    refine ⟨_, rfl, ?_, fun t ht => scanTiles_clear _ _ (.inl ht)⟩
    rw [State.cluster, scanTiles_pkg]
    exact congrArg Cluster.inTest ((cluster_modCluster s c c _).trans (if_pos rfl))
  · rw [hidle, if_neg Bool.false_ne_true, hdue, if_pos (by rw [decide_eq_true hp]; rfl)]
    refine ⟨_, rfl, ?_, fun t ht => queue_emptyQueues _ _ (.inl ht)⟩
    rw [testDue_emptyQueues, cluster_modCluster, if_pos rfl]
  · rw [hidle, if_neg Bool.false_ne_true, if_neg]
    simp only [Bool.and_eq_true, decide_eq_true_eq]
    omega

theorem infieldTestResult_clauses (c : Nat) (failed : BitVec 16) (shared : Bool) (s : State) (ht : (s.cluster c).inTest = true)
    (ho : ∀ t ∈ clusterTiles c, s.origin t = (s.tile t).state) :
    ∃ u, exec (.infieldTestResult c failed shared) s = .next u ∧ (u.cluster c).inTest = false ∧
      (∀ t ∈ clusterTiles c, failed.getLsbD (tileIndex t) = true →
        ((s.tile t).state = .normal ∨ (s.tile t).state = .derated → (u.tile t).state = .quarantined) ∧
        ((s.tile t).state = .quarantined → (u.tile t).state = .retired)) ∧
      (failed = 0 → shared = false → (u.cluster c).lastPass = s.cycle ∧ (u.cluster c).passCommit = s.pkg.commitSeq ∧
        (u.cluster c).history = []) := by
  rw [exec_infieldTestResult failed shared ht]
  have htest := elsewhere_testTiles (s.testMask c failed) (clusterTiles c) (reported s c (s.testMask c failed) shared)
  have hstate : ∀ t ∈ clusterTiles c, failed.getLsbD (tileIndex t) = true → (s.tile t).state ≠ .retired →
      (((reported s c (s.testMask c failed) shared).testTiles (s.testMask c failed) (clusterTiles c)).tile t).state =
        failedState (s.tile t).state := by
    intro t hmem hf hret
    have hbit : (s.testMask c failed).getLsbD (tileIndex t) = true := by rw [testMask_bit failed hmem, hf]; simp [hret]
    have htile := reported_tile s c (s.testMask c failed) shared t
    rw [testTiles_failed hbit _ _ (clusterTiles_nodup c) hmem, htile]
    rw [origin_of_tile (by rw [htile]) (by rw [htile]) (reported_cycle _ _ _ _), htile]
    exact ho t hmem
  have hin : (((reported s c (s.testMask c failed) shared).testTiles (s.testMask c failed) (clusterTiles c)).cluster c).inTest = false := by
    obtain ⟨hin, _⟩ := htest.tests c
    rw [hin, reported_inTest]
  have hzero : failed = 0 → s.testMask c failed = 0 := by
    rintro rfl
    simp [State.testMask]
  generalize hv : (reported s c (s.testMask c failed) shared).testTiles (s.testMask c failed) (clusterTiles c) = v at *
  have hkeep := failShared_keeps v c
  refine ⟨_, rfl, ?_, fun t hmem hf => ?_, fun hf hs => ?_⟩
  · split
    · rw [hkeep.2, hin]
    · exact hin
  · have hst : ((if shared then v.failShared c else v).tile t).state = (v.tile t).state := by
      split
      · exact hkeep.1 t
      · rfl
    rw [hst]
    refine ⟨?_, fun h => ?_⟩
    · rintro (h | h)
      · rw [hstate t hmem hf (by rw [h]; decide), h]
        rfl
      · rw [hstate t hmem hf (by rw [h]; decide), h]
        rfl
    · rw [hstate t hmem hf (by rw [h]; decide), h]
      rfl
  · obtain ⟨_, hpass, hcommit, hhist⟩ := htest.tests c
    rw [hzero hf, hs, reported_pass] at hpass hcommit hhist
    rw [hs, if_neg Bool.false_ne_true]
    exact ⟨hpass, hcommit, hhist⟩

/-- Settles O53: a transition of one tile leaves the states of the others and of clusters, so each tile of a test or of a retirement
ends as its own transition left it. -/
theorem testsAndRetirement : Obligations.TestsAndRetirement := by
  unfold Obligations.TestsAndRetirement
  refine ⟨fun c s => infieldTestStart_clauses c s, fun c failed shared s ht => ?_, fun c failed shared s => infieldTestResult_clauses c failed shared s,
    fun c failed s hr => ?_, fun c failed s hr hn => ?_⟩
  · have hexec : exec (.infieldTestResult c failed shared) s = execInfieldTestResult c failed shared s := rfl
    rw [hexec, execInfieldTestResult, ht, Bool.not_false, if_pos rfl]
  · have hexec : exec (.clusterRetire c failed) s = execClusterRetire c failed s := rfl
    rw [hexec, execClusterRetire]
    rcases hr with hr | ⟨hr, hn⟩
    · rw [hr]
      exact ⟨_, rfl, retired_retireCluster _ c failed⟩
    · rw [hr]
      dsimp only
      rw [if_pos hn]
      exact ⟨_, rfl, retired_retireCluster s c failed⟩
  · have hexec : exec (.clusterRetire c failed) s = execClusterRetire c failed s := rfl
    rw [hexec, execClusterRetire, hr]
    dsimp only
    rw [hn, if_neg Bool.false_ne_true]

end Sys2Proof.Testing
end

section
/-! The family 19_host_pod_security, reads and writes of the host: O56. A write of several lines finds each line where memory then has it;
one that selects a context on its way reaches bank memory that the state before it did not name. -/
namespace Sys2Proof.HostWrites
open Machine Laws MatrixUnit Lines

/-! ## The state and the write -/

/-- A machine just reset whose context 0 has bank memory; no port has selected it. -/
def unselected : State := { State.reset with ctxs := [{ id := 0, bank := [(0, 1)] }] }

/-- The address at which port 0 selects a context. -/
def selector : Nat := areaBase 0 + 0x80

/-- The word that selects context 0, and ones up to the first byte of the selected bank memory. -/
def longWrite : List Byte := [0, 0, 0, 0, 1, 0, 0, 0] ++ List.replicate (2 ^ 62 + 1 - selector - 8) 1

theorem selector_eq : selector = 0xFF0000080 := rfl

theorem longWrite_length : longWrite.length = 2 ^ 62 + 1 - selector := by
  rw [longWrite, List.length_append, List.length_replicate, selector_eq]
  rfl

theorem longWrite_drop_take {b n : Nat} (hb : 8 ≤ b) (hn : b + n ≤ longWrite.length) : (longWrite.drop b).take n = List.replicate n 1 := by
  rw [longWrite_length] at hn
  rw [longWrite, List.drop_append, List.drop_of_length_le (by simpa using hb), List.nil_append, List.drop_replicate, List.take_replicate]
  congr 1
  simp only [List.length_cons, List.length_nil]
  omega

theorem longWrite_take : longWrite.take 128 = [0, 0, 0, 0, 1, 0, 0, 0] ++ List.replicate 120 1 := by
  rw [longWrite, List.take_append, List.take_of_length_le (by decide), List.take_replicate, selector_eq]
  rfl

/-! ## Where the host's addresses stand -/

theorem hostLoc_hbm {s : State} {a l : Nat} (ha : a < 2 ^ 61) (h : s.hostLoc 0 (BitVec.ofNat 64 a) = some l) : l = a := by
  have hnat : (BitVec.ofNat 64 a).toNat = a := by rw [BitVec.toNat_ofNat, Nat.mod_eq_of_lt (by omega)]
  have hsp : bitsAt (BitVec.ofNat 64 a) 61 3 = 0 := by rw [bitsAt, hnat]; omega
  have hpa : bitsAt (BitVec.ofNat 64 a) 0 61 = a := by rw [bitsAt, hnat]; omega
  unfold State.hostLoc at h
  simp only [hsp, hpa] at h
  split at h
  · cases h
  · rw [← Option.some.inj h]
    simp [locOf, spHbm]

theorem hostLoc_ddr {s : State} {a l : Nat} (hlo : 2 ^ 61 ≤ a) (hhi : a < 2 ^ 62) (h : s.hostLoc 0 (BitVec.ofNat 64 a) = some l) :
    2 ^ 96 ≤ l ∧ l < 2 ^ 96 + 2 ^ 61 := by
  have hnat : (BitVec.ofNat 64 a).toNat = a := by rw [BitVec.toNat_ofNat, Nat.mod_eq_of_lt (by omega)]
  have hsp : bitsAt (BitVec.ofNat 64 a) 61 3 = 1 := by rw [bitsAt, hnat]; omega
  have hpa : bitsAt (BitVec.ofNat 64 a) 0 61 < 2 ^ 61 := Nat.mod_lt _ (by decide)
  unfold State.hostLoc at h
  simp only [hsp] at h
  split at h
  · cases h
  · rw [← Option.some.inj h]
    simp only [locOf, spDdr]
    omega

/-- Where bank memory of context 0 begins. -/
def bankStart : Nat := locOf spBank 0 0 0

theorem bankStart_eq : bankStart = 2 ^ 97 := by decide

theorem hostLoc_bank (s : State) : s.hostLoc 0 (BitVec.ofNat 64 (2 ^ 62)) =
    match s.selected 0 with
    | some c => if c.hasBank 0 then some (locOf spBank 0 c.id.toNat 0) else none
    | none => none := by
  have hsp : bitsAt (BitVec.ofNat 64 (2 ^ 62)) 61 3 = 2 := by decide
  have hpa : bitsAt (BitVec.ofNat 64 (2 ^ 62)) 0 61 = 0 := by decide
  unfold State.hostLoc
  simp only [hsp, hpa]
  cases s.selected 0 with
  | none => rfl
  | some c => simp

/-! ## The write, line by line -/

/-- A state in which port 0 has selected context 0, the contexts being as at first. -/
structure Chosen (u : State) : Prop where
  sound : Sound u
  ctxs : u.ctxs = unselected.ctxs
  word : u.mem.value selector 8 = 2 ^ 32

theorem Chosen.foreign {u : State} (h : Chosen u) (p n l : Nat) : u.foreign p n l = false := by
  simp [State.foreign, State.foreignOwner, h.ctxs, unselected]

theorem Chosen.hostLoc {u : State} (h : Chosen u) : u.hostLoc 0 (BitVec.ofNat 64 (2 ^ 62)) = some bankStart := by
  have hsel : u.selected 0 = some { id := 0, bank := [(0, 1)] } := by
    have hw : u.mem.value (locOf spHbm 0 0 (areaBase 0 + 0x80)) 8 = 2 ^ 32 := by
      have hloc : locOf spHbm 0 0 (areaBase 0 + 0x80) = selector := by decide
      rw [hloc, h.word]
    rw [State.selected, hw, if_pos (by decide), State.ctx?, h.ctxs]
    rfl
  rw [hostLoc_bank, hsel]
  decide

theorem value_congr {m m' : Memory} (a : Nat) : ∀ n : Nat, (∀ b, a ≤ b → b < a + n → m'.read b = m.read b) → m'.value a n = m.value a n := by
  intro n h
  rw [Memory.value, Memory.value]
  congr 1
  induction n generalizing a with
  | zero => rfl
  | succ n ih =>
    rw [Memory.bytes, Memory.bytes, h a (Nat.le_refl a) (by omega), ih (a + 1) fun b hlo hhi => h b (by omega) (by omega)]

/-- One line of the write. -/
def wroteLine (s : State) (b n : Nat) : State :=
  match s.hostLoc 0 (BitVec.ofNat 64 b) with
  | none => s.refuse1 (.chrolu 0)
  | some l =>
    if s.foreign 0 0 l then s.refuse1 (.chrolu 0) else s.storeFor 0 l ((longWrite.drop (b - selector)).take n) false

theorem hostWriteParts_cons (s : State) (b n : Nat) (rest : List (Nat × Nat)) :
    s.hostWriteParts 0 0 selector longWrite ((b, n) :: rest) = (wroteLine s b n).hostWriteParts 0 0 selector longWrite rest := rfl

theorem chosen_wroteLine {u : State} {b n : Nat} (h : Chosen u) (hlo : selector + 128 ≤ b) (hhi : b + n ≤ 2 ^ 62) (hn : 0 < n) :
    Chosen (wroteLine u b n) := by
  have hsel := selector_eq
  unfold wroteLine
  split
  · exact ⟨⟨h.sound.canonical, h.sound.good⟩, h.ctxs, h.word⟩
  · next l hl =>
    rw [h.foreign, if_neg Bool.false_ne_true]
    have hst := storedAt_storeFor 0 ((longWrite.drop (b - selector)).take n) false h.sound (Arrivals.absentLoc_of_hostLoc hl)
    refine ⟨hst.sound, ?_, ?_⟩
    · rw [congrArg State.ctxs hst.rest]
      exact h.ctxs
    · have hl' : selector + 8 ≤ l := by
        by_cases hb : b < 2 ^ 61
        · rw [hostLoc_hbm hb hl]
          omega
        · have := hostLoc_ddr (by omega) (by omega) hl
          omega
      rw [← h.word, hst.mem]
      exact value_congr selector 8 fun c _ hc => read_writes_out h.sound.canonical.1 (.inl (by omega))

/-- From the line after the selecting word on, the write reaches the selected bank memory. -/
theorem read_bankStart (f : Nat) : ∀ (u : State) (b n : Nat), Chosen u → selector + 128 ≤ b → b ≤ 2 ^ 62 → b + n = 2 ^ 62 + 1 → n < f →
    (u.hostWriteParts 0 0 selector longWrite (cutLines b n f)).mem.read bankStart = 1 := by
  have hsel := selector_eq
  induction f with
  | zero => exact fun _ _ n _ _ _ _ h => absurd h (Nat.not_lt_zero n)
  | succ f ih =>
    intro u b n h hlo hhi hsum hf
    rw [cutLines, if_neg (by omega)]
    dsimp only
    rw [hostWriteParts_cons]
    by_cases hlast : b = 2 ^ 62
    · subst hlast
      have hn : n = 1 := by omega
      have hk : min n (128 - 2 ^ 62 % 128) = 1 := by omega
      have hrest : cutLines (2 ^ 62 + 1) (n - 1) f = [] := by
        rw [hn]
        cases f <;> rfl
      have hdata : (longWrite.drop (2 ^ 62 - selector)).take 1 = [1] :=
        longWrite_drop_take (by omega) (by rw [longWrite_length]; omega)
      have hst := storedAt_storeFor 0 [1] false h.sound (Arrivals.absentLoc_of_hostLoc h.hostLoc)
      rw [hk, hrest, State.hostWriteParts, wroteLine, h.hostLoc]
      dsimp only
      rw [h.foreign, if_neg Bool.false_ne_true, hdata, hst.mem, read_writes _ _ _ h.sound.canonical.1]
      simp
    · have hk : b + min n (128 - b % 128) ≤ 2 ^ 62 := by omega
      exact ih _ _ _ (chosen_wroteLine h hlo hk (by omega)) (by omega) hk (by omega) (by omega)

theorem sound_unselected : Sound unselected := ⟨by decide, fun _ => rfl⟩

theorem chosen_first : Chosen (wroteLine unselected selector 128) := by
  have hloc : unselected.hostLoc 0 (BitVec.ofNat 64 selector) = some selector := by decide
  have hown : unselected.foreign 0 0 selector = false := rfl
  have hst := storedAt_storeFor 0 (longWrite.take 128) false sound_unselected (Arrivals.absentLoc_of_hostLoc hloc)
  have hline : wroteLine unselected selector 128 = unselected.storeFor 0 selector (longWrite.take 128) false := by
    rw [wroteLine, hloc]
    dsimp only
    rw [hown, if_neg Bool.false_ne_true, Nat.sub_self, List.drop_zero]
  rw [hline]
  refine ⟨hst.sound, (congrArg State.ctxs hst.rest).trans rfl, ?_⟩
  have hread (i : Nat) (hi : i < 8) : (unselected.storeFor 0 selector (longWrite.take 128) false).mem.read (selector + i) =
      (([0, 0, 0, 0, 1, 0, 0, 0] : List Byte)[i]?).getD 0 := by
    rw [hst.mem, read_writes _ _ _ sound_unselected.canonical.1, longWrite_take, if_pos (by simp; omega), Nat.add_sub_cancel_left,
      List.getElem?_append_left (by simpa using hi)]
  have h0 := hread 0 (by decide)
  have h1 := hread 1 (by decide)
  have h2 := hread 2 (by decide)
  have h3 := hread 3 (by decide)
  have h4 := hread 4 (by decide)
  have h5 := hread 5 (by decide)
  have h6 := hread 6 (by decide)
  have h7 := hread 7 (by decide)
  simp only [Memory.value, Memory.bytes, Nat.add_zero, Nat.add_assoc, Nat.reduceAdd] at h0 h1 h2 h3 h4 h5 h6 h7 ⊢
  rw [h0, h1, h2, h3, h4, h5, h6, h7]
  decide

/-- Lines of the write that the state before it places lie below bank memory. -/
theorem below_bankStart {f : Nat} : ∀ b n : Nat, b + n ≤ 2 ^ 62 + 1 → ∀ x ∈ cutLines b n f, x.1 ≤ 2 ^ 62 ∧ x.2 ≤ 128 := by
  induction f with
  | zero => exact fun _ _ _ _ h => absurd h List.not_mem_nil
  | succ f ih =>
    intro b n hsum x hx
    rw [cutLines] at hx
    split at hx
    · exact absurd hx List.not_mem_nil
    · dsimp only at hx
      rcases List.mem_cons.mp hx with rfl | hx
      · dsimp only
        omega
      · exact ih _ _ (by omega) x hx

theorem hostLoc_unselected {a l : Nat} (ha : a ≤ 2 ^ 62) (h : unselected.hostLoc 0 (BitVec.ofNat 64 a) = some l) : l + 128 ≤ bankStart := by
  rw [bankStart_eq]
  by_cases hb : a < 2 ^ 61
  · rw [hostLoc_hbm hb h]
    omega
  · by_cases hd : a < 2 ^ 62
    · have := hostLoc_ddr (by omega) hd h
      omega
    · have heq : a = 2 ^ 62 := by omega
      subst heq
      rw [hostLoc_bank, show unselected.selected 0 = none by rfl] at h
      cases h

theorem cutLines_longWrite (n : Nat) (hn : n = 2 ^ 62 + 1 - selector) :
    cutLines selector n (n + 1) = (selector, 128) :: cutLines (selector + 128) (n - 128) n := by
  have hsel := selector_eq
  have hk : min n (128 - selector % 128) = 128 := by omega
  rw [cutLines, if_neg (by omega)]
  dsimp only
  rw [hk]

/-- The state that the write leaves. -/
def written : State := unselected.hostStore 0 0 (BitVec.ofNat 64 selector) longWrite

theorem toNat_selector : (BitVec.ofNat 64 selector).toNat = selector := by decide

theorem exec_longWrite : exec (.hostWrite 0 0 (BitVec.ofNat 64 selector) longWrite) unselected = .next written := by
  have harm : exec (.hostWrite 0 0 (BitVec.ofNat 64 selector) longWrite) unselected =
      execHostWrite 0 0 (BitVec.ofNat 64 selector) longWrite unselected := rfl
  have hc : unselected.carries (.chrolu 0) = true := by decide
  rw [harm, execHostWrite, if_pos hc, written]

theorem read_written : written.mem.read bankStart = 1 := by
  have hsel := selector_eq
  have hlen := longWrite_length
  rw [written, State.hostStore, toNat_selector]
  generalize longWrite.length = n at hlen
  rw [cutLines_longWrite n hlen, hostWriteParts_cons]
  exact read_bankStart n _ _ _ chosen_first (Nat.le_refl _) (by omega) (by omega) (by omega)

theorem longWrite_unnamed : ∀ x ∈ cutLines (BitVec.ofNat 64 selector).toNat longWrite.length (longWrite.length + 1), ∀ l,
    unselected.hostLoc 0 (BitVec.ofNat 64 x.1) = some l → bankStart < l ∨ l + x.2 ≤ bankStart := by
  have hlen := longWrite_length
  have hsel := selector_eq
  rw [toNat_selector]
  generalize longWrite.length = n at hlen
  intro x hx l hl
  obtain ⟨hle, hshort⟩ := below_bankStart selector n (by omega) x hx
  have := hostLoc_unselected hle hl
  exact .inr (by omega)

/-- Refutes O56: a write of the host that selects context 0 in its first line and goes on for 2^62 bytes stores its last byte in that
context's bank memory, which the state before the write does not name at any address of the write. -/
theorem not_hostMemory : ¬ Obligations.HostMemory := by
  unfold Obligations.HostMemory
  rintro ⟨-, -, -, -, -, -, hwrite⟩
  obtain ⟨u, hexec, -, -, hframe⟩ := hwrite 0 0 (BitVec.ofNat 64 selector) longWrite unselected (by decide) sound_unselected.good
    sound_unselected.canonical
  have hu : written = u := Host.Outcome.next.inj (exec_longWrite.symm.trans hexec)
  have hsame := hframe bankStart longWrite_unnamed
  rw [← hu, read_written] at hsame
  exact absurd hsame (by decide)

end Sys2Proof.HostWrites
end

section
/-! The family 19_host_pod_security, sessions, the port lock and links: O58. A message of the exchange changes its own end and sends one
message; a command on a port changes that port. -/
namespace Sys2Proof.Sessions
open Machine Laws

/-! ## An end and its messages (19 R393) -/

theorem conn_setConn (s : State) (c : SpdmConn) : (s.setConn c).conn c.side = c := by
  have hnone : (s.pkg.conns.filter fun x => x.side != c.side).find? (fun x => x.side == c.side) = none := by
    rw [List.find?_eq_none]
    intro x hx
    simpa using (List.mem_filter.mp hx).2
  simp [State.conn, State.setConn, List.find?_append, hnone]

theorem conn_side (s : State) (x : SpdmEnd) : (s.conn x).side = x := by
  rw [State.conn]
  cases h : s.pkg.conns.find? fun c => c.side == x with
  | none => rfl
  | some c => simpa using List.find?_some h

theorem respond_ok (s : State) (x : SpdmEnd) (m : SpdmMsg) (bs : List Byte) :
    s.respond x m true bs = { s with out := .spdm x m true bs :: s.out } := by cases x <;> rfl

theorem respond_answers (s : State) (p : PortSel) (m : SpdmMsg) (ok : Bool) (bs : List Byte) :
    s.respond (.answers p) m ok bs = { s with out := .spdm (.answers p) m ok bs :: s.out } := by cases ok <;> rfl

/-- An expected message of the exchange changes its end and leaves. -/
theorem negotiate_ready {x : SpdmEnd} (s : State) (m : SpdmMsg) (f : SpdmConn → SpdmConn) (hx : realEnd x = true)
    (hf : (f (s.conn x)).side = x) : ((s.negotiate x m true f).conn x = f (s.conn x)) ∧
      (s.negotiate x m true f).out = .spdm x m true [] :: s.out := by
  rw [State.negotiate, if_pos hx, if_pos rfl, respond_ok]
  refine ⟨?_, rfl⟩
  have h := conn_setConn s (f (s.conn x))
  rw [hf] at h
  exact h

/-- An unexpected one changes nothing. -/
theorem negotiate_early {x : SpdmEnd} (s : State) (m : SpdmMsg) (f : SpdmConn → SpdmConn) (hx : realEnd x = true) :
    s.negotiate x m false f = s.respond x m false [] := by rw [State.negotiate, if_pos hx]; rfl

/-! ## Numbers of sessions -/

/-- Among n + 1 numbers one is not taken by n sessions. -/
theorem freshSession_fresh (s : State) : ∀ y ∈ s.pkg.sessions, y.id ≠ s.freshSession := by
  rw [State.freshSession]
  cases h : (List.range (s.pkg.sessions.length + 1)).find? fun i => !s.pkg.sessions.any fun x => x.id == i + 1 with
  | some i =>
    intro y hy heq
    have hfree := List.find?_some h
    simp only [Bool.not_eq_true', List.any_eq_false] at hfree
    exact hfree y hy (by simpa using heq)
  | none =>
    exfalso
    have hall : ∀ i < s.pkg.sessions.length + 1, i + 1 ∈ s.pkg.sessions.map Session.id := by
      intro i hi
      have := List.find?_eq_none.mp h i (List.mem_range.mpr hi)
      simp only [Bool.not_eq_true', Bool.not_eq_false, List.any_eq_true] at this
      obtain ⟨x, hx, hid⟩ := this
      exact List.mem_map.mpr ⟨x, hx, by simpa using hid⟩
    have hsub : ((List.range (s.pkg.sessions.length + 1)).map (· + 1)).Subperm (s.pkg.sessions.map Session.id) := by
      refine List.subperm_of_subset (List.Nodup.map (fun a b h => by simpa using h) List.nodup_range) fun n hn => ?_
      obtain ⟨i, hi, rfl⟩ := List.mem_map.mp hn
      exact hall i (List.mem_range.mp hi)
    have := hsub.length_le
    simp only [List.length_map, List.length_range] at this
    omega

/-! ## The exchange of an end -/

/-- What leaves as algorithms are agreed on: the responder's answer names its choice. -/
def choiceSent (x : SpdmEnd) : List Out :=
  match x with
  | .answers _ => [.chosen x {}, .spdm x .algorithms true []]
  | .asks _ => [.spdm x .algorithms true []]

section Exchange

variable {x : SpdmEnd} (s : State) (hx : realEnd x = true)
include hx

theorem getVersion_restarts : ∃ u, exec (.getVersion x) s = .next u ∧ (u.conn x).version = true ∧ (u.conn x).caps = false ∧
    (u.conn x).algs = none ∧ u.out = .spdm x .version true [] :: s.out := by
  obtain ⟨hconn, hout⟩ := negotiate_ready s .version (fun c => { side := c.side, version := true }) hx (conn_side s x)
  exact ⟨_, rfl, by rw [hconn], by rw [hconn], by rw [hconn], hout⟩

theorem getCapabilities_ready (hv : (s.conn x).version = true) : ∃ u, exec (.getCapabilities x) s = .next u ∧ (u.conn x).caps = true ∧
    u.out = .spdm x .capabilities true [] :: s.out := by
  have hexec : exec (.getCapabilities x) s = .next (s.negotiate x .capabilities (s.conn x).version fun c => { c with caps := true }) := rfl
  obtain ⟨hconn, hout⟩ := negotiate_ready s .capabilities (fun c => { c with caps := true }) hx (conn_side s x)
  rw [hv] at hexec
  exact ⟨_, hexec, by rw [hconn], hout⟩

theorem getCapabilities_early (hv : (s.conn x).version = false) :
    exec (.getCapabilities x) s = .next (s.respond x .capabilities false []) := by
  have hexec : exec (.getCapabilities x) s = .next (s.negotiate x .capabilities (s.conn x).version fun c => { c with caps := true }) := rfl
  rw [hexec, hv, negotiate_early s _ _ hx]

theorem negotiateAlgorithms_ready {o : SpdmOffer} (ho : o.side = x) (hc : (s.conn x).caps = true)
    (hsuite : (o.hash && o.sign && o.exchange && o.aead) = true) :
    ∃ u, exec (.negotiateAlgorithms o) s = .next u ∧ (u.conn x).algs = some {} ∧ u.out = choiceSent x ++ s.out := by
  have hexec : exec (.negotiateAlgorithms o) s = execNegotiateAlgorithms o s := rfl
  obtain ⟨hconn, hout⟩ := negotiate_ready s .algorithms (fun c => { c with algs := some {} }) hx (conn_side s x)
  rw [hexec, execNegotiateAlgorithms]
  simp only [ho, hc, chooseSuite, hsuite, if_true]
  refine ⟨_, rfl, ?_⟩
  generalize s.negotiate x .algorithms true (fun c => { c with algs := some {} }) = t at hconn hout
  cases x with
  | answers p =>
    simp only [hx, if_true]
    exact ⟨congrArg SpdmConn.algs hconn, by rw [hout]; rfl⟩
  | asks p => exact ⟨congrArg SpdmConn.algs hconn, by rw [hout]; rfl⟩

theorem negotiateAlgorithms_early {o : SpdmOffer} (ho : o.side = x)
    (hno : ((s.conn x).caps && (o.hash && o.sign && o.exchange && o.aead)) = false) :
    exec (.negotiateAlgorithms o) s = .next (s.respond x .algorithms false []) := by
  subst ho
  have hexec : exec (.negotiateAlgorithms o) s = execNegotiateAlgorithms o s := rfl
  have hnone : (if (s.conn o.side).caps then chooseSuite o else none) = none := by
    rw [chooseSuite]
    cases hc : (s.conn o.side).caps with
    | false => rfl
    | true =>
      rw [hc, Bool.true_and] at hno
      simp [hno]
  rw [hexec, execNegotiateAlgorithms]
  simp only [hnone]
  rw [negotiate_early s _ _ hx]

theorem keyExchange_opens (ha : (s.conn x).algs.isSome = true) (hlen : s.pkg.sessions.length < 64) :
    ∃ u n, exec (.keyExchange x) s = .next u ∧ u.pkg.sessions = s.pkg.sessions ++ [{ id := n, side := x, suite := (s.conn x).algs.getD {} }] ∧
      (∀ y ∈ s.pkg.sessions, y.id ≠ n) ∧ n ≠ 0 := by
  have hexec : exec (.keyExchange x) s = execKeyExchange x s := rfl
  have hok : ((s.conn x).algs.isSome && decide (s.pkg.sessions.length < sessionLimit)) = true := by
    rw [ha, Bool.true_and]
    exact decide_eq_true hlen
  rw [hexec, execKeyExchange, if_pos hx]
  simp only [hok, if_true, respond_ok]
  exact ⟨_, s.freshSession, rfl, rfl, freshSession_fresh s, Nat.succ_ne_zero _⟩

theorem getMeasurements_ready (n : BitVec 256) (ha : (s.conn x).algs.isSome = true) :
    ∃ u bs, exec (.getMeasurements x n) s = .next u ∧ u.out = .spdm x .measurements true bs :: s.out ∧
      bs.take 32 = toBytes n.toNat 32 ∧ u.mem = s.mem := by
  have hexec : exec (.getMeasurements x n) s = execGetMeasurements x n s := rfl
  have hlen : (toBytes n.toNat 32).length = 32 := length_toBytes _ _
  rw [hexec]
  unfold execGetMeasurements
  rw [if_pos hx, if_pos ha]
  cases x with
  | answers p =>
    refine ⟨_, _, rfl, rfl, ?_, rfl⟩
    simp only [State.attestation, State.reportBody, List.append_assoc]
    rw [List.take_append_of_le_length (by omega), List.take_of_length_le (by omega)]
  | asks p => exact ⟨_, _, rfl, rfl, List.take_of_length_le (by omega), rfl⟩

/-- Once algorithms are agreed on, every message of the exchange is answered. -/
theorem agreed_clauses (ha : (s.conn x).algs.isSome = true) :
    (∃ u, exec (.getDigests x) s = .next u ∧ u.out = .spdm x .digests true [] :: s.out ∧ u.conn x = s.conn x) ∧
    (∃ u, exec (.getCertificate x) s = .next u ∧ u.out = .spdm x .certificate true [] :: s.out ∧ u.conn x = s.conn x) ∧
    ∀ n : BitVec 256, exec (.challenge x n) s = .next (s.respond x .challenge true (toBytes n.toNat 32)) := by
  have hdig : exec (.getDigests x) s = .next (s.negotiate x .digests (s.conn x).algs.isSome id) := rfl
  have hcert : exec (.getCertificate x) s = .next (s.negotiate x .certificate (s.conn x).algs.isSome id) := rfl
  rw [ha] at hdig hcert
  obtain ⟨hconn, hout⟩ := negotiate_ready s .digests id hx (conn_side s x)
  obtain ⟨hconn', hout'⟩ := negotiate_ready s .certificate id hx (conn_side s x)
  refine ⟨⟨_, hdig, hout, hconn⟩, ⟨_, hcert, hout', hconn'⟩, fun n => ?_⟩
  have hch : exec (.challenge x n) s = execChallenge x n s := rfl
  rw [hch, execChallenge, if_pos hx, if_pos ha]

/-- Before that, none is. -/
theorem early_clauses (ha : (s.conn x).algs = none) :
    exec (.getDigests x) s = .next (s.respond x .digests false []) ∧ exec (.getCertificate x) s = .next (s.respond x .certificate false []) ∧
    (∀ n, exec (.challenge x n) s = .next (s.respond x .challenge false []) ∧
      exec (.getMeasurements x n) s = .next (s.respond x .measurements false [])) ∧
    exec (.keyExchange x) s = .next (s.respond x .keyExchange false []) := by
  have hdig : exec (.getDigests x) s = .next (s.negotiate x .digests (s.conn x).algs.isSome id) := rfl
  have hcert : exec (.getCertificate x) s = .next (s.negotiate x .certificate (s.conn x).algs.isSome id) := rfl
  have hnone : (s.conn x).algs.isSome = false := by rw [ha]; rfl
  rw [hdig, hcert, hnone, negotiate_early s _ _ hx, negotiate_early s _ _ hx]
  refine ⟨rfl, rfl, fun n => ⟨?_, ?_⟩, ?_⟩
  · have hch : exec (.challenge x n) s = execChallenge x n s := rfl
    rw [hch, execChallenge, if_pos hx, hnone, if_neg Bool.false_ne_true]
  · have hm : exec (.getMeasurements x n) s = execGetMeasurements x n s := rfl
    rw [hm]
    unfold execGetMeasurements
    rw [if_pos hx, hnone, if_neg Bool.false_ne_true]
  · have hk : exec (.keyExchange x) s = execKeyExchange x s := rfl
    rw [hk, execKeyExchange, if_pos hx, hnone]
    rfl

end Exchange

/-! ## Sessions (19 R393, R394) -/

theorem session_clauses (p : SpdmEnd) (n : Nat) (s : State) (x : Session) (h : s.session? p n = some x) :
    (x.finished = false → exec (.finish p n true) s =
      .next ((s.modSession n fun x => { x with finished := true }).respond p .finish true [])) ∧
    (x.finished = false → exec (.finish p n false) s = .next ((s.dropSession n).respond p .finish false [])) ∧
    (x.finished = true → exec (.keyUpdate p n true) s =
      .next ((s.modSession n fun x => { x with keyGen := x.keyGen + 1 }).respond p .keyUpdate true [])) ∧
    (x.finished = true → exec (.keyUpdate p n false) s = .next ((s.failLocked n).respond p .keyUpdate false [])) ∧
    exec (.endSession p n) s = .next (((s.failLocked n).dropSession n).respond p .endSession true []) := by
  have hfin (good : Bool) : exec (.finish p n good) s = execFinish p n good s := rfl
  have hupd (good : Bool) : exec (.keyUpdate p n good) s = execKeyUpdate p n good s := rfl
  have hend : exec (.endSession p n) s = execEndSession p n s := rfl
  simp only [hfin, hupd, hend, execFinish, execKeyUpdate, execEndSession, h]
  exact ⟨fun hf => by simp [hf], fun hf => by simp [hf], fun hf => by simp [hf], fun hf => by simp [hf], trivial⟩

theorem failLocked_unlocks (s : State) (n k : Nat) (x : Port) (h : (k, x) ∈ (s.failLocked n).pkg.ports) (hs : x.session = some n) :
    x.locked = false := by
  obtain ⟨y, _, hy⟩ := List.mem_map.mp h
  have hx : (if y.2.locked && y.2.session == some n then y.2.fail else y.2) = x := congrArg Prod.snd hy
  split at hx
  · rw [← hx] at hs
    cases hs
  · next hno =>
    rw [hx, hs] at hno
    simpa using hno

/-! ## The port lock (19 R394, R396) -/

theorem port_modPort_same (s : State) (p : PortSel) (f : Port → Port) : (s.modPort p f).port p = f (s.port p) := by
  rw [Peers.port_modPort, if_pos rfl]

theorem modPort_congr (s : State) (p : PortSel) {f g : Port → Port} (h : f (s.port p) = g (s.port p)) : s.modPort p f = s.modPort p g := by
  rw [State.modPort, h, State.modPort]

theorem carries_iff (s : State) (p : PortSel) : s.carries p = true ↔ (s.port p).lock ≠ .error ∧ (s.port p).waiting = false := by
  simp [State.carries]

/-- What a port sends again. -/
theorem resend_out (s : State) (p : PortSel) (f : Nat → Bool) : (s.resend p f).out =
    ((s.fab.sent.filter fun x => x.port == p && f x.chan).map fun x => Out.replay p x.chan x.seq x.packet).reverse ++ s.out := rfl

theorem resend_port (s : State) (p q : PortSel) (f : Nat → Bool) : (s.resend p f).port q = s.port q := rfl

/-- A port as START_PORT runs it. -/
def ran (x : Port) : Port := { x with lock := .run, keys := true, waiting := false }

theorem startPort_runs (p : PortSel) (n : Nat) (s : State) (hp : realPort p = true) (hl : (s.port p).lock = .locked)
    (hs : (s.port p).session = some n) (hm : s.modesLegal p = true) :
    ∃ u notes, exec (.startPort p n) s = .next u ∧ (u.port p).lock = .run ∧ (u.port p).keys = true ∧ (u.port p).waiting = false ∧
      u.carries p = true ∧ u.fab = s.fab ∧ u.mem = s.mem ∧
      u.out = notes ++ ((s.fab.sent.filter fun x => x.port == p).map fun x => .replay p x.chan x.seq x.packet).reverse ++ s.out ∧
      (∀ k, p = .ualink k → notes = [] ∧ u.ctxs = s.ctxs) ∧
      (∀ k, p = .chrolu k → notes = ((s.ctxs.flatMap fun c => c.notes).map Out.notify).reverse ∧ ∀ c ∈ u.ctxs, c.notes = []) := by
  have hexec : exec (.startPort p n) s = execStartPort p n s := rfl
  have hgo : (realPort p && (s.port p).lock == .locked && (s.port p).session == some n && s.modesLegal p) = true := by
    simp [hp, hl, hs, hm]
  have hport : ((s.modPort p ran).resend p fun _ => true).port p = ran (s.port p) := by rw [resend_port, port_modPort_same]
  have hout : ((s.modPort p ran).resend p fun _ => true).out =
      ((s.fab.sent.filter fun x => x.port == p).map fun x => .replay p x.chan x.seq x.packet).reverse ++ s.out := by
    rw [resend_out]
    simp only [Bool.and_true]
    rfl
  have hcarries : ((s.modPort p ran).resend p fun _ => true).carries p = true := by
    rw [carries_iff, hport]
    exact ⟨nofun, rfl⟩
  rw [hexec, execStartPort, if_pos hgo]
  cases p with
  | ualink k =>
    refine ⟨_, [], rfl, congrArg Port.lock hport, congrArg Port.keys hport, congrArg Port.waiting hport, hcarries, rfl, rfl, hout,
      fun _ _ => ⟨rfl, rfl⟩, fun _ h => by cases h⟩
  | chrolu k =>
    refine ⟨_, ((s.ctxs.flatMap fun c => c.notes).map Out.notify).reverse, rfl, congrArg Port.lock hport, congrArg Port.keys hport,
      congrArg Port.waiting hport, hcarries, rfl, rfl, ?_, nofun, fun _ _ => ⟨rfl, fun c hc => ?_⟩⟩
    · rw [List.append_assoc, ← hout]
      rfl
    · obtain ⟨d, _, rfl⟩ := List.mem_map.mp hc
      rfl

theorem portConfigChange_clauses (p : PortSel) (ch : PortChange) (s : State) (hp : realPort p = true)
    (hne : (s.port p).changed ch ≠ s.port p) :
    ((s.port p).lock = .unlocked → exec (.portConfigChange p ch) s = .next (s.modPort p fun y => y.changed ch)) ∧
    ((s.port p).lock = .locked ∨ (s.port p).lock = .run →
      ∃ u, exec (.portConfigChange p ch) s = .next u ∧ (u.port p).lock = .error ∧ (u.port p).keys = false ∧ (u.port p).session = none ∧
        u.carries p = false) := by
  have hexec : exec (.portConfigChange p ch) s = execPortConfigChange p ch s := rfl
  have hgo : (s.port p).lock ≠ .error →
      ¬ ((!realPort p || (s.port p).changed ch = s.port p || (s.port p).lock == .error : Bool) = true) := by
    intro hl
    simp [hp, hne, hl]
  rw [hexec, execPortConfigChange]
  refine ⟨fun hl => ?_, fun hl => ?_⟩
  · rw [if_neg (hgo (by rw [hl]; decide))]
    refine congrArg Host.Outcome.next (modPort_congr s p ?_)
    simp [Port.locked, hl]
  · have hlocked : (s.port p).locked = true := by rcases hl with hl | hl <;> simp [Port.locked, hl]
    rw [if_neg (hgo (by rcases hl with hl | hl <;> rw [hl] <;> decide))]
    have hport : (s.modPort p fun x => if x.locked then (x.changed ch).fail else x.changed ch).port p = ((s.port p).changed ch).fail := by
      rw [port_modPort_same, if_pos hlocked]
    refine ⟨_, rfl, congrArg Port.lock hport, congrArg Port.keys hport, congrArg Port.session hport, ?_⟩
    rw [State.carries, hport]
    rfl

/-! ## Replay and reset of links (18 R386; 19 R397) -/

theorem port_out (s : State) (o : List Out) (p : PortSel) : ({ s with out := o } : State).port p = s.port p := rfl

theorem arrivedTo_port (s : State) (p q : PortSel) (chan seq : Nat) : (s.arrivedTo p chan seq).port q = s.port q := rfl

theorem linkReplay_clauses (p : PortSel) (a : ReplayOf) (f : Bool) (s : State) (hp : realPort p = true) (hc : s.carries p = true)
    (hr : (s.port p).replays < 3) :
    ∃ u, exec (.linkReplay p a f) s = .next u ∧ (u.port p).lock = (s.port p).lock ∧ (u.port p).keys = (s.port p).keys ∧
      (u.port p).replays = (if f then (s.port p).replays + 1 else 0) ∧ u.mem = s.mem ∧
      (∀ chan b, a = .arrived chan b →
        u.out = .askReplay p chan ((s.port p).expects chan) :: s.out ∧ u.fab = s.fab ∧
        (u.port p).refused = (s.port p).refused + (if b then 1 else 0)) ∧
      (∀ chan n, a = .asked chan n →
        (u.port p).refused = (s.port p).refused ∧
        u.fab.sent = s.fab.sent.filter (fun x => !(x.port == p && x.chan == chan && decide (x.seq < n))) ∧
        u.out = (((u.fab.sent.filter fun x => x.port == p && x.chan == chan).map fun x =>
          .replay p x.chan x.seq x.packet).reverse) ++ s.out) := by
  have hexec : exec (.linkReplay p a f) s = execLinkReplay p a f s := rfl
  have hport := port_modPort_same s p fun x => { x with replays := if f then x.replays + 1 else 0 }
  rw [hexec, execLinkReplay, if_pos (by simp [hp, hc, hr])]
  cases a with
  | arrived chan b =>
    cases b with
    | false =>
      simp only [Bool.false_eq_true, if_false]
      refine ⟨_, rfl, by rw [port_out, hport], by rw [port_out, hport], by rw [port_out, hport], rfl, ?_, nofun⟩
      intro _ _ h
      cases h
      exact ⟨rfl, rfl, by rw [port_out, hport]; simp⟩
    | true =>
      have hcount := port_modPort_same (s.modPort p fun x => { x with replays := if f then x.replays + 1 else 0 }) p
        fun x => { x with refused := x.refused + 1 }
      rw [hport] at hcount
      simp only [if_true, State.refuse1]
      refine ⟨_, rfl, by rw [port_out, hcount], by rw [port_out, hcount], by rw [port_out, hcount], rfl, ?_, nofun⟩
      intro _ _ h
      cases h
      exact ⟨rfl, rfl, by rw [port_out, hcount]; rfl⟩
  | asked chan n =>
    have hsent := hport
    rw [← arrivedTo_port _ p p chan n, ← resend_port _ p p fun c => c == chan] at hsent
    refine ⟨_, rfl, by rw [hsent], by rw [hsent], by rw [hsent], rfl, nofun, ?_⟩
    intro _ _ h
    cases h
    exact ⟨by rw [hsent], rfl, rfl⟩

theorem linkReset_clauses (p : PortSel) (s : State) (hp : realPort p = true) (hr : 3 ≤ (s.port p).replays) :
    ∃ u, exec (.linkReset p) s = .next u ∧ u.port p = { s.port p with replays := 0 } ∧ u.mem = s.mem ∧ u.fab = s.fab ∧
      u.out = (if s.carries p then ((s.fab.sent.filter fun x => x.port == p).map fun x => .replay p x.chan x.seq x.packet).reverse
        else []) ++ s.out := by
  have hexec : exec (.linkReset p) s = execLinkReset p s := rfl
  have hport := port_modPort_same s p fun x => { x with replays := 0 }
  rw [hexec, execLinkReset, if_pos (by simp [hp, hr])]
  cases s.carries p with
  | false => exact ⟨_, rfl, hport, rfl, rfl, rfl⟩
  | true =>
    refine ⟨_, rfl, hport, rfl, rfl, ?_⟩
    simp only [if_true]
    rw [resend_out]
    simp only [Bool.and_true]
    rfl

/-! ## The statement -/

/-- Settles O58: an expected message changes its end and leaves, an unexpected one is answered so; sessions and ports are each one
update, and a port's packets leave its retry buffer only when they have arrived. -/
theorem sessionsAndPorts : Obligations.SessionsAndPorts := by
  unfold Obligations.SessionsAndPorts
  refine ⟨⟨fun x s hx => ?exchange, fun s m bs => ?responses, session_clauses, failLocked_unlocks⟩, ?lock, ?locked, startPort_runs,
    fun p s => carries_iff s p, ?start, ?stop, ?unstopped, portConfigChange_clauses, ?send, ?replays, linkReplay_clauses, linkReset_clauses, ?reset⟩
  case exchange =>
    refine ⟨getVersion_restarts s hx, getCapabilities_ready s hx, getCapabilities_early s hx, fun o ho => ⟨fun hc h1 h2 h3 h4 => ?_, fun hno => ?_⟩,
      fun ha => ?_, early_clauses s hx⟩
    · obtain ⟨u, hu, halgs, hout⟩ := negotiateAlgorithms_ready s hx ho hc (by simp [h1, h2, h3, h4])
      exact ⟨u, hu, halgs, hout.trans (by cases x <;> rfl)⟩
    · refine negotiateAlgorithms_early s hx ho ?_
      rcases hno with h | h | h | h | h <;> simp [h]
    · obtain ⟨hdig, hcert, hch⟩ := agreed_clauses s hx ha
      exact ⟨hdig, hcert, hch, fun n => getMeasurements_ready s hx n ha, keyExchange_opens s hx ha⟩
  case responses => exact ⟨fun p => respond_answers s p m false bs, fun _ => rfl, fun x => respond_ok s x m bs⟩
  case lock =>
    intro p n s x hp hl hmem hid hf
    have hexec : exec (.lockPort p n) s = execLockPort p n s := rfl
    rw [hexec, execLockPort, if_pos]
    simp only [hp, hl, beq_self_eq_true, Bool.and_true, Bool.true_and, List.any_eq_true]
    exact ⟨x, hmem, by simp [hid, hf]⟩
  case locked =>
    intro p n s hl
    have hexec : exec (.lockPort p n) s = execLockPort p n s := rfl
    rw [hexec, execLockPort, if_neg (by simp [hl])]
  case start =>
    intro p n s hs
    have hexec : exec (.startPort p n) s = execStartPort p n s := rfl
    rw [hexec, execStartPort, if_neg (by simp [hs])]
  case stop =>
    intro p s hp hl hfin
    have hexec : exec (.stopPort p) s = execStopPort p s := rfl
    rw [hexec, execStopPort, if_pos (by simpa [hp, hl] using hfin)]
  case unstopped =>
    intro p s h
    have hexec : exec (.stopPort p) s = execStopPort p s := rfl
    rw [hexec, execStopPort, if_neg]
    rcases h with h | h
    · simp [h]
    · simpa using fun _ _ => h
  case send =>
    intro s p chan o hc
    refine ⟨_, rfl, by rw [sendPort_out, hc]; rfl, sendPort_mem s p chan o, ?_⟩
    rw [sendPort_eq]
    exact ⟨_, rfl, rfl, rfl, rfl⟩
  case replays =>
    intro p a f s hr
    have hexec : exec (.linkReplay p a f) s = execLinkReplay p a f s := rfl
    rw [hexec, execLinkReplay, if_neg]
    simp only [Bool.and_eq_true, decide_eq_true_eq]
    omega
  case reset =>
    intro p s hr
    have hexec : exec (.linkReset p) s = execLinkReset p s := rfl
    rw [hexec, execLinkReset, if_neg]
    simp only [Bool.and_eq_true, decide_eq_true_eq]
    omega

end Sys2Proof.Sessions
end

section
/-! The family 17_counters_wear, 19_host_pod_security and 20_bringup_freeze, reset, debug unlock and power: O59. -/
namespace Sys2Proof.Powering
open Machine Laws Contexts

/-! ## Numbers of contexts, and what keeps them -/

/-- The numbers of the contexts. -/
def ids (s : State) : List (BitVec 32) := s.ctxs.map Ctx.id

theorem ids_of_owners {s u : State} (h : owners u = owners s) : ids u = ids s := congrArg Prod.fst h

theorem ids_of_ctxs {s u : State} (h : u.ctxs = s.ctxs) : ids u = ids s := by rw [ids, h, ids]

theorem ids_modCtx (s : State) (i : BitVec 32) (f : Ctx → Ctx) (hf : ∀ c, (f c).id = c.id) : ids (s.modCtx i f) = ids s :=
  ids_of_owners (owners_modCtx s i f hf)

theorem ids_of_linesOnly {s u : State} (h : LinesOnly s u) : ids u = ids s :=
  ids_of_ctxs (by rw [show u = _ from h])

theorem ids_supersede (s : State) (ctx : BitVec 32) (t : Option Nat) (l : List Nat) : ids (s.supersede ctx t l) = ids s :=
  ids_modCtx s ctx _ fun _ => by rfl

theorem ids_clearWr (s : State) (t : Nat) : ids (s.clearWr t) = ids s := ids_of_linesOnly (linesOnly_untouch _ s)

theorem ids_undoRun (s : State) (t : Nat) (r : Run) : ids (s.undoRun t r) = ids s :=
  calc ids (s.undoRun t r)
    _ = ids (((((s.unclaim r.claims).dropRetry t).restoreStreams r).supersede r.ctx (some t) ((s.copiesOf t r).map Copy.id)).resetLines
          (State.writtenLines (((((s.unclaim r.claims).dropRetry t).restoreStreams r).supersede r.ctx (some t)
            ((s.copiesOf t r).map Copy.id))) t)) := ids_clearWr _ t
    _ = ids ((((s.unclaim r.claims).dropRetry t).restoreStreams r).supersede r.ctx (some t) ((s.copiesOf t r).map Copy.id)) :=
      ids_of_linesOnly (linesOnly_resetLines _ _)
    _ = ids (((s.unclaim r.claims).dropRetry t).restoreStreams r) := ids_supersede _ _ _ _
    _ = ids (s.unclaim r.claims) := rfl
    _ = ids s := ids_of_linesOnly (linesOnly_unclaim r.claims s)

theorem ids_undoRuns (l : List (Nat × Run)) : ∀ s : State, ids (s.undoRuns l) = ids s := by
  induction l with
  | nil => exact fun _ => rfl
  | cons x rest ih => exact fun s => (ih _).trans (ids_undoRun s x.1 x.2)

theorem ids_dropPlaced (s : State) (t : Nat) (p : Placed) : ids (s.dropPlaced t p) = ids s :=
  (ids_supersede _ p.ctx none _).trans (ids_of_linesOnly (linesOnly_resetLines _ s))

theorem ids_dropPlaces (l : List (Nat × Placed)) : ∀ s : State, ids (s.dropPlaces l) = ids s := by
  induction l with
  | nil => exact fun _ => rfl
  | cons x rest ih => exact fun s => (ih _).trans (ids_dropPlaced s x.1 x.2)

theorem ids_rollback (s : State) (inst idx : Nat) : ids (s.rollback inst idx) = ids s :=
  (ids_dropPlaces _ _).trans (ids_undoRuns _ s)

theorem ids_verifyWords (ctx : BitVec 32) (n : Nat) : ∀ (s : State) (va : Nat), ids (s.verifyWords ctx va n) = ids s := by
  induction n with
  | zero => exact fun _ _ => rfl
  | succ n ih =>
    intro s va
    rw [State.verifyWords]
    split
    · exact (ih _ _).trans (ids_of_owners (owners_verifyLine s _ _))
    · exact ih s _

theorem ids_spillOne {s u : State} {ctx : BitVec 32} {die : Nat} (h : s.spillOne ctx die = some u) : ids u = ids s := by
  unfold State.spillOne at h
  repeat' split at h
  all_goals cases h
  rfl

theorem ids_makeRoom {ctx : BitVec 32} {die fuel : Nat} {s u : State} (h : s.makeRoom ctx die fuel = some u) : ids u = ids s := by
  induction fuel generalizing s with
  | zero => cases h
  | succ fuel ih =>
    rw [State.makeRoom] at h
    split at h
    · cases h
    · split at h
      · cases h
        rfl
      · split at h
        · cases h
        · rename_i hspill
          exact (ih h).trans (ids_spillOne hspill)

theorem ids_verified (s : State) (ctx : BitVec 32) (va id k : Nat) (f : Rec → Rec) :
    ids ((s.verifyWords ctx va 32).modRec id k f) = ids s := by
  generalize h : s.verifyWords ctx va 32 = u
  have hids := ids_verifyWords ctx 32 s va
  rw [h] at hids
  exact hids

theorem ids_reload {s u : State} {id k : Nat} (h : s.reload id k = some u) : ids u = ids s := by
  unfold State.reload at h
  split at h
  · cases h
  · split at h
    · cases h
    · split at h
      · split at h
        · cases h
        · obtain ⟨v, hroom, rfl⟩ := Option.map_eq_some_iff.1 h
          exact (ids_makeRoom hroom).trans (ids_verified s _ _ id k _)
      · cases h
        rfl

theorem ids_toPending (s : State) (id k : Nat) : ids (s.toPending id k) = ids s := by
  unfold State.toPending
  split
  · rename_i u i hload _
    have hu := ids_reload hload
    rw [State.tally, ids_modCtx _ _ _ fun _ => by rfl]
    exact hu
  · rfl

theorem ids_reloadStuck (n : Nat) : ∀ s : State, ids (s.reloadStuck n) = ids s := by
  induction n with
  | zero => exact fun _ => rfl
  | succ n ih =>
    intro s
    rw [State.reloadStuck]
    split
    · rfl
    · exact (ih _).trans (ids_toPending s _ _)

theorem ids_reapInst (s : State) (inst : Nat) : ids (s.reapInst inst) = ids s := by
  unfold State.reapInst
  split
  · rfl
  · split
    · dsimp only
      split
      · rfl
      · exact ids_modCtx _ _ _ fun _ => by rfl
    · rfl

theorem ids_discardRecord (s : State) (i : Inst) (k : Nat) : ids (s.discardRecord i k) = ids s := by
  unfold State.discardRecord
  split
  · rfl
  · next x _ =>
    split
    · rfl
    · have hroll (f : Ctx → Ctx) (hf : ∀ c, (f c).id = c.id) : ids ((s.rollback i.id k).modCtx i.ctx f) = ids s :=
        (ids_modCtx _ i.ctx f hf).trans (ids_rollback s i.id k)
      dsimp only
      split
      · exact hroll _ fun _ => by rfl
      · exact (ids_modCtx _ i.ctx _ fun _ => by rfl).trans (hroll _ fun _ => by rfl)

theorem ids_discardRecords (i : Inst) (l : List Nat) : ∀ s : State, ids (s.discardRecords i l) = ids s := by
  induction l with
  | nil => exact fun _ => rfl
  | cons k rest ih => exact fun s => (ih _).trans (ids_discardRecord s i k)

theorem ids_modInst (s : State) (inst : Nat) (f : Inst → Inst) : ids (s.modInst inst f) = ids s := rfl

theorem ids_loseGraph (s : State) (inst : Nat) (idx : Option Nat) : ids (s.loseGraph inst idx) = ids s := by
  unfold State.loseGraph
  split
  · rfl
  · split
    · rfl
    · rw [ids_of_owners (owners_serve _), ids_reloadStuck, ids_reapInst, ids_discardRecords]
      exact (ids_modInst _ inst _).trans (ids_of_owners (owners_record s _ _))

theorem ids_loseSpilled (l : List Inst) : ∀ s : State, ids (s.loseSpilled l) = ids s := by
  induction l with
  | nil => exact fun _ => rfl
  | cons i rest ih =>
    intro s
    rw [State.loseSpilled, ih]
    split
    · exact ids_loseGraph s _ _
    · rfl

theorem ids_scramble (s : State) (l : List Nat) : ids (s.scramble l) = ids s := by
  obtain ⟨_, hctxs, _⟩ := scramble_keeps l s
  exact ids_of_ctxs hctxs

theorem ids_loseOldKeys (s : State) : ids s.loseOldKeys = ids s := by
  unfold State.loseOldKeys
  split
  · rfl
  · refine (ids_scramble _ _).trans ((ids_loseSpilled _ _).trans ?_)
    exact List.map_map.trans rfl

/-! ## Every context but 0 is destroyed (20 R408) -/

theorem ids_killCtx (s : State) (ctx : BitVec 32) : ids (s.killCtx ctx) = ids s := (ids_dropPlaces _ _).trans (ids_undoRuns _ s)

theorem ids_modLines (f : LineMeta → LineMeta) (l : List Nat) : ∀ s : State,
    ids (l.foldl (fun s k => s.modLine k f) s) = ids s := by
  induction l with
  | nil => exact fun _ => rfl
  | cons k rest ih => exact fun s => ih _

theorem ids_zeroBank (s : State) (ctx : BitVec 32) : ids (s.zeroBank ctx) = ids s := ids_modLines _ _ s

theorem ids_destroyCtx (s : State) (ctx : BitVec 32) : ids (s.destroyCtx ctx) = (ids s).filter fun i => i != ctx := by
  have hids : ids ((s.killCtx ctx).zeroBank ctx) = ids s := (ids_zeroBank _ ctx).trans (ids_killCtx s ctx)
  rw [ids_of_owners (owners_destroyCtx s ctx), ← hids, ids, ids, List.filter_map]
  rfl

theorem ids_destroyAll (l : List (BitVec 32)) : ∀ s : State, ∀ i ∈ ids (s.destroyAll l), i ∈ ids s ∧ i ∉ l := by
  induction l with
  | nil => exact fun s i h => ⟨h, List.not_mem_nil⟩
  | cons c rest ih =>
    intro s i h
    obtain ⟨hi, hrest⟩ := ih _ i h
    rw [ids_destroyCtx, List.mem_filter] at hi
    exact ⟨hi.1, fun hmem => (List.mem_cons.mp hmem).elim (fun heq => by simp [heq] at hi) hrest⟩

theorem ids_destroyOthers (s : State) :
    ∀ i ∈ ids (s.destroyAll ((s.ctxs.filter fun c => c.id != 0).map fun c => c.id)).loseOldKeys, i = 0 := by
  intro i h
  rw [ids_loseOldKeys] at h
  obtain ⟨hi, hno⟩ := ids_destroyAll _ s i h
  obtain ⟨c, hc, rfl⟩ := List.mem_map.mp hi
  by_contra hne
  exact hno (List.mem_map.mpr ⟨c, List.mem_filter.mpr ⟨hc, by simpa using hne⟩, rfl⟩)

/-! ## Reset (20 R403) -/

theorem kvGet_filter {α : Type} (d : α) (p : Nat → Bool) (l : List (Nat × α)) (k : Nat) :
    kvGet d (l.filter fun x => p x.1) k = if p k then kvGet d l k else d := by
  induction l with
  | nil => simp [kvGet]
  | cons x rest ih =>
    by_cases hx : x.1 = k
    · subst hx
      by_cases hp : p x.1 = true
      · simp [hp, kvGet]
      · simp [hp, ih]
    · by_cases hp : p x.1 = true
      · simp [hp, kvGet, hx, ih]
      · simp [hp, kvGet, hx, ih]

/-- A line lies outside where its bytes do. -/
theorem outside_line (l : Nat) : outside (128 * lineKey l) = outside l := by
  simp only [outside, locSpace, locPkg, lineKey]
  have h1 : 128 * (l / 128) / 2 ^ 96 = l / 2 ^ 96 := by omega
  have h2 : 128 * (l / 128) / 2 ^ 84 = l / 2 ^ 84 := by omega
  rw [h1, h2]

/-- A channel counts as fitted where it has an RDIMM. -/
theorem fitted_bit (p : Pkg) (c : Nat) (h : p.fitted.getLsbD c = true) : p.rdimm[c]?.getD 0 ≠ 0 := by
  have hsum : ((p.rdimm.take 12).zipIdx.map fun x => if x.1 = 0 then 0 else 2 ^ x.2).sum =
      ((List.range (p.rdimm.take 12).length).map fun i => if ((p.rdimm.take 12)[i]?.getD 0 != 0 : Bool) then 2 ^ i else 0).sum := by
    congr 1
    refine List.ext_getElem (by simp) fun i h1 h2 => ?_
    have hi : i < (p.rdimm.take 12).length := by simpa using h1
    simp only [List.getElem_map, List.getElem_zipIdx, List.getElem_range, List.getElem?_eq_getElem hi, Option.getD_some, Nat.zero_add]
    split <;> simp_all
  rw [Pkg.fitted, hsum, BitVec.getLsbD_ofNat, (Testing.sum_pows _ _).2] at h
  simp only [Bool.and_eq_true, decide_eq_true_eq, bne_iff_ne, List.getElem?_take] at h
  obtain ⟨hc, _, hne⟩ := h
  rwa [if_pos hc] at hne

/-- The state of a full reset before clusters are counted. -/
def freshReset (s : State) : State :=
  { State.reset with
    mem := { cells := s.mem.cells.filter fun c => outside c.1 }
    lines := s.lines.filter fun x => outside (128 * x.1)
    tiles := s.pkg.loaded.tiles.map fun x => (x.1, x.2.tile)
    ctxs := [{ id := 0, keys := freshKeys s.free }]
    dies := s.pkg.loaded.dies
    pkg := s.pkg.afterReset (trained (s.free + 4))
    fab := { nextId := s.fab.nextId }
    focus := s.focus
    free := s.free + 6
    agenda := s.agenda
    out := .status (s.pkg.afterReset (trained (s.free + 4))).statusWord :: s.out }

theorem unused_freshReset (s : State) : Arrivals.Unused (freshReset s) := fun t => by
  have htiles : (freshReset s).tile t = (kvGet ({} : Tile).lifeData s.pkg.loaded.tiles t).tile :=
    Arrivals.kvGet_map ({} : Tile).lifeData TileLife.tile s.pkg.loaded.tiles t
  rw [htiles]
  exact ⟨rfl, rfl⟩

/-- A full reset is the fresh state, but for clusters. -/
theorem fullReset_eq (s : State) : ∃ l, s.fullReset = { freshReset s with pkg := { (freshReset s).pkg with clusters := l } } :=
  Arrivals.checkClusters_of_unused (unused_freshReset s) (List.range 68)

theorem read_freshReset (s : State) (l : Nat) : (freshReset s).mem.read l = if outside l then s.mem.read l else 0 :=
  kvGet_filter unlistedByte outside s.mem.cells l

theorem line_freshReset (s : State) (l : Nat) : (freshReset s).line (lineKey l) = if outside l then s.line (lineKey l) else {} := by
  rw [← outside_line l]
  exact kvGet_filter ({} : LineMeta) (fun k => outside (128 * k)) s.lines (lineKey l)

/-- What a full reset leaves. -/
theorem fullReset_leaves {s u : State} (hu : u = s.fullReset) : u.cycle = 0 ∧ u.insts = [] ∧ u.ropes = [] ∧ u.pkg.sessions = [] ∧
    u.pkg.ports = [] ∧ u.pkg.lifeA = s.pkg.lifeA ∧ u.pkg.lifeB = s.pkg.lifeB ∧ u.ctxs.map (fun c => c.id) = [0] ∧ (∀ t, u.run? t = none) ∧
    u.pkg.power = .on ∧ u.out = .status u.pkg.statusWord :: s.out ∧ (∀ c, (u.pkg.ddrPres.getLsbD c = true → s.pkg.rdimm[c]?.getD 0 ≠ 0)) ∧
    (∀ l, locSpace l ≠ spHost → locPkg l = 0 → u.mem.read l = 0 ∧ u.line (lineKey l) = {}) ∧
    (∀ l, locSpace l = spHost ∨ locPkg l ≠ 0 → u.mem.read l = s.mem.read l ∧ u.line (lineKey l) = s.line (lineKey l)) := by
  obtain ⟨cl, h⟩ := fullReset_eq s
  rw [hu, h]
  refine ⟨rfl, rfl, rfl, rfl, rfl, rfl, rfl, rfl, fun t => (unused_freshReset s t).1, rfl, rfl, fun c hc => ?_, fun l hs hp => ?_,
    fun l hl => ?_⟩
  · refine fitted_bit s.pkg c ?_
    have hand : (s.pkg.fitted &&& trained (s.free + 4)).getLsbD c = true := hc
    rw [BitVec.getLsbD_and, Bool.and_eq_true] at hand
    exact hand.1
  · have hout : outside l = false := by simp [outside, hs, hp]
    have hread := read_freshReset s l
    have hline := line_freshReset s l
    rw [hout, if_neg Bool.false_ne_true] at hread hline
    exact ⟨hread, hline⟩
  · have hout : outside l = true := by simpa [outside] using hl
    have hread := read_freshReset s l
    have hline := line_freshReset s l
    rw [hout, if_pos rfl] at hread hline
    exact ⟨hread, hline⟩

/-- What the reset of a DECOMMISSIONED package leaves. -/
theorem haltReset_leaves (s : State) : s.haltReset.pkg.power = .halted ∧ s.haltReset.mem = s.mem ∧ s.haltReset.lines = s.lines ∧
    s.haltReset.ctxs = [] ∧ s.haltReset.pkg.map = [] ∧ s.haltReset.out = s.out ∧ s.haltReset.pkg.lifeA = s.pkg.lifeA ∧
    s.haltReset.pkg.lifeB = s.pkg.lifeB ∧ ∀ t, s.haltReset.run? t = none := by
  refine ⟨rfl, rfl, rfl, rfl, rfl, rfl, rfl, rfl, fun t => ?_⟩
  have htile : s.haltReset.tile t = (kvGet ({} : Tile).lifeData s.pkg.loaded.tiles t).tile :=
    Arrivals.kvGet_map ({} : Tile).lifeData TileLife.tile s.pkg.loaded.tiles t
  rw [State.run?, htile]
  rfl

theorem exec_reset {s : State} {i : Instr} (h : i = .supplyGood ∨ (i = .managementReset ∧ s.pkg.power ≠ .off)) :
    exec i s = .next s.packageReset := by
  rcases h with rfl | ⟨rfl, hon⟩
  · rfl
  · exact if_neg hon

/-! ## The statement -/

/-- Settles O59: a full reset is a fresh state that no tile's queue can change, and a debug token destroys contexts one by one, which brings
none back. -/
theorem packageEvents : Obligations.PackageEvents := by
  unfold Obligations.PackageEvents
  refine ⟨fun s i hi hlcs => ?reset, fun s i hi hlcs => ?halt, fun s hoff => if_pos hoff, fun s => ?failure, fun v d w good s h => ?kept,
    fun v d w s hv => ?microcode, fun good s h => ?refused, fun s hlcs => ?token, fun s hlcs hon => ?freeze, fun s hlcs => ?locked,
    fun n s hn => ?short, fun w s => ?cap⟩
  case reset =>
    refine ⟨s.fullReset, ?_, fullReset_leaves rfl⟩
    rw [exec_reset hi, State.packageReset, if_neg hlcs]
  case halt =>
    refine ⟨s.haltReset, ?_, haltReset_leaves s⟩
    rw [exec_reset hi, State.packageReset, if_pos hlcs]
  case failure =>
    have harm : exec .powerFailure s = execPowerFailure s := rfl
    refine ⟨_, harm.trans rfl, ?_⟩
    split
    · next h => exact .inr ⟨h.1, rfl⟩
    · exact .inl rfl
  case kept =>
    have harm : exec (.microcodeLoad v d w good) s = execMicrocodeLoad v d w good s := rfl
    rw [harm, execMicrocodeLoad, if_neg]
    simp only [Bool.and_eq_true, decide_eq_true_eq, not_and, Nat.not_le]
    rintro rfl
    exact h.resolve_left (by decide)
  case microcode =>
    have harm : exec (.microcodeLoad v d w true) s = execMicrocodeLoad v d w true s := rfl
    have htime : changeTime s.free ≤ 2 ^ 20 := by
      rw [changeTime]
      omega
    rw [harm, execMicrocodeLoad, if_pos (by simp [hv])]
    refine ⟨_, s.cycle + changeTime s.free, rfl, rfl, rfl, rfl, rfl, Nat.le_add_right _ _, Nat.add_le_add_left htime _, rfl, rfl, fun x hx => ?_⟩
    obtain ⟨y, _, rfl⟩ := List.mem_map.mp hx
    rfl
  case refused =>
    have harm : exec (.debugToken good) s = execDebugToken good s := rfl
    rw [harm, execDebugToken, if_neg]
    simp only [Bool.and_eq_true, decide_eq_true_eq, not_and]
    rintro rfl
    exact h.resolve_left (by decide)
  case token =>
    have harm : exec (.debugToken true) s = execDebugToken true s := rfl
    rw [harm, execDebugToken, if_pos (by simp [hlcs])]
    refine ⟨_, rfl, rfl, fun c hc => ids_destroyOthers s _ (List.mem_map_of_mem hc), rfl, fun x hx => ?_⟩
    obtain ⟨y, _, rfl⟩ := List.mem_map.mp hx
    dsimp only
    split <;> rfl
  case freeze =>
    rw [← Arrivals.freezeNow_unlocked hlcs hon]
    exact ⟨rfl, fun _ hn => if_pos hn⟩
  case locked =>
    have hkept : s.freezeNow = s := if_neg (by simpa using fun h => absurd h hlcs)
    refine ⟨congrArg Host.Outcome.next hkept, fun n => ?_⟩
    have harm : exec (.frzNAssert n) s = execFrzNAssert n s := rfl
    rw [harm, execFrzNAssert, hkept, ite_self]
  case short => exact if_neg (by omega)
  case cap =>
    have harm : exec (.powerCapSet w) s = execPowerCapSet w s := rfl
    rw [harm, execPowerCapSet]
    refine ⟨fun h => if_pos (by simp [h.1, h.2]), fun h => if_neg ?_⟩
    simp only [Bool.and_eq_true, decide_eq_true_eq]
    omega

end Sys2Proof.Powering
end

section
/-! The family 19_host_pod_security, the commands of the host: O54. A command in its turn is its action, concluded; what an action answers is
compared with the spec once for each command. -/
namespace Sys2Proof.Commanding
open Machine Laws

/-! ## A command in its turn (19 R387) -/

/-- The action of a command. -/
def actOf : Instr → State → Cmd → CmdEnd
  | .ctxCreate p n => State.actCtxCreate p n
  | .ctxDestroy _ _ => State.actCtxDestroy
  | .ctxSet _ _ => State.actCtxSet
  | .sliceAssign p n => State.actSliceAssign p n
  | .qcbSet _ _ => State.actQcbSet
  | .hostTlbinv p _ => State.actTlbinv p
  | .drainFor p _ => State.actDrainFor p
  | .restore _ _ m => State.actRestore m
  | .traceSet _ _ => State.actTraceSet
  | .tableRegion _ _ => State.actTableRegion
  | .counterRead _ _ => State.actCounterRead
  | .podAttach p n => State.actPodAttach p n
  | .attest p n => State.actAttest p n
  | _ => fun s _ => s.decline

theorem exec_command {i : Instr} {p n : Nat} {h : CmdShape} (hi : Spec.commandOf i = some (p, n, h)) :
    (∀ s, exec i s = .next (s.command p n h (actOf i))) ∧ 1 ≤ h.code ∧ h.code ≤ 13 := by
  cases i with
  | ctxCreate | ctxDestroy | ctxSet | sliceAssign | qcbSet | hostTlbinv | drainFor | restore | traceSet | tableRegion | counterRead | podAttach
  | attest => cases hi; exact ⟨fun _ => rfl, by decide, by decide⟩
  | _ => cases hi

theorem command_unheard {s : State} {p : Nat} (n : Nat) (h : CmdShape) (act : State → Cmd → CmdEnd) (hc : s.carries (.chrolu p) = false) :
    s.command p n h act = s := by rw [State.command, hc]; rfl

theorem noteHead_good {s : State} (p : Nat) (hgood : ∀ k, (s.line k).chkBad = false) : s.noteHead p = s := by
  unfold State.noteHead
  split
  · rw [State.noteLine, hgood, if_neg Bool.false_ne_true]
  · rfl
  · rfl
  · rfl

section Turn

variable {s : State} {p : Nat} {c : Cmd} (n : Nat) (h : CmdShape) (act : State → Cmd → CmdEnd) (hp : p < 2) (hc : s.carries (.chrolu p) = true)
  (hhead : (s.tendRings p).headCmd p = some c) (hgood : ∀ k, ((s.tendRings p).line k).chkBad = false)
include hp hc hhead hgood

theorem command_turn (hlo : 1 ≤ c.code) (hhi : c.code ≤ 13) : s.command p n h act =
    if c.code ≠ h.code then s.tendRings p
    else if h.malformed c then (s.tendRings p).complete p c.index 1 0
    else if (s.tendRings p).commands p n h c then State.concluded p c.index (act (s.tendRings p) c)
    else (s.tendRings p).complete p c.index 2 0 := by
  have hdef : ¬ ((c.code = 0 || 0x0D < c.code : Bool) = true) := by
    simp only [Bool.or_eq_true, decide_eq_true_eq]
    omega
  rw [State.command, hc, Bool.not_true, if_neg Bool.false_ne_true, if_pos hp]
  simp only [hhead, noteHead_good p hgood]
  rw [if_neg hdef]

end Turn

/-! ## What the actions answer -/

theorem bitsAt_low (w : BitVec 64) (n : Nat) : bitsAt w 0 n = w.toNat % 2 ^ n := by rw [bitsAt, Nat.pow_zero, Nat.div_one]

theorem bitsAt_high (w : BitVec 64) (lo n : Nat) (h : lo + n = 64) : bitsAt w lo n = w.toNat / 2 ^ lo := by
  rw [bitsAt, Nat.mod_eq_of_lt]
  rw [Nat.div_lt_iff_lt_mul (Nat.two_pow_pos lo), ← Nat.pow_add, Nat.add_comm n lo, h]
  exact w.isLt

section Effects

variable (u : State) (c : Cmd)

theorem ctxCreate_effect {p n r : Nat} {w : State} (h : Spec.commandEffect u c (.ctxCreate p n) = some (w, r)) :
    State.actCtxCreate p n u c = .done w 0 r := by
  simp only [Spec.commandEffect, Option.ite_none_right_eq_some, Option.some.injEq, Prod.mk.injEq] at h
  obtain ⟨⟨hlife, hucode, hal, hwell, hfree⟩, rfl, rfl⟩ := h
  simp [State.actCtxCreate, hlife, hucode, hal, hwell, hfree, State.ok]

theorem ctxDestroy_effect {p n r : Nat} {w : State} (h : Spec.commandEffect u c (.ctxDestroy p n) = some (w, r)) :
    State.actCtxDestroy u c = .done w 0 r := by
  simp only [Spec.commandEffect, Option.ite_none_right_eq_some, Option.some.injEq, Prod.mk.injEq] at h
  obtain ⟨hne, rfl, rfl⟩ := h
  rw [State.actCtxDestroy, if_neg hne, State.ok]

theorem ctxSet_effect {p n r : Nat} {w : State} (h : Spec.commandEffect u c (.ctxSet p n) = some (w, r)) :
    State.actCtxSet u c = .done w 0 r := by
  simp only [Spec.commandEffect, Option.ite_none_right_eq_some, Option.some.injEq, Prod.mk.injEq] at h
  obtain ⟨⟨hq, hq', hw, hw'⟩, rfl, rfl⟩ := h
  have hw16 : bitsAt (c.op 0) 16 7 = (c.op 0).toNat / 2 ^ 16 % 2 ^ 7 := rfl
  have hno : ¬ ((bitsAt (c.op 0) 0 16 = 0 || 1024 < bitsAt (c.op 0) 0 16 || bitsAt (c.op 0) 16 7 = 0 || 64 < bitsAt (c.op 0) 16 7 : Bool) = true) := by
    rw [bitsAt_low, hw16]
    simp only [Bool.or_eq_true, decide_eq_true_eq]
    omega
  rw [State.actCtxSet, if_neg hno, State.ok]
  simp only [bitsAt_low]
  rfl

theorem sliceAssign_effect {p n r : Nat} {w : State} (h : Spec.commandEffect u c (.sliceAssign p n) = some (w, r)) :
    State.actSliceAssign p n u c = .done w 0 r := by
  unfold Spec.commandEffect at h
  unfold State.actSliceAssign
  cases hx : u.ctx? c.ctx with
  | none => simp [hx] at h
  | some x =>
    simp only [hx, Option.ite_none_right_eq_some, Option.some.injEq, Prod.mk.injEq] at h
    obtain ⟨⟨hzero, hal, hfree⟩, rfl, rfl⟩ := h
    have hnone : (allBanks.any fun b => sliceEntry (u.operand p n (c.op 0) 1024).2 b / 32 % 8 != 0 ||
        sliceEntry (u.operand p n (c.op 0) 1024).2 b / 2 ^ 13 != 0) = false := by
      rw [List.any_eq_false]
      intro b hb
      have := List.all_eq_true.mp hzero b hb
      simp_all
    simp only [hnone, hal, hfree, Bool.not_true, Bool.or_self, Bool.false_eq_true, if_false, State.ok]
    rfl

theorem qcbSet_effect {p n r : Nat} {w : State} (h : Spec.commandEffect u c (.qcbSet p n) = some (w, r)) :
    State.actQcbSet u c = .done w 0 r := by
  simp only [Spec.commandEffect] at h
  simp only [State.actQcbSet]
  have hk : bitsAt (c.op 0) 0 2 = (c.op 0).toNat % 4 := bitsAt_low _ 2
  have hi : bitsAt (c.op 0) 4 4 = (c.op 0).toNat / 16 % 16 := rfl
  rw [hk, hi]
  split at h
  · cases h
  · next hal =>
    rw [if_neg hal]
    generalize (c.op 0).toNat % 4 = k at h
    match k, h with
    | 0, h => cases h; rfl
    | 1, h => cases h; rfl
    | 2, h => cases h; rfl
    | _ + 3, h => cases h

theorem restore_effect {p n m r : Nat} {w : State} (h : Spec.commandEffect u c (.restore p n m) = some (w, r)) :
    State.actRestore m u c = .done w 0 r := by
  simp only [Spec.commandEffect, Option.ite_none_right_eq_some, Option.some.injEq, Prod.mk.injEq] at h
  obtain ⟨⟨hcl, hst, hat, hm, hl⟩, rfl, rfl⟩ := h
  have hd : bitsAt (c.op 0) 0 2 = (c.op 0).toNat % 4 := bitsAt_low _ 2
  have hc : bitsAt (c.op 0) 2 5 = (c.op 0).toNat / 4 % 32 := rfl
  have ht : bitsAt (c.op 0) 7 4 = (c.op 0).toNat / 128 % 16 := rfl
  simp only [State.actRestore, hd, hc, ht]
  generalize 272 * ((c.op 0).toNat % 4) + 16 * ((c.op 0).toNat / 4 % 32) + (c.op 0).toNat / 128 % 16 = t at hst hat hl
  rw [if_neg (by simp only [Bool.or_eq_true, decide_eq_true_eq, hst]; simp; omega),
    if_pos (by simp only [Bool.and_eq_true, decide_eq_true_eq]; exact ⟨hm, hl⟩), State.ok]

theorem traceSet_effect {p n r : Nat} {w : State} (h : Spec.commandEffect u c (.traceSet p n) = some (w, r)) :
    State.actTraceSet u c = .done w 0 r := by
  simp only [Spec.commandEffect] at h
  simp only [State.actTraceSet, bitsAt_low]
  split at h
  · next hz =>
    cases h
    exact if_pos (congrArg BitVec.toNat hz)
  · next hz =>
    have hne : (c.op 1).toNat ≠ 0 := fun hn => hz (BitVec.eq_of_toNat_eq hn)
    split at h
    · next hr =>
      cases h
      rw [if_neg hne, if_pos hr]
      rfl
    · cases h

theorem tableRegion_effect {p n r : Nat} {w : State} (h : Spec.commandEffect u c (.tableRegion p n) = some (w, r)) :
    State.actTableRegion u c = .done w 0 r := by
  simp only [Spec.commandEffect] at h
  simp only [State.actTableRegion, bitsAt_low, bitsAt_high (c.op 1) 61 3 rfl]
  split at h
  · next hz =>
    cases h
    exact if_pos (congrArg BitVec.toNat hz)
  · next hz =>
    have hne : (c.op 2).toNat ≠ 0 := fun hn => hz (BitVec.eq_of_toNat_eq hn)
    split at h
    · next hr =>
      cases h
      rw [if_neg hne, if_pos hr]
      rfl
    · cases h

theorem counterRead_effect {p n r : Nat} {w : State} (h : Spec.commandEffect u c (.counterRead p n) = some (w, r)) :
    State.actCounterRead u c = .done w 0 r := by
  simp only [Spec.commandEffect, Option.ite_none_right_eq_some, Option.some.injEq, Prod.mk.injEq] at h
  obtain ⟨⟨hw, hn, hend⟩, rfl, rfl⟩ := h
  simp only [State.actCounterRead, bitsAt_low]
  refine if_neg ?_
  simp only [Bool.or_eq_true, decide_eq_true_eq]
  omega

theorem podAttach_effect {p n r : Nat} {w : State} (h : Spec.commandEffect u c (.podAttach p n) = some (w, r)) :
    State.actPodAttach p n u c = .done w 0 r := by
  simp only [Spec.commandEffect, Option.ite_none_right_eq_some, Option.some.injEq, Prod.mk.injEq] at h
  obtain ⟨⟨hlife, hucode, hn, hwell⟩, rfl, rfl⟩ := h
  have hid : BitVec.ofNat 10 (bitsAt (c.op 0) 0 10) = (c.op 0).setWidth 10 := by
    apply BitVec.eq_of_toNat_eq
    simp [bitsAt]
  have hencl : BitVec.ofNat 32 (bitsAt (c.op 0) 10 32) = ((c.op 0) >>> 10).setWidth 32 := by
    apply BitVec.eq_of_toNat_eq
    simp [bitsAt, Nat.shiftRight_eq_div_pow]
  simp only [State.actPodAttach, hid, hencl]
  rw [if_neg (by simp [hlife, hucode, hn]), hwell, if_neg Bool.false_ne_true]

theorem attest_effect {p n r : Nat} {w : State} (h : Spec.commandEffect u c (.attest p n) = some (w, r)) :
    State.actAttest p n u c = .done w 0 r := by
  simp only [Spec.commandEffect, Option.some.injEq, Prod.mk.injEq] at h
  obtain ⟨rfl, rfl⟩ := h
  rfl

/-- A command with an effect of the spec is done with it. -/
theorem act_effect {i : Instr} {w : State} {r : Nat} (h : Spec.commandEffect u c i = some (w, r)) : actOf i u c = .done w 0 r := by
  cases i with
  | ctxCreate => exact ctxCreate_effect u c h
  | ctxDestroy => exact ctxDestroy_effect u c h
  | ctxSet => exact ctxSet_effect u c h
  | sliceAssign => exact sliceAssign_effect u c h
  | qcbSet => exact qcbSet_effect u c h
  | restore => exact restore_effect u c h
  | traceSet => exact traceSet_effect u c h
  | tableRegion => exact tableRegion_effect u c h
  | counterRead => exact counterRead_effect u c h
  | podAttach => exact podAttach_effect u c h
  | attest => exact attest_effect u c h
  | _ => cases h

/-- One that is completed later waits. -/
theorem act_begins {i : Instr} {w : State} (h : Spec.commandBegins u c i = some w) : actOf i u c = .waits w := by
  cases i with
  | hostTlbinv p n =>
    simp only [Spec.commandBegins, Option.map_eq_some_iff] at h
    obtain ⟨v, hv, rfl⟩ := h
    simp only [actOf, State.actTlbinv, hv]
  | drainFor p n =>
    cases h
    rfl
  | _ => cases h

end Effects

/-! ## The end of a drain (14 R309) -/

/-- A drain that ends, its excluded tiles noted. -/
def endedDrain (s : State) (d : Drain) : Drain := { d with ended := true, excluded := (s.foreignTiles d).map fun x => x.1 }

/-- The state in which a drain has ended. -/
def drainedState (s : State) (k : Nat) (d : Drain) : State :=
  ({ s with pkg := { s.pkg with drains := s.pkg.drains.set k (endedDrain s d) } } : State).releaseDrains

theorem countDrain_dies (ts l : List Nat) : ∀ s : State, s.countDrain ts l = { s with dies := (s.countDrain ts l).dies } := by
  induction l with
  | nil => exact fun _ => rfl
  | cons d rest ih =>
    intro s
    rw [State.countDrain]
    split
    · exact ih _
    · exact ih s

/-- A tile that another context's stuck task holds is a stuck one. -/
theorem stuckTile_of_foreign {s : State} {d : Drain} {t : Nat} (hall : ∀ x ∈ s.foreignTiles d, x.2.stuck = true)
    (ht : t ∈ (s.foreignTiles d).map fun x => x.1) : s.stuckTile t = true := by
  obtain ⟨⟨t', r⟩, hx, rfl⟩ := List.mem_map.mp ht
  have hstuck := hall _ hx
  obtain ⟨t, _, hr⟩ := List.mem_filterMap.mp hx
  split at hr
  · next q hq =>
    split at hr
    · cases hr
    · cases hr
      rw [State.stuckTile, hq]
      exact hstuck
  · cases hr

/-- The ended drain keeps all it has excluded. -/
theorem endedDrain_kept {s : State} {d : Drain} (hall : ∀ x ∈ s.foreignTiles d, x.2.stuck = true) :
    (endedDrain s d).excluded.filter s.stuckTile = (endedDrain s d).excluded :=
  List.filter_eq_self.mpr fun _ ht => stuckTile_of_foreign hall ht

theorem drainedState_keeps {s : State} {k : Nat} {d : Drain} (hd : s.pkg.drains[k]? = some d)
    (hall : ∀ x ∈ s.foreignTiles d, x.2.stuck = true) {ctx : BitVec 32} {t : Nat} (hne : ctx ≠ d.ctx)
    (ht : t ∈ (s.foreignTiles d).map fun x => x.1) : (drainedState s k d).drained ctx t = true := by
  have hk : k < s.pkg.drains.length := (List.getElem?_eq_some_iff.mp hd).1
  have hset : endedDrain s d ∈ s.pkg.drains.set k (endedDrain s d) := List.mem_set hk _
  rw [State.drained, List.any_eq_true]
  refine ⟨endedDrain s d, List.mem_filter.mpr ⟨List.mem_map.mpr ⟨endedDrain s d, hset, ?_⟩, ?_⟩, ?_⟩
  · exact congrArg (fun l => { endedDrain s d with excluded := l }) (endedDrain_kept hall)
  · have hmem : (endedDrain s d).excluded ≠ [] := List.ne_nil_of_mem ht
    simp [hmem]
  · have hd' : (endedDrain s d).ctx = d.ctx := rfl
    have hended : (endedDrain s d).ended = true := rfl
    have hcontains : (endedDrain s d).excluded.contains t = true := List.contains_iff_mem.mpr ht
    rw [hd', hended, if_pos rfl, hcontains]
    simpa using fun h => hne h.symm

theorem drainedState_others {s : State} {k : Nat} {d : Drain} (hnone : s.foreignTiles d = []) :
    ∀ e ∈ (drainedState s k d).pkg.drains, ∃ y ∈ s.pkg.drains.eraseIdx k,
      e.ctx = y.ctx ∧ e.mask = y.mask ∧ e.port = y.port ∧ e.index = y.index := by
  intro e he
  obtain ⟨hmap, hkeep⟩ := List.mem_filter.mp he
  obtain ⟨y, hy, rfl⟩ := List.mem_map.mp hmap
  obtain ⟨j, hj, hjy⟩ := List.mem_iff_getElem.mp hy
  rw [List.getElem_set] at hjy
  split at hjy
  · rw [← hjy] at hkeep
    simp [endedDrain, hnone] at hkeep
  · next hne =>
    refine ⟨y, List.mem_eraseIdx_iff_getElem.mpr ⟨j, by simpa using hj, Ne.symm hne, hjy⟩, rfl, rfl, rfl, rfl⟩

theorem exec_drainComplete {s : State} {k : Nat} {d : Drain} (hd : s.pkg.drains[k]? = some d) : exec (.drainComplete k) s =
    if !d.ended && (s.foreignTiles d).all (fun x => x.2.stuck) && (s.completionRoom d.port).isSome then
      .next (((drainedState s k d).countDrain ((drainedState s k d).tilesIn d.mask) [0, 1, 2, 3]).complete d.port d.index 0
        ((drainedState s k d).clusterMask ((s.foreignTiles d).map fun x => x.1)))
    else .next s := by
  have hexec : exec (.drainComplete k) s = execDrainComplete k s := rfl
  rw [hexec, execDrainComplete]
  simp only [hd]
  rfl

theorem drainComplete_clauses (k : Nat) (s : State) (d : Drain) (hd : s.pkg.drains[k]? = some d) :
    (d.ended = true → exec (.drainComplete k) s = .next s) ∧
    ((∃ x ∈ s.foreignTiles d, x.2.stuck = false) → exec (.drainComplete k) s = .next s) ∧
    (∀ q, d.ended = false → (∀ x ∈ s.foreignTiles d, x.2.stuck = true) → s.completionRoom d.port = some q →
      ∃ u : State, exec (.drainComplete k) s =
          .next (u.complete d.port d.index 0 (s.clusterMask ((s.foreignTiles d).map fun x => x.1))) ∧
        u.mem = s.mem ∧ u.tiles = s.tiles ∧
        (∀ ctx t, ctx ≠ d.ctx → t ∈ (s.foreignTiles d).map (fun x => x.1) → u.drained ctx t = true) ∧
        (s.foreignTiles d = [] → ∀ e ∈ u.pkg.drains, ∃ y ∈ s.pkg.drains.eraseIdx k,
          e.ctx = y.ctx ∧ e.mask = y.mask ∧ e.port = y.port ∧ e.index = y.index)) := by
  rw [exec_drainComplete hd]
  refine ⟨fun hended => ?_, fun ⟨x, hx, hrun⟩ => ?_, fun q hended hall hroom => ?_⟩
  · rw [hended, if_neg (by simp)]
  · have hno : (s.foreignTiles d).all (fun x => x.2.stuck) = false := by
      rw [List.all_eq_false]
      exact ⟨x, hx, by simp [hrun]⟩
    rw [hno, if_neg (by simp)]
  · have hyes : (s.foreignTiles d).all (fun x => x.2.stuck) = true := List.all_eq_true.mpr hall
    have hdies := countDrain_dies ((drainedState s k d).tilesIn d.mask) [0, 1, 2, 3] (drainedState s k d)
    rw [hended, hyes, hroom, if_pos (show (!false && true && (some q).isSome) = true from rfl)]
    refine ⟨_, rfl, by rw [hdies]; rfl, by rw [hdies]; rfl, fun ctx t hne ht => ?_, fun hnone => ?_⟩
    · rw [hdies]
      exact drainedState_keeps hd hall hne ht
    · rw [hdies]
      exact drainedState_others hnone

/-! ## The statement -/

/-- Settles O54: a command in its turn is refused, malformed, or its action concluded, and each action answers what the spec says. -/
theorem hostCommands : Obligations.HostCommands := by
  unfold Obligations.HostCommands
  refine ⟨fun i p n h s hi hc => ?_, fun i p n h s c hi hp hc hhead hgood hcode => ?_,
    fun i p n h s c hi hp hc hhead hgood hlo hhi hne => ?_, drainComplete_clauses⟩
  · rw [(exec_command hi).1, command_unheard n h _ hc]
  · obtain ⟨hexec, hlo, hhi⟩ := exec_command hi
    rw [hexec, command_turn n h (actOf i) hp hc hhead hgood (hcode ▸ hlo) (hcode ▸ hhi), if_neg (not_not.mpr hcode)]
    refine ⟨fun hm => by rw [if_pos hm], fun hm hno => ?_, fun u r hm hyes heff => ?_, fun u hm hyes hbeg => ?_⟩
    · rw [hm, hno, if_neg Bool.false_ne_true, if_neg Bool.false_ne_true]
    · rw [hm, if_neg Bool.false_ne_true, if_pos hyes, act_effect _ c heff, State.concluded]
    · rw [hm, if_neg Bool.false_ne_true, if_pos hyes, act_begins _ c hbeg, State.concluded]
  · rw [(exec_command hi).1, command_turn n h (actOf i) hp hc hhead hgood hlo hhi, if_pos hne]

end Sys2Proof.Commanding
end
